-- ==== Sys2Proof/Word.lean ====
section
/-! DEFINITION. The words of the machine: the 32-bit register word (R4), the 64-bit and the 24-bit word.  Also the two dies (R2, R29) and the management-bus masters (Table 02-2). -/

namespace Sys2Proof

/-- A management register (R4). -/
abbrev Word := BitVec 32

/-- A 64-bit value: a queue word, a Match Time, a block memory word. -/
abbrev Word64 := BitVec 64

/-- A 24-bit word of a signal engine (R134). -/
abbrev Word24 := BitVec 24

/-- The dies of a package (R2). -/
inductive Die where
  | die0 | die1
deriving DecidableEq, Repr

/-- The masters of a die's management bus (Table 02-2).  The fabric has one bus port per enabled row. -/
inductive Master where
  | referee
  | team
  | fabric (row : Nat)
  | host
  | testPort
deriving DecidableEq, Repr

end Sys2Proof
end

