-- ==== Sys2Proof/Syntax.lean ====
section
/-! DEFINITION. The commands of the machine: one constructor for each row of spec/opcode_table.json, with the values a
command carries.  A command that reports an event of the environment carries what the environment decides (levels,
measurements, frames, the bits that flipped in a memory).  `x` is the die. -/

namespace Sys2Proof

/-- How a PMBus transaction ends (R130). -/
inductive PmbRes where
  | ok | nack | pec
deriving DecidableEq, Repr


/-- A request of a memory port as a command carries it: line, write, data, byte enables, tag (R253). -/
structure DramArg where
  line : Nat
  wr : Bool
  data : Nat
  be : Nat
  tag : Nat
deriving DecidableEq, Repr

/-- How training of a channel ends (R250, R268, R269): READY, with whether the devices report hPPR support (R267); failed; or
the devices' identification is not one that Tables 10-1 and 10-2 allow. -/
inductive TrainRes where
  | ok (hppr : Bool)
  | fail
  | config
deriving DecidableEq, Repr

/-- What a calibration slot does (R260).  A retraining that finds the rank's timing moved by more than half of the remaining eye
gives the new setting (R261). -/
inductive CalKind where
  | zq | oscillator
  | retrain (moved : Option Nat)
deriving DecidableEq, Repr

/-- An agent at an end of a hard queue (Table 08-2). -/
inductive QEnd where
  | fabric (row : Nat) (east : Bool)
  | roster
  | team
  | checkUnit (u : Nat)
  | ethernet (p : Nat)
  | subst
  | slkPort (p : Nat)
  | collector
deriving DecidableEq, Repr

/-- Where a queue command comes from: a write of Q_CMD, or a fabric end's command channel (R210). -/
inductive QSrc where
  | bus (m : Master)
  | writeEnd
  | readEnd
deriving DecidableEq, Repr

/-- A Sunislink message (Table 11-2).  `len` is the LEN field; `payload` its bytes. -/
structure SlkMsg where
  dest : Nat
  src : Nat
  kind : Nat
  cls : Nat
  hops : Nat
  len : Nat
  chan : Nat
  mt0 : Nat
  payload : List Nat
deriving DecidableEq, Repr

/-- What a port learns at the end of its training (R274, R279, R294): the failed lanes, the peer's ID if known, whether it
is before LINE-UP, whether it follows this device's Match Time, and the prefix it offers. -/
structure SlkPeer where
  ok : Bool
  failed : Nat
  id : Option Nat
  hold : Bool
  follows : Bool
  offer : Option Nat
  /-- The numbers, on the link, of the first message it holds for a replay and of the next one it sends (R277). -/
  first : Nat
  next : Nat
deriving DecidableEq, Repr

/-- What a timing exchange's link control says of the peer (R281, R285, R294, SLK_PORT_STAT): its ID if known, whether it is before
LINE-UP, and whether it follows this device's Match Time. -/
structure PeerNow where
  id : Option Nat
  hold : Bool
  follows : Bool
deriving DecidableEq, Repr

/-- A KICKOFF message (R285). -/
inductive KickMsg where
  | ready
  | play (instant : Nat)
deriving DecidableEq, Repr

/-- One crossing: its kind and instance of Table 09-3, and `sub` where one instance number covers several crossings (the
two flags or command channels of a queue, the ports of a DRAM port group, the lane's users). -/
structure XRef where
  kind : Nat
  inst : Nat
  sub : Nat
  /-- The source side is the fabric. -/
  srcFabric : Bool
deriving DecidableEq, Repr


/-- What the boot ROM reads of a Referee firmware package (R417): `root` is the ROM root key its signature verifies under;
`revoke` the ROM root keys, a bit each, whose revoke fuses it blows (Table 16-6). -/
structure FwPkg where
  version : Nat
  epoch : Nat
  length : Nat
  root : Option Nat
  revoke : Nat
deriving DecidableEq, Repr

/-- What the Referee reads of a Team image (R418): its bytes, load channel and address, the two masks, the remote group, the digest
of its public key and whether its signature verifies. -/
structure TeamImg where
  version : Nat
  bytes : List Nat
  chan : Nat
  addr : Nat
  policy : Nat
  remote : Nat
  group : Nat
  keyDigest : Nat
  sigOk : Bool
deriving DecidableEq, Repr

/-- The length of a Team image, header and body. -/
def TeamImg.length (t : TeamImg) : Nat := t.bytes.length

/-- One region table entry (Table 14-3). -/
structure RgnEntry where
  die : Nat
  region : Nat
  optional : Bool
  paired : Bool
  pid : Nat
  sig : Nat
deriving DecidableEq, Repr

/-- One bank table entry: die, bank, and the PIN_BANK_PLL word. -/
structure BankEntry where
  die : Nat
  bank : Nat
  pll : Word
deriving DecidableEq, Repr

/-- One pin plan entry. -/
structure PinEntry where
  die : Nat
  pin : Nat
  cfg : Word
  elec : Word
  fab : Word
deriving DecidableEq, Repr

/-- What a HEADER record brings (R357): the bytes of the header, the SHA-384 of the public key in it, and whether its signature
verifies over the bytes before it. -/
structure HdrRec where
  bytes : List Nat
  keyDigest : Nat
  sigOk : Bool
deriving DecidableEq, Repr

/-- An image header as the loader reads it (Table 14-2, Table 14-3).  `formOk`: MAGIC, FORMAT, KIND, PKG and the reserved bytes are
right and the length agrees with the counts. -/
structure ImgHdr where
  formOk : Bool
  kind : Nat
  pkg : Nat
  noReadback : Bool
  encrypted : Bool
  ksys : Bool
  kroot : Bool
  mtRoot : Bool
  upPort : Nat
  met : Bool
  teamFollows : Bool
  rows : Nat
  slkPrefix : Nat
  pmbAddr : Nat
  keySlot : Nat
  aesSlot : Nat
  vmin : Nat
  vmax : Nat
  bodyLen : Nat
  /-- DMC bytes: channels 0 to 3 of die 0, then of die 1. -/
  dmc : List Nat
  domains0 : Nat
  domains1 : Nat
  nonce : Nat
  imageId : Word
  store0 : Word
  store1 : Word
  groups : List Nat
  digest0 : Nat
  monitors : List Word
  regions : List RgnEntry
  bankTable : List BankEntry
  pinPlan : List PinEntry
  keyDigest : Nat
  sigOk : Bool
deriving DecidableEq, Repr

/-- A body record (Table 14-4): the first frame address, and the frames. -/
inductive BodyRec where
  | frames (addr : Nat) (data : List Nat)
  | zero (addr n : Nat)
  | fill (addr n data : Nat)
deriving DecidableEq, Repr

/-- What the loader finds in a partial personality that it reads from DRAM (R375), after its header: whether DRAM
answered a read with ERR, whether each block's digest agrees, the AES key and IV under which each block's tag verifies, and the body
records. -/
structure PartImg where
  hdr : HdrRec
  dramErr : Bool
  digestOk : Bool
  tags : List (Option (Nat × Nat))
  body : List BodyRec
deriving DecidableEq, Repr

/-- A supply of Table 13-1: a bit of PWR_SUP_STAT, or VCCIO of a bank. -/
inductive Supply where
  | rail (k : Nat)
  | vccio (b : Nat)
deriving DecidableEq, Repr

/-- A region or another resource that a test found bad (Table 15-9): KIND, INDEX (with the die bit where the reduced test takes a record of the other die up) and DETAIL. -/
structure TestFail where
  kind : Nat
  index : Nat
  detail : Nat
deriving DecidableEq, Repr


/-- Who made a Referee call: a mailbox slot, or the remote call of that number (R422, R425). -/
inductive Caller where
  | slot (s : Nat)
  | remote (k : Nat)
deriving DecidableEq, Repr

/-- An authorisation record for keys (R427): the digest or key it carries, and the programmed slot under whose key its
signature verifies. -/
structure KeyRec where
  payload : Nat
  signer : Option Nat
deriving DecidableEq, Repr

/-- What the island measured of one phase over a window (R439): RMS voltage and current in mV and mA, active and reactive power
in mW and mvar. -/
structure MetPhase where
  v : Nat
  i : Nat
  p : Int
  q : Int
deriving DecidableEq, Repr

/-- What the island measured over one window of a point (R438, R439): the samples in it, its phases in their order, the neutral
current in mA, the frequency as binary32 and whether the reference reaches 10 % of its full scale, the channels that overloaded,
and the harmonics by 64 × channel + harmonic, as binary32. -/
structure MetWin where
  point : Nat
  samples : Nat
  ph : List MetPhase
  neutral : Nat
  freq : Nat
  refOk : Bool
  ovr : List Nat
  harm : List (Nat × Nat)
deriving DecidableEq, Repr

/-- What the island makes of a seal record beyond its header: the payload's values, whether the record's signature and an
image's own signature verify, whether the content lies within its limits, whether the sealed store takes it, and the
first 64 bits of the digests of the old and the new parameter. -/
structure SealIn where
  vals : List Nat
  sigOk : Bool
  imgOk : Bool
  fits : Bool
  storeOk : Bool
  oldH : Nat
  newH : Nat
deriving DecidableEq, Repr

/-- What the environment decides about an access: the bits that flipped in a queue word it pops, and whether a Career record it asks for is written. -/
structure BusEnv where
  upset : Nat
  ok : Bool
deriving DecidableEq, Repr

/-- One command or event of the table. -/
inductive Instr where
  /-- REGISTER_WRITE (R7). Master `m` of die `x` writes `size` bytes at die-relative address `a` of its own die. -/
  | registerWrite (x : Die) (m : Master) (a size : Nat) (v : Word) (e : BusEnv)
  /-- WORD64_LOW_READ (R8). Master `m` reads `size` bytes at die-relative address `a`. -/
  | word64LowRead (x : Die) (m : Master) (a size : Nat)
  /-- WORD64_LOW_WRITE (R8). `a`: address of the low word. -/
  | word64LowWrite (x : Die) (m : Master) (a : Nat) (v : Word)
  /-- WORD64_HIGH_WRITE (R8). `a`: address of the high word. -/
  | word64HighWrite (x : Die) (m : Master) (a : Nat) (v : Word)
  /-- CROSS_DIE_ACCESS (R29). Master `m` of die `x` writes or reads the register at die-relative address `a` of the other die. -/
  | crossDieAccess (x : Die) (m : Master) (a size : Nat) (wr : Bool) (v : Word) (e : BusEnv)
  /-- CROSS_DIE_TIMEOUT (R29). The other die has not answered master `m` of die `x` within 10 µs. -/
  | crossDieTimeout (x : Die) (m : Master)
  /-- STAGE_CAPTURE (R60). Leader unit `u` (0 to 1023) of region `rg`; `env` the levels of the wires the islands drive into the fabric (of the other die's fabric from bit 131072 up). -/
  | stageCapture (x : Die) (rg u env : Nat)
  /-- MATCHED_DELAY_END (R60). The matched delay of leader `u` runs out. -/
  | matchedDelayEnd (x : Die) (rg u env : Nat)
  /-- STAGE_HANDOVER (R60). Output acknowledge reaches leader `u`. -/
  | stageHandover (x : Die) (rg u env : Nat)
  /-- INPUT_WITHDRAW (R60). The input request of leader `u` falls. -/
  | inputWithdraw (x : Die) (rg u env : Nat)
  /-- DUAL_RAIL_CAPTURE (R55). The dual-rail stage of key `k` looks at its channels. -/
  | dualRailCapture (x : Die) (rg k env : Nat)
  /-- DUAL_RAIL_NULL (R55). As DUAL_RAIL_CAPTURE. -/
  | dualRailNull (x : Die) (rg k env : Nat)
  /-- DR_ILLEGAL (R56). As DUAL_RAIL_CAPTURE; `ut` and `uf` the T and F rails of its input word that a disturbance inverts, bit 0 first. -/
  | drIllegal (x : Die) (rg k ut uf env : Nat)
  /-- MERGE_ELEMENT_CHANGE (R67). Merge element `k` of region `rg`. -/
  | mergeElementChange (x : Die) (rg k env : Nat)
  /-- ARBITER_GRANT (R69). Arbiter `k` of region `rg`. -/
  | arbiterGrant (x : Die) (rg k env : Nat)
  /-- DELAY_CHANGE_APPLY (R62). Leader `u`; `meets`: a rise of request arrives together with the change. -/
  | delayChangeApply (x : Die) (rg u env : Nat) (meets : Bool)
  /-- BM_READ (R85). Memory `m`, port `p` (0 A, 1 B), address `a` in the port's width mode; `upset` the stored code bits that flipped since the last access. -/
  | bmRead (x : Die) (rg m p a upset : Nat)
  /-- BM_W64_WRITE (R86). A full-width write. -/
  | bmW64Write (x : Die) (rg m p a : Nat) (v : Word64)
  /-- BM_NARROW_WRITE (R84). A W32, W16 or W8 write. -/
  | bmNarrowWrite (x : Die) (rg m p a : Nat) (v : Word64) (upset : Nat)
  /-- BM_SCRUB_STEP (R88). The scrubber's next word of memory `m`. -/
  | bmScrubStep (x : Die) (rg m upset : Nat)
  /-- ROW_FRAME_VOTE (R82). Frame index, copy (0 to 2) and flipped bits, since the last vote; from index 1,024 up, 1,024 + 1,536 × position + cell names an isolation cell of the row. -/
  | rowFrameVote (x : Die) (row : Nat) (upset : List (Nat × Nat × Nat))
  /-- CHANNEL_FREEZE (R93). Ring channel `ch` is settled; `meets`: a transition arrives in the same instant. -/
  | channelFreeze (x : Die) (rg ch env : Nat) (meets : Bool)
  /-- FORCE_FREEZE (R96). Channel `ch` is unsettled 20 us after FREEZING began; `inFlight`: a token or partial word was on it. -/
  | forceFreeze (x : Die) (rg ch : Nat) (inFlight : Bool)
  /-- FROZEN_TRANSITION_HELD (R94). A transition to `level` reaches cell `cell` of frozen channel `ch`. -/
  | frozenTransitionHeld (x : Die) (rg ch cell : Nat) (level : Bool)
  /-- RGN_CNT_CLR_RING (R114). Master `m` writes RGN_CNT_CLR of region `rg` with RING alone. -/
  | rgnCntClrRing (x : Die) (m : Master) (rg : Nat)
  /-- RGN_CNT_CLR_BM (R114). As RGN_CNT_CLR_RING, with BM alone. -/
  | rgnCntClrBm (x : Die) (m : Master) (rg : Nat)
  /-- RGN_CNT_CLR_FRAME (R114). As RGN_CNT_CLR_RING, with FRAME alone. -/
  | rgnCntClrFrame (x : Die) (m : Master) (rg : Nat)
  /-- CANARY_MEASURE (R117). Cluster `cl` of region `rg`: the four canaries in quarter taps. -/
  | canaryMeasure (x : Die) (rg cl : Nat) (q : List Nat)
  /-- CALIBRATOR_STEP (R118). Leader `u` of region `rg`. -/
  | calibratorStep (x : Die) (rg u : Nat)
  /-- MONITOR_WINDOW_END (R123). Monitor `i`: its window of 10 us ends. -/
  | monitorWindowEnd (x : Die) (i : Nat)
  /-- GOVERNOR_DECISION (R125). A decision of the governor. -/
  | governorDecision (x : Die)
  /-- SETTLE_END (R126). The SETTLE time runs out. -/
  | settleEnd (x : Die)
  /-- CONV_TIMEOUT (R126). 20 us have passed since SETTLE ended. -/
  | convTimeout (x : Die)
  /-- PMBUS_TRANSACTION_END (R130). How the transaction on the bus ended and the word it returned. -/
  | pmbusTransactionEnd (x : Die) (res : PmbRes) (data : Nat)
  /-- PMB_ALERT (R130). PMB_ALERT_N asserts. -/
  | pmbAlert (x : Die)
  /-- FAULT_STATUS_POLL (R128). 10 ms have passed in FAULT. -/
  | faultStatusPoll (x : Die)
  /-- PACE_CNT_CLR (R133). Master `m` writes PACE_CTL.CNT_CLR. -/
  | paceCntClr (x : Die) (m : Master)
  /-- PACE_RESUME (R128). Master `m` writes PACE_CTL.RESUME. -/
  | paceResume (x : Die) (m : Master)
  /-- PACE_HOLD (R128). Master `m` writes PACE_CTL.HOLD. -/
  | paceHold (x : Die) (m : Master) (v : Bool)
  /-- PACE_HR_WRITE (R124). Master `m` writes PACE_HR. -/
  | paceHrWrite (x : Die) (m : Master) (up dn : Nat)
  /-- PMB_TELEMETRY_READ (R131). Master `m` writes PACE_PMB_CMD with GO and CMD `code`. -/
  | pmbTelemetryRead (x : Die) (m : Master) (code : Nat)
  /-- SE_NOP (R163). Engine of region `rg`; `u` the code bits of P, X and Y that flipped since the last access (memory, address, mask). -/
  | seNop (x : Die) (rg : Nat) (u : List (Nat × Nat × Nat))
  /-- HALT (R174). Engine of region `rg`; `u` the code bits of P, X and Y that flipped since the last access (memory, address, mask). -/
  | halt (x : Die) (rg : Nat) (u : List (Nat × Nat × Nat))
  /-- YIELD_DONE (R194). Engine of region `rg`; `u` the code bits of P, X and Y that flipped since the last access (memory, address, mask). -/
  | yieldDone (x : Die) (rg : Nat) (u : List (Nat × Nat × Nat))
  /-- YIELD_AGAIN (R194). Engine of region `rg`; `u` the code bits of P, X and Y that flipped since the last access (memory, address, mask). -/
  | yieldAgain (x : Die) (rg : Nat) (u : List (Nat × Nat × Nat))
  /-- YIELD_ERROR (R194). Engine of region `rg`; `u` the code bits of P, X and Y that flipped since the last access (memory, address, mask). -/
  | yieldError (x : Die) (rg : Nat) (u : List (Nat × Nat × Nat))
  /-- SWAP (R169). Engine of region `rg`; `u` the code bits of P, X and Y that flipped since the last access (memory, address, mask). -/
  | swap (x : Die) (rg : Nat) (u : List (Nat × Nat × Nat))
  /-- RET (R163). Engine of region `rg`; `u` the code bits of P, X and Y that flipped since the last access (memory, address, mask). -/
  | ret (x : Die) (rg : Nat) (u : List (Nat × Nat × Nat))
  /-- JMPD (R163). Engine of region `rg`; `u` the code bits of P, X and Y that flipped since the last access (memory, address, mask). -/
  | jmpd (x : Die) (rg : Nat) (u : List (Nat × Nat × Nat))
  /-- ENDL (R163). Engine of region `rg`; `u` the code bits of P, X and Y that flipped since the last access (memory, address, mask). -/
  | endl (x : Die) (rg : Nat) (u : List (Nat × Nat × Nat))
  /-- LD (R162). Engine of region `rg`; `u` the code bits of P, X and Y that flipped since the last access (memory, address, mask). -/
  | ld (x : Die) (rg : Nat) (u : List (Nat × Nat × Nat))
  /-- ST (R162). Engine of region `rg`; `u` the code bits of P, X and Y that flipped since the last access (memory, address, mask). -/
  | st (x : Die) (rg : Nat) (u : List (Nat × Nat × Nat))
  /-- LDA (R162). Engine of region `rg`; `u` the code bits of P, X and Y that flipped since the last access (memory, address, mask). -/
  | lda (x : Die) (rg : Nat) (u : List (Nat × Nat × Nat))
  /-- STA (R162). Engine of region `rg`; `u` the code bits of P, X and Y that flipped since the last access (memory, address, mask). -/
  | sta (x : Die) (rg : Nat) (u : List (Nat × Nat × Nat))
  /-- MOVE (R158). Engine of region `rg`; `u` the code bits of P, X and Y that flipped since the last access (memory, address, mask). -/
  | moveReg (x : Die) (rg : Nat) (u : List (Nat × Nat × Nat))
  /-- LDI (R162). Engine of region `rg`; `u` the code bits of P, X and Y that flipped since the last access (memory, address, mask). -/
  | ldi (x : Die) (rg : Nat) (u : List (Nat × Nat × Nat))
  /-- LDIH (R162). Engine of region `rg`; `u` the code bits of P, X and Y that flipped since the last access (memory, address, mask). -/
  | ldih (x : Die) (rg : Nat) (u : List (Nat × Nat × Nat))
  /-- BR (R152). Engine of region `rg`; `u` the code bits of P, X and Y that flipped since the last access (memory, address, mask). -/
  | br (x : Die) (rg : Nat) (u : List (Nat × Nat × Nat))
  /-- CALL (R152). Engine of region `rg`; `u` the code bits of P, X and Y that flipped since the last access (memory, address, mask). -/
  | call (x : Die) (rg : Nat) (u : List (Nat × Nat × Nat))
  /-- LOOP (R153). Engine of region `rg`; `u` the code bits of P, X and Y that flipped since the last access (memory, address, mask). -/
  | loop (x : Die) (rg : Nat) (u : List (Nat × Nat × Nat))
  /-- LOOP_WRAP (R154). The next fetch address at a loop end of engine `rg` is chosen. -/
  | loopWrap (x : Die) (rg : Nat)
  /-- IN (R164). Engine of region `rg`; `u` the code bits of P, X and Y that flipped since the last access (memory, address, mask); `cyc` cycles of stall. -/
  | tokIn (x : Die) (rg : Nat) (u : List (Nat × Nat × Nat)) (cyc : Nat)
  /-- OUT (R164). Engine of region `rg`; `u` the code bits of P, X and Y that flipped since the last access (memory, address, mask); `cyc` cycles of stall. -/
  | tokOut (x : Die) (rg : Nat) (u : List (Nat × Nat × Nat)) (cyc : Nat)
  /-- ADDP (R147). Engine of region `rg`; `u` the code bits of P, X and Y that flipped since the last access (memory, address, mask). -/
  | addp (x : Die) (rg : Nat) (u : List (Nat × Nat × Nat))
  /-- ALU_ADD (R160). Engine of region `rg`; `u` the code bits of P, X and Y that flipped since the last access (memory, address, mask). -/
  | aluAdd (x : Die) (rg : Nat) (u : List (Nat × Nat × Nat))
  /-- ALU_SUB (R160). Engine of region `rg`; `u` the code bits of P, X and Y that flipped since the last access (memory, address, mask). -/
  | aluSub (x : Die) (rg : Nat) (u : List (Nat × Nat × Nat))
  /-- ALU_AND (R160). Engine of region `rg`; `u` the code bits of P, X and Y that flipped since the last access (memory, address, mask). -/
  | aluAnd (x : Die) (rg : Nat) (u : List (Nat × Nat × Nat))
  /-- ALU_OR (R160). Engine of region `rg`; `u` the code bits of P, X and Y that flipped since the last access (memory, address, mask). -/
  | aluOr (x : Die) (rg : Nat) (u : List (Nat × Nat × Nat))
  /-- ALU_XOR (R160). Engine of region `rg`; `u` the code bits of P, X and Y that flipped since the last access (memory, address, mask). -/
  | aluXor (x : Die) (rg : Nat) (u : List (Nat × Nat × Nat))
  /-- ALU_ASL (R160). Engine of region `rg`; `u` the code bits of P, X and Y that flipped since the last access (memory, address, mask). -/
  | aluAsl (x : Die) (rg : Nat) (u : List (Nat × Nat × Nat))
  /-- ALU_ASR (R160). Engine of region `rg`; `u` the code bits of P, X and Y that flipped since the last access (memory, address, mask). -/
  | aluAsr (x : Die) (rg : Nat) (u : List (Nat × Nat × Nat))
  /-- ALU_LSR (R160). Engine of region `rg`; `u` the code bits of P, X and Y that flipped since the last access (memory, address, mask). -/
  | aluLsr (x : Die) (rg : Nat) (u : List (Nat × Nat × Nat))
  /-- ALU_CMP (R160). Engine of region `rg`; `u` the code bits of P, X and Y that flipped since the last access (memory, address, mask). -/
  | aluCmp (x : Die) (rg : Nat) (u : List (Nat × Nat × Nat))
  /-- ALU_MIN (R160). Engine of region `rg`; `u` the code bits of P, X and Y that flipped since the last access (memory, address, mask). -/
  | aluMin (x : Die) (rg : Nat) (u : List (Nat × Nat × Nat))
  /-- ALU_MAX (R160). Engine of region `rg`; `u` the code bits of P, X and Y that flipped since the last access (memory, address, mask). -/
  | aluMax (x : Die) (rg : Nat) (u : List (Nat × Nat × Nat))
  /-- ALU_ADDS (R160). Engine of region `rg`; `u` the code bits of P, X and Y that flipped since the last access (memory, address, mask). -/
  | aluAdds (x : Die) (rg : Nat) (u : List (Nat × Nat × Nat))
  /-- ALU_SUBS (R160). Engine of region `rg`; `u` the code bits of P, X and Y that flipped since the last access (memory, address, mask). -/
  | aluSubs (x : Die) (rg : Nat) (u : List (Nat × Nat × Nat))
  /-- SHA (R161). Engine of region `rg`; `u` the code bits of P, X and Y that flipped since the last access (memory, address, mask). -/
  | sha (x : Die) (rg : Nat) (u : List (Nat × Nat × Nat))
  /-- SHAR (R161). Engine of region `rg`; `u` the code bits of P, X and Y that flipped since the last access (memory, address, mask). -/
  | shar (x : Die) (rg : Nat) (u : List (Nat × Nat × Nat))
  /-- EXP (R146). Engine of region `rg`; `u` the code bits of P, X and Y that flipped since the last access (memory, address, mask). -/
  | expo (x : Die) (rg : Nat) (u : List (Nat × Nat × Nat))
  /-- SAT (R161). Engine of region `rg`; `u` the code bits of P, X and Y that flipped since the last access (memory, address, mask). -/
  | sat (x : Die) (rg : Nat) (u : List (Nat × Nat × Nat))
  /-- EXTL (R161). Engine of region `rg`; `u` the code bits of P, X and Y that flipped since the last access (memory, address, mask). -/
  | extl (x : Die) (rg : Nat) (u : List (Nat × Nat × Nat))
  /-- EXTH (R161). Engine of region `rg`; `u` the code bits of P, X and Y that flipped since the last access (memory, address, mask). -/
  | exth (x : Die) (rg : Nat) (u : List (Nat × Nat × Nat))
  /-- EXTG (R161). Engine of region `rg`; `u` the code bits of P, X and Y that flipped since the last access (memory, address, mask). -/
  | extg (x : Die) (rg : Nat) (u : List (Nat × Nat × Nat))
  /-- INSL (R161). Engine of region `rg`; `u` the code bits of P, X and Y that flipped since the last access (memory, address, mask). -/
  | insl (x : Die) (rg : Nat) (u : List (Nat × Nat × Nat))
  /-- INSH (R161). Engine of region `rg`; `u` the code bits of P, X and Y that flipped since the last access (memory, address, mask). -/
  | insh (x : Die) (rg : Nat) (u : List (Nat × Nat × Nat))
  /-- INSG (R161). Engine of region `rg`; `u` the code bits of P, X and Y that flipped since the last access (memory, address, mask). -/
  | insg (x : Die) (rg : Nat) (u : List (Nat × Nat × Nat))
  /-- PAR_NOP (R159). Engine of region `rg`; `u` the code bits of P, X and Y that flipped since the last access (memory, address, mask). -/
  | parNop (x : Die) (rg : Nat) (u : List (Nat × Nat × Nat))
  /-- MPY (R143). Engine of region `rg`; `u` the code bits of P, X and Y that flipped since the last access (memory, address, mask). -/
  | mpy (x : Die) (rg : Nat) (u : List (Nat × Nat × Nat))
  /-- MAC (R143). Engine of region `rg`; `u` the code bits of P, X and Y that flipped since the last access (memory, address, mask). -/
  | mac (x : Die) (rg : Nat) (u : List (Nat × Nat × Nat))
  /-- MSU (R143). Engine of region `rg`; `u` the code bits of P, X and Y that flipped since the last access (memory, address, mask). -/
  | msu (x : Die) (rg : Nat) (u : List (Nat × Nat × Nat))
  /-- MPYN (R143). Engine of region `rg`; `u` the code bits of P, X and Y that flipped since the last access (memory, address, mask). -/
  | mpyn (x : Die) (rg : Nat) (u : List (Nat × Nat × Nat))
  /-- CLR (R159). Engine of region `rg`; `u` the code bits of P, X and Y that flipped since the last access (memory, address, mask). -/
  | clr (x : Die) (rg : Nat) (u : List (Nat × Nat × Nat))
  /-- PAR_ADD (R142). Engine of region `rg`; `u` the code bits of P, X and Y that flipped since the last access (memory, address, mask). -/
  | parAdd (x : Die) (rg : Nat) (u : List (Nat × Nat × Nat))
  /-- PAR_SUB (R142). Engine of region `rg`; `u` the code bits of P, X and Y that flipped since the last access (memory, address, mask). -/
  | parSub (x : Die) (rg : Nat) (u : List (Nat × Nat × Nat))
  /-- PAR_LDA (R142). Engine of region `rg`; `u` the code bits of P, X and Y that flipped since the last access (memory, address, mask). -/
  | parLda (x : Die) (rg : Nat) (u : List (Nat × Nat × Nat))
  /-- TFR (R159). Engine of region `rg`; `u` the code bits of P, X and Y that flipped since the last access (memory, address, mask). -/
  | tfr (x : Die) (rg : Nat) (u : List (Nat × Nat × Nat))
  /-- ADDA (R144). Engine of region `rg`; `u` the code bits of P, X and Y that flipped since the last access (memory, address, mask). -/
  | adda (x : Die) (rg : Nat) (u : List (Nat × Nat × Nat))
  /-- SUBA (R144). Engine of region `rg`; `u` the code bits of P, X and Y that flipped since the last access (memory, address, mask). -/
  | suba (x : Die) (rg : Nat) (u : List (Nat × Nat × Nat))
  /-- ABS (R144). Engine of region `rg`; `u` the code bits of P, X and Y that flipped since the last access (memory, address, mask). -/
  | abs (x : Die) (rg : Nat) (u : List (Nat × Nat × Nat))
  /-- NEG (R144). Engine of region `rg`; `u` the code bits of P, X and Y that flipped since the last access (memory, address, mask). -/
  | neg (x : Die) (rg : Nat) (u : List (Nat × Nat × Nat))
  /-- MACSU (R143). Engine of region `rg`; `u` the code bits of P, X and Y that flipped since the last access (memory, address, mask). -/
  | macsu (x : Die) (rg : Nat) (u : List (Nat × Nat × Nat))
  /-- SE_INPUT_TOKEN (R165). The input crossing of port `p` delivers `v`. -/
  | seInputToken (x : Die) (rg p : Nat) (v : Word24)
  /-- SE_OUTPUT_TAKEN (R165). The fabric takes the token of port `p`. -/
  | seOutputTaken (x : Die) (rg p : Nat)
  /-- PORT_EVENT (R168). A port event of engine `rg` is due. -/
  | portEvent (x : Die) (rg : Nat)
  /-- SE_BREAKPOINT (R174). The instruction at SE_BRK.ADDR would complete Execute next. -/
  | seBreakpoint (x : Die) (rg : Nat)
  /-- SE_SCRUB_STEP (R136). The scrubber's next word of memory `mem` (0 P, 1 X, 2 Y). -/
  | seScrubStep (x : Die) (rg mem upset : Nat)
  /-- SE_WINDOW_ACCESS (R138). A read, or a write of `v`, at offset `off` of the engine's block: P, X, Y, a register bank, AB or AL. -/
  | seWindowAccess (x : Die) (m : Master) (rg off : Nat) (wr : Bool) (v : Word)
  /-- SE_RESTART (R174). Master `m` writes SE_CTL.RESTART alone. -/
  | seRestart (x : Die) (m : Master) (rg : Nat)
  /-- SE_STEP (R174). Master `m` writes SE_CTL.STEP alone. -/
  | seStep (x : Die) (m : Master) (rg : Nat)
  /-- SE_RUN (R174). Master `m` writes SE_CTL.RUN alone. -/
  | seRun (x : Die) (m : Master) (rg : Nat)
  /-- SE_HALT_REQ (R174). Master `m` writes SE_CTL.HALT_REQ alone. -/
  | seHaltReq (x : Die) (m : Master) (rg : Nat)
  /-- SE_CNT_CLR_STALL (R177). Master `m` writes SE_CNT_CLR.STALL. -/
  | seCntClrStall (x : Die) (m : Master) (rg : Nat)
  /-- SE_CNT_CLR_INSN (R177). Master `m` writes SE_CNT_CLR.INSN. -/
  | seCntClrInsn (x : Die) (m : Master) (rg : Nat)
  /-- SE_CNT_CLR_MEM (R177). Master `m` writes SE_CNT_CLR.MEM. -/
  | seCntClrMem (x : Die) (m : Master) (rg : Nat)
  /-- ROS_DESCRIPTOR_WRITE (R179). Master `m` writes word `w` of the descriptor of context `n`. -/
  | rosDescriptorWrite (x : Die) (m : Master) (n w : Nat) (v : Word)
  /-- ROS_ARM (R183). ROS_CMD, OP 1. -/
  | rosArm (x : Die) (m : Master) (n : Nat)
  /-- ROS_STOP (R186). ROS_CMD, OP 2. -/
  | rosStop (x : Die) (m : Master) (n : Nat)
  /-- ROS_FREE (R205). ROS_CMD, OP 3. -/
  | rosFree (x : Die) (m : Master) (n : Nat)
  /-- ROS_TRIGGER (R205). ROS_CMD, OP 4. -/
  | rosTrigger (x : Die) (m : Master) (n : Nat)
  /-- ROS_RESUME (R185). ROS_CMD, OP 5. -/
  | rosResume (x : Die) (m : Master) (n : Nat)
  /-- ROS_INSTALL (R202). ROS_CMD, OP 6. -/
  | rosInstall (x : Die) (m : Master) (n : Nat)
  /-- ROS_REMOVE (R205). ROS_CMD, OP 7. -/
  | rosRemove (x : Die) (m : Master) (n : Nat)
  /-- ROS_SELECT (R205). ROS_CMD, OP 8. -/
  | rosSelect (x : Die) (m : Master) (n : Nat)
  /-- ROS_CNT_CLR (R205). Master `m` writes ROS_CTL.CNT_CLR. -/
  | rosCntClr (x : Die) (m : Master)
  /-- ROS_STATE_WINDOW_ACCESS (R205). A read, or a write of `v`, at byte `off` of the state window. -/
  | rosStateWindowAccess (x : Die) (m : Master) (off : Nat) (wr : Bool) (v : Word)
  /-- QUEUE_TRIGGER (R187). The queue condition of context `n` is tested. -/
  | queueTrigger (x : Die) (n : Nat)
  /-- PERIOD_TRIGGER (R187). The period condition of context `n` is tested. -/
  | periodTrigger (x : Die) (n : Nat)
  /-- WATCH_TRIGGER (R187). The watch condition of context `n` is tested. -/
  | watchTrigger (x : Die) (n : Nat)
  /-- EVENT_TRIGGER (R187). A fabric event is accepted at event port `p`. -/
  | eventTrigger (x : Die) (p : Nat)
  /-- ROSTER_DISPATCH (R191). The Roster places the first ready context of group `g`. -/
  | rosterDispatch (x : Die) (g : Nat)
  /-- CONTEXT_MOVE_END (R192). The move of context `n` ends; `upset` flipped bits of 64-bit words of its resident state (word, mask) since the last access. -/
  | contextMoveEnd (x : Die) (n : Nat) (upset : List (Nat × Nat))
  /-- QUANTUM_PREEMPT (R193). The quantum of engine `rg`'s group is tested. -/
  | quantumPreempt (x : Die) (rg : Nat)
  /-- EXPRESS_PREEMPT (R198). READY class-0 context `n` preempts. -/
  | expressPreempt (x : Die) (n : Nat)
  /-- RUN_OVERRUN (R200). The run of context `n` is tested against RUN_MAX. -/
  | runOverrun (x : Die) (n : Nat)
  /-- PORT3_WAIT_END (R194). The awaited word or room of context `n` is tested. -/
  | port3WaitEnd (x : Die) (n : Nat)
  /-- DUE_MISSED (R204). The dispatch deadline of context `n` is tested. -/
  | dueMissed (x : Die) (n : Nat)
  /-- DESCRIPTOR_SCAN (R179). The background pass reads descriptor `n`; `upset` flipped bits (word, mask) since the last access. -/
  | descriptorScan (x : Die) (n : Nat) (upset : List (Nat × Nat))
  /-- INTAKE_FRAME (R203). A frame or message payload arrives at port `p` (0 to 3 Ethernet, 4 to 7 Sunislink) at MT `ts`. -/
  | intakeFrame (x : Die) (p : Nat) (ts : Word64) (bytes : List Nat)
  /-- QUEUE_WORD_WRITE (R217). Agent `who` offers a word to queue `q` (a check-value unit offers the oldest result it holds). -/
  | queueWordWrite (x : Die) (q : Nat) (who : QEnd) (data : Word64) (tag : Nat)
  /-- QUEUE_WORD_READ (R215). Agent `who` takes the next readable word; `upset` the stored bits that flipped (data 0 to 63, tag 64 to 69, parity 70 and 71). -/
  | queueWordRead (x : Die) (q : Nat) (who : QEnd) (upset : Nat)
  /-- Q_FLUSH (R219). A FLUSH from `src`. -/
  | qFlush (x : Die) (q : Nat) (src : QSrc)
  /-- Q_MARK (R220). A MARK from `src`. -/
  | qMark (x : Die) (q : Nat) (src : QSrc)
  /-- Q_REWIND (R220). A REWIND from `src`. -/
  | qRewind (x : Die) (q : Nat) (src : QSrc)
  /-- Q_CLEAR_MARK (R220). A CLEAR_MARK from `src`. -/
  | qClearMark (x : Die) (q : Nat) (src : QSrc)
  /-- Q_CNT_CLEAR (R223). Master `m` writes Q_CMD with OP 5. -/
  | qCntClear (x : Die) (m : Master) (q : Nat)
  /-- Q_WR_TAG (R223). Master `m` writes Q_WR_TAG. -/
  | qWrTag (x : Die) (m : Master) (q tag : Nat)
  /-- Q_POP (R223). Master `m` writes Q_POP.POP; `upset` as in QUEUE_WORD_READ. -/
  | qPop (x : Die) (m : Master) (q upset : Nat)
  /-- Q_CFG_WRITE (R208). Master `m` writes Q_CFG (`k` 0), Q_SPILL_BASE (1) or Q_SPILL_SIZE (2). -/
  | qCfgWrite (x : Die) (m : Master) (q k : Nat) (v : Word)
  /-- SPILL_WRITE_END (R212). `n` words of the tail store have reached the window. -/
  | spillWriteEnd (x : Die) (q n : Nat)
  /-- SPILL_FETCH_END (R212). `n` words of the window have arrived in the head store; `us` are the bits that have flipped in each line read for them, in order. -/
  | spillFetchEnd (x : Die) (q n : Nat) (us : List Nat)
  /-- Q_UNBIND_DRAIN_END (R209). The queue is empty, or the 10 ms wait has run out. -/
  | qUnbindDrainEnd (x : Die) (q : Nat) (timeout : Bool)
  /-- CRC_RESTART (R227). Master `m` writes CRC_CMD.RESTART of unit `u`. -/
  | crcRestart (x : Die) (m : Master) (u : Nat)
  /-- CRC_CNT_CLR (R230). Master `m` writes CRC_CMD.CNT_CLR. -/
  | crcCntClr (x : Die) (m : Master) (u : Nat)
  /-- CRC_SCAN_GO (R228). Master `m` writes CRC_SCAN_CTL.GO. -/
  | crcScanGo (x : Die) (m : Master) (u : Nat)
  /-- CRC_SCAN_ABORT (R228). Master `m` writes CRC_SCAN_CTL.ABORT. -/
  | crcScanAbort (x : Die) (m : Master) (u : Nat)
  /-- CRC_SCAN_END (R228). The scan of unit `u` has read its range, or met an uncorrectable line at that byte address. -/
  | crcScanEnd (x : Die) (u : Nat) (bad : Option Nat)
  /-- CROSSING_OFFER (R231). The source offers value `v`; an island that has a value of its own to offer offers that. -/
  | crossingOffer (x : Die) (r : XRef) (v : Nat)
  /-- CROSSING_TAKE (R231). The destination sees the change of the request flag. -/
  | crossingTake (x : Die) (r : XRef)
  /-- CROSSING_RETURN (R231). The source sees the change of the return flag. -/
  | crossingReturn (x : Die) (r : XRef)
  /-- PULSE_ARRIVE (R236). One event at the source; `meets`: in the same cycle, or at the same moment, as the return of the one in flight. -/
  | pulseArrive (x : Die) (r : XRef) (meets : Bool)
  /-- PULSE_DELIVER (R236). The destination gives the pulse and the return flag comes back. -/
  | pulseDeliver (x : Die) (r : XRef)
  /-- PEER_RESET_SEEN (R238). `source`: the side that sees it is the source side. -/
  | peerResetSeen (x : Die) (r : XRef) (source : Bool)
  /-- CROSSING_TIMEOUT (R242). The timer expires; `meets`: at the instant the destination takes. -/
  | crossingTimeout (x : Die) (r : XRef) (meets : Bool)
  /-- XING_CNT_CLR (R249). Master `m` writes XING_CNT_CLR. -/
  | xingCntClr (x : Die) (m : Master) (v : Word)
  /-- XING_CFG_WRITE (R245). Master `m` writes XING_CFG of kind `k`. -/
  | xingCfgWrite (x : Die) (m : Master) (k : Nat) (v : Word)
  /-- DRAM_REQUEST_ACCEPT (R254). Channel `c`, port `p`: the oldest offered request, or request `req` that a requester of ports 8 to 13 offers now. -/
  | dramRequestAccept (x : Die) (c p : Nat) (req : Option DramArg)
  /-- DRAM_COMMAND_ISSUE (R256). `ready`: the operations whose next command bank and bus timing allow now. -/
  | dramCommandIssue (x : Die) (c : Nat) (ready : List Nat)
  /-- DRAM_READ_DONE (R264). The data of operation `id` returns; `upset` the bits of the line that flipped since the last access; `wrong` a line whose contents the memory returned in its place. -/
  | dramReadDone (x : Die) (c id upset : Nat) (wrong : Option Nat)
  /-- REFRESH_DUE (R259). A refresh of the rank falls due. -/
  | refreshDue (x : Die) (c rank : Nat)
  /-- MR4_READ (R258). `ind`: 0 normal rate, 1 twice the rate, 2 above it; `c0waits`: a class-0 request waits on the channel. -/
  | mr4Read (x : Die) (c rank ind : Nat) (c0waits : Bool)
  /-- PATROL_SCRUB_STEP (R260). The next line of the pass; `c0waits`: a class-0 request waits on the channel. -/
  | patrolScrubStep (x : Die) (c upset : Nat) (c0waits : Bool)
  /-- CALIBRATION_SLOT (R260). One slot on one rank, and whether a retraining succeeded. -/
  | calibrationSlot (x : Die) (c rank : Nat) (kind : CalKind) (ok c0waits : Bool)
  /-- SPARE_COPY_STEP (R266). The next line of the row of entry `k`. -/
  | spareCopyStep (x : Die) (c k upset : Nat) (c0waits : Bool)
  /-- DMC_SPARE (R266). Master `m` writes DMC_CMD with OP 1. -/
  | dmcSpare (x : Die) (m : Master) (c subch rank bank row : Nat)
  /-- DMC_FREE (R266). Master `m` writes DMC_CMD with OP 2. -/
  | dmcFree (x : Die) (m : Master) (c k : Nat)
  /-- DMC_RETRAIN (R271). Master `m` writes DMC_CMD with OP 3. -/
  | dmcRetrain (x : Die) (m : Master) (c : Nat)
  /-- DMC_CNT_CLR_REF (R271). Master `m` writes DMC_CNT_CLR.REF. -/
  | dmcCntClrRef (x : Die) (m : Master) (c : Nat)
  /-- DMC_CNT_CLR_ECC (R271). Master `m` writes DMC_CNT_CLR.ECC. -/
  | dmcCntClrEcc (x : Die) (m : Master) (c : Nat)
  /-- CHANNEL_TRAINING_END (R268). Initial training, or retraining on a warm resume, ends. -/
  | channelTrainingEnd (x : Die) (c : Nat) (res : TrainRes)
  /-- DRAM_CH_FAIL (R269). `cause` 3 retraining, 4 VDDQ, as DMC_STAT.CAUSE. -/
  | dramChFail (x : Die) (c cause : Nat)
  /-- LANE_FAIL (R273). Lane `lane` loses block lock or exceeds its error rate. -/
  | laneFail (x : Die) (lane : Nat)
  /-- SIGNAL_DETECT (R274). Port `p` detects a signal. -/
  | signalDetect (x : Die) (p : Nat)
  /-- PORT_TRAINING_END (R274). What the training found. -/
  | portTrainingEnd (x : Die) (p : Nat) (peer : SlkPeer)
  /-- LINK_CONTROL_FAIL (R274). Link control of port `p` has failed for 10 µs. -/
  | linkControlFail (x : Die) (p : Nat)
  /-- SLK_MESSAGE_RECEIVE (R282). A message arrives on port `p`, with its number on the link and the four bytes of its CRC. -/
  | slkMessageReceive (x : Die) (p : Nat) (msg : SlkMsg) (num crc : Nat)
  /-- SLK_REPLAY (R277). The peer of port `p` asks for a replay, having taken the `acked` oldest of the messages not acknowledged. -/
  | slkReplay (x : Die) (p acked : Nat)
  /-- SLK_MESSAGE_TRANSMIT (R278). Port `p` sends; the peer has by now acknowledged the `acked` oldest; `owed`: a class 1 to 3 that is due its 5 % share. -/
  | slkMessageTransmit (x : Die) (p acked : Nat) (owed : Option Nat)
  /-- KICKOFF_READY_SEND (R285). The conditions of R285 are looked at. -/
  | kickoffReadySend (x : Die)
  /-- KICKOFF_MESSAGE (R285). A KICKOFF message arrives on port `p`. -/
  | kickoffMessage (x : Die) (p : Nat) (msg : KickMsg)
  /-- SLK_QUEUE_ITEM_SEND (R287). The next item of queue `q`; `us` are the flipped bits of its words, first word first. -/
  | slkQueueItemSend (x : Die) (q : Nat) (us : List Nat)
  /-- TOKEN_CHANNEL_SEND (R288). Channel `c` takes a token. -/
  | tokenChannelSend (x : Die) (c : Nat) (data : Word64) (tag : Nat)
  /-- SLK_CHAN_STALL (R288). 1 ms has passed. -/
  | slkChanStall (x : Die) (c : Nat)
  /-- SLK_CHAN_RST (R303). Master `m` writes SLK_CHAN_RST with GO. -/
  | slkChanRst (x : Die) (m : Master) (c : Nat)
  /-- ETH_FRAME_RECEIVE (R290). A frame, FCS included, at port `e`. -/
  | ethFrameReceive (x : Die) (e : Nat) (frame : List Nat) (fcsOk : Bool)
  /-- ETH_FRAME_TRANSMIT (R290). The next item of queue `q`; `us` are the flipped bits of its words, first word first. -/
  | ethFrameTransmit (x : Die) (q : Nat) (us : List Nat)
  /-- ETH_TXTS_POP (R304). Master `m` reads ETH_TXTS_HI. -/
  | ethTxtsPop (x : Die) (m : Master) (e : Nat)
  /-- ETH_LINK_CHANGE (R302). The link of port `e`. -/
  | ethLinkChange (x : Die) (e : Nat) (up : Bool)
  /-- MT_TIMING_EXCHANGE (R294). Port `p`: missed, or half the round trip in 1/16 ns, the offset from upstream in ps that both directions equal would give, the root's epoch as the peer carries it (R296), and what link control says of the peer. -/
  | mtTimingExchange (x : Die) (p : Nat) (ok : Bool) (delay : Nat) (offset : Int) (epoch : Word64) (peer : PeerNow)
  /-- MT_HOLDOVER (R295). The follower looks at its upstream port. -/
  | mtHoldover (x : Die)
  /-- MT_ALT_SWITCH (R295). 1 ms has passed; whether the alternate port's peer reports itself locked. -/
  | mtAltSwitch (x : Die) (peerLocked : Bool)
  /-- MT_RATE_WRITE (R296). Master `m` writes MT_RATE. -/
  | mtRateWrite (x : Die) (m : Master) (v : Word)
  /-- MT_PULSE_OUT (R297). MT + MT_EPOCH passes a multiple of PERIOD. -/
  | mtPulseOut (x : Die)
  /-- MT_PULSE_CAPTURE (R297). A rising edge at pin `n`. -/
  | mtPulseCapture (x : Die) (n : Nat)
  /-- EVENT_RECORD_COLLECT (R300). The source with number `src` delivers its oldest record. -/
  | eventRecordCollect (x : Die) (src : Nat)
  /-- EVENT_RECORD_APPEND (R300). The collector passes on its oldest record. -/
  | eventRecordAppend (x : Die)
  /-- PIN_CFG_WRITE (R314). Master `m` writes PIN_CFG of pin `n`. -/
  | pinCfgWrite (x : Die) (m : Master) (n : Nat) (v : Word)
  /-- PIN_GUARD_END (R314). The 64 ns of pin `n` are over. -/
  | pinGuardEnd (x : Die) (n : Nat)
  /-- PIN_ELEC_WRITE (R315). Master `m` writes PIN_ELEC of pin `n`. -/
  | pinElecWrite (x : Die) (m : Master) (n : Nat) (v : Word)
  /-- PIN_FAB_WRITE (R323). Master `m` writes PIN_FAB of pin `n`. -/
  | pinFabWrite (x : Die) (m : Master) (n : Nat) (v : Word)
  /-- GPIO_OUT_WRITE (R317). Master `m` writes GPIO_OUT of lane `l`. -/
  | gpioOutWrite (x : Die) (m : Master) (l : Nat) (v : Word)
  /-- GPIO_OE_WRITE (R317). Master `m` writes GPIO_OE of lane `l`. -/
  | gpioOeWrite (x : Die) (m : Master) (l : Nat) (v : Word)
  /-- PM_SAMPLE (R320). Bank `b`: the levels of its 48 pins, at a 10 ns sample. -/
  | pmSample (x : Die) (b lv : Nat)
  /-- DEBOUNCE_TICK (R321). Bank `b`: the levels of its 48 pins, at a 1 MHz tick. -/
  | debounceTick (x : Die) (b lv : Nat)
  /-- BANK_PLL_LOCK (R324). The PLL of bank `b` locks. -/
  | bankPllLock (x : Die) (b : Nat)
  /-- BANK_PLL_UNLOCK (R324). The PLL of bank `b` loses lock. -/
  | bankPllUnlock (x : Die) (b : Nat)
  /-- PWRGOOD_RISE (R339). CFG_MODE[2:0] and DEVID[3:0] as strapped, and BKPULL of each bank, 2 bits a bank: 0 none, 1 up, 2 down; in T4096 die 1's banks follow die 0's 15. -/
  | pwrgoodRise (mode devid pulls : Nat)
  /-- PWRGOOD_FALL (R339). - -/
  | pwrgoodFall 
  /-- SUPPLY_LOSS (R333). The supply that leaves its range. -/
  | supplyLoss (x : Die) (k : Supply)
  /-- NVM_BOOT (R364). The 300 bytes of the boot block and of its copy; the Team images the directory holds. -/
  | nvmBoot (bootA bootB : List Nat) (teamA teamB : Option TeamImg)
  /-- WARM_UP_DONE (R339). The firmware entry of the NVM directory and its FALLBACK entry (used in CFG_MODE 0, 1 and 5); on a wake, whether the save area's digest agrees and the image store can be read. -/
  | warmUpDone (fw : FwPkg) (alt : Option FwPkg) (digestOk storeOk : Bool)
  /-- LOAD_DONE (R379). - -/
  | loadDone 
  /-- PLAY_INSTANT (R378). - -/
  | playInstant 
  /-- FULLTIME_N_LOW (R342). - -/
  | fulltimeNLow 
  /-- PWR_FULL_TIME (R346). FT_NEXT. -/
  | pwrFullTime (x : Die) (m : Master) (half : Bool)
  /-- PWR_HALF_TIME (R349). - -/
  | pwrHalfTime (x : Die) (m : Master)
  /-- PWR_RECOVERY (R344). - -/
  | pwrRecovery (x : Die) (m : Master)
  /-- PWR_RESUME (R345). - -/
  | pwrResume (x : Die) (m : Master)
  /-- PWR_RESTART (R339). - -/
  | pwrRestart (x : Die) (m : Master)
  /-- RESUME_INSTANT (R345). - -/
  | resumeInstant 
  /-- RECOVERY_LIMIT (R345). - -/
  | recoveryLimit 
  /-- DIE1_SILENT (R340). - -/
  | die1Silent 
  /-- TRANSITION_END (R341). Whether the save area could be written, and the Career record. -/
  | transitionEnd (saveOk carOk : Bool)
  /-- DOMAIN_ON (R334). The domain. -/
  | domainOn (x : Die) (m : Master) (k : Nat)
  /-- DOMAIN_OFF (R334). The domain. -/
  | domainOff (x : Die) (m : Master) (k : Nat)
  /-- DOMAIN_READY (R335). - -/
  | domainReady (x : Die)
  /-- SYNC (R355). The 8-byte record header. -/
  | sync (hdr : Word64)
  /-- SELECT (R356). The 8-byte record header: ARG holds ALL and the DEVID mask. -/
  | selectDev (hdr : Word64)
  /-- FIRMWARE (R417). - -/
  | firmware (p : FwPkg)
  /-- TEAM (R421). - -/
  | team (t : TeamImg)
  /-- HEADER (R357). The header; what the reduced start-up test finds if it runs, and its duration. -/
  | header (h : HdrRec) (bad : List TestFail) (ms : Nat)
  /-- END (R355). The 8-byte record header. -/
  | imageEnd (hdr : Word64)
  /-- STREAM_END (R356). The 8-byte record header. -/
  | streamEnd (hdr : Word64)
  /-- FRAMES (R359). First frame address and the frames, 1,024 bits each, and whether a host sent a byte of them beyond what it may still send after WAIT_N fell, which is lost (R474). -/
  | frames (addr : Nat) (data : List Nat) (lost : Bool)
  /-- ZERO (R359). - -/
  | zeroFrames (addr n : Nat)
  /-- FILL (R359). - -/
  | fillFrames (addr n data : Nat)
  /-- BODY_BLOCK_TRAILER (R361). SHA-384 over the block and this trailer; the digest of the next block; the AES key and IV under which its GCM tag verifies. -/
  | bodyBlockTrailer (hash next : Nat) (tag : Option (Nat × Nat))
  /-- STREAM_TIMEOUT (R368). - -/
  | streamTimeout 
  /-- HOST_STATUS_READ (R367). The port, whether its CS_N is low, on SSP the command byte, and the index. -/
  | hostStatusRead (psp cs : Bool) (cmd i : Nat)
  /-- CONFIG_STREAM_START (R369). DEST and the stream bytes of the entry. -/
  | configStreamStart (dest : Nat) (bytes : List Nat)
  /-- CFG_PLOAD (R375). Arguments stand in CFG_ARG0 to CFG_ARG2. -/
  | cfgPload (x : Die) (m : Master)
  /-- PLOAD_END (R375). What the loader read of the partial personality. -/
  | ploadEnd (x : Die) (p : PartImg)
  /-- CFG_COMMIT (R377). Arguments stand in CFG_ARG0 and CFG_ARG1. -/
  | cfgCommit (x : Die) (m : Master) (pair : Bool)
  /-- CFG_ABORT (R372). - -/
  | cfgAbort (x : Die) (m : Master)
  /-- CFG_READBACK (R374). The frame address stands in CFG_ARG0. -/
  | cfgReadback (x : Die) (m : Master)
  /-- CFG_CAPTURE (R374). Region and state frame stand in CFG_ARG0. -/
  | cfgCapture (x : Die) (m : Master)
  /-- KICKOFF_RISE (R378). - -/
  | kickoffRise 
  /-- KICKOFF_WAIT (R378). - -/
  | kickoffWait 
  /-- FRAME_SWEEP_STEP (R385). The region; the bits of the reader's next frame (check bits from bit 1,024) that have flipped since its last read; and frames of the region that an upset strikes after this step, with the flipped bits. -/
  | frameSweepStep (x : Die) (rg upset : Nat) (later : List (Nat × Nat))
  /-- READER_HEARTBEAT_MISS (R386). - -/
  | readerHeartbeatMiss (x : Die) (rg : Nat)
  /-- COORDINATOR_MISCOMPARE (R386). - -/
  | coordinatorMiscompare (x : Die)
  /-- COORD_HEARTBEAT_MISS (R465). - -/
  | coordHeartbeatMiss (x : Die)
  /-- PAIR_MISMATCH (R388). Homes of copies A and B, and the model's time at which the pair last agreed. -/
  | pairMismatch (x : Die) (a b since : Nat)
  /-- PAIR_CHECK_END (R389). Frames of each copy upset since their last read, with the flipped bits. -/
  | pairCheckEnd (x : Die) (upA upB : List (Nat × Nat))
  /-- PAIRED_REPAIR (R392). Whether the image store reads without error, and whether a state-bus beat was uncorrectable. -/
  | pairedRepair (x : Die) (storeOk abort : Bool)
  /-- UNPAIRED_REPAIR (R396). - -/
  | unpairedRepair (x : Die) (storeOk : Bool)
  /-- DRILL_DUE (R401). - -/
  | drillDue (x : Die) (row : Nat)
  /-- DRILL_OUT (R401). As PAIRED_REPAIR. -/
  | drillOut (x : Die) (row : Nat) (storeOk abort : Bool)
  /-- DRILL_TEST_END (R402). The first block of Table 15-7 the region fails. -/
  | drillTestEnd (x : Die) (row : Nat) (block : Option Nat)
  /-- DRILL_BACK (R401). As PAIRED_REPAIR. -/
  | drillBack (x : Die) (row : Nat) (storeOk abort : Bool)
  /-- FTT_CONDITION_FAIL (R405). Conditions that fail, [0] VCORE, [1] REFCLK, [2] temperature; the last step reached (Table 15-10). -/
  | fttConditionFail (x : Die) (reasons step : Nat)
  /-- FTT_LIMIT (R406). The last step reached. -/
  | fttLimit (x : Die) (step : Nat)
  /-- FTT_END (R406). What the test failed. -/
  | fttEnd (x : Die) (bad : List TestFail)
  /-- CAREER_WRITE (R408). Whether the NVM write succeeds. -/
  | careerWrite (x : Die) (ok : Bool)
  /-- CAR_WRITE (R414). - -/
  | carWrite (x : Die) (m : Master) (ok : Bool)
  /-- CAREER_SAMPLE (R409). Highest junction temperature in °C; the second's highest queue level in sixteenths of capacity and highest ROS_STAT.ARMED. -/
  | careerSample (x : Die) (tj : Int) (level armed : Nat)
  /-- SWP_CNT_CLR (R411). - -/
  | swpCntClr (x : Die) (m : Master)
  /-- CALL_NOP (R424). The call of `w`, as all the calls below. -/
  | callNop (x : Die) (w : Caller)
  /-- VERSION (R424). - -/
  | version (x : Die) (w : Caller)
  /-- CLAIM_QUERY (R426). - -/
  | claimQuery (x : Die) (w : Caller)
  /-- CLAIM (R311). - -/
  | claim (x : Die) (w : Caller)
  /-- RELEASE (R426). - -/
  | release (x : Die) (w : Caller)
  /-- PIN_SET (R310). - -/
  | pinSet (x : Die) (w : Caller)
  /-- PIN_OWNER (R310). - -/
  | pinOwner (x : Die) (w : Caller)
  /-- MATCHER_SET (R320). - -/
  | matcherSet (x : Die) (w : Caller)
  /-- Q_BIND (R208). - -/
  | qBind (x : Die) (w : Caller)
  /-- Q_UNBIND (R209). - -/
  | qUnbind (x : Die) (w : Caller)
  /-- CRC_ATTACH (R224). - -/
  | crcAttach (x : Die) (w : Caller)
  /-- EXPRESS_ADMIT (R197). - -/
  | expressAdmit (x : Die) (w : Caller)
  /-- EXPRESS_RELEASE (R197). - -/
  | expressRelease (x : Die) (w : Caller)
  /-- DRAM_ADMIT (R254). - -/
  | dramAdmit (x : Die) (w : Caller)
  /-- DRAM_RELEASE (R424). - -/
  | dramRelease (x : Die) (w : Caller)
  /-- SLK_ADMIT (R288). - -/
  | slkAdmit (x : Die) (w : Caller)
  /-- SLK_RELEASE (R424). - -/
  | slkRelease (x : Die) (w : Caller)
  /-- PLOAD (R375). - -/
  | pload (x : Die) (w : Caller)
  /-- COMMIT (R377). As CFG_COMMIT, for caller `w`. -/
  | commit (x : Die) (w : Caller)
  /-- ABORT (R424). - -/
  | abortLoad (x : Die) (w : Caller)
  /-- READBACK (R374). - -/
  | readback (x : Die) (w : Caller)
  /-- CAPTURE (R374). - -/
  | capture (x : Die) (w : Caller)
  /-- DOMAIN (R334). - -/
  | domain (x : Die) (w : Caller)
  /-- FULL_TIME (R346). - -/
  | fullTime (x : Die) (w : Caller)
  /-- HALF_TIME (R348). - -/
  | halfTime (x : Die) (w : Caller)
  /-- RECOVERY (R340). - -/
  | recovery (x : Die) (w : Caller)
  /-- RESUME (R345). - -/
  | resume (x : Die) (w : Caller)
  /-- RESTART (R339). - -/
  | restart (x : Die) (w : Caller)
  /-- NVM_WRITE (R419). Whether the NVM takes the sector. -/
  | nvmWrite (x : Die) (w : Caller) (ok : Bool)
  /-- TEAM_SWITCH (R419). What the Referee reads in the other slot. -/
  | teamSwitch (x : Die) (w : Caller) (img : Option TeamImg)
  /-- TEAM_ALIVE (R420). - -/
  | teamAlive (x : Die) (w : Caller)
  /-- TEAM_TRIAL_EXPIRE (R419). - -/
  | teamTrialExpire (x : Die)
  /-- TEAM_RESTART (R416). - -/
  | teamRestart (x : Die) (w : Caller)
  /-- REF_FW_STAGE (R419). The package the Referee reads. -/
  | refFwStage (x : Die) (w : Caller) (p : FwPkg)
  /-- REF_RESTART (R428). - -/
  | refRestart (x : Die) (w : Caller)
  /-- KEY_PROGRAM (R427). The record; the junction lies from 0 °C to 85 °C; each die's fuses read back right. -/
  | keyProgram (x : Die) (w : Caller) (r : KeyRec) (warm ok0 ok1 : Bool)
  /-- KEY_REVOKE (R427). As KEY_PROGRAM. -/
  | keyRevoke (x : Die) (w : Caller) (r : KeyRec) (warm ok0 ok1 : Bool)
  /-- AES_PROGRAM (R427). As KEY_PROGRAM; `wrapOk`: the wrapped key unwraps under KEK. -/
  | aesProgram (x : Die) (w : Caller) (r : KeyRec) (wrapOk warm ok0 ok1 : Bool)
  /-- QUAR_CLEAR (R404). - -/
  | quarClear (x : Die) (w : Caller)
  /-- UMP_RULE (R463). - -/
  | umpRule (x : Die) (w : Caller)
  /-- SEAL (R447). What the island makes of the record. -/
  | seal (x : Die) (w : Caller) (i : SealIn)
  /-- MET_PARAM (R447). As SEAL. -/
  | metParam (x : Die) (w : Caller) (i : SealIn)
  /-- MGMT_SEND (R425). `hold`: the message is refused under R275 on its way. -/
  | mgmtSend (x : Die) (w : Caller) (hold : Bool)
  /-- MGMT_REMOTE_CALL (R425). The sender belongs to the remote group. -/
  | mgmtRemoteCall (inGroup : Bool)
  /-- MGMT_SEND_TIMEOUT (R425). The slot whose remote call has no answer. -/
  | mgmtSendTimeout (x : Die) (k : Nat)
  /-- REF_LOCKSTEP_MISCOMPARE (R428). - -/
  | refLockstepMiscompare (x : Die)
  /-- REF_HB_BEAT (R465). Master `m` writes 1. -/
  | refHbBeat (x : Die) (m : Master)
  /-- REF_HEARTBEAT_MISS (R465). - -/
  | refHeartbeatMiss (x : Die)
  /-- REF_CTL_RESTART (R428). - -/
  | refCtlRestart (x : Die) (m : Master)
  /-- REF_RESTART_END (R428). SERVING is reached within 50 ms; the code was reloaded; the state area failed its CRC; the package of the FALLBACK firmware entry, if there is one. -/
  | refRestartEnd (x : Die) (ok reloaded rebuild : Bool) (alt : Option FwPkg)
  /-- MET_START (R434). - -/
  | metStart (x : Die)
  /-- MET_WINDOW_END (R441). What the window gave. -/
  | metWindowEnd (x : Die) (w : MetWin)
  /-- PULSE_WIDTH_END (R445). Output `k`: its high or low time ends. -/
  | pulseWidthEnd (x : Die) (k : Nat)
  /-- DEMAND_INTERVAL_END (R439). Point `p`. -/
  | demandIntervalEnd (x : Die) (p : Nat)
  /-- SPARE_EXCHANGE (R443). - -/
  | spareExchange (x : Die)
  /-- EXCHANGE_OVERLAP_END (R444). The RMS of the difference exceeds 0.02 % of full scale. -/
  | exchangeOverlapEnd (x : Die) (disagree : Bool)
  /-- MODULATOR_CAL_END (R444). Modulator `m`; its calibration lies within its limits. -/
  | modulatorCalEnd (x : Die) (m : Nat) (ok : Bool)
  /-- SEAL_N_CHANGE (R447). SEAL_N, debounced over 10 ms: high is open. -/
  | sealNChange (x : Die) (opened : Bool)
  /-- VANA_LOSS (R452). - -/
  | vanaLoss (x : Die)
  /-- VANA_RETURN (R452). - -/
  | vanaReturn (x : Die)
  /-- MET_CHECKPOINT (R452). - -/
  | metCheckpoint (x : Die)
  /-- CRYSTAL_START (R455). One crystal serves both dies. -/
  | crystalStart 
  /-- RULE_EVALUATE (R456). Tick `r` of a round; `v` is the pin's level, the sensor's reading in 0.25 °C or the supply in mV. -/
  | ruleEvaluate (x : Die) (r v : Nat)
  /-- MTC_FIRE (R458). Comparator `k`. -/
  | mtcFire (x : Die) (k : Nat)
  /-- UMP_LOG_POP (R467). Master `m` writes 1. -/
  | umpLogPop (x : Die) (m : Master)
  /-- JTAG_EXTEST (R477). Boundary cells shifted in, and the levels the captured cells see. -/
  | jtagExtest (x : Die) (cells cap : List (Nat × Bool))
  /-- JTAG_SAMPLE_PRELOAD (R476). As JTAG_EXTEST. -/
  | jtagSamplePreload (x : Die) (cells cap : List (Nat × Bool))
  /-- JTAG_SYSID (R476). - -/
  | jtagSysid (x : Die)
  /-- JTAG_BYPASS (R476). The instruction code scanned in, and one bit shifted through. -/
  | jtagBypass (x : Die) (code : Nat) (tdi : Bool)
  /-- TRST_N_LOW (R476). - -/
  | trstNLow 
  /-- SUPPLY_RETURN (R333). The supply that comes back. -/
  | supplyReturn (x : Die) (k : Supply)
  /-- PLL_LOCK (R292). - -/
  | pllLock 
  /-- PEER_RESET_END (R237). The side named sees its peer leave reset. -/
  | peerResetEnd (x : Die) (r : XRef) (source : Bool)
  /-- COORDINATOR_RESTART_END (R386). - -/
  | coordinatorRestartEnd (x : Die)
  /-- COORDINATOR_HEARTBEAT (R465). - -/
  | coordinatorHeartbeat (x : Die)
  /-- POST_PACKAGE_REPAIR_END (R267). The repair of entry `k` ends. -/
  | postPackageRepairEnd (x : Die) (c k : Nat) (ok : Bool)
deriving DecidableEq, Repr

end Sys2Proof
end

