-- ==== Sys2Proof/Decode.lean ====
section
/-! DEFINITION. The table of this block gives its commands no bits: a command comes from outside whole, so no word spells
one. -/

namespace Sys2Proof

/-- The command a word of the table spells: none, since no row of the table has bits. -/
def decodeTableWord (_nbits _w : Nat) : Option Instr := none

end Sys2Proof
end

