-- ==== Sys2Proof/Machine/Bits.lean ====
section
/-! DEFINITION. Sparse tables in canonical form, and register fields read and written as numbers. -/

namespace Sys2Proof.Machine

/-- One field of one register: the register's die-relative address and the field's bit range, highest bit first
(R4 and the register tables). -/
structure Fld where
  addr : Nat
  hi : Nat
  lo : Nat
deriving DecidableEq, Repr

/-- A sparse table from natural numbers to values.  The canonical form (`Tab.wf`) lists keys in strictly rising order
and lists no value equal to what an unlisted key reads as, so equal tables are equal data. -/
structure Tab (α : Type) where
  cells : List (Nat × α)
deriving DecidableEq, Repr

/-- The table that lists nothing. -/
def Tab.empty {α : Type} : Tab α := ⟨[]⟩

/-- Look a key up in a list of cells; an unlisted key reads as `f k`. -/
def cellGet {α : Type} (f : Nat → α) (k : Nat) : List (Nat × α) → α
  | [] => f k
  | c :: r => if c.1 = k then c.2 else cellGet f k r

/-- Read key `k`; an unlisted key reads as `f k`. -/
def Tab.get {α : Type} (f : Nat → α) (t : Tab α) (k : Nat) : α := cellGet f k t.cells

/-- Put a cell at its place in a list with rising keys. -/
def cellPut {α : Type} (k : Nat) (v : α) : List (Nat × α) → List (Nat × α)
  | [] => [(k, v)]
  | c :: r => if k < c.1 then (k, v) :: c :: r else c :: cellPut k v r

/-- Take every cell of key `k` out. -/
def cellDrop {α : Type} (k : Nat) : List (Nat × α) → List (Nat × α)
  | [] => []
  | c :: r => if c.1 = k then cellDrop k r else c :: cellDrop k r

/-- Write key `k`: its old cell goes, and the new value is listed unless it is what an unlisted key reads as. -/
def Tab.set {α : Type} [DecidableEq α] (f : Nat → α) (t : Tab α) (k : Nat) (v : α) : Tab α :=
  if v = f k then ⟨cellDrop k t.cells⟩ else ⟨cellPut k v (cellDrop k t.cells)⟩

/-- Are the keys strictly rising, all above `b`, and is no value the unlisted one. -/
def cellsWf {α : Type} [DecidableEq α] (f : Nat → α) : Option Nat → List (Nat × α) → Bool
  | _, [] => true
  | b, c :: r => (match b with | none => true | some m => decide (m < c.1)) && decide (c.2 ≠ f c.1) && cellsWf f (some c.1) r

/-- The canonical form. -/
def Tab.wf {α : Type} [DecidableEq α] (f : Nat → α) (t : Tab α) : Bool := cellsWf f none t.cells

/-- Apply `g` to the value of key `k`. -/
def Tab.upd {α : Type} [DecidableEq α] (f : Nat → α) (t : Tab α) (k : Nat) (g : α → α) : Tab α :=
  t.set f k (g (t.get f k))

/-- Keep the cells whose key satisfies `p`; every other key reads as unlisted again. -/
def Tab.keep {α : Type} (p : Nat → Bool) (t : Tab α) : Tab α := ⟨t.cells.filter (fun c => p c.1)⟩

/-- The width of a field. -/
def Fld.width (f : Fld) : Nat := f.hi - f.lo + 1

/-- The field's value in a register word. -/
def Fld.of (f : Fld) (w : Word) : Nat := (w.toNat >>> f.lo) % 2 ^ f.width

/-- The register word with the field replaced by `v` (cut to the field's width). -/
def Fld.put (f : Fld) (w : Word) (v : Nat) : Word :=
  BitVec.ofNat 32 (w.toNat - (f.of w) * 2 ^ f.lo + (v % 2 ^ f.width) * 2 ^ f.lo)

/-- Bits `hi` to `lo` of a number. -/
def bits (n hi lo : Nat) : Nat := (n >>> lo) % 2 ^ (hi - lo + 1)

/-- Bit `k` of a number. -/
def bit (n k : Nat) : Bool := (n >>> k) % 2 == 1

/-- A truth value as a number. -/
def b2n (b : Bool) : Nat := if b then 1 else 0

/-- Set or clear bit `k` of a number. -/
def putBit (n k : Nat) (b : Bool) : Nat := n - b2n (bit n k) * 2 ^ k + b2n b * 2 ^ k

/-- Add one and stay at the largest value of `w` bits (a counter that saturates). -/
def satInc (w n : Nat) : Nat := if n + 1 < 2 ^ w then n + 1 else 2 ^ w - 1

/-- The signed value of the low `w` bits of a number. -/
def sgn (w n : Nat) : Int := if n % 2 ^ w < 2 ^ (w - 1) then (n % 2 ^ w : Nat) else (n % 2 ^ w : Nat) - (2 ^ w : Nat)

/-- The low `w` bits of an integer. -/
def uns (w : Nat) (i : Int) : Nat := (i % (2 ^ w : Nat)).toNat

/-- The value of entry `k` of a list, or `d` past its end. -/
def nth {α : Type} (d : α) (l : List α) (k : Nat) : α := (l[k]?).getD d

/-- Replace entry `k` of a list (nothing past its end). -/
def setNth {α : Type} (l : List α) (k : Nat) (v : α) : List α := l.set k v

/-! ### Bytes -/

/-- The bytes of a 64-bit word, byte 0 first. -/
def wordBytes (n v : Nat) : List Nat := (List.range n).map (fun k => v / 2 ^ (8 * k) % 256)

/-- A number from bytes, the first lowest. -/
def ofBytes : List Nat → Nat
  | [] => 0
  | b :: r => b % 256 + 256 * ofBytes r

/-- `n` bytes of a list from `k`, zeros past its end. -/
def slice (l : List Nat) (k n : Nat) : List Nat := (List.range n).map (fun i => nth 0 l (k + i))

end Sys2Proof.Machine
end

