-- ==== Sys2Proof/Machine/F32.lean ====
section
/-! DEFINITION. IEEE 754 binary32: a word as an exact fraction, and an exact fraction rounded once to a word (R441, R454,
R459). -/

namespace Sys2Proof.Machine

/-- The parts of a binary32 word. -/
def f32Sign (w : Nat) : Bool := bit w 31
def f32Exp (w : Nat) : Nat := bits w 30 23
def f32Man (w : Nat) : Nat := bits w 22 0

/-- Is the word a NaN. -/
def f32Nan (w : Nat) : Bool := f32Exp w == 255 && f32Man w != 0

/-- Is the word an infinity. -/
def f32Inf (w : Nat) : Bool := f32Exp w == 255 && f32Man w == 0

/-- Is the word subnormal. -/
def f32Sub (w : Nat) : Bool := f32Exp w == 0 && f32Man w != 0

/-- A finite word's value as a count of 2 to the power −149. -/
def f32Int (w : Nat) : Int :=
  let m : Nat := if f32Exp w = 0 then f32Man w else (2 ^ 23 + f32Man w) * 2 ^ (f32Exp w - 1)
  if f32Sign w then -(m : Int) else m

/-- The nearest integer to n ÷ d, ties to even. -/
def roundDiv (n d : Nat) : Nat :=
  let q := n / d
  let r := n % d
  if 2 * r < d then q else if d < 2 * r then q + 1 else q + q % 2

/-- The binary exponent of n ÷ d plus 200: the largest k with 2^(k − 200) ≤ n ÷ d. -/
def ratExp (n d : Nat) : Nat :=
  let k := n.log2 + 200 - d.log2
  if n * 2 ^ 200 < d * 2 ^ k then k - 1 else k

/-- n ÷ d rounded to nearest, ties to even, as a binary32 word without its sign; too large a value is an infinity, and a
value below 2^−126 is rounded as a subnormal. -/
def f32Mag (n d : Nat) : Nat :=
  if n = 0 || d = 0 then 0
  else
    let k := ratExp n d
    if k < 74 then roundDiv (n * 2 ^ 149) d
    else
      let m := roundDiv (n * 2 ^ 223) (d * 2 ^ k)
      let w := (k - 74) * 2 ^ 23 + m
      if 0x7F800000 ≤ w then 0x7F800000 else w

/-- An exact fraction rounded to nearest as a binary32 word. -/
def f32Of (n : Int) (d : Nat) : Nat := f32Mag n.natAbs d + (if n < 0 then 2 ^ 31 else 0)

/-- A number that orders words that are no NaN as IEEE 754 does. -/
def f32Key (w : Nat) : Int := if f32Sign w then -((w % 2 ^ 31 : Nat) : Int) else (w : Int)

/-- The integer square root, rounded down. -/
def natSqrt (n : Nat) : Nat :=
  (List.range (n.log2 / 2 + 1)).reverse.foldl (fun r k => if (r + 2 ^ k) * (r + 2 ^ k) ≤ n then r + 2 ^ k else r) 0

/-- A word as the island publishes it: no NaN, infinity or subnormal (R454). -/
def f32Clean (w : Nat) : Nat := if f32Exp w = 255 || f32Sub w then 0 else w % 2 ^ 32

/-- An exact fraction as the island publishes it: 0 where it cannot be formed (R454). -/
def f32Pub (n : Int) (d : Nat) : Nat := f32Clean (f32Of n d)

/-- Can the island form this quantity: the fraction is 0 or rounds to a normal number (R454). -/
def f32Fits (n : Int) (d : Nat) : Bool := n == 0 || f32Pub n d % 2 ^ 31 != 0

end Sys2Proof.Machine
end

