-- ==== Sys2Proof/Machine/Regs.lean ====
section
/-! DEFINITION. The register map: one address and one record of access masks for every register of the spec's
register tables (each chapter's map, laid out by R482), and one `Fld` for every named field.  Addresses are
relative to die 0 (R29 adds 0x2000_0000 for die 1); signal engine registers stand at their alias (R483).
Reset words are the tables' Reset columns; an entry the table leaves to straps, fuses or an image is 0 until its
event (R485), but for PWR_SUP_STAT, whose supplies are in range (DESIGN CHOICE, log entry 2). -/

namespace Sys2Proof.Machine

/-- SYS_ID (R15, 01_variants.md). -/
def R.SYS_ID : Nat := 0x10000000
def F.SYS_ID_SERIES : Fld := ⟨R.SYS_ID, 31, 24⟩
def F.SYS_ID_PART : Fld := ⟨R.SYS_ID, 23, 20⟩
def F.SYS_ID_STEPPING : Fld := ⟨R.SYS_ID, 19, 16⟩
def F.SYS_ID_TWIN : Fld := ⟨R.SYS_ID, 15, 15⟩
def F.SYS_ID_DIE : Fld := ⟨R.SYS_ID, 14, 14⟩
def F.SYS_ID_MET : Fld := ⟨R.SYS_ID, 13, 13⟩
def F.SYS_ID_PKG : Fld := ⟨R.SYS_ID, 12, 11⟩
def F.SYS_ID_ROWS : Fld := ⟨R.SYS_ID, 10, 5⟩
/-- SYS_RES (R15, 01_variants.md). -/
def R.SYS_RES : Nat := 0x10000004
def F.SYS_RES_BANKS : Fld := ⟨R.SYS_RES, 31, 27⟩
def F.SYS_RES_DDR : Fld := ⟨R.SYS_RES, 26, 24⟩
def F.SYS_RES_LANES : Fld := ⟨R.SYS_RES, 23, 19⟩
def F.SYS_RES_SLK : Fld := ⟨R.SYS_RES, 18, 16⟩
def F.SYS_RES_ETH : Fld := ⟨R.SYS_RES, 15, 13⟩
/-- SYS_EVT_CFG (R301, 11_links_and_time.md). -/
def R.SYS_EVT_CFG : Nat := 0x10000010
def F.SYS_EVT_CFG_EN : Fld := ⟨R.SYS_EVT_CFG, 31, 31⟩
def F.SYS_EVT_CFG_FWD_EN : Fld := ⟨R.SYS_EVT_CFG, 30, 30⟩
def F.SYS_EVT_CFG_RX_EN : Fld := ⟨R.SYS_EVT_CFG, 29, 29⟩
def F.SYS_EVT_CFG_Q : Fld := ⟨R.SYS_EVT_CFG, 23, 18⟩
def F.SYS_EVT_CFG_FWD_DEST : Fld := ⟨R.SYS_EVT_CFG, 11, 0⟩
/-- SYS_EVT_STAT (R301, 11_links_and_time.md). -/
def R.SYS_EVT_STAT : Nat := 0x10000014
def F.SYS_EVT_STAT_OVF : Fld := ⟨R.SYS_EVT_STAT, 31, 31⟩
def F.SYS_EVT_STAT_LEVEL : Fld := ⟨R.SYS_EVT_STAT, 24, 16⟩
def F.SYS_EVT_STAT_LOST : Fld := ⟨R.SYS_EVT_STAT, 15, 0⟩
/-- RGN_STAT (R114, 04_regions_and_memory.md). -/
def R.RGN_STAT (i : Nat) : Nat := 0x11000000 + 0x100 * i
def F.RGN_STAT_STATE (i : Nat) : Fld := ⟨R.RGN_STAT i, 31, 28⟩
def F.RGN_STAT_RING (i : Nat) : Fld := ⟨R.RGN_STAT i, 27, 26⟩
def F.RGN_STAT_BENCH (i : Nat) : Fld := ⟨R.RGN_STAT i, 25, 25⟩
def F.RGN_STAT_PAIRED (i : Nat) : Fld := ⟨R.RGN_STAT i, 24, 24⟩
def F.RGN_STAT_HOME (i : Nat) : Fld := ⟨R.RGN_STAT i, 23, 18⟩
def F.RGN_STAT_AT (i : Nat) : Fld := ⟨R.RGN_STAT i, 17, 12⟩
/-- RGN_PID (R114, 04_regions_and_memory.md). -/
def R.RGN_PID (i : Nat) : Nat := 0x11000004 + 0x100 * i
def F.RGN_PID_ID (i : Nat) : Fld := ⟨R.RGN_PID i, 31, 0⟩
/-- RGN_RSIG_LO (R114, 04_regions_and_memory.md). -/
def R.RGN_RSIG_LO (i : Nat) : Nat := 0x11000008 + 0x100 * i
def F.RGN_RSIG_LO_SIG (i : Nat) : Fld := ⟨R.RGN_RSIG_LO i, 31, 0⟩
/-- RGN_RSIG_HI (R114, 04_regions_and_memory.md). -/
def R.RGN_RSIG_HI (i : Nat) : Nat := 0x1100000c + 0x100 * i
def F.RGN_RSIG_HI_SIG (i : Nat) : Fld := ⟨R.RGN_RSIG_HI i, 31, 0⟩
/-- RGN_BM_MODE (R114, 04_regions_and_memory.md). -/
def R.RGN_BM_MODE (i : Nat) : Nat := 0x11000010 + 0x100 * i
def F.RGN_BM_MODE_PORT (i : Nat) : Fld := ⟨R.RGN_BM_MODE i, 15, 0⟩
/-- RGN_FRAME_CNT (R114, 04_regions_and_memory.md). -/
def R.RGN_FRAME_CNT (i : Nat) : Nat := 0x11000020 + 0x100 * i
def F.RGN_FRAME_CNT_CORR (i : Nat) : Fld := ⟨R.RGN_FRAME_CNT i, 31, 16⟩
def F.RGN_FRAME_CNT_DET (i : Nat) : Fld := ⟨R.RGN_FRAME_CNT i, 15, 0⟩
/-- RGN_BM_CNT (R114, 04_regions_and_memory.md). -/
def R.RGN_BM_CNT (i : Nat) : Nat := 0x11000024 + 0x100 * i
def F.RGN_BM_CNT_CORR (i : Nat) : Fld := ⟨R.RGN_BM_CNT i, 31, 16⟩
def F.RGN_BM_CNT_UNCORR (i : Nat) : Fld := ⟨R.RGN_BM_CNT i, 15, 0⟩
/-- RGN_BM_ERR (R114, 04_regions_and_memory.md). -/
def R.RGN_BM_ERR (i : Nat) : Nat := 0x11000028 + 0x100 * i
def F.RGN_BM_ERR_VALID (i : Nat) : Fld := ⟨R.RGN_BM_ERR i, 31, 31⟩
def F.RGN_BM_ERR_SOURCE (i : Nat) : Fld := ⟨R.RGN_BM_ERR i, 30, 29⟩
def F.RGN_BM_ERR_WR (i : Nat) : Fld := ⟨R.RGN_BM_ERR i, 28, 28⟩
def F.RGN_BM_ERR_MEM (i : Nat) : Fld := ⟨R.RGN_BM_ERR i, 27, 26⟩
def F.RGN_BM_ERR_WORD (i : Nat) : Fld := ⟨R.RGN_BM_ERR i, 8, 0⟩
/-- RGN_RING_CNT (R114, 04_regions_and_memory.md). -/
def R.RGN_RING_CNT (i : Nat) : Nat := 0x1100002c + 0x100 * i
def F.RGN_RING_CNT_FORCED (i : Nat) : Fld := ⟨R.RGN_RING_CNT i, 31, 16⟩
def F.RGN_RING_CNT_DROPS (i : Nat) : Fld := ⟨R.RGN_RING_CNT i, 15, 0⟩
/-- RGN_CNT_CLR (R114, 04_regions_and_memory.md). -/
def R.RGN_CNT_CLR (i : Nat) : Nat := 0x11000030 + 0x100 * i
def F.RGN_CNT_CLR_RING (i : Nat) : Fld := ⟨R.RGN_CNT_CLR i, 2, 2⟩
def F.RGN_CNT_CLR_BM (i : Nat) : Fld := ⟨R.RGN_CNT_CLR i, 1, 1⟩
def F.RGN_CNT_CLR_FRAME (i : Nat) : Fld := ⟨R.RGN_CNT_CLR i, 0, 0⟩
/-- RGN_EVT_EN (R114, 04_regions_and_memory.md). -/
def R.RGN_EVT_EN (i : Nat) : Nat := 0x11000034 + 0x100 * i
def F.RGN_EVT_EN_UNCORR (i : Nat) : Fld := ⟨R.RGN_EVT_EN i, 1, 1⟩
def F.RGN_EVT_EN_CORR (i : Nat) : Fld := ⟨R.RGN_EVT_EN i, 0, 0⟩
/-- PACE_CTL (R133, 05_pace.md). -/
def R.PACE_CTL : Nat := 0x10060000
def F.PACE_CTL_CNT_CLR : Fld := ⟨R.PACE_CTL, 2, 2⟩
def F.PACE_CTL_RESUME : Fld := ⟨R.PACE_CTL, 1, 1⟩
def F.PACE_CTL_HOLD : Fld := ⟨R.PACE_CTL, 0, 0⟩
/-- PACE_CFG (R133, 05_pace.md). -/
def R.PACE_CFG : Nat := 0x10060004
def F.PACE_CFG_ADDR : Fld := ⟨R.PACE_CFG, 23, 17⟩
def F.PACE_CFG_FMP : Fld := ⟨R.PACE_CFG, 16, 16⟩
def F.PACE_CFG_PEC : Fld := ⟨R.PACE_CFG, 15, 15⟩
def F.PACE_CFG_SETTLE : Fld := ⟨R.PACE_CFG, 14, 8⟩
def F.PACE_CFG_INTERVAL : Fld := ⟨R.PACE_CFG, 7, 0⟩
/-- PACE_LIMIT (R133, 05_pace.md). -/
def R.PACE_LIMIT : Nat := 0x10060008
def F.PACE_LIMIT_VMAX : Fld := ⟨R.PACE_LIMIT, 19, 10⟩
def F.PACE_LIMIT_VMIN : Fld := ⟨R.PACE_LIMIT, 9, 0⟩
/-- PACE_HR (R133, 05_pace.md). -/
def R.PACE_HR : Nat := 0x1006000c
def F.PACE_HR_HR_DN : Fld := ⟨R.PACE_HR, 13, 8⟩
def F.PACE_HR_HR_UP : Fld := ⟨R.PACE_HR, 5, 0⟩
/-- PACE_STAT (R133, 05_pace.md). -/
def R.PACE_STAT : Nat := 0x10060010
def F.PACE_STAT_STATE : Fld := ⟨R.PACE_STAT, 31, 29⟩
def F.PACE_STAT_CEILING : Fld := ⟨R.PACE_STAT, 28, 28⟩
def F.PACE_STAT_FLOOR : Fld := ⟨R.PACE_STAT, 27, 27⟩
def F.PACE_STAT_CONVERGED : Fld := ⟨R.PACE_STAT, 26, 26⟩
def F.PACE_STAT_VSET : Fld := ⟨R.PACE_STAT, 25, 16⟩
def F.PACE_STAT_PARKED : Fld := ⟨R.PACE_STAT, 15, 0⟩
/-- PACE_VREAD (R133, 05_pace.md). -/
def R.PACE_VREAD : Nat := 0x10060014
def F.PACE_VREAD_STATUS : Fld := ⟨R.PACE_VREAD, 31, 16⟩
def F.PACE_VREAD_VOUT : Fld := ⟨R.PACE_VREAD, 9, 0⟩
/-- PACE_CNT (R133, 05_pace.md). -/
def R.PACE_CNT : Nat := 0x10060018
def F.PACE_CNT_UP : Fld := ⟨R.PACE_CNT, 31, 16⟩
def F.PACE_CNT_DOWN : Fld := ⟨R.PACE_CNT, 15, 0⟩
/-- PACE_ERR (R133, 05_pace.md). -/
def R.PACE_ERR : Nat := 0x1006001c
def F.PACE_ERR_RETRIES : Fld := ⟨R.PACE_ERR, 31, 24⟩
def F.PACE_ERR_TARGET_MISSED : Fld := ⟨R.PACE_ERR, 7, 7⟩
def F.PACE_ERR_MARGIN_LOW : Fld := ⟨R.PACE_ERR, 6, 6⟩
def F.PACE_ERR_CONV_TO : Fld := ⟨R.PACE_ERR, 5, 5⟩
def F.PACE_ERR_MISMATCH : Fld := ⟨R.PACE_ERR, 4, 4⟩
def F.PACE_ERR_ALERT : Fld := ⟨R.PACE_ERR, 3, 3⟩
def F.PACE_ERR_PEC : Fld := ⟨R.PACE_ERR, 2, 2⟩
def F.PACE_ERR_NACK : Fld := ⟨R.PACE_ERR, 1, 1⟩
def F.PACE_ERR_FAULT : Fld := ⟨R.PACE_ERR, 0, 0⟩
/-- PACE_MARGIN (R133, 05_pace.md). -/
def R.PACE_MARGIN : Nat := 0x10060020
def F.PACE_MARGIN_MIN : Fld := ⟨R.PACE_MARGIN, 31, 24⟩
def F.PACE_MARGIN_REGION : Fld := ⟨R.PACE_MARGIN, 23, 13⟩
def F.PACE_MARGIN_CLUSTER : Fld := ⟨R.PACE_MARGIN, 12, 7⟩
/-- PACE_PMB_CMD (R133, 05_pace.md). -/
def R.PACE_PMB_CMD : Nat := 0x10060024
def F.PACE_PMB_CMD_BUSY : Fld := ⟨R.PACE_PMB_CMD, 31, 31⟩
def F.PACE_PMB_CMD_ERR : Fld := ⟨R.PACE_PMB_CMD, 30, 30⟩
def F.PACE_PMB_CMD_CMD : Fld := ⟨R.PACE_PMB_CMD, 15, 8⟩
def F.PACE_PMB_CMD_GO : Fld := ⟨R.PACE_PMB_CMD, 0, 0⟩
/-- PACE_PMB_DATA (R133, 05_pace.md). -/
def R.PACE_PMB_DATA : Nat := 0x10060028
def F.PACE_PMB_DATA_DATA : Fld := ⟨R.PACE_PMB_DATA, 15, 0⟩
/-- PACE_CAL_SEL (R133, 05_pace.md). -/
def R.PACE_CAL_SEL : Nat := 0x10060030
def F.PACE_CAL_SEL_REGION : Fld := ⟨R.PACE_CAL_SEL, 16, 6⟩
def F.PACE_CAL_SEL_CLUSTER : Fld := ⟨R.PACE_CAL_SEL, 5, 0⟩
/-- PACE_CAL_STAT (R133, 05_pace.md). -/
def R.PACE_CAL_STAT : Nat := 0x10060034
def F.PACE_CAL_STAT_MARGIN : Fld := ⟨R.PACE_CAL_STAT, 31, 24⟩
def F.PACE_CAL_STAT_LEADERS : Fld := ⟨R.PACE_CAL_STAT, 23, 20⟩
def F.PACE_CAL_STAT_PENDING : Fld := ⟨R.PACE_CAL_STAT, 19, 15⟩
def F.PACE_CAL_STAT_CANARY : Fld := ⟨R.PACE_CAL_STAT, 9, 0⟩
/-- PACE_MON_TGT (R133, 05_pace.md). -/
def R.PACE_MON_TGT (i : Nat) : Nat := 0x10060100 + 0x8 * i
def F.PACE_MON_TGT_EN (i : Nat) : Fld := ⟨R.PACE_MON_TGT i, 31, 31⟩
def F.PACE_MON_TGT_TARGET (i : Nat) : Fld := ⟨R.PACE_MON_TGT i, 15, 0⟩
/-- PACE_MON_CAP (R133, 05_pace.md). -/
def R.PACE_MON_CAP (i : Nat) : Nat := 0x10060104 + 0x8 * i
def F.PACE_MON_CAP_VALID (i : Nat) : Fld := ⟨R.PACE_MON_CAP i, 31, 31⟩
def F.PACE_MON_CAP_BELOW (i : Nat) : Fld := ⟨R.PACE_MON_CAP i, 30, 30⟩
def F.PACE_MON_CAP_CAP (i : Nat) : Fld := ⟨R.PACE_MON_CAP i, 15, 0⟩
/-- SE_CFG (R177, 06_signal_engines.md). -/
def R.SE_CFG (i : Nat) : Nat := 0x40000000 + 0x10000 * i
def F.SE_CFG_POOLED (i : Nat) : Fld := ⟨R.SE_CFG i, 31, 31⟩
def F.SE_CFG_HND (i : Nat) : Fld := ⟨R.SE_CFG i, 30, 30⟩
def F.SE_CFG_GROUP (i : Nat) : Fld := ⟨R.SE_CFG i, 29, 24⟩
def F.SE_CFG_ENTRY1 (i : Nat) : Fld := ⟨R.SE_CFG i, 23, 12⟩
def F.SE_CFG_ENTRY0 (i : Nat) : Fld := ⟨R.SE_CFG i, 11, 0⟩
/-- SE_CTL (R177, 06_signal_engines.md). -/
def R.SE_CTL (i : Nat) : Nat := 0x40000004 + 0x10000 * i
def F.SE_CTL_RESTART (i : Nat) : Fld := ⟨R.SE_CTL i, 3, 3⟩
def F.SE_CTL_STEP (i : Nat) : Fld := ⟨R.SE_CTL i, 2, 2⟩
def F.SE_CTL_RUN (i : Nat) : Fld := ⟨R.SE_CTL i, 1, 1⟩
def F.SE_CTL_HALT_REQ (i : Nat) : Fld := ⟨R.SE_CTL i, 0, 0⟩
/-- SE_STAT (R177, 06_signal_engines.md). -/
def R.SE_STAT (i : Nat) : Nat := 0x40000008 + 0x10000 * i
def F.SE_STAT_STATE (i : Nat) : Fld := ⟨R.SE_STAT i, 31, 29⟩
def F.SE_STAT_ACTIVE (i : Nat) : Fld := ⟨R.SE_STAT i, 28, 28⟩
def F.SE_STAT_STALL_OUT (i : Nat) : Fld := ⟨R.SE_STAT i, 27, 27⟩
def F.SE_STAT_STALL_PORT (i : Nat) : Fld := ⟨R.SE_STAT i, 26, 25⟩
def F.SE_STAT_IN_FULL (i : Nat) : Fld := ⟨R.SE_STAT i, 23, 20⟩
def F.SE_STAT_OUT_FULL (i : Nat) : Fld := ⟨R.SE_STAT i, 19, 16⟩
def F.SE_STAT_PC (i : Nat) : Fld := ⟨R.SE_STAT i, 11, 0⟩
/-- SE_FAULT (R177, 06_signal_engines.md). -/
def R.SE_FAULT (i : Nat) : Nat := 0x4000000c + 0x10000 * i
def F.SE_FAULT_VALID (i : Nat) : Fld := ⟨R.SE_FAULT i, 31, 31⟩
def F.SE_FAULT_CAUSE (i : Nat) : Fld := ⟨R.SE_FAULT i, 27, 24⟩
def F.SE_FAULT_BANK (i : Nat) : Fld := ⟨R.SE_FAULT i, 23, 23⟩
def F.SE_FAULT_ADDR (i : Nat) : Fld := ⟨R.SE_FAULT i, 11, 0⟩
/-- SE_BRK (R177, 06_signal_engines.md). -/
def R.SE_BRK (i : Nat) : Nat := 0x40000010 + 0x10000 * i
def F.SE_BRK_EN (i : Nat) : Fld := ⟨R.SE_BRK i, 31, 31⟩
def F.SE_BRK_ADDR (i : Nat) : Fld := ⟨R.SE_BRK i, 11, 0⟩
/-- SE_EVT_EN (R177, 06_signal_engines.md). -/
def R.SE_EVT_EN (i : Nat) : Nat := 0x40000014 + 0x10000 * i
def F.SE_EVT_EN_HALTED (i : Nat) : Fld := ⟨R.SE_EVT_EN i, 2, 2⟩
def F.SE_EVT_EN_UNCORR (i : Nat) : Fld := ⟨R.SE_EVT_EN i, 1, 1⟩
def F.SE_EVT_EN_CORR (i : Nat) : Fld := ⟨R.SE_EVT_EN i, 0, 0⟩
/-- SE_MEM_CNT (R177, 06_signal_engines.md). -/
def R.SE_MEM_CNT (i : Nat) : Nat := 0x40000018 + 0x10000 * i
def F.SE_MEM_CNT_CORR (i : Nat) : Fld := ⟨R.SE_MEM_CNT i, 31, 16⟩
def F.SE_MEM_CNT_UNCORR (i : Nat) : Fld := ⟨R.SE_MEM_CNT i, 15, 0⟩
/-- SE_MEM_ERR (R177, 06_signal_engines.md). -/
def R.SE_MEM_ERR (i : Nat) : Nat := 0x4000001c + 0x10000 * i
def F.SE_MEM_ERR_VALID (i : Nat) : Fld := ⟨R.SE_MEM_ERR i, 31, 31⟩
def F.SE_MEM_ERR_SOURCE (i : Nat) : Fld := ⟨R.SE_MEM_ERR i, 30, 29⟩
def F.SE_MEM_ERR_MEM (i : Nat) : Fld := ⟨R.SE_MEM_ERR i, 28, 27⟩
def F.SE_MEM_ERR_ADDR (i : Nat) : Fld := ⟨R.SE_MEM_ERR i, 11, 0⟩
/-- SE_INSN_LO (R177, 06_signal_engines.md). -/
def R.SE_INSN_LO (i : Nat) : Nat := 0x40000020 + 0x10000 * i
def F.SE_INSN_LO_CNT (i : Nat) : Fld := ⟨R.SE_INSN_LO i, 31, 0⟩
/-- SE_INSN_HI (R177, 06_signal_engines.md). -/
def R.SE_INSN_HI (i : Nat) : Nat := 0x40000024 + 0x10000 * i
def F.SE_INSN_HI_CNT (i : Nat) : Fld := ⟨R.SE_INSN_HI i, 31, 0⟩
/-- SE_STALL (R177, 06_signal_engines.md). -/
def R.SE_STALL (i : Nat) : Nat := 0x40000028 + 0x10000 * i
def F.SE_STALL_CNT (i : Nat) : Fld := ⟨R.SE_STALL i, 31, 0⟩
/-- SE_CNT_CLR (R177, 06_signal_engines.md). -/
def R.SE_CNT_CLR (i : Nat) : Nat := 0x4000002c + 0x10000 * i
def F.SE_CNT_CLR_STALL (i : Nat) : Fld := ⟨R.SE_CNT_CLR i, 2, 2⟩
def F.SE_CNT_CLR_INSN (i : Nat) : Fld := ⟨R.SE_CNT_CLR i, 1, 1⟩
def F.SE_CNT_CLR_MEM (i : Nat) : Fld := ⟨R.SE_CNT_CLR i, 0, 0⟩
/-- SE_CTX (R177, 06_signal_engines.md). -/
def R.SE_CTX (i : Nat) : Nat := 0x40000030 + 0x10000 * i
def F.SE_CTX_VALID (i : Nat) : Fld := ⟨R.SE_CTX i, 31, 31⟩
def F.SE_CTX_CONTEXT (i : Nat) : Fld := ⟨R.SE_CTX i, 15, 0⟩
/-- ROS_CTL (R205, 07_roster.md). -/
def R.ROS_CTL : Nat := 0x13000000
def F.ROS_CTL_CLS_EN : Fld := ⟨R.ROS_CTL, 1, 1⟩
def F.ROS_CTL_CNT_CLR : Fld := ⟨R.ROS_CTL, 0, 0⟩
/-- ROS_STAT (R205, 07_roster.md). -/
def R.ROS_STAT : Nat := 0x13000004
def F.ROS_STAT_ARMED : Fld := ⟨R.ROS_STAT, 31, 16⟩
def F.ROS_STAT_READY : Fld := ⟨R.ROS_STAT, 15, 0⟩
/-- ROS_CMD (R205, 07_roster.md). -/
def R.ROS_CMD : Nat := 0x13000008
def F.ROS_CMD_OP : Fld := ⟨R.ROS_CMD, 31, 28⟩
def F.ROS_CMD_CTX : Fld := ⟨R.ROS_CMD, 15, 0⟩
/-- ROS_CMD_RES (R205, 07_roster.md). -/
def R.ROS_CMD_RES : Nat := 0x1300000c
def F.ROS_CMD_RES_BUSY : Fld := ⟨R.ROS_CMD_RES, 31, 31⟩
def F.ROS_CMD_RES_STATUS : Fld := ⟨R.ROS_CMD_RES, 23, 16⟩
def F.ROS_CMD_RES_CTX : Fld := ⟨R.ROS_CMD_RES, 15, 0⟩
/-- ROS_KEY_LO (R205, 07_roster.md). -/
def R.ROS_KEY_LO : Nat := 0x13000010
def F.ROS_KEY_LO_KEY : Fld := ⟨R.ROS_KEY_LO, 31, 0⟩
/-- ROS_KEY_HI (R205, 07_roster.md). -/
def R.ROS_KEY_HI : Nat := 0x13000014
def F.ROS_KEY_HI_KEY : Fld := ⟨R.ROS_KEY_HI, 31, 0⟩
/-- ROS_KEY_CFG (R205, 07_roster.md). -/
def R.ROS_KEY_CFG : Nat := 0x13000018
def F.ROS_KEY_CFG_PROFILE : Fld := ⟨R.ROS_KEY_CFG, 2, 0⟩
/-- ROS_SPILL0 (R205, 07_roster.md). -/
def R.ROS_SPILL0 : Nat := 0x13000020
def F.ROS_SPILL0_CH : Fld := ⟨R.ROS_SPILL0, 31, 30⟩
def F.ROS_SPILL0_BASE : Fld := ⟨R.ROS_SPILL0, 23, 12⟩
def F.ROS_SPILL0_SIZE : Fld := ⟨R.ROS_SPILL0, 11, 0⟩
/-- ROS_SPILL1 (R205, 07_roster.md). -/
def R.ROS_SPILL1 : Nat := 0x13000024
def F.ROS_SPILL1_CH : Fld := ⟨R.ROS_SPILL1, 31, 30⟩
def F.ROS_SPILL1_BASE : Fld := ⟨R.ROS_SPILL1, 23, 12⟩
def F.ROS_SPILL1_SIZE : Fld := ⟨R.ROS_SPILL1, 11, 0⟩
/-- ROS_EVT_EN (R205, 07_roster.md). -/
def R.ROS_EVT_EN : Nat := 0x13000028
def F.ROS_EVT_EN_EN : Fld := ⟨R.ROS_EVT_EN, 5, 0⟩
/-- ROS_PROF_SEL (R205, 07_roster.md). -/
def R.ROS_PROF_SEL (i : Nat) : Nat := 0x13000100 + 0x10 * i
def F.ROS_PROF_SEL_EN (i : Nat) : Fld := ⟨R.ROS_PROF_SEL i, 31, 31⟩
def F.ROS_PROF_SEL_VLAN (i : Nat) : Fld := ⟨R.ROS_PROF_SEL i, 30, 30⟩
def F.ROS_PROF_SEL_PORTS (i : Nat) : Fld := ⟨R.ROS_PROF_SEL i, 23, 16⟩
def F.ROS_PROF_SEL_ETYPE (i : Nat) : Fld := ⟨R.ROS_PROF_SEL i, 15, 0⟩
/-- ROS_PROF_EXT (R205, 07_roster.md). -/
def R.ROS_PROF_EXT (i : Nat) : Nat := 0x13000104 + 0x10 * i
def F.ROS_PROF_EXT_OFF0 (i : Nat) : Fld := ⟨R.ROS_PROF_EXT i, 31, 24⟩
def F.ROS_PROF_EXT_LEN0 (i : Nat) : Fld := ⟨R.ROS_PROF_EXT i, 23, 22⟩
def F.ROS_PROF_EXT_OFF1 (i : Nat) : Fld := ⟨R.ROS_PROF_EXT i, 15, 8⟩
def F.ROS_PROF_EXT_LEN1 (i : Nat) : Fld := ⟨R.ROS_PROF_EXT i, 7, 6⟩
/-- ROS_PROF_PAY (R205, 07_roster.md). -/
def R.ROS_PROF_PAY (i : Nat) : Nat := 0x13000108 + 0x10 * i
def F.ROS_PROF_PAY_HDR (i : Nat) : Fld := ⟨R.ROS_PROF_PAY i, 31, 31⟩
def F.ROS_PROF_PAY_MISS_EN (i : Nat) : Fld := ⟨R.ROS_PROF_PAY i, 15, 15⟩
def F.ROS_PROF_PAY_MISS_Q (i : Nat) : Fld := ⟨R.ROS_PROF_PAY i, 13, 8⟩
def F.ROS_PROF_PAY_PAY_OFF (i : Nat) : Fld := ⟨R.ROS_PROF_PAY i, 7, 0⟩
/-- ROS_PROF_CNT (R205, 07_roster.md). -/
def R.ROS_PROF_CNT (i : Nat) : Nat := 0x1300010c + 0x10 * i
def F.ROS_PROF_CNT_MATCH (i : Nat) : Fld := ⟨R.ROS_PROF_CNT i, 31, 16⟩
def F.ROS_PROF_CNT_DROP (i : Nat) : Fld := ⟨R.ROS_PROF_CNT i, 15, 0⟩
/-- ROS_GRP_CFG (R205, 07_roster.md). -/
def R.ROS_GRP_CFG (i : Nat) : Nat := 0x13000200 + 0x8 * i
def F.ROS_GRP_CFG_QUANTUM (i : Nat) : Fld := ⟨R.ROS_GRP_CFG i, 15, 8⟩
def F.ROS_GRP_CFG_WY (i : Nat) : Fld := ⟨R.ROS_GRP_CFG i, 5, 3⟩
def F.ROS_GRP_CFG_WX (i : Nat) : Fld := ⟨R.ROS_GRP_CFG i, 2, 0⟩
/-- ROS_GRP_STAT (R205, 07_roster.md). -/
def R.ROS_GRP_STAT (i : Nat) : Nat := 0x13000204 + 0x8 * i
def F.ROS_GRP_STAT_ENGINES (i : Nat) : Fld := ⟨R.ROS_GRP_STAT i, 31, 21⟩
def F.ROS_GRP_STAT_SLOTS (i : Nat) : Fld := ⟨R.ROS_GRP_STAT i, 20, 12⟩
def F.ROS_GRP_STAT_IDLE (i : Nat) : Fld := ⟨R.ROS_GRP_STAT i, 11, 0⟩
/-- ROS_CTX (R179, 07_roster.md). -/
def R.ROS_CTX (i j : Nat) : Nat := 0x13400000 + 0x40 * i + 0x4 * j
/-- Q_CFG (R223, 08_queues_and_checks.md). -/
def R.Q_CFG (i : Nat) : Nat := 0x14000000 + 0x80 * i
def F.Q_CFG_EN (i : Nat) : Fld := ⟨R.Q_CFG i, 31, 31⟩
def F.Q_CFG_PINNED (i : Nat) : Fld := ⟨R.Q_CFG i, 30, 30⟩
def F.Q_CFG_PRIO (i : Nat) : Fld := ⟨R.Q_CFG i, 29, 29⟩
def F.Q_CFG_MARK_YIELD (i : Nat) : Fld := ⟨R.Q_CFG i, 28, 28⟩
def F.Q_CFG_WSRC (i : Nat) : Fld := ⟨R.Q_CFG i, 27, 25⟩
def F.Q_CFG_WSIDE (i : Nat) : Fld := ⟨R.Q_CFG i, 24, 24⟩
def F.Q_CFG_WSEL (i : Nat) : Fld := ⟨R.Q_CFG i, 23, 19⟩
def F.Q_CFG_RSNK (i : Nat) : Fld := ⟨R.Q_CFG i, 18, 16⟩
def F.Q_CFG_RSIDE (i : Nat) : Fld := ⟨R.Q_CFG i, 15, 15⟩
def F.Q_CFG_RSEL (i : Nat) : Fld := ⟨R.Q_CFG i, 14, 10⟩
def F.Q_CFG_SCLASS (i : Nat) : Fld := ⟨R.Q_CFG i, 9, 8⟩
/-- Q_SPILL_BASE (R223, 08_queues_and_checks.md). -/
def R.Q_SPILL_BASE (i : Nat) : Nat := 0x14000004 + 0x80 * i
def F.Q_SPILL_BASE_CH (i : Nat) : Fld := ⟨R.Q_SPILL_BASE i, 31, 30⟩
def F.Q_SPILL_BASE_BASE (i : Nat) : Fld := ⟨R.Q_SPILL_BASE i, 19, 0⟩
/-- Q_SPILL_SIZE (R223, 08_queues_and_checks.md). -/
def R.Q_SPILL_SIZE (i : Nat) : Nat := 0x14000008 + 0x80 * i
def F.Q_SPILL_SIZE_SIZE (i : Nat) : Fld := ⟨R.Q_SPILL_SIZE i, 16, 0⟩
/-- Q_STAT (R223, 08_queues_and_checks.md). -/
def R.Q_STAT (i : Nat) : Nat := 0x1400000c + 0x80 * i
def F.Q_STAT_FULL (i : Nat) : Fld := ⟨R.Q_STAT i, 31, 31⟩
def F.Q_STAT_EMPTY (i : Nat) : Fld := ⟨R.Q_STAT i, 30, 30⟩
def F.Q_STAT_SPILLING (i : Nat) : Fld := ⟨R.Q_STAT i, 29, 29⟩
def F.Q_STAT_MARKED (i : Nat) : Fld := ⟨R.Q_STAT i, 28, 28⟩
def F.Q_STAT_FLUSHING (i : Nat) : Fld := ⟨R.Q_STAT i, 27, 27⟩
def F.Q_STAT_DISCARD (i : Nat) : Fld := ⟨R.Q_STAT i, 26, 26⟩
def F.Q_STAT_NOSPILL (i : Nat) : Fld := ⟨R.Q_STAT i, 25, 25⟩
/-- Q_LEVEL (R223, 08_queues_and_checks.md). -/
def R.Q_LEVEL (i : Nat) : Nat := 0x14000010 + 0x80 * i
def F.Q_LEVEL_WORDS (i : Nat) : Fld := ⟨R.Q_LEVEL i, 31, 0⟩
/-- Q_ERR (R223, 08_queues_and_checks.md). -/
def R.Q_ERR (i : Nat) : Nat := 0x14000014 + 0x80 * i
def F.Q_ERR_SPILL_FAIL (i : Nat) : Fld := ⟨R.Q_ERR i, 4, 4⟩
def F.Q_ERR_REWIND_FAIL (i : Nat) : Fld := ⟨R.Q_ERR i, 3, 3⟩
def F.Q_ERR_MARK_LOST (i : Nat) : Fld := ⟨R.Q_ERR i, 2, 2⟩
def F.Q_ERR_POISON (i : Nat) : Fld := ⟨R.Q_ERR i, 1, 1⟩
def F.Q_ERR_OVERRUN (i : Nat) : Fld := ⟨R.Q_ERR i, 0, 0⟩
/-- Q_CNT (R223, 08_queues_and_checks.md). -/
def R.Q_CNT (i : Nat) : Nat := 0x14000018 + 0x80 * i
def F.Q_CNT_REFUSED (i : Nat) : Fld := ⟨R.Q_CNT i, 31, 16⟩
def F.Q_CNT_POISON (i : Nat) : Fld := ⟨R.Q_CNT i, 15, 0⟩
/-- Q_EVT_EN (R223, 08_queues_and_checks.md). -/
def R.Q_EVT_EN (i : Nat) : Nat := 0x1400001c + 0x80 * i
def F.Q_EVT_EN_EN (i : Nat) : Fld := ⟨R.Q_EVT_EN i, 3, 0⟩
/-- Q_CMD (R223, 08_queues_and_checks.md). -/
def R.Q_CMD (i : Nat) : Nat := 0x14000020 + 0x80 * i
def F.Q_CMD_OP (i : Nat) : Fld := ⟨R.Q_CMD i, 2, 0⟩
/-- Q_CMD_RES (R223, 08_queues_and_checks.md). -/
def R.Q_CMD_RES (i : Nat) : Nat := 0x14000024 + 0x80 * i
def F.Q_CMD_RES_BUSY (i : Nat) : Fld := ⟨R.Q_CMD_RES i, 31, 31⟩
def F.Q_CMD_RES_STATUS (i : Nat) : Fld := ⟨R.Q_CMD_RES i, 23, 16⟩
/-- Q_WR_LO (R223, 08_queues_and_checks.md). -/
def R.Q_WR_LO (i : Nat) : Nat := 0x14000028 + 0x80 * i
def F.Q_WR_LO_DATA (i : Nat) : Fld := ⟨R.Q_WR_LO i, 31, 0⟩
/-- Q_WR_HI (R223, 08_queues_and_checks.md). -/
def R.Q_WR_HI (i : Nat) : Nat := 0x1400002c + 0x80 * i
def F.Q_WR_HI_DATA (i : Nat) : Fld := ⟨R.Q_WR_HI i, 31, 0⟩
/-- Q_WR_TAG (R223, 08_queues_and_checks.md). -/
def R.Q_WR_TAG (i : Nat) : Nat := 0x14000030 + 0x80 * i
def F.Q_WR_TAG_TAG (i : Nat) : Fld := ⟨R.Q_WR_TAG i, 5, 0⟩
/-- Q_POP (R223, 08_queues_and_checks.md). -/
def R.Q_POP (i : Nat) : Nat := 0x14000034 + 0x80 * i
def F.Q_POP_POP (i : Nat) : Fld := ⟨R.Q_POP i, 0, 0⟩
/-- Q_RD_LO (R223, 08_queues_and_checks.md). -/
def R.Q_RD_LO (i : Nat) : Nat := 0x14000038 + 0x80 * i
def F.Q_RD_LO_DATA (i : Nat) : Fld := ⟨R.Q_RD_LO i, 31, 0⟩
/-- Q_RD_HI (R223, 08_queues_and_checks.md). -/
def R.Q_RD_HI (i : Nat) : Nat := 0x1400003c + 0x80 * i
def F.Q_RD_HI_DATA (i : Nat) : Fld := ⟨R.Q_RD_HI i, 31, 0⟩
/-- Q_RD_TAG (R223, 08_queues_and_checks.md). -/
def R.Q_RD_TAG (i : Nat) : Nat := 0x14000040 + 0x80 * i
def F.Q_RD_TAG_VALID (i : Nat) : Fld := ⟨R.Q_RD_TAG i, 31, 31⟩
def F.Q_RD_TAG_POISON (i : Nat) : Fld := ⟨R.Q_RD_TAG i, 6, 6⟩
def F.Q_RD_TAG_TAG (i : Nat) : Fld := ⟨R.Q_RD_TAG i, 5, 0⟩
/-- CRC_CTL (R230, 08_queues_and_checks.md). -/
def R.CRC_CTL (i : Nat) : Nat := 0x14010000 + 0x100 * i
def F.CRC_CTL_EN (i : Nat) : Fld := ⟨R.CRC_CTL i, 31, 31⟩
def F.CRC_CTL_RUN (i : Nat) : Fld := ⟨R.CRC_CTL i, 30, 30⟩
def F.CRC_CTL_REFIN (i : Nat) : Fld := ⟨R.CRC_CTL i, 29, 29⟩
def F.CRC_CTL_REFOUT (i : Nat) : Fld := ⟨R.CRC_CTL i, 28, 28⟩
def F.CRC_CTL_CMP_EN (i : Nat) : Fld := ⟨R.CRC_CTL i, 27, 27⟩
def F.CRC_CTL_SKIP_HDR (i : Nat) : Fld := ⟨R.CRC_CTL i, 26, 26⟩
def F.CRC_CTL_LASTB (i : Nat) : Fld := ⟨R.CRC_CTL i, 25, 23⟩
def F.CRC_CTL_RESQ_EN (i : Nat) : Fld := ⟨R.CRC_CTL i, 22, 22⟩
def F.CRC_CTL_RES_Q (i : Nat) : Fld := ⟨R.CRC_CTL i, 21, 16⟩
def F.CRC_CTL_WIDTH (i : Nat) : Fld := ⟨R.CRC_CTL i, 5, 0⟩
/-- CRC_ATTACH (R230, 08_queues_and_checks.md). -/
def R.CRC_ATTACH (i : Nat) : Nat := 0x14010004 + 0x100 * i
def F.CRC_ATTACH_KIND (i : Nat) : Fld := ⟨R.CRC_ATTACH i, 31, 29⟩
def F.CRC_ATTACH_INDEX (i : Nat) : Fld := ⟨R.CRC_ATTACH i, 5, 0⟩
/-- CRC_POLY_LO (R230, 08_queues_and_checks.md). -/
def R.CRC_POLY_LO (i : Nat) : Nat := 0x14010008 + 0x100 * i
def F.CRC_POLY_LO_V (i : Nat) : Fld := ⟨R.CRC_POLY_LO i, 31, 0⟩
/-- CRC_POLY_HI (R230, 08_queues_and_checks.md). -/
def R.CRC_POLY_HI (i : Nat) : Nat := 0x1401000c + 0x100 * i
def F.CRC_POLY_HI_V (i : Nat) : Fld := ⟨R.CRC_POLY_HI i, 31, 0⟩
/-- CRC_INIT_LO (R230, 08_queues_and_checks.md). -/
def R.CRC_INIT_LO (i : Nat) : Nat := 0x14010010 + 0x100 * i
def F.CRC_INIT_LO_V (i : Nat) : Fld := ⟨R.CRC_INIT_LO i, 31, 0⟩
/-- CRC_INIT_HI (R230, 08_queues_and_checks.md). -/
def R.CRC_INIT_HI (i : Nat) : Nat := 0x14010014 + 0x100 * i
def F.CRC_INIT_HI_V (i : Nat) : Fld := ⟨R.CRC_INIT_HI i, 31, 0⟩
/-- CRC_XOR_LO (R230, 08_queues_and_checks.md). -/
def R.CRC_XOR_LO (i : Nat) : Nat := 0x14010018 + 0x100 * i
def F.CRC_XOR_LO_V (i : Nat) : Fld := ⟨R.CRC_XOR_LO i, 31, 0⟩
/-- CRC_XOR_HI (R230, 08_queues_and_checks.md). -/
def R.CRC_XOR_HI (i : Nat) : Nat := 0x1401001c + 0x100 * i
def F.CRC_XOR_HI_V (i : Nat) : Fld := ⟨R.CRC_XOR_HI i, 31, 0⟩
/-- CRC_EXP_LO (R230, 08_queues_and_checks.md). -/
def R.CRC_EXP_LO (i : Nat) : Nat := 0x14010020 + 0x100 * i
def F.CRC_EXP_LO_V (i : Nat) : Fld := ⟨R.CRC_EXP_LO i, 31, 0⟩
/-- CRC_EXP_HI (R230, 08_queues_and_checks.md). -/
def R.CRC_EXP_HI (i : Nat) : Nat := 0x14010024 + 0x100 * i
def F.CRC_EXP_HI_V (i : Nat) : Fld := ⟨R.CRC_EXP_HI i, 31, 0⟩
/-- CRC_RES_LO (R230, 08_queues_and_checks.md). -/
def R.CRC_RES_LO (i : Nat) : Nat := 0x14010028 + 0x100 * i
def F.CRC_RES_LO_V (i : Nat) : Fld := ⟨R.CRC_RES_LO i, 31, 0⟩
/-- CRC_RES_HI (R230, 08_queues_and_checks.md). -/
def R.CRC_RES_HI (i : Nat) : Nat := 0x1401002c + 0x100 * i
def F.CRC_RES_HI_V (i : Nat) : Fld := ⟨R.CRC_RES_HI i, 31, 0⟩
/-- CRC_CNT (R230, 08_queues_and_checks.md). -/
def R.CRC_CNT (i : Nat) : Nat := 0x14010030 + 0x100 * i
def F.CRC_CNT_PKTS (i : Nat) : Fld := ⟨R.CRC_CNT i, 31, 0⟩
/-- CRC_MIS (R230, 08_queues_and_checks.md). -/
def R.CRC_MIS (i : Nat) : Nat := 0x14010034 + 0x100 * i
def F.CRC_MIS_CNT (i : Nat) : Fld := ⟨R.CRC_MIS i, 31, 0⟩
/-- CRC_CMD (R230, 08_queues_and_checks.md). -/
def R.CRC_CMD (i : Nat) : Nat := 0x14010038 + 0x100 * i
def F.CRC_CMD_CNT_CLR (i : Nat) : Fld := ⟨R.CRC_CMD i, 1, 1⟩
def F.CRC_CMD_RESTART (i : Nat) : Fld := ⟨R.CRC_CMD i, 0, 0⟩
/-- CRC_SCAN_ADDR_LO (R230, 08_queues_and_checks.md). -/
def R.CRC_SCAN_ADDR_LO (i : Nat) : Nat := 0x14010040 + 0x100 * i
def F.CRC_SCAN_ADDR_LO_ADDR (i : Nat) : Fld := ⟨R.CRC_SCAN_ADDR_LO i, 31, 0⟩
/-- CRC_SCAN_ADDR_HI (R230, 08_queues_and_checks.md). -/
def R.CRC_SCAN_ADDR_HI (i : Nat) : Nat := 0x14010044 + 0x100 * i
def F.CRC_SCAN_ADDR_HI_CH (i : Nat) : Fld := ⟨R.CRC_SCAN_ADDR_HI i, 5, 4⟩
def F.CRC_SCAN_ADDR_HI_ADDR (i : Nat) : Fld := ⟨R.CRC_SCAN_ADDR_HI i, 3, 0⟩
/-- CRC_SCAN_LEN (R230, 08_queues_and_checks.md). -/
def R.CRC_SCAN_LEN (i : Nat) : Nat := 0x14010048 + 0x100 * i
def F.CRC_SCAN_LEN_BYTES (i : Nat) : Fld := ⟨R.CRC_SCAN_LEN i, 31, 0⟩
/-- CRC_SCAN_CTL (R230, 08_queues_and_checks.md). -/
def R.CRC_SCAN_CTL (i : Nat) : Nat := 0x1401004c + 0x100 * i
def F.CRC_SCAN_CTL_ABORT (i : Nat) : Fld := ⟨R.CRC_SCAN_CTL i, 1, 1⟩
def F.CRC_SCAN_CTL_GO (i : Nat) : Fld := ⟨R.CRC_SCAN_CTL i, 0, 0⟩
/-- CRC_SCAN_STAT (R230, 08_queues_and_checks.md). -/
def R.CRC_SCAN_STAT (i : Nat) : Nat := 0x14010050 + 0x100 * i
def F.CRC_SCAN_STAT_BUSY (i : Nat) : Fld := ⟨R.CRC_SCAN_STAT i, 31, 31⟩
def F.CRC_SCAN_STAT_DONE (i : Nat) : Fld := ⟨R.CRC_SCAN_STAT i, 30, 30⟩
def F.CRC_SCAN_STAT_ERR (i : Nat) : Fld := ⟨R.CRC_SCAN_STAT i, 29, 29⟩
def F.CRC_SCAN_STAT_CODE (i : Nat) : Fld := ⟨R.CRC_SCAN_STAT i, 28, 26⟩
/-- CRC_SCAN_RES_LO (R230, 08_queues_and_checks.md). -/
def R.CRC_SCAN_RES_LO (i : Nat) : Nat := 0x14010054 + 0x100 * i
def F.CRC_SCAN_RES_LO_RES (i : Nat) : Fld := ⟨R.CRC_SCAN_RES_LO i, 31, 0⟩
/-- CRC_SCAN_RES_HI (R230, 08_queues_and_checks.md). -/
def R.CRC_SCAN_RES_HI (i : Nat) : Nat := 0x14010058 + 0x100 * i
def F.CRC_SCAN_RES_HI_RES (i : Nat) : Fld := ⟨R.CRC_SCAN_RES_HI i, 31, 0⟩
/-- XING_ERR (R249, 09_crossings.md). -/
def R.XING_ERR : Nat := 0x14020000
def F.XING_ERR_VALID : Fld := ⟨R.XING_ERR, 31, 31⟩
def F.XING_ERR_CAUSE : Fld := ⟨R.XING_ERR, 30, 28⟩
def F.XING_ERR_KIND : Fld := ⟨R.XING_ERR, 27, 24⟩
def F.XING_ERR_INSTANCE : Fld := ⟨R.XING_ERR, 15, 0⟩
/-- XING_EVT_EN (R249, 09_crossings.md). -/
def R.XING_EVT_EN : Nat := 0x14020004
def F.XING_EVT_EN_PEER_RESET : Fld := ⟨R.XING_EVT_EN, 2, 2⟩
def F.XING_EVT_EN_LOST : Fld := ⟨R.XING_EVT_EN, 1, 1⟩
def F.XING_EVT_EN_TIMEOUT : Fld := ⟨R.XING_EVT_EN, 0, 0⟩
/-- XING_CNT_CLR (R249, 09_crossings.md). -/
def R.XING_CNT_CLR : Nat := 0x14020008
def F.XING_CNT_CLR_ALL : Fld := ⟨R.XING_CNT_CLR, 0, 0⟩
/-- XING_CFG (R249, 09_crossings.md). -/
def R.XING_CFG (i : Nat) : Nat := 0x14020100 + 0x10 * i
def F.XING_CFG_UNIT (i : Nat) : Fld := ⟨R.XING_CFG i, 17, 16⟩
def F.XING_CFG_COUNT (i : Nat) : Fld := ⟨R.XING_CFG i, 15, 0⟩
/-- XING_CNT_A (R249, 09_crossings.md). -/
def R.XING_CNT_A (i : Nat) : Nat := 0x14020104 + 0x10 * i
def F.XING_CNT_A_TIMEOUTS (i : Nat) : Fld := ⟨R.XING_CNT_A i, 31, 16⟩
def F.XING_CNT_A_LATE (i : Nat) : Fld := ⟨R.XING_CNT_A i, 15, 0⟩
/-- XING_CNT_B (R249, 09_crossings.md). -/
def R.XING_CNT_B (i : Nat) : Nat := 0x14020108 + 0x10 * i
def F.XING_CNT_B_LOST (i : Nat) : Fld := ⟨R.XING_CNT_B i, 31, 16⟩
def F.XING_CNT_B_PEER_RESET (i : Nat) : Fld := ⟨R.XING_CNT_B i, 15, 0⟩
/-- XING_STAT (R249, 09_crossings.md). -/
def R.XING_STAT (i : Nat) : Nat := 0x1402010c + 0x10 * i
def F.XING_STAT_PEER_RESET (i : Nat) : Fld := ⟨R.XING_STAT i, 3, 3⟩
def F.XING_STAT_LOST (i : Nat) : Fld := ⟨R.XING_STAT i, 2, 2⟩
def F.XING_STAT_LATE (i : Nat) : Fld := ⟨R.XING_STAT i, 1, 1⟩
def F.XING_STAT_TIMEOUT (i : Nat) : Fld := ⟨R.XING_STAT i, 0, 0⟩
/-- DMC_CFG (R271, 10_dram_controller.md). -/
def R.DMC_CFG (i : Nat) : Nat := 0x15000000 + 0x1000 * i
def F.DMC_CFG_EN (i : Nat) : Fld := ⟨R.DMC_CFG i, 31, 31⟩
def F.DMC_CFG_BIN (i : Nat) : Fld := ⟨R.DMC_CFG i, 30, 29⟩
def F.DMC_CFG_X4 (i : Nat) : Fld := ⟨R.DMC_CFG i, 28, 28⟩
def F.DMC_CFG_DENS (i : Nat) : Fld := ⟨R.DMC_CFG i, 27, 26⟩
def F.DMC_CFG_RANKS2 (i : Nat) : Fld := ⟨R.DMC_CFG i, 25, 25⟩
def F.DMC_CFG_RDIMM (i : Nat) : Fld := ⟨R.DMC_CFG i, 24, 24⟩
/-- DMC_STAT (R271, 10_dram_controller.md). -/
def R.DMC_STAT (i : Nat) : Nat := 0x15000004 + 0x1000 * i
def F.DMC_STAT_STATE (i : Nat) : Fld := ⟨R.DMC_STAT i, 31, 30⟩
def F.DMC_STAT_CAUSE (i : Nat) : Fld := ⟨R.DMC_STAT i, 29, 26⟩
def F.DMC_STAT_PANIC (i : Nat) : Fld := ⟨R.DMC_STAT i, 25, 25⟩
def F.DMC_STAT_SELFREF (i : Nat) : Fld := ⟨R.DMC_STAT i, 24, 24⟩
def F.DMC_STAT_C0_OUT (i : Nat) : Fld := ⟨R.DMC_STAT i, 4, 0⟩
/-- DMC_CAP (R271, 10_dram_controller.md). -/
def R.DMC_CAP (i : Nat) : Nat := 0x15000008 + 0x1000 * i
def F.DMC_CAP_SIZE (i : Nat) : Fld := ⟨R.DMC_CAP i, 20, 0⟩
/-- DMC_SCHED (R271, 10_dram_controller.md). -/
def R.DMC_SCHED (i : Nat) : Nat := 0x1500000c + 0x1000 * i
def F.DMC_SCHED_AGE (i : Nat) : Fld := ⟨R.DMC_SCHED i, 7, 0⟩
/-- DMC_REF (R271, 10_dram_controller.md). -/
def R.DMC_REF (i : Nat) : Nat := 0x15000010 + 0x1000 * i
def F.DMC_REF_FORCED (i : Nat) : Fld := ⟨R.DMC_REF i, 31, 16⟩
def F.DMC_REF_HALF1 (i : Nat) : Fld := ⟨R.DMC_REF i, 9, 9⟩
def F.DMC_REF_HALF0 (i : Nat) : Fld := ⟨R.DMC_REF i, 8, 8⟩
def F.DMC_REF_OWED1 (i : Nat) : Fld := ⟨R.DMC_REF i, 7, 4⟩
def F.DMC_REF_OWED0 (i : Nat) : Fld := ⟨R.DMC_REF i, 3, 0⟩
/-- DMC_ECC_CNT (R271, 10_dram_controller.md). -/
def R.DMC_ECC_CNT (i : Nat) : Nat := 0x15000014 + 0x1000 * i
def F.DMC_ECC_CNT_CORR (i : Nat) : Fld := ⟨R.DMC_ECC_CNT i, 31, 16⟩
def F.DMC_ECC_CNT_UNCORR (i : Nat) : Fld := ⟨R.DMC_ECC_CNT i, 15, 0⟩
/-- DMC_ERR (R271, 10_dram_controller.md). -/
def R.DMC_ERR (i : Nat) : Nat := 0x15000018 + 0x1000 * i
def F.DMC_ERR_VALID (i : Nat) : Fld := ⟨R.DMC_ERR i, 31, 31⟩
def F.DMC_ERR_PORT (i : Nat) : Fld := ⟨R.DMC_ERR i, 30, 27⟩
/-- DMC_ERR_LINE (R271, 10_dram_controller.md). -/
def R.DMC_ERR_LINE (i : Nat) : Nat := 0x1500001c + 0x1000 * i
def F.DMC_ERR_LINE_LINE (i : Nat) : Fld := ⟨R.DMC_ERR_LINE i, 29, 0⟩
/-- DMC_SPARE_CFG (R271, 10_dram_controller.md). -/
def R.DMC_SPARE_CFG (i : Nat) : Nat := 0x15000020 + 0x1000 * i
def F.DMC_SPARE_CFG_AUTO (i : Nat) : Fld := ⟨R.DMC_SPARE_CFG i, 31, 31⟩
def F.DMC_SPARE_CFG_THRESH (i : Nat) : Fld := ⟨R.DMC_SPARE_CFG i, 3, 0⟩
/-- DMC_CMD (R271, 10_dram_controller.md). -/
def R.DMC_CMD (i : Nat) : Nat := 0x15000024 + 0x1000 * i
def F.DMC_CMD_OP (i : Nat) : Fld := ⟨R.DMC_CMD i, 31, 28⟩
def F.DMC_CMD_SUBCH (i : Nat) : Fld := ⟨R.DMC_CMD i, 27, 27⟩
def F.DMC_CMD_RANK (i : Nat) : Fld := ⟨R.DMC_CMD i, 26, 26⟩
def F.DMC_CMD_BANK (i : Nat) : Fld := ⟨R.DMC_CMD i, 25, 21⟩
def F.DMC_CMD_ROW (i : Nat) : Fld := ⟨R.DMC_CMD i, 16, 0⟩
/-- DMC_CMD_RES (R271, 10_dram_controller.md). -/
def R.DMC_CMD_RES (i : Nat) : Nat := 0x15000028 + 0x1000 * i
def F.DMC_CMD_RES_BUSY (i : Nat) : Fld := ⟨R.DMC_CMD_RES i, 31, 31⟩
def F.DMC_CMD_RES_STATUS (i : Nat) : Fld := ⟨R.DMC_CMD_RES i, 23, 16⟩
/-- DMC_EVT_EN (R271, 10_dram_controller.md). -/
def R.DMC_EVT_EN (i : Nat) : Nat := 0x1500002c + 0x1000 * i
def F.DMC_EVT_EN_EN (i : Nat) : Fld := ⟨R.DMC_EVT_EN i, 6, 0⟩
/-- DMC_CNT_CLR (R271, 10_dram_controller.md). -/
def R.DMC_CNT_CLR (i : Nat) : Nat := 0x15000030 + 0x1000 * i
def F.DMC_CNT_CLR_REF (i : Nat) : Fld := ⟨R.DMC_CNT_CLR i, 1, 1⟩
def F.DMC_CNT_CLR_ECC (i : Nat) : Fld := ⟨R.DMC_CNT_CLR i, 0, 0⟩
/-- DMC_PORT_CFG (R271, 10_dram_controller.md). -/
def R.DMC_PORT_CFG (i j : Nat) : Nat := 0x15000100 + 0x1000 * i + 0x4 * j
def F.DMC_PORT_CFG_EN (i j : Nat) : Fld := ⟨R.DMC_PORT_CFG i j, 31, 31⟩
def F.DMC_PORT_CFG_CLASS (i j : Nat) : Fld := ⟨R.DMC_PORT_CFG i j, 30, 29⟩
def F.DMC_PORT_CFG_PANIC (i j : Nat) : Fld := ⟨R.DMC_PORT_CFG i j, 28, 24⟩
def F.DMC_PORT_CFG_CREDITS (i j : Nat) : Fld := ⟨R.DMC_PORT_CFG i j, 23, 19⟩
def F.DMC_PORT_CFG_RATE (i j : Nat) : Fld := ⟨R.DMC_PORT_CFG i j, 7, 0⟩
/-- DMC_SPARE (R271, 10_dram_controller.md). -/
def R.DMC_SPARE (i j : Nat) : Nat := 0x15000200 + 0x1000 * i + 0x4 * j
def F.DMC_SPARE_STATE (i j : Nat) : Fld := ⟨R.DMC_SPARE i j, 31, 30⟩
def F.DMC_SPARE_SUBCH (i j : Nat) : Fld := ⟨R.DMC_SPARE i j, 29, 29⟩
def F.DMC_SPARE_RANK (i j : Nat) : Fld := ⟨R.DMC_SPARE i j, 28, 28⟩
def F.DMC_SPARE_BANK (i j : Nat) : Fld := ⟨R.DMC_SPARE i j, 27, 23⟩
def F.DMC_SPARE_ROW (i j : Nat) : Fld := ⟨R.DMC_SPARE i j, 16, 0⟩
/-- SLK_ID (R303, 11_links_and_time.md). -/
def R.SLK_ID : Nat := 0x16000000
def F.SLK_ID_VALID : Fld := ⟨R.SLK_ID, 31, 31⟩
def F.SLK_ID_PREFIX : Fld := ⟨R.SLK_ID, 22, 16⟩
def F.SLK_ID_ID : Fld := ⟨R.SLK_ID, 10, 0⟩
/-- SLK_CFG (R303, 11_links_and_time.md). -/
def R.SLK_CFG : Nat := 0x16000004
def F.SLK_CFG_KROOT : Fld := ⟨R.SLK_CFG, 31, 31⟩
def F.SLK_CFG_KLEAD : Fld := ⟨R.SLK_CFG, 15, 0⟩
/-- SLK_EVT_EN (R303, 11_links_and_time.md). -/
def R.SLK_EVT_EN : Nat := 0x16000008
def F.SLK_EVT_EN_EN : Fld := ⟨R.SLK_EVT_EN, 4, 0⟩
/-- SLK_CHAN_RST (R303, 11_links_and_time.md). -/
def R.SLK_CHAN_RST : Nat := 0x1600000c
def F.SLK_CHAN_RST_GO : Fld := ⟨R.SLK_CHAN_RST, 31, 31⟩
def F.SLK_CHAN_RST_CHAN : Fld := ⟨R.SLK_CHAN_RST, 7, 0⟩
/-- SLK_PORT_CTL (R303, 11_links_and_time.md). -/
def R.SLK_PORT_CTL (i : Nat) : Nat := 0x16000100 + 0x20 * i
def F.SLK_PORT_CTL_EN (i : Nat) : Fld := ⟨R.SLK_PORT_CTL i, 31, 31⟩
def F.SLK_PORT_CTL_MCAST (i : Nat) : Fld := ⟨R.SLK_PORT_CTL i, 30, 30⟩
def F.SLK_PORT_CTL_PFX_EN (i : Nat) : Fld := ⟨R.SLK_PORT_CTL i, 29, 29⟩
def F.SLK_PORT_CTL_PFX_OUT (i : Nat) : Fld := ⟨R.SLK_PORT_CTL i, 28, 22⟩
def F.SLK_PORT_CTL_ASYM (i : Nat) : Fld := ⟨R.SLK_PORT_CTL i, 15, 0⟩
/-- SLK_PORT_STAT (R303, 11_links_and_time.md). -/
def R.SLK_PORT_STAT (i : Nat) : Nat := 0x16000104 + 0x20 * i
def F.SLK_PORT_STAT_STATE (i : Nat) : Fld := ⟨R.SLK_PORT_STAT i, 31, 29⟩
def F.SLK_PORT_STAT_FAILED (i : Nat) : Fld := ⟨R.SLK_PORT_STAT i, 28, 24⟩
def F.SLK_PORT_STAT_PEER_HOLD (i : Nat) : Fld := ⟨R.SLK_PORT_STAT i, 23, 23⟩
def F.SLK_PORT_STAT_PEER_ID (i : Nat) : Fld := ⟨R.SLK_PORT_STAT i, 22, 12⟩
def F.SLK_PORT_STAT_PEER_VALID (i : Nat) : Fld := ⟨R.SLK_PORT_STAT i, 11, 11⟩
/-- SLK_PORT_CNT (R303, 11_links_and_time.md). -/
def R.SLK_PORT_CNT (i : Nat) : Nat := 0x16000108 + 0x20 * i
def F.SLK_PORT_CNT_REPLAYS (i : Nat) : Fld := ⟨R.SLK_PORT_CNT i, 31, 16⟩
def F.SLK_PORT_CNT_CRC (i : Nat) : Fld := ⟨R.SLK_PORT_CNT i, 15, 0⟩
/-- SLK_PORT_DROP (R303, 11_links_and_time.md). -/
def R.SLK_PORT_DROP (i : Nat) : Nat := 0x1600010c + 0x20 * i
def F.SLK_PORT_DROP_DROPS (i : Nat) : Fld := ⟨R.SLK_PORT_DROP i, 31, 16⟩
def F.SLK_PORT_DROP_HOLDS (i : Nat) : Fld := ⟨R.SLK_PORT_DROP i, 15, 0⟩
/-- SLK_PORT_DLY (R303, 11_links_and_time.md). -/
def R.SLK_PORT_DLY (i : Nat) : Nat := 0x16000110 + 0x20 * i
def F.SLK_PORT_DLY_DELAY (i : Nat) : Fld := ⟨R.SLK_PORT_DLY i, 15, 0⟩
/-- SLK_GROUP (R303, 11_links_and_time.md). -/
def R.SLK_GROUP (i : Nat) : Nat := 0x16000400 + 0x4 * i
def F.SLK_GROUP_MEMBER (i : Nat) : Fld := ⟨R.SLK_GROUP i, 31, 0⟩
/-- SLK_ROUTE (R303, 11_links_and_time.md). -/
def R.SLK_ROUTE (i : Nat) : Nat := 0x16001000 + 0x4 * i
def F.SLK_ROUTE_ALT0 (i : Nat) : Fld := ⟨R.SLK_ROUTE i, 5, 3⟩
def F.SLK_ROUTE_PRI0 (i : Nat) : Fld := ⟨R.SLK_ROUTE i, 2, 0⟩
def F.SLK_ROUTE_ALT1 (i : Nat) : Fld := ⟨R.SLK_ROUTE i, 13, 11⟩
def F.SLK_ROUTE_PRI1 (i : Nat) : Fld := ⟨R.SLK_ROUTE i, 10, 8⟩
def F.SLK_ROUTE_ALT2 (i : Nat) : Fld := ⟨R.SLK_ROUTE i, 21, 19⟩
def F.SLK_ROUTE_PRI2 (i : Nat) : Fld := ⟨R.SLK_ROUTE i, 18, 16⟩
def F.SLK_ROUTE_ALT3 (i : Nat) : Fld := ⟨R.SLK_ROUTE i, 29, 27⟩
def F.SLK_ROUTE_PRI3 (i : Nat) : Fld := ⟨R.SLK_ROUTE i, 26, 24⟩
/-- SLK_CHAN_CFG (R303, 11_links_and_time.md). -/
def R.SLK_CHAN_CFG (i : Nat) : Nat := 0x16002000 + 0x8 * i
def F.SLK_CHAN_CFG_EN (i : Nat) : Fld := ⟨R.SLK_CHAN_CFG i, 31, 31⟩
def F.SLK_CHAN_CFG_DIR (i : Nat) : Fld := ⟨R.SLK_CHAN_CFG i, 30, 30⟩
def F.SLK_CHAN_CFG_CLASS (i : Nat) : Fld := ⟨R.SLK_CHAN_CFG i, 29, 28⟩
def F.SLK_CHAN_CFG_CREDITS (i : Nat) : Fld := ⟨R.SLK_CHAN_CFG i, 27, 24⟩
def F.SLK_CHAN_CFG_DEST (i : Nat) : Fld := ⟨R.SLK_CHAN_CFG i, 23, 12⟩
def F.SLK_CHAN_CFG_STALL (i : Nat) : Fld := ⟨R.SLK_CHAN_CFG i, 11, 11⟩
def F.SLK_CHAN_CFG_RCH (i : Nat) : Fld := ⟨R.SLK_CHAN_CFG i, 7, 0⟩
/-- SLK_CHAN_RATE (R303, 11_links_and_time.md). -/
def R.SLK_CHAN_RATE (i : Nat) : Nat := 0x16002004 + 0x8 * i
def F.SLK_CHAN_RATE_RATE (i : Nat) : Fld := ⟨R.SLK_CHAN_RATE i, 7, 0⟩
/-- ETH_CFG (R304, 11_links_and_time.md). -/
def R.ETH_CFG (i : Nat) : Nat := 0x16100000 + 0x100 * i
def F.ETH_CFG_EN (i : Nat) : Fld := ⟨R.ETH_CFG i, 31, 31⟩
def F.ETH_CFG_RATE (i : Nat) : Fld := ⟨R.ETH_CFG i, 30, 29⟩
def F.ETH_CFG_FEC (i : Nat) : Fld := ⟨R.ETH_CFG i, 28, 28⟩
def F.ETH_CFG_MAXLEN (i : Nat) : Fld := ⟨R.ETH_CFG i, 13, 0⟩
/-- ETH_STAT (R304, 11_links_and_time.md). -/
def R.ETH_STAT (i : Nat) : Nat := 0x16100004 + 0x100 * i
def F.ETH_STAT_LINK (i : Nat) : Fld := ⟨R.ETH_STAT i, 31, 31⟩
def F.ETH_STAT_IDLE (i : Nat) : Fld := ⟨R.ETH_STAT i, 30, 30⟩
/-- ETH_RX_CNT (R304, 11_links_and_time.md). -/
def R.ETH_RX_CNT (i : Nat) : Nat := 0x16100008 + 0x100 * i
def F.ETH_RX_CNT_FRAMES (i : Nat) : Fld := ⟨R.ETH_RX_CNT i, 31, 0⟩
/-- ETH_TX_CNT (R304, 11_links_and_time.md). -/
def R.ETH_TX_CNT (i : Nat) : Nat := 0x1610000c + 0x100 * i
def F.ETH_TX_CNT_FRAMES (i : Nat) : Fld := ⟨R.ETH_TX_CNT i, 31, 0⟩
/-- ETH_ERR_CNT (R304, 11_links_and_time.md). -/
def R.ETH_ERR_CNT (i : Nat) : Nat := 0x16100010 + 0x100 * i
def F.ETH_ERR_CNT_FRAMES (i : Nat) : Fld := ⟨R.ETH_ERR_CNT i, 31, 0⟩
/-- ETH_TS_ADJ (R304, 11_links_and_time.md). -/
def R.ETH_TS_ADJ (i : Nat) : Nat := 0x16100014 + 0x100 * i
def F.ETH_TS_ADJ_RX (i : Nat) : Fld := ⟨R.ETH_TS_ADJ i, 31, 16⟩
def F.ETH_TS_ADJ_TX (i : Nat) : Fld := ⟨R.ETH_TS_ADJ i, 15, 0⟩
/-- ETH_TXTS_STAT (R304, 11_links_and_time.md). -/
def R.ETH_TXTS_STAT (i : Nat) : Nat := 0x16100018 + 0x100 * i
def F.ETH_TXTS_STAT_VALID (i : Nat) : Fld := ⟨R.ETH_TXTS_STAT i, 31, 31⟩
def F.ETH_TXTS_STAT_OVF (i : Nat) : Fld := ⟨R.ETH_TXTS_STAT i, 30, 30⟩
def F.ETH_TXTS_STAT_LEVEL (i : Nat) : Fld := ⟨R.ETH_TXTS_STAT i, 4, 0⟩
/-- ETH_TXTS_TAG (R304, 11_links_and_time.md). -/
def R.ETH_TXTS_TAG (i : Nat) : Nat := 0x1610001c + 0x100 * i
def F.ETH_TXTS_TAG_TAG (i : Nat) : Fld := ⟨R.ETH_TXTS_TAG i, 7, 0⟩
/-- ETH_TXTS_LO (R304, 11_links_and_time.md). -/
def R.ETH_TXTS_LO (i : Nat) : Nat := 0x16100020 + 0x100 * i
def F.ETH_TXTS_LO_MT (i : Nat) : Fld := ⟨R.ETH_TXTS_LO i, 31, 0⟩
/-- ETH_TXTS_HI (R304, 11_links_and_time.md). -/
def R.ETH_TXTS_HI (i : Nat) : Nat := 0x16100024 + 0x100 * i
def F.ETH_TXTS_HI_MT (i : Nat) : Fld := ⟨R.ETH_TXTS_HI i, 31, 0⟩
/-- ETH_EVT_EN (R304, 11_links_and_time.md). -/
def R.ETH_EVT_EN (i : Nat) : Nat := 0x16100028 + 0x100 * i
def F.ETH_EVT_EN_OVF (i : Nat) : Fld := ⟨R.ETH_EVT_EN i, 1, 1⟩
def F.ETH_EVT_EN_LINK (i : Nat) : Fld := ⟨R.ETH_EVT_EN i, 0, 0⟩
/-- MT_NOW_LO (R305, 11_links_and_time.md). -/
def R.MT_NOW_LO : Nat := 0x16200000
def F.MT_NOW_LO_MT : Fld := ⟨R.MT_NOW_LO, 31, 0⟩
/-- MT_NOW_HI (R305, 11_links_and_time.md). -/
def R.MT_NOW_HI : Nat := 0x16200004
def F.MT_NOW_HI_MT : Fld := ⟨R.MT_NOW_HI, 31, 0⟩
/-- MT_CFG (R305, 11_links_and_time.md). -/
def R.MT_CFG : Nat := 0x16200008
def F.MT_CFG_ROOT : Fld := ⟨R.MT_CFG, 31, 31⟩
def F.MT_CFG_UP_PORT : Fld := ⟨R.MT_CFG, 27, 26⟩
def F.MT_CFG_ALT_EN : Fld := ⟨R.MT_CFG, 25, 25⟩
def F.MT_CFG_ALT_PORT : Fld := ⟨R.MT_CFG, 24, 23⟩
/-- MT_STAT (R305, 11_links_and_time.md). -/
def R.MT_STAT : Nat := 0x1620000c
def F.MT_STAT_LOCKED : Fld := ⟨R.MT_STAT, 31, 31⟩
def F.MT_STAT_HOLDOVER : Fld := ⟨R.MT_STAT, 30, 30⟩
def F.MT_STAT_ON_ALT : Fld := ⟨R.MT_STAT, 29, 29⟩
def F.MT_STAT_OFFSET : Fld := ⟨R.MT_STAT, 23, 0⟩
/-- MT_RATE (R305, 11_links_and_time.md). -/
def R.MT_RATE : Nat := 0x16200010
def F.MT_RATE_TARGET : Fld := ⟨R.MT_RATE, 20, 0⟩
/-- MT_RATE_NOW (R305, 11_links_and_time.md). -/
def R.MT_RATE_NOW : Nat := 0x16200014
def F.MT_RATE_NOW_RATE : Fld := ⟨R.MT_RATE_NOW, 20, 0⟩
/-- MT_EPOCH_LO (R305, 11_links_and_time.md). -/
def R.MT_EPOCH_LO : Nat := 0x16200018
def F.MT_EPOCH_LO_EPOCH : Fld := ⟨R.MT_EPOCH_LO, 31, 0⟩
/-- MT_EPOCH_HI (R305, 11_links_and_time.md). -/
def R.MT_EPOCH_HI : Nat := 0x1620001c
def F.MT_EPOCH_HI_EPOCH : Fld := ⟨R.MT_EPOCH_HI, 31, 0⟩
/-- MT_PPS_CFG (R305, 11_links_and_time.md). -/
def R.MT_PPS_CFG : Nat := 0x16200020
def F.MT_PPS_CFG_OUT_EN : Fld := ⟨R.MT_PPS_CFG, 31, 31⟩
def F.MT_PPS_CFG_IN_EN : Fld := ⟨R.MT_PPS_CFG, 30, 30⟩
def F.MT_PPS_CFG_PERIOD : Fld := ⟨R.MT_PPS_CFG, 15, 0⟩
/-- MT_CAP_LO (R305, 11_links_and_time.md). -/
def R.MT_CAP_LO : Nat := 0x16200024
def F.MT_CAP_LO_MT : Fld := ⟨R.MT_CAP_LO, 31, 0⟩
/-- MT_CAP_HI (R305, 11_links_and_time.md). -/
def R.MT_CAP_HI : Nat := 0x16200028
def F.MT_CAP_HI_MT : Fld := ⟨R.MT_CAP_HI, 31, 0⟩
/-- MT_CAP_STAT (R305, 11_links_and_time.md). -/
def R.MT_CAP_STAT : Nat := 0x1620002c
def F.MT_CAP_STAT_VALID : Fld := ⟨R.MT_CAP_STAT, 31, 31⟩
def F.MT_CAP_STAT_MISSED : Fld := ⟨R.MT_CAP_STAT, 30, 30⟩
/-- MT_EVT_EN (R305, 11_links_and_time.md). -/
def R.MT_EVT_EN : Nat := 0x16200030
def F.MT_EVT_EN_KICKOFF : Fld := ⟨R.MT_EVT_EN, 1, 1⟩
def F.MT_EVT_EN_LOCK : Fld := ⟨R.MT_EVT_EN, 0, 0⟩
/-- PIN_CONFLICT (R328, 12_pins.md). -/
def R.PIN_CONFLICT : Nat := 0x10020000
def F.PIN_CONFLICT_SIG : Fld := ⟨R.PIN_CONFLICT, 23, 0⟩
/-- PIN_CONFLICT_LIVE (R328, 12_pins.md). -/
def R.PIN_CONFLICT_LIVE : Nat := 0x10020004
def F.PIN_CONFLICT_LIVE_SIG : Fld := ⟨R.PIN_CONFLICT_LIVE, 23, 0⟩
/-- PIN_EVT_EN (R328, 12_pins.md). -/
def R.PIN_EVT_EN : Nat := 0x10020008
def F.PIN_EVT_EN_EN : Fld := ⟨R.PIN_EVT_EN, 3, 0⟩
/-- PIN_BANK_STAT (R328, 12_pins.md). -/
def R.PIN_BANK_STAT (i : Nat) : Nat := 0x10020100 + 0x40 * i
def F.PIN_BANK_STAT_PREPULL (i : Nat) : Fld := ⟨R.PIN_BANK_STAT i, 31, 30⟩
def F.PIN_BANK_STAT_LOCK (i : Nat) : Fld := ⟨R.PIN_BANK_STAT i, 29, 29⟩
def F.PIN_BANK_STAT_VCCIO_OK (i : Nat) : Fld := ⟨R.PIN_BANK_STAT i, 28, 28⟩
/-- PIN_BANK_PLL (R328, 12_pins.md). -/
def R.PIN_BANK_PLL (i : Nat) : Nat := 0x10020104 + 0x40 * i
def F.PIN_BANK_PLL_EN (i : Nat) : Fld := ⟨R.PIN_BANK_PLL i, 31, 31⟩
def F.PIN_BANK_PLL_FREQ (i : Nat) : Fld := ⟨R.PIN_BANK_PLL i, 19, 0⟩
/-- PIN_PM_CFG (R328, 12_pins.md). -/
def R.PIN_PM_CFG (i j : Nat) : Nat := 0x10020110 + 0x40 * i + 0xc * j
def F.PIN_PM_CFG_MODE (i j : Nat) : Fld := ⟨R.PIN_PM_CFG i j, 31, 30⟩
def F.PIN_PM_CFG_WIN (i j : Nat) : Fld := ⟨R.PIN_PM_CFG i j, 29, 27⟩
/-- PIN_PM_MV (R328, 12_pins.md). -/
def R.PIN_PM_MV (i j : Nat) : Nat := 0x10020114 + 0x40 * i + 0xc * j
def F.PIN_PM_MV_MASK (i j : Nat) : Fld := ⟨R.PIN_PM_MV i j, 31, 16⟩
def F.PIN_PM_MV_VALUE (i j : Nat) : Fld := ⟨R.PIN_PM_MV i j, 15, 0⟩
/-- PIN_PM_STAT (R328, 12_pins.md). -/
def R.PIN_PM_STAT (i j : Nat) : Nat := 0x10020118 + 0x40 * i + 0xc * j
def F.PIN_PM_STAT_HIT (i j : Nat) : Fld := ⟨R.PIN_PM_STAT i j, 31, 31⟩
def F.PIN_PM_STAT_COUNT (i j : Nat) : Fld := ⟨R.PIN_PM_STAT i j, 23, 16⟩
def F.PIN_PM_STAT_LEVELS (i j : Nat) : Fld := ⟨R.PIN_PM_STAT i j, 15, 0⟩
/-- PIN_CFG (R328, 12_pins.md). -/
def R.PIN_CFG (i : Nat) : Nat := 0x10021000 + 0x10 * i
def F.PIN_CFG_OWNER (i : Nat) : Fld := ⟨R.PIN_CFG i, 31, 30⟩
def F.PIN_CFG_FUNC (i : Nat) : Fld := ⟨R.PIN_CFG i, 27, 24⟩
def F.PIN_CFG_SWITCHING (i : Nat) : Fld := ⟨R.PIN_CFG i, 23, 23⟩
def F.PIN_CFG_HELD (i : Nat) : Fld := ⟨R.PIN_CFG i, 22, 22⟩
def F.PIN_CFG_DIS (i : Nat) : Fld := ⟨R.PIN_CFG i, 21, 21⟩
def F.PIN_CFG_SIG (i : Nat) : Fld := ⟨R.PIN_CFG i, 15, 8⟩
/-- PIN_ELEC (R328, 12_pins.md). -/
def R.PIN_ELEC (i : Nat) : Nat := 0x10021004 + 0x10 * i
def F.PIN_ELEC_DEB (i : Nat) : Fld := ⟨R.PIN_ELEC i, 27, 24⟩
def F.PIN_ELEC_DIRQ (i : Nat) : Fld := ⟨R.PIN_ELEC i, 23, 23⟩
def F.PIN_ELEC_LVT (i : Nat) : Fld := ⟨R.PIN_ELEC i, 20, 20⟩
def F.PIN_ELEC_HYST (i : Nat) : Fld := ⟨R.PIN_ELEC i, 19, 19⟩
def F.PIN_ELEC_PULL (i : Nat) : Fld := ⟨R.PIN_ELEC i, 18, 17⟩
def F.PIN_ELEC_SLEW (i : Nat) : Fld := ⟨R.PIN_ELEC i, 16, 16⟩
def F.PIN_ELEC_DRIVE (i : Nat) : Fld := ⟨R.PIN_ELEC i, 15, 13⟩
/-- PIN_FAB (R328, 12_pins.md). -/
def R.PIN_FAB (i : Nat) : Nat := 0x10021008 + 0x10 * i
def F.PIN_FAB_IMODE (i : Nat) : Fld := ⟨R.PIN_FAB i, 31, 30⟩
def F.PIN_FAB_OMODE (i : Nat) : Fld := ⟨R.PIN_FAB i, 29, 28⟩
def F.PIN_FAB_OEREG (i : Nat) : Fld := ⟨R.PIN_FAB i, 27, 27⟩
def F.PIN_FAB_HOME (i : Nat) : Fld := ⟨R.PIN_FAB i, 26, 16⟩
def F.PIN_FAB_IDLY (i : Nat) : Fld := ⟨R.PIN_FAB i, 14, 8⟩
def F.PIN_FAB_ODLY (i : Nat) : Fld := ⟨R.PIN_FAB i, 6, 0⟩
/-- GPIO_OUT (R328, 12_pins.md). -/
def R.GPIO_OUT (i : Nat) : Nat := 0x10020800 + 0x10 * i
def F.GPIO_OUT_MASK (i : Nat) : Fld := ⟨R.GPIO_OUT i, 31, 16⟩
def F.GPIO_OUT_DATA (i : Nat) : Fld := ⟨R.GPIO_OUT i, 15, 0⟩
/-- GPIO_OE (R328, 12_pins.md). -/
def R.GPIO_OE (i : Nat) : Nat := 0x10020804 + 0x10 * i
def F.GPIO_OE_MASK (i : Nat) : Fld := ⟨R.GPIO_OE i, 31, 16⟩
def F.GPIO_OE_DATA (i : Nat) : Fld := ⟨R.GPIO_OE i, 15, 0⟩
/-- GPIO_IN (R328, 12_pins.md). -/
def R.GPIO_IN (i : Nat) : Nat := 0x10020808 + 0x10 * i
def F.GPIO_IN_LEVEL (i : Nat) : Fld := ⟨R.GPIO_IN i, 15, 0⟩
/-- PWR_STATE (R354, 13_supplies_and_states.md). -/
def R.PWR_STATE : Nat := 0x10010000
def F.PWR_STATE_STATE : Fld := ⟨R.PWR_STATE, 31, 28⟩
def F.PWR_STATE_PREV : Fld := ⟨R.PWR_STATE, 27, 24⟩
def F.PWR_STATE_CAUSE : Fld := ⟨R.PWR_STATE, 23, 16⟩
def F.PWR_STATE_RESUMED : Fld := ⟨R.PWR_STATE, 15, 15⟩
def F.PWR_STATE_SAVE_OK : Fld := ⟨R.PWR_STATE, 14, 14⟩
def F.PWR_STATE_FTT_SKIPPED : Fld := ⟨R.PWR_STATE, 13, 13⟩
def F.PWR_STATE_TRANSIT : Fld := ⟨R.PWR_STATE, 12, 12⟩
/-- PWR_CMD (R354, 13_supplies_and_states.md). -/
def R.PWR_CMD : Nat := 0x10010004
def F.PWR_CMD_OP : Fld := ⟨R.PWR_CMD, 31, 28⟩
def F.PWR_CMD_FT_NEXT : Fld := ⟨R.PWR_CMD, 27, 27⟩
/-- PWR_CMD_RES (R354, 13_supplies_and_states.md). -/
def R.PWR_CMD_RES : Nat := 0x10010008
def F.PWR_CMD_RES_BUSY : Fld := ⟨R.PWR_CMD_RES, 31, 31⟩
def F.PWR_CMD_RES_STATUS : Fld := ⟨R.PWR_CMD_RES, 23, 16⟩
/-- PWR_DOM_CMD (R354, 13_supplies_and_states.md). -/
def R.PWR_DOM_CMD : Nat := 0x1001000c
def F.PWR_DOM_CMD_OP : Fld := ⟨R.PWR_DOM_CMD, 31, 30⟩
def F.PWR_DOM_CMD_DOMAIN : Fld := ⟨R.PWR_DOM_CMD, 6, 0⟩
/-- PWR_DOM_RES (R354, 13_supplies_and_states.md). -/
def R.PWR_DOM_RES : Nat := 0x10010010
def F.PWR_DOM_RES_BUSY : Fld := ⟨R.PWR_DOM_RES, 31, 31⟩
def F.PWR_DOM_RES_STATUS : Fld := ⟨R.PWR_DOM_RES, 23, 16⟩
def F.PWR_DOM_RES_DOMAIN : Fld := ⟨R.PWR_DOM_RES, 6, 0⟩
/-- PWR_DOM_ON (R354, 13_supplies_and_states.md). -/
def R.PWR_DOM_ON (i : Nat) : Nat := 0x10010014 + 0x4 * i
def F.PWR_DOM_ON_ON (i : Nat) : Fld := ⟨R.PWR_DOM_ON i, 31, 0⟩
/-- PWR_SUP_STAT (R354, 13_supplies_and_states.md). -/
def R.PWR_SUP_STAT : Nat := 0x10010020
def F.PWR_SUP_STAT_VANA : Fld := ⟨R.PWR_SUP_STAT, 10, 10⟩
def F.PWR_SUP_STAT_VAON : Fld := ⟨R.PWR_SUP_STAT, 9, 9⟩
def F.PWR_SUP_STAT_VDDQ : Fld := ⟨R.PWR_SUP_STAT, 8, 5⟩
def F.PWR_SUP_STAT_VSERT : Fld := ⟨R.PWR_SUP_STAT, 4, 4⟩
def F.PWR_SUP_STAT_VSER : Fld := ⟨R.PWR_SUP_STAT, 3, 3⟩
def F.PWR_SUP_STAT_VCORE : Fld := ⟨R.PWR_SUP_STAT, 2, 2⟩
def F.PWR_SUP_STAT_VAUX : Fld := ⟨R.PWR_SUP_STAT, 1, 1⟩
/-- PWR_SUP_LOSS (R354, 13_supplies_and_states.md). -/
def R.PWR_SUP_LOSS : Nat := 0x10010024
def F.PWR_SUP_LOSS_LOST : Fld := ⟨R.PWR_SUP_LOSS, 10, 1⟩
/-- PWR_RECOV (R354, 13_supplies_and_states.md). -/
def R.PWR_RECOV : Nat := 0x10010028
def F.PWR_RECOV_LIMIT : Fld := ⟨R.PWR_RECOV, 7, 0⟩
/-- PWR_EVT_EN (R354, 13_supplies_and_states.md). -/
def R.PWR_EVT_EN : Nat := 0x1001002c
def F.PWR_EVT_EN_EN : Fld := ⟨R.PWR_EVT_EN, 2, 0⟩
/-- PWR_BLK_RST (R354, 13_supplies_and_states.md). -/
def R.PWR_BLK_RST : Nat := 0x10010030
def F.PWR_BLK_RST_QUAD : Fld := ⟨R.PWR_BLK_RST, 11, 6⟩
def F.PWR_BLK_RST_DMC : Fld := ⟨R.PWR_BLK_RST, 5, 2⟩
def F.PWR_BLK_RST_HUB : Fld := ⟨R.PWR_BLK_RST, 1, 1⟩
def F.PWR_BLK_RST_ROSTER : Fld := ⟨R.PWR_BLK_RST, 0, 0⟩
/-- PWR_SAVE (R354, 13_supplies_and_states.md). -/
def R.PWR_SAVE : Nat := 0x10010034
def F.PWR_SAVE_CH : Fld := ⟨R.PWR_SAVE, 31, 30⟩
def F.PWR_SAVE_BASE : Fld := ⟨R.PWR_SAVE, 23, 12⟩
def F.PWR_SAVE_SIZE : Fld := ⟨R.PWR_SAVE, 11, 0⟩
/-- PWR_SAVE_NEED (R354, 13_supplies_and_states.md). -/
def R.PWR_SAVE_NEED : Nat := 0x10010038
def F.PWR_SAVE_NEED_SIZE : Fld := ⟨R.PWR_SAVE_NEED, 11, 0⟩
/-- CFG_STAT (R383, 14_configuration.md). -/
def R.CFG_STAT : Nat := 0x10030000
def F.CFG_STAT_LSTATE : Fld := ⟨R.CFG_STAT, 31, 28⟩
def F.CFG_STAT_MODE : Fld := ⟨R.CFG_STAT, 27, 25⟩
def F.CFG_STAT_ALT : Fld := ⟨R.CFG_STAT, 24, 24⟩
def F.CFG_STAT_STORE_OK : Fld := ⟨R.CFG_STAT, 23, 23⟩
def F.CFG_STAT_NO_READBACK : Fld := ⟨R.CFG_STAT, 22, 22⟩
def F.CFG_STAT_ENCRYPTED : Fld := ⟨R.CFG_STAT, 21, 21⟩
def F.CFG_STAT_HOST_RDY : Fld := ⟨R.CFG_STAT, 20, 20⟩
def F.CFG_STAT_DEVID : Fld := ⟨R.CFG_STAT, 19, 16⟩
/-- CFG_ERR (R383, 14_configuration.md). -/
def R.CFG_ERR : Nat := 0x10030004
def F.CFG_ERR_VALID : Fld := ⟨R.CFG_ERR, 31, 31⟩
def F.CFG_ERR_CODE : Fld := ⟨R.CFG_ERR, 23, 16⟩
/-- CFG_ERR_ADDR (R383, 14_configuration.md). -/
def R.CFG_ERR_ADDR : Nat := 0x10030008
def F.CFG_ERR_ADDR_ADDR : Fld := ⟨R.CFG_ERR_ADDR, 31, 0⟩
/-- CFG_PROG (R383, 14_configuration.md). -/
def R.CFG_PROG : Nat := 0x1003000c
def F.CFG_PROG_FRAMES : Fld := ⟨R.CFG_PROG, 23, 0⟩
/-- CFG_IMG (R383, 14_configuration.md). -/
def R.CFG_IMG : Nat := 0x10030010
def F.CFG_IMG_ID : Fld := ⟨R.CFG_IMG, 31, 0⟩
/-- CFG_KICK (R383, 14_configuration.md). -/
def R.CFG_KICK : Nat := 0x10030014
def F.CFG_KICK_KSYS : Fld := ⟨R.CFG_KICK, 31, 31⟩
def F.CFG_KICK_RISEN : Fld := ⟨R.CFG_KICK, 30, 30⟩
def F.CFG_KICK_LEAD : Fld := ⟨R.CFG_KICK, 23, 16⟩
def F.CFG_KICK_WAIT : Fld := ⟨R.CFG_KICK, 15, 0⟩
/-- CFG_PLAY_LO (R383, 14_configuration.md). -/
def R.CFG_PLAY_LO : Nat := 0x10030018
def F.CFG_PLAY_LO_MT : Fld := ⟨R.CFG_PLAY_LO, 31, 0⟩
/-- CFG_PLAY_HI (R383, 14_configuration.md). -/
def R.CFG_PLAY_HI : Nat := 0x1003001c
def F.CFG_PLAY_HI_MT : Fld := ⟨R.CFG_PLAY_HI, 31, 0⟩
/-- CFG_CMD (R383, 14_configuration.md). -/
def R.CFG_CMD : Nat := 0x10030020
def F.CFG_CMD_OP : Fld := ⟨R.CFG_CMD, 31, 28⟩
def F.CFG_CMD_PAIR : Fld := ⟨R.CFG_CMD, 27, 27⟩
/-- CFG_ARG0 (R383, 14_configuration.md). -/
def R.CFG_ARG0 : Nat := 0x10030024
def F.CFG_ARG0_ARG : Fld := ⟨R.CFG_ARG0, 31, 0⟩
/-- CFG_ARG1 (R383, 14_configuration.md). -/
def R.CFG_ARG1 : Nat := 0x10030028
def F.CFG_ARG1_ARG : Fld := ⟨R.CFG_ARG1, 31, 0⟩
/-- CFG_ARG2 (R383, 14_configuration.md). -/
def R.CFG_ARG2 : Nat := 0x1003002c
def F.CFG_ARG2_ARG : Fld := ⟨R.CFG_ARG2, 31, 0⟩
/-- CFG_CMD_RES (R383, 14_configuration.md). -/
def R.CFG_CMD_RES : Nat := 0x10030030
def F.CFG_CMD_RES_BUSY : Fld := ⟨R.CFG_CMD_RES, 31, 31⟩
def F.CFG_CMD_RES_STATUS : Fld := ⟨R.CFG_CMD_RES, 23, 16⟩
/-- CFG_EVT_EN (R383, 14_configuration.md). -/
def R.CFG_EVT_EN : Nat := 0x10030034
def F.CFG_EVT_EN_EN : Fld := ⟨R.CFG_EVT_EN, 2, 0⟩
/-- CFG_RB_DATA (R383, 14_configuration.md). -/
def R.CFG_RB_DATA (i : Nat) : Nat := 0x10030040 + 0x4 * i
def F.CFG_RB_DATA_DATA (i : Nat) : Fld := ⟨R.CFG_RB_DATA i, 31, 0⟩
/-- SWP_CFG (R411, 15_reliability.md). -/
def R.SWP_CFG : Nat := 0x10040000
def F.SWP_CFG_PERIOD : Fld := ⟨R.SWP_CFG, 9, 0⟩
/-- SWP_STAT (R411, 15_reliability.md). -/
def R.SWP_STAT : Nat := 0x10040004
def F.SWP_STAT_RUN : Fld := ⟨R.SWP_STAT, 31, 31⟩
def F.SWP_STAT_RESTARTING : Fld := ⟨R.SWP_STAT, 30, 30⟩
def F.SWP_STAT_SWEEPING : Fld := ⟨R.SWP_STAT, 10, 0⟩
/-- SWP_CNT (R411, 15_reliability.md). -/
def R.SWP_CNT : Nat := 0x10040008
def F.SWP_CNT_CORR : Fld := ⟨R.SWP_CNT, 31, 16⟩
def F.SWP_CNT_DET : Fld := ⟨R.SWP_CNT, 15, 0⟩
/-- SWP_RESTART (R411, 15_reliability.md). -/
def R.SWP_RESTART : Nat := 0x1004000c
def F.SWP_RESTART_COORD : Fld := ⟨R.SWP_RESTART, 31, 16⟩
def F.SWP_RESTART_READER : Fld := ⟨R.SWP_RESTART, 15, 0⟩
/-- SWP_EVT_EN (R411, 15_reliability.md). -/
def R.SWP_EVT_EN : Nat := 0x10040010
def F.SWP_EVT_EN_RESTART : Fld := ⟨R.SWP_EVT_EN, 1, 1⟩
def F.SWP_EVT_EN_CORR : Fld := ⟨R.SWP_EVT_EN, 0, 0⟩
/-- SWP_CNT_CLR (R411, 15_reliability.md). -/
def R.SWP_CNT_CLR : Nat := 0x10040014
def F.SWP_CNT_CLR_ALL : Fld := ⟨R.SWP_CNT_CLR, 0, 0⟩
/-- SUB_CFG (R412, 15_reliability.md). -/
def R.SUB_CFG : Nat := 0x10050000
def F.SUB_CFG_AUTO : Fld := ⟨R.SUB_CFG, 31, 31⟩
def F.SUB_CFG_EVQ_EN : Fld := ⟨R.SUB_CFG, 30, 30⟩
def F.SUB_CFG_EVQ : Fld := ⟨R.SUB_CFG, 29, 24⟩
def F.SUB_CFG_PAIR_WAIT : Fld := ⟨R.SUB_CFG, 10, 0⟩
/-- SUB_STAT (R412, 15_reliability.md). -/
def R.SUB_STAT : Nat := 0x10050004
def F.SUB_STAT_STEP : Fld := ⟨R.SUB_STAT, 31, 28⟩
def F.SUB_STAT_KIND : Fld := ⟨R.SUB_STAT, 27, 25⟩
def F.SUB_STAT_SINGLE : Fld := ⟨R.SUB_STAT, 24, 24⟩
def F.SUB_STAT_BENCH : Fld := ⟨R.SUB_STAT, 21, 11⟩
def F.SUB_STAT_HOME : Fld := ⟨R.SUB_STAT, 10, 0⟩
/-- SUB_ERR (R412, 15_reliability.md). -/
def R.SUB_ERR : Nat := 0x10050008
def F.SUB_ERR_VALID : Fld := ⟨R.SUB_ERR, 31, 31⟩
def F.SUB_ERR_CAUSE : Fld := ⟨R.SUB_ERR, 30, 28⟩
def F.SUB_ERR_HOME : Fld := ⟨R.SUB_ERR, 10, 0⟩
/-- SUB_CNT (R412, 15_reliability.md). -/
def R.SUB_CNT : Nat := 0x1005000c
def F.SUB_CNT_SUBS : Fld := ⟨R.SUB_CNT, 31, 16⟩
def F.SUB_CNT_DROPS : Fld := ⟨R.SUB_CNT, 15, 0⟩
/-- SUB_DRILL_CFG (R412, 15_reliability.md). -/
def R.SUB_DRILL_CFG : Nat := 0x10050010
def F.SUB_DRILL_CFG_EN : Fld := ⟨R.SUB_DRILL_CFG, 31, 31⟩
def F.SUB_DRILL_CFG_PACE : Fld := ⟨R.SUB_DRILL_CFG, 15, 0⟩
/-- SUB_DRILL_WIN (R412, 15_reliability.md). -/
def R.SUB_DRILL_WIN : Nat := 0x10050014
def F.SUB_DRILL_WIN_WIN_PERIOD : Fld := ⟨R.SUB_DRILL_WIN, 31, 16⟩
def F.SUB_DRILL_WIN_WIN_LEN : Fld := ⟨R.SUB_DRILL_WIN, 15, 0⟩
/-- SUB_DRILL_ROWS (R412, 15_reliability.md). -/
def R.SUB_DRILL_ROWS : Nat := 0x10050018
def F.SUB_DRILL_ROWS_EN : Fld := ⟨R.SUB_DRILL_ROWS, 31, 0⟩
/-- SUB_DRILL_STAT (R412, 15_reliability.md). -/
def R.SUB_DRILL_STAT : Nat := 0x1005001c
def F.SUB_DRILL_STAT_STATE : Fld := ⟨R.SUB_DRILL_STAT, 31, 29⟩
def F.SUB_DRILL_STAT_REGION : Fld := ⟨R.SUB_DRILL_STAT, 26, 16⟩
def F.SUB_DRILL_STAT_TESTED : Fld := ⟨R.SUB_DRILL_STAT, 15, 0⟩
/-- SUB_EVT_EN (R412, 15_reliability.md). -/
def R.SUB_EVT_EN : Nat := 0x10050020
def F.SUB_EVT_EN_DRILL : Fld := ⟨R.SUB_EVT_EN, 2, 2⟩
def F.SUB_EVT_EN_DONE : Fld := ⟨R.SUB_EVT_EN, 1, 1⟩
def F.SUB_EVT_EN_PAIR : Fld := ⟨R.SUB_EVT_EN, 0, 0⟩
/-- SUB_STORE (R412, 15_reliability.md). -/
def R.SUB_STORE : Nat := 0x10050024
def F.SUB_STORE_CH : Fld := ⟨R.SUB_STORE, 31, 30⟩
def F.SUB_STORE_NEED : Fld := ⟨R.SUB_STORE, 29, 24⟩
def F.SUB_STORE_BASE : Fld := ⟨R.SUB_STORE, 23, 12⟩
def F.SUB_STORE_SIZE : Fld := ⟨R.SUB_STORE, 11, 0⟩
/-- SUB_DETOUR (R412, 15_reliability.md). -/
def R.SUB_DETOUR (i : Nat) : Nat := 0x10050100 + 0x4 * i
def F.SUB_DETOUR_SET3 (i : Nat) : Fld := ⟨R.SUB_DETOUR i, 29, 24⟩
def F.SUB_DETOUR_SET2 (i : Nat) : Fld := ⟨R.SUB_DETOUR i, 21, 16⟩
def F.SUB_DETOUR_SET1 (i : Nat) : Fld := ⟨R.SUB_DETOUR i, 13, 8⟩
def F.SUB_DETOUR_SET0 (i : Nat) : Fld := ⟨R.SUB_DETOUR i, 5, 0⟩
/-- FTT_STAT (R413, 15_reliability.md). -/
def R.FTT_STAT : Nat := 0x17200000
def F.FTT_STAT_RESULT : Fld := ⟨R.FTT_STAT, 31, 29⟩
def F.FTT_STAT_REASON : Fld := ⟨R.FTT_STAT, 28, 24⟩
def F.FTT_STAT_STEP : Fld := ⟨R.FTT_STAT, 23, 20⟩
def F.FTT_STAT_FAILS : Fld := ⟨R.FTT_STAT, 15, 0⟩
/-- FTT_TIME (R413, 15_reliability.md). -/
def R.FTT_TIME : Nat := 0x17200004
def F.FTT_TIME_MS : Fld := ⟨R.FTT_TIME, 31, 0⟩
/-- FTT_CFG (R413, 15_reliability.md). -/
def R.FTT_CFG : Nat := 0x17200008
def F.FTT_CFG_EN : Fld := ⟨R.FTT_CFG, 31, 31⟩
def F.FTT_CFG_LIMIT : Fld := ⟨R.FTT_CFG, 7, 0⟩
/-- FTT_REDUCED (R413, 15_reliability.md). -/
def R.FTT_REDUCED : Nat := 0x1720000c
def F.FTT_REDUCED_RAN : Fld := ⟨R.FTT_REDUCED, 31, 31⟩
def F.FTT_REDUCED_FAIL : Fld := ⟨R.FTT_REDUCED, 30, 30⟩
def F.FTT_REDUCED_MS : Fld := ⟨R.FTT_REDUCED, 15, 0⟩
/-- FTT_EVT_EN (R413, 15_reliability.md). -/
def R.FTT_EVT_EN : Nat := 0x17200010
def F.FTT_EVT_EN_COPY : Fld := ⟨R.FTT_EVT_EN, 0, 0⟩
/-- CAR_UID_LO (R414, 15_reliability.md). -/
def R.CAR_UID_LO : Nat := 0x17300000
def F.CAR_UID_LO_UID : Fld := ⟨R.CAR_UID_LO, 31, 0⟩
/-- CAR_UID_HI (R414, 15_reliability.md). -/
def R.CAR_UID_HI : Nat := 0x17300004
def F.CAR_UID_HI_UID : Fld := ⟨R.CAR_UID_HI, 31, 0⟩
/-- CAR_STAT (R414, 15_reliability.md). -/
def R.CAR_STAT : Nat := 0x17300008
def F.CAR_STAT_VALID : Fld := ⟨R.CAR_STAT, 31, 31⟩
def F.CAR_STAT_BUSY : Fld := ⟨R.CAR_STAT, 30, 30⟩
def F.CAR_STAT_SEQ : Fld := ⟨R.CAR_STAT, 23, 0⟩
/-- CAR_ERR (R414, 15_reliability.md). -/
def R.CAR_ERR : Nat := 0x1730000c
def F.CAR_ERR_VALID : Fld := ⟨R.CAR_ERR, 31, 31⟩
def F.CAR_ERR_CAUSE : Fld := ⟨R.CAR_ERR, 30, 28⟩
/-- CAR_CMD (R414, 15_reliability.md). -/
def R.CAR_CMD : Nat := 0x17300010
def F.CAR_CMD_WRITE : Fld := ⟨R.CAR_CMD, 0, 0⟩
/-- CAR_REC (R414, 15_reliability.md). -/
def R.CAR_REC (i : Nat) : Nat := 0x17300400 + 0x4 * i
/-- REF_STAT (R431, 16_referee_and_team.md). -/
def R.REF_STAT : Nat := 0x18000000
def F.REF_STAT_STATE : Fld := ⟨R.REF_STAT, 31, 30⟩
def F.REF_STAT_LEADER : Fld := ⟨R.REF_STAT, 29, 29⟩
def F.REF_STAT_REBUILT : Fld := ⟨R.REF_STAT, 28, 28⟩
def F.REF_STAT_RELOADED : Fld := ⟨R.REF_STAT, 27, 27⟩
def F.REF_STAT_TEAM_ALT : Fld := ⟨R.REF_STAT, 26, 26⟩
def F.REF_STAT_RESTARTS : Fld := ⟨R.REF_STAT, 15, 8⟩
def F.REF_STAT_FAILS : Fld := ⟨R.REF_STAT, 7, 0⟩
/-- REF_CAUSE (R431, 16_referee_and_team.md). -/
def R.REF_CAUSE : Nat := 0x18000004
def F.REF_CAUSE_CAUSE : Fld := ⟨R.REF_CAUSE, 31, 28⟩
/-- REF_FW (R431, 16_referee_and_team.md). -/
def R.REF_FW : Nat := 0x18000008
def F.REF_FW_VERSION : Fld := ⟨R.REF_FW, 31, 16⟩
def F.REF_FW_MIN : Fld := ⟨R.REF_FW, 15, 0⟩
/-- REF_KEYS (R431, 16_referee_and_team.md). -/
def R.REF_KEYS : Nat := 0x1800000c
def F.REF_KEYS_ROM_REVOKED : Fld := ⟨R.REF_KEYS, 11, 10⟩
def F.REF_KEYS_AES : Fld := ⟨R.REF_KEYS, 9, 8⟩
def F.REF_KEYS_REVOKED : Fld := ⟨R.REF_KEYS, 7, 4⟩
def F.REF_KEYS_PROG : Fld := ⟨R.REF_KEYS, 3, 0⟩
/-- REF_HB (R431, 16_referee_and_team.md). -/
def R.REF_HB : Nat := 0x18000010
def F.REF_HB_BEAT : Fld := ⟨R.REF_HB, 0, 0⟩
/-- REF_CTL (R431, 16_referee_and_team.md). -/
def R.REF_CTL : Nat := 0x18000014
def F.REF_CTL_RESTART : Fld := ⟨R.REF_CTL, 0, 0⟩
/-- MBX_CTL (R432, 16_referee_and_team.md). -/
def R.MBX_CTL : Nat := 0x18100000
def F.MBX_CTL_EV_RST : Fld := ⟨R.MBX_CTL, 9, 9⟩
def F.MBX_CTL_EV_FB : Fld := ⟨R.MBX_CTL, 8, 8⟩
def F.MBX_CTL_IRQ_EN : Fld := ⟨R.MBX_CTL, 7, 0⟩
/-- MBX_IRQ (R432, 16_referee_and_team.md). -/
def R.MBX_IRQ : Nat := 0x18100004
def F.MBX_IRQ_DONE : Fld := ⟨R.MBX_IRQ, 7, 0⟩
/-- MBX_CALL (R432, 16_referee_and_team.md). -/
def R.MBX_CALL (i : Nat) : Nat := 0x18100100 + 0x40 * i
def F.MBX_CALL_GO (i : Nat) : Fld := ⟨R.MBX_CALL i, 31, 31⟩
def F.MBX_CALL_TAG (i : Nat) : Fld := ⟨R.MBX_CALL i, 23, 16⟩
def F.MBX_CALL_CODE (i : Nat) : Fld := ⟨R.MBX_CALL i, 7, 0⟩
/-- MBX_ARG (R432, 16_referee_and_team.md). -/
def R.MBX_ARG (i j : Nat) : Nat := 0x18100104 + 0x40 * i + 0x4 * j
def F.MBX_ARG_ARG (i j : Nat) : Fld := ⟨R.MBX_ARG i j, 31, 0⟩
/-- MBX_RES (R432, 16_referee_and_team.md). -/
def R.MBX_RES (i : Nat) : Nat := 0x1810011c + 0x40 * i
def F.MBX_RES_STATE (i : Nat) : Fld := ⟨R.MBX_RES i, 31, 30⟩
def F.MBX_RES_TAG (i : Nat) : Fld := ⟨R.MBX_RES i, 23, 16⟩
def F.MBX_RES_STATUS (i : Nat) : Fld := ⟨R.MBX_RES i, 7, 0⟩
/-- MBX_RET (R432, 16_referee_and_team.md). -/
def R.MBX_RET (i j : Nat) : Nat := 0x18100120 + 0x40 * i + 0x4 * j
def F.MBX_RET_RET (i j : Nat) : Fld := ⟨R.MBX_RET i j, 31, 0⟩
/-- MET_ID_LO (R454, 17_metrology.md). -/
def R.MET_ID_LO : Nat := 0x17100000
def F.MET_ID_LO_ID : Fld := ⟨R.MET_ID_LO, 31, 0⟩
/-- MET_ID_HI (R454, 17_metrology.md). -/
def R.MET_ID_HI : Nat := 0x17100004
def F.MET_ID_HI_ID : Fld := ⟨R.MET_ID_HI, 31, 0⟩
/-- MET_STAT (R454, 17_metrology.md). -/
def R.MET_STAT : Nat := 0x17100008
def F.MET_STAT_SEALED : Fld := ⟨R.MET_STAT, 31, 31⟩
def F.MET_STAT_SEAL_OPEN : Fld := ⟨R.MET_STAT, 30, 30⟩
def F.MET_STAT_VANA_OK : Fld := ⟨R.MET_STAT, 29, 29⟩
def F.MET_STAT_MEASURING : Fld := ⟨R.MET_STAT, 28, 28⟩
def F.MET_STAT_DEGRADED : Fld := ⟨R.MET_STAT, 27, 27⟩
def F.MET_STAT_REF_EXT : Fld := ⟨R.MET_STAT, 26, 26⟩
def F.MET_STAT_RATE : Fld := ⟨R.MET_STAT, 25, 24⟩
def F.MET_STAT_KEY : Fld := ⟨R.MET_STAT, 23, 23⟩
def F.MET_STAT_ROLLBACK : Fld := ⟨R.MET_STAT, 22, 22⟩
def F.MET_STAT_SPARES : Fld := ⟨R.MET_STAT, 17, 16⟩
def F.MET_STAT_POINTS : Fld := ⟨R.MET_STAT, 15, 8⟩
/-- MET_SEQ (R454, 17_metrology.md). -/
def R.MET_SEQ : Nat := 0x1710000c
def F.MET_SEQ_SEQ : Fld := ⟨R.MET_SEQ, 31, 0⟩
/-- MET_SNAP_LO (R454, 17_metrology.md). -/
def R.MET_SNAP_LO : Nat := 0x17100010
def F.MET_SNAP_LO_MT : Fld := ⟨R.MET_SNAP_LO, 31, 0⟩
/-- MET_SNAP_HI (R454, 17_metrology.md). -/
def R.MET_SNAP_HI : Nat := 0x17100014
def F.MET_SNAP_HI_MT : Fld := ⟨R.MET_SNAP_HI, 31, 0⟩
/-- MET_SB_COUNT (R454, 17_metrology.md). -/
def R.MET_SB_COUNT : Nat := 0x17100018
def F.MET_SB_COUNT_COUNT : Fld := ⟨R.MET_SB_COUNT, 31, 0⟩
/-- MET_XCHG (R454, 17_metrology.md). -/
def R.MET_XCHG : Nat := 0x1710001c
def F.MET_XCHG_IN : Fld := ⟨R.MET_XCHG, 31, 27⟩
def F.MET_XCHG_OUT : Fld := ⟨R.MET_XCHG, 26, 22⟩
def F.MET_XCHG_CH : Fld := ⟨R.MET_XCHG, 21, 18⟩
def F.MET_XCHG_RESULT : Fld := ⟨R.MET_XCHG, 17, 16⟩
def F.MET_XCHG_COUNT : Fld := ⟨R.MET_XCHG, 15, 0⟩
/-- MET_CH_STAT (R454, 17_metrology.md). -/
def R.MET_CH_STAT : Nat := 0x17100020
def F.MET_CH_STAT_CH0 : Fld := ⟨R.MET_CH_STAT, 1, 0⟩
def F.MET_CH_STAT_CH1 : Fld := ⟨R.MET_CH_STAT, 3, 2⟩
def F.MET_CH_STAT_CH2 : Fld := ⟨R.MET_CH_STAT, 5, 4⟩
def F.MET_CH_STAT_CH3 : Fld := ⟨R.MET_CH_STAT, 7, 6⟩
def F.MET_CH_STAT_CH4 : Fld := ⟨R.MET_CH_STAT, 9, 8⟩
def F.MET_CH_STAT_CH5 : Fld := ⟨R.MET_CH_STAT, 11, 10⟩
def F.MET_CH_STAT_CH6 : Fld := ⟨R.MET_CH_STAT, 13, 12⟩
def F.MET_CH_STAT_CH7 : Fld := ⟨R.MET_CH_STAT, 15, 14⟩
def F.MET_CH_STAT_CH8 : Fld := ⟨R.MET_CH_STAT, 17, 16⟩
def F.MET_CH_STAT_CH9 : Fld := ⟨R.MET_CH_STAT, 19, 18⟩
def F.MET_CH_STAT_CH10 : Fld := ⟨R.MET_CH_STAT, 21, 20⟩
def F.MET_CH_STAT_CH11 : Fld := ⟨R.MET_CH_STAT, 23, 22⟩
def F.MET_CH_STAT_CH12 : Fld := ⟨R.MET_CH_STAT, 25, 24⟩
def F.MET_CH_STAT_CH13 : Fld := ⟨R.MET_CH_STAT, 27, 26⟩
def F.MET_CH_STAT_CH14 : Fld := ⟨R.MET_CH_STAT, 29, 28⟩
def F.MET_CH_STAT_CH15 : Fld := ⟨R.MET_CH_STAT, 31, 30⟩
/-- MET_MOD_STAT (R454, 17_metrology.md). -/
def R.MET_MOD_STAT : Nat := 0x17100024
def F.MET_MOD_STAT_RETIRED : Fld := ⟨R.MET_MOD_STAT, 17, 0⟩
/-- MET_PULSE_OVF (R454, 17_metrology.md). -/
def R.MET_PULSE_OVF : Nat := 0x17100028
def F.MET_PULSE_OVF_OVF : Fld := ⟨R.MET_PULSE_OVF, 15, 0⟩
/-- MET_EXP_DROP (R454, 17_metrology.md). -/
def R.MET_EXP_DROP : Nat := 0x1710002c
def F.MET_EXP_DROP_CNT : Fld := ⟨R.MET_EXP_DROP, 31, 0⟩
/-- MET_UMP (R454, 17_metrology.md). -/
def R.MET_UMP (i : Nat) : Nat := 0x17100040 + 0x4 * i
def F.MET_UMP_VALUE (i : Nat) : Fld := ⟨R.MET_UMP i, 31, 0⟩
/-- MET_PULSES (R454, 17_metrology.md). -/
def R.MET_PULSES (i : Nat) : Nat := 0x17100080 + 0x4 * i
def F.MET_PULSES_CNT (i : Nat) : Fld := ⟨R.MET_PULSES i, 31, 0⟩
/-- MET_EI_LO (R454, 17_metrology.md). -/
def R.MET_EI_LO (i : Nat) : Nat := 0x17101000 + 0x200 * i
/-- MET_EI_HI (R454, 17_metrology.md). -/
def R.MET_EI_HI (i : Nat) : Nat := 0x17101004 + 0x200 * i
/-- MET_EE_LO (R454, 17_metrology.md). -/
def R.MET_EE_LO (i : Nat) : Nat := 0x17101008 + 0x200 * i
/-- MET_EE_HI (R454, 17_metrology.md). -/
def R.MET_EE_HI (i : Nat) : Nat := 0x1710100c + 0x200 * i
/-- MET_EQ1_LO (R454, 17_metrology.md). -/
def R.MET_EQ1_LO (i : Nat) : Nat := 0x17101010 + 0x200 * i
/-- MET_EQ1_HI (R454, 17_metrology.md). -/
def R.MET_EQ1_HI (i : Nat) : Nat := 0x17101014 + 0x200 * i
/-- MET_EQ2_LO (R454, 17_metrology.md). -/
def R.MET_EQ2_LO (i : Nat) : Nat := 0x17101018 + 0x200 * i
/-- MET_EQ2_HI (R454, 17_metrology.md). -/
def R.MET_EQ2_HI (i : Nat) : Nat := 0x1710101c + 0x200 * i
/-- MET_EQ3_LO (R454, 17_metrology.md). -/
def R.MET_EQ3_LO (i : Nat) : Nat := 0x17101020 + 0x200 * i
/-- MET_EQ3_HI (R454, 17_metrology.md). -/
def R.MET_EQ3_HI (i : Nat) : Nat := 0x17101024 + 0x200 * i
/-- MET_EQ4_LO (R454, 17_metrology.md). -/
def R.MET_EQ4_LO (i : Nat) : Nat := 0x17101028 + 0x200 * i
/-- MET_EQ4_HI (R454, 17_metrology.md). -/
def R.MET_EQ4_HI (i : Nat) : Nat := 0x1710102c + 0x200 * i
/-- MET_ES_LO (R454, 17_metrology.md). -/
def R.MET_ES_LO (i : Nat) : Nat := 0x17101030 + 0x200 * i
/-- MET_ES_HI (R454, 17_metrology.md). -/
def R.MET_ES_HI (i : Nat) : Nat := 0x17101034 + 0x200 * i
/-- MET_P (R454, 17_metrology.md). -/
def R.MET_P (i : Nat) : Nat := 0x17101038 + 0x200 * i
/-- MET_Q (R454, 17_metrology.md). -/
def R.MET_Q (i : Nat) : Nat := 0x1710103c + 0x200 * i
/-- MET_S (R454, 17_metrology.md). -/
def R.MET_S (i : Nat) : Nat := 0x17101040 + 0x200 * i
/-- MET_FREQ (R454, 17_metrology.md). -/
def R.MET_FREQ (i : Nat) : Nat := 0x17101044 + 0x200 * i
/-- MET_DEM (R454, 17_metrology.md). -/
def R.MET_DEM (i : Nat) : Nat := 0x17101048 + 0x200 * i
/-- MET_DEM_MAX (R454, 17_metrology.md). -/
def R.MET_DEM_MAX (i : Nat) : Nat := 0x1710104c + 0x200 * i
/-- MET_POINT_STAT (R454, 17_metrology.md). -/
def R.MET_POINT_STAT (i : Nat) : Nat := 0x17101050 + 0x200 * i
/-- MET_PH (R454, 17_metrology.md). -/
def R.MET_PH (i j : Nat) : Nat := 0x17101060 + 0x200 * i + 0x4 * j
/-- MET_HARM (R454, 17_metrology.md). -/
def R.MET_HARM (i j : Nat) : Nat := 0x17140000 + 0x100 * i + 0x4 * j
/-- MET_SB (R454, 17_metrology.md). -/
def R.MET_SB (i j : Nat) : Nat := 0x17180000 + 0x40 * i + 0x4 * j
/-- UMP_STAT (R467, 18_umpire.md). -/
def R.UMP_STAT : Nat := 0x17000000
def F.UMP_STAT_LIVE : Fld := ⟨R.UMP_STAT, 31, 31⟩
def F.UMP_STAT_XTAL : Fld := ⟨R.UMP_STAT, 30, 30⟩
def F.UMP_STAT_ALARM : Fld := ⟨R.UMP_STAT, 29, 29⟩
def F.UMP_STAT_ROUND : Fld := ⟨R.UMP_STAT, 15, 0⟩
/-- UMP_ALARM_LO (R467, 18_umpire.md). -/
def R.UMP_ALARM_LO : Nat := 0x17000004
def F.UMP_ALARM_LO_RULE : Fld := ⟨R.UMP_ALARM_LO, 31, 0⟩
/-- UMP_ALARM_HI (R467, 18_umpire.md). -/
def R.UMP_ALARM_HI : Nat := 0x17000008
def F.UMP_ALARM_HI_RULE : Fld := ⟨R.UMP_ALARM_HI, 31, 0⟩
/-- UMP_OUT_LO (R467, 18_umpire.md). -/
def R.UMP_OUT_LO : Nat := 0x1700000c
def F.UMP_OUT_LO_OUT : Fld := ⟨R.UMP_OUT_LO, 31, 0⟩
/-- UMP_OUT_HI (R467, 18_umpire.md). -/
def R.UMP_OUT_HI : Nat := 0x17000010
def F.UMP_OUT_HI_OUT : Fld := ⟨R.UMP_OUT_HI, 31, 0⟩
/-- UMP_HB (R467, 18_umpire.md). -/
def R.UMP_HB : Nat := 0x17000014
def F.UMP_HB_REF_WATCH : Fld := ⟨R.UMP_HB, 31, 31⟩
def F.UMP_HB_SWP_WATCH : Fld := ⟨R.UMP_HB, 30, 30⟩
def F.UMP_HB_REF_MISS : Fld := ⟨R.UMP_HB, 23, 16⟩
def F.UMP_HB_SWP_MISS : Fld := ⟨R.UMP_HB, 15, 0⟩
/-- UMP_LOG_STAT (R467, 18_umpire.md). -/
def R.UMP_LOG_STAT : Nat := 0x17000018
def F.UMP_LOG_STAT_OVF : Fld := ⟨R.UMP_LOG_STAT, 31, 31⟩
def F.UMP_LOG_STAT_LEVEL : Fld := ⟨R.UMP_LOG_STAT, 4, 0⟩
/-- UMP_LOG_POP (R467, 18_umpire.md). -/
def R.UMP_LOG_POP : Nat := 0x1700001c
def F.UMP_LOG_POP_POP : Fld := ⟨R.UMP_LOG_POP, 0, 0⟩
/-- UMP_EVT_EN (R467, 18_umpire.md). -/
def R.UMP_EVT_EN : Nat := 0x17000020
def F.UMP_EVT_EN_HB : Fld := ⟨R.UMP_EVT_EN, 1, 1⟩
def F.UMP_EVT_EN_RULE : Fld := ⟨R.UMP_EVT_EN, 0, 0⟩
/-- UMP_MTC_VALUE_LO (R467, 18_umpire.md). -/
def R.UMP_MTC_VALUE_LO (i : Nat) : Nat := 0x17000040 + 0x10 * i
def F.UMP_MTC_VALUE_LO_V (i : Nat) : Fld := ⟨R.UMP_MTC_VALUE_LO i, 31, 0⟩
/-- UMP_MTC_VALUE_HI (R467, 18_umpire.md). -/
def R.UMP_MTC_VALUE_HI (i : Nat) : Nat := 0x17000044 + 0x10 * i
def F.UMP_MTC_VALUE_HI_V (i : Nat) : Fld := ⟨R.UMP_MTC_VALUE_HI i, 31, 0⟩
/-- UMP_MTC_PERIOD (R467, 18_umpire.md). -/
def R.UMP_MTC_PERIOD (i : Nat) : Nat := 0x17000048 + 0x10 * i
def F.UMP_MTC_PERIOD_V (i : Nat) : Fld := ⟨R.UMP_MTC_PERIOD i, 31, 0⟩
/-- UMP_MTC_EN (R467, 18_umpire.md). -/
def R.UMP_MTC_EN (i : Nat) : Nat := 0x1700004c + 0x10 * i
def F.UMP_MTC_EN_EN (i : Nat) : Fld := ⟨R.UMP_MTC_EN i, 31, 31⟩
/-- UMP_TEMP (R467, 18_umpire.md). -/
def R.UMP_TEMP (i : Nat) : Nat := 0x170000c0 + 0x4 * i
def F.UMP_TEMP_VALID (i : Nat) : Fld := ⟨R.UMP_TEMP i, 31, 31⟩
def F.UMP_TEMP_VALUE (i : Nat) : Fld := ⟨R.UMP_TEMP i, 15, 0⟩
/-- UMP_VSUP (R467, 18_umpire.md). -/
def R.UMP_VSUP (i : Nat) : Nat := 0x170000e4 + 0x4 * i
def F.UMP_VSUP_VALID (i : Nat) : Fld := ⟨R.UMP_VSUP i, 31, 31⟩
def F.UMP_VSUP_VALUE (i : Nat) : Fld := ⟨R.UMP_VSUP i, 15, 0⟩
/-- UMP_LOG (R467, 18_umpire.md). -/
def R.UMP_LOG (i j : Nat) : Nat := 0x17000200 + 0x10 * i + 0x4 * j
/-- UMP_RULE_W0 (R467, 18_umpire.md). -/
def R.UMP_RULE_W0 (i : Nat) : Nat := 0x17001000 + 0x10 * i
def F.UMP_RULE_W0_EN (i : Nat) : Fld := ⟨R.UMP_RULE_W0 i, 31, 31⟩
def F.UMP_RULE_W0_SRC (i : Nat) : Fld := ⟨R.UMP_RULE_W0 i, 30, 28⟩
def F.UMP_RULE_W0_IDX (i : Nat) : Fld := ⟨R.UMP_RULE_W0 i, 27, 22⟩
def F.UMP_RULE_W0_INV (i : Nat) : Fld := ⟨R.UMP_RULE_W0 i, 21, 20⟩
def F.UMP_RULE_W0_FMT (i : Nat) : Fld := ⟨R.UMP_RULE_W0 i, 19, 19⟩
def F.UMP_RULE_W0_POL (i : Nat) : Fld := ⟨R.UMP_RULE_W0 i, 18, 18⟩
def F.UMP_RULE_W0_AVG (i : Nat) : Fld := ⟨R.UMP_RULE_W0 i, 17, 10⟩
/-- UMP_RULE_W1 (R467, 18_umpire.md). -/
def R.UMP_RULE_W1 (i : Nat) : Nat := 0x17001004 + 0x10 * i
def F.UMP_RULE_W1_BFILT (i : Nat) : Fld := ⟨R.UMP_RULE_W1 i, 31, 30⟩
def F.UMP_RULE_W1_N (i : Nat) : Fld := ⟨R.UMP_RULE_W1 i, 29, 24⟩
def F.UMP_RULE_W1_M (i : Nat) : Fld := ⟨R.UMP_RULE_W1 i, 23, 18⟩
def F.UMP_RULE_W1_LOG (i : Nat) : Fld := ⟨R.UMP_RULE_W1 i, 17, 17⟩
def F.UMP_RULE_W1_ALARM (i : Nat) : Fld := ⟨R.UMP_RULE_W1 i, 16, 16⟩
def F.UMP_RULE_W1_WAKE (i : Nat) : Fld := ⟨R.UMP_RULE_W1 i, 15, 15⟩
def F.UMP_RULE_W1_FT (i : Nat) : Fld := ⟨R.UMP_RULE_W1 i, 14, 14⟩
def F.UMP_RULE_W1_PIN (i : Nat) : Fld := ⟨R.UMP_RULE_W1 i, 13, 13⟩
def F.UMP_RULE_W1_LATCH (i : Nat) : Fld := ⟨R.UMP_RULE_W1 i, 12, 12⟩
def F.UMP_RULE_W1_OPIN (i : Nat) : Fld := ⟨R.UMP_RULE_W1 i, 11, 6⟩
def F.UMP_RULE_W1_OLVL (i : Nat) : Fld := ⟨R.UMP_RULE_W1 i, 5, 5⟩
/-- UMP_RULE_W2 (R467, 18_umpire.md). -/
def R.UMP_RULE_W2 (i : Nat) : Nat := 0x17001008 + 0x10 * i
def F.UMP_RULE_W2_SET (i : Nat) : Fld := ⟨R.UMP_RULE_W2 i, 31, 0⟩
/-- UMP_RULE_W3 (R467, 18_umpire.md). -/
def R.UMP_RULE_W3 (i : Nat) : Nat := 0x1700100c + 0x10 * i
def F.UMP_RULE_W3_CLR (i : Nat) : Fld := ⟨R.UMP_RULE_W3 i, 31, 0⟩

/-- Owners of register maps (R9). -/
inductive Owner where
  | referee | team | metrology
deriving DecidableEq, Repr

/-- Reset domains (Table 13-4). -/
inductive Dom where
  | none | aon | cold | region
deriving DecidableEq, Repr

/-- One row of the register map: base, up to two strides (`n1` copies `s1` apart, each of `n2` words `s2` apart),
owner, reset domain, reset word, the mask of RW bits and the mask of W1C bits.  All other bits are RO, RS, WO or
reserved: no bus write stores them (R6, R7). -/
structure RegRow where
  base : Nat
  n1 : Nat
  s1 : Nat
  n2 : Nat
  s2 : Nat
  owner : Owner
  dom : Dom
  reset : Nat
  rw : Nat
  w1c : Nat
deriving DecidableEq, Repr

/-- Register rows of block SYS. -/
def regRowsSYS : List RegRow := [
  ⟨0x10000000, 1, 0x100000000, 1, 0x100000000, .referee, .none, 0x86000000, 0x0, 0x0⟩ /- SYS_ID -/,
  ⟨0x10000004, 1, 0x100000000, 1, 0x100000000, .referee, .none, 0x0, 0x0, 0x0⟩ /- SYS_RES -/,
  ⟨0x10000010, 1, 0x100000000, 1, 0x100000000, .team, .cold, 0x0, 0xe0fc0fff, 0x0⟩ /- SYS_EVT_CFG -/,
  ⟨0x10000014, 1, 0x100000000, 1, 0x100000000, .team, .cold, 0x0, 0x0, 0x80000000⟩ /- SYS_EVT_STAT -/]

/-- Register rows of block RGN. -/
def regRowsRGN : List RegRow := [
  ⟨0x11000000, 1408, 0x100, 1, 0x100000000, .referee, .cold, 0xfff000, 0x0, 0x0⟩ /- RGN_STAT -/,
  ⟨0x11000004, 1408, 0x100, 1, 0x100000000, .referee, .region, 0x0, 0x0, 0x0⟩ /- RGN_PID -/,
  ⟨0x11000008, 1408, 0x100, 1, 0x100000000, .referee, .region, 0x0, 0x0, 0x0⟩ /- RGN_RSIG_LO -/,
  ⟨0x1100000c, 1408, 0x100, 1, 0x100000000, .referee, .region, 0x0, 0x0, 0x0⟩ /- RGN_RSIG_HI -/,
  ⟨0x11000010, 1408, 0x100, 1, 0x100000000, .referee, .region, 0x0, 0x0, 0x0⟩ /- RGN_BM_MODE -/,
  ⟨0x11000020, 1408, 0x100, 1, 0x100000000, .referee, .cold, 0x0, 0x0, 0x0⟩ /- RGN_FRAME_CNT -/,
  ⟨0x11000024, 1408, 0x100, 1, 0x100000000, .referee, .cold, 0x0, 0x0, 0x0⟩ /- RGN_BM_CNT -/,
  ⟨0x11000028, 1408, 0x100, 1, 0x100000000, .team, .cold, 0x0, 0x0, 0x80000000⟩ /- RGN_BM_ERR -/,
  ⟨0x1100002c, 1408, 0x100, 1, 0x100000000, .referee, .cold, 0x0, 0x0, 0x0⟩ /- RGN_RING_CNT -/,
  ⟨0x11000030, 1408, 0x100, 1, 0x100000000, .team, .cold, 0x0, 0x0, 0x0⟩ /- RGN_CNT_CLR -/,
  ⟨0x11000034, 1408, 0x100, 1, 0x100000000, .team, .cold, 0x2, 0x3, 0x0⟩ /- RGN_EVT_EN -/]

/-- Register rows of block PACE. -/
def regRowsPACE : List RegRow := [
  ⟨0x10060000, 1, 0x100000000, 1, 0x100000000, .team, .cold, 0x0, 0x1, 0x0⟩ /- PACE_CTL -/,
  ⟨0x10060004, 1, 0x100000000, 1, 0x100000000, .referee, .cold, 0x40b219, 0xffffff, 0x0⟩ /- PACE_CFG -/,
  ⟨0x10060008, 1, 0x100000000, 1, 0x100000000, .referee, .cold, 0x0, 0x0, 0x0⟩ /- PACE_LIMIT -/,
  ⟨0x1006000c, 1, 0x100000000, 1, 0x100000000, .team, .cold, 0xc05, 0x3f3f, 0x0⟩ /- PACE_HR -/,
  ⟨0x10060010, 1, 0x100000000, 1, 0x100000000, .referee, .cold, 0x0, 0x0, 0x0⟩ /- PACE_STAT -/,
  ⟨0x10060014, 1, 0x100000000, 1, 0x100000000, .referee, .cold, 0x0, 0x0, 0x0⟩ /- PACE_VREAD -/,
  ⟨0x10060018, 1, 0x100000000, 1, 0x100000000, .referee, .cold, 0x0, 0x0, 0x0⟩ /- PACE_CNT -/,
  ⟨0x1006001c, 1, 0x100000000, 1, 0x100000000, .team, .cold, 0x0, 0x0, 0xff⟩ /- PACE_ERR -/,
  ⟨0x10060020, 1, 0x100000000, 1, 0x100000000, .referee, .cold, 0xff000000, 0x0, 0x0⟩ /- PACE_MARGIN -/,
  ⟨0x10060024, 1, 0x100000000, 1, 0x100000000, .referee, .cold, 0x0, 0xff00, 0x0⟩ /- PACE_PMB_CMD -/,
  ⟨0x10060028, 1, 0x100000000, 1, 0x100000000, .referee, .cold, 0x0, 0x0, 0x0⟩ /- PACE_PMB_DATA -/,
  ⟨0x10060030, 1, 0x100000000, 1, 0x100000000, .team, .cold, 0x0, 0x1ffff, 0x0⟩ /- PACE_CAL_SEL -/,
  ⟨0x10060034, 1, 0x100000000, 1, 0x100000000, .team, .cold, 0x0, 0x0, 0x0⟩ /- PACE_CAL_STAT -/,
  ⟨0x10060100, 16, 0x8, 1, 0x100000000, .referee, .cold, 0x0, 0x0, 0x0⟩ /- PACE_MON_TGT -/,
  ⟨0x10060104, 16, 0x8, 1, 0x100000000, .referee, .cold, 0x0, 0x0, 0x0⟩ /- PACE_MON_CAP -/]

/-- Register rows of block SE. -/
def regRowsSE : List RegRow := [
  ⟨0x40000000, 1408, 0x10000, 1, 0x100000000, .referee, .region, 0x0, 0x0, 0x0⟩ /- SE_CFG -/,
  ⟨0x40000004, 1408, 0x10000, 1, 0x100000000, .team, .region, 0x0, 0x0, 0x0⟩ /- SE_CTL -/,
  ⟨0x40000008, 1408, 0x10000, 1, 0x100000000, .referee, .region, 0x0, 0x0, 0x0⟩ /- SE_STAT -/,
  ⟨0x4000000c, 1408, 0x10000, 1, 0x100000000, .team, .region, 0x0, 0x0, 0x80000000⟩ /- SE_FAULT -/,
  ⟨0x40000010, 1408, 0x10000, 1, 0x100000000, .team, .region, 0x0, 0x80000fff, 0x0⟩ /- SE_BRK -/,
  ⟨0x40000014, 1408, 0x10000, 1, 0x100000000, .team, .cold, 0x2, 0x7, 0x0⟩ /- SE_EVT_EN -/,
  ⟨0x40000018, 1408, 0x10000, 1, 0x100000000, .referee, .cold, 0x0, 0x0, 0x0⟩ /- SE_MEM_CNT -/,
  ⟨0x4000001c, 1408, 0x10000, 1, 0x100000000, .team, .cold, 0x0, 0x0, 0x80000000⟩ /- SE_MEM_ERR -/,
  ⟨0x40000020, 1408, 0x10000, 1, 0x100000000, .referee, .cold, 0x0, 0x0, 0x0⟩ /- SE_INSN_LO -/,
  ⟨0x40000024, 1408, 0x10000, 1, 0x100000000, .referee, .cold, 0x0, 0x0, 0x0⟩ /- SE_INSN_HI -/,
  ⟨0x40000028, 1408, 0x10000, 1, 0x100000000, .referee, .cold, 0x0, 0x0, 0x0⟩ /- SE_STALL -/,
  ⟨0x4000002c, 1408, 0x10000, 1, 0x100000000, .team, .cold, 0x0, 0x0, 0x0⟩ /- SE_CNT_CLR -/,
  ⟨0x40000030, 1408, 0x10000, 1, 0x100000000, .referee, .region, 0x0, 0x0, 0x0⟩ /- SE_CTX -/]

/-- Register rows of block ROS. -/
def regRowsROS : List RegRow := [
  ⟨0x13000000, 1, 0x100000000, 1, 0x100000000, .team, .cold, 0x0, 0x2, 0x0⟩ /- ROS_CTL -/,
  ⟨0x13000004, 1, 0x100000000, 1, 0x100000000, .referee, .cold, 0x0, 0x0, 0x0⟩ /- ROS_STAT -/,
  ⟨0x13000008, 1, 0x100000000, 1, 0x100000000, .team, .cold, 0x0, 0x0, 0x0⟩ /- ROS_CMD -/,
  ⟨0x1300000c, 1, 0x100000000, 1, 0x100000000, .team, .cold, 0x0, 0x0, 0x0⟩ /- ROS_CMD_RES -/,
  ⟨0x13000010, 1, 0x100000000, 1, 0x100000000, .team, .cold, 0x0, 0xffffffff, 0x0⟩ /- ROS_KEY_LO -/,
  ⟨0x13000014, 1, 0x100000000, 1, 0x100000000, .team, .cold, 0x0, 0xffffffff, 0x0⟩ /- ROS_KEY_HI -/,
  ⟨0x13000018, 1, 0x100000000, 1, 0x100000000, .team, .cold, 0x0, 0x7, 0x0⟩ /- ROS_KEY_CFG -/,
  ⟨0x13000020, 1, 0x100000000, 1, 0x100000000, .referee, .cold, 0x0, 0xc0ffffff, 0x0⟩ /- ROS_SPILL0 -/,
  ⟨0x13000024, 1, 0x100000000, 1, 0x100000000, .referee, .cold, 0x0, 0xc0ffffff, 0x0⟩ /- ROS_SPILL1 -/,
  ⟨0x13000028, 1, 0x100000000, 1, 0x100000000, .team, .cold, 0x37, 0x3f, 0x0⟩ /- ROS_EVT_EN -/,
  ⟨0x13000100, 8, 0x10, 1, 0x100000000, .team, .cold, 0x0, 0xc0ffffff, 0x0⟩ /- ROS_PROF_SEL -/,
  ⟨0x13000104, 8, 0x10, 1, 0x100000000, .team, .cold, 0x0, 0xffc0ffc0, 0x0⟩ /- ROS_PROF_EXT -/,
  ⟨0x13000108, 8, 0x10, 1, 0x100000000, .team, .cold, 0x0, 0x8000bfff, 0x0⟩ /- ROS_PROF_PAY -/,
  ⟨0x1300010c, 8, 0x10, 1, 0x100000000, .referee, .cold, 0x0, 0x0, 0x0⟩ /- ROS_PROF_CNT -/,
  ⟨0x13000200, 64, 0x8, 1, 0x100000000, .team, .cold, 0x0, 0xff3f, 0x0⟩ /- ROS_GRP_CFG -/,
  ⟨0x13000204, 64, 0x8, 1, 0x100000000, .referee, .cold, 0x0, 0x0, 0x0⟩ /- ROS_GRP_STAT -/,
  ⟨0x13400000, 40960, 0x40, 16, 0x4, .team, .cold, 0x0, 0xffffffff, 0x0⟩ /- ROS_CTX -/]

/-- Register rows of block Q. -/
def regRowsQ : List RegRow := [
  ⟨0x14000000, 64, 0x80, 1, 0x100000000, .referee, .cold, 0x200, 0xffffff00, 0x0⟩ /- Q_CFG -/,
  ⟨0x14000004, 64, 0x80, 1, 0x100000000, .referee, .cold, 0x0, 0xc00fffff, 0x0⟩ /- Q_SPILL_BASE -/,
  ⟨0x14000008, 64, 0x80, 1, 0x100000000, .referee, .cold, 0x0, 0x1ffff, 0x0⟩ /- Q_SPILL_SIZE -/,
  ⟨0x1400000c, 64, 0x80, 1, 0x100000000, .referee, .cold, 0x40000000, 0x0, 0x0⟩ /- Q_STAT -/,
  ⟨0x14000010, 64, 0x80, 1, 0x100000000, .referee, .cold, 0x0, 0x0, 0x0⟩ /- Q_LEVEL -/,
  ⟨0x14000014, 64, 0x80, 1, 0x100000000, .team, .cold, 0x0, 0x0, 0x1f⟩ /- Q_ERR -/,
  ⟨0x14000018, 64, 0x80, 1, 0x100000000, .referee, .cold, 0x0, 0x0, 0x0⟩ /- Q_CNT -/,
  ⟨0x1400001c, 64, 0x80, 1, 0x100000000, .team, .cold, 0xf, 0xf, 0x0⟩ /- Q_EVT_EN -/,
  ⟨0x14000020, 64, 0x80, 1, 0x100000000, .team, .cold, 0x0, 0x0, 0x0⟩ /- Q_CMD -/,
  ⟨0x14000024, 64, 0x80, 1, 0x100000000, .team, .cold, 0x0, 0x0, 0x0⟩ /- Q_CMD_RES -/,
  ⟨0x14000028, 64, 0x80, 1, 0x100000000, .team, .cold, 0x0, 0xffffffff, 0x0⟩ /- Q_WR_LO -/,
  ⟨0x1400002c, 64, 0x80, 1, 0x100000000, .team, .cold, 0x0, 0xffffffff, 0x0⟩ /- Q_WR_HI -/,
  ⟨0x14000030, 64, 0x80, 1, 0x100000000, .team, .cold, 0x0, 0x0, 0x0⟩ /- Q_WR_TAG -/,
  ⟨0x14000034, 64, 0x80, 1, 0x100000000, .team, .cold, 0x0, 0x0, 0x0⟩ /- Q_POP -/,
  ⟨0x14000038, 64, 0x80, 1, 0x100000000, .team, .cold, 0x0, 0x0, 0x0⟩ /- Q_RD_LO -/,
  ⟨0x1400003c, 64, 0x80, 1, 0x100000000, .team, .cold, 0x0, 0x0, 0x0⟩ /- Q_RD_HI -/,
  ⟨0x14000040, 64, 0x80, 1, 0x100000000, .team, .cold, 0x0, 0x0, 0x0⟩ /- Q_RD_TAG -/]

/-- Register rows of block CRC. -/
def regRowsCRC : List RegRow := [
  ⟨0x14010000, 16, 0x100, 1, 0x100000000, .team, .cold, 0x1f, 0xffff003f, 0x0⟩ /- CRC_CTL -/,
  ⟨0x14010004, 16, 0x100, 1, 0x100000000, .referee, .cold, 0x0, 0xe000003f, 0x0⟩ /- CRC_ATTACH -/,
  ⟨0x14010008, 16, 0x100, 1, 0x100000000, .team, .cold, 0x0, 0xffffffff, 0x0⟩ /- CRC_POLY_LO -/,
  ⟨0x1401000c, 16, 0x100, 1, 0x100000000, .team, .cold, 0x0, 0xffffffff, 0x0⟩ /- CRC_POLY_HI -/,
  ⟨0x14010010, 16, 0x100, 1, 0x100000000, .team, .cold, 0x0, 0xffffffff, 0x0⟩ /- CRC_INIT_LO -/,
  ⟨0x14010014, 16, 0x100, 1, 0x100000000, .team, .cold, 0x0, 0xffffffff, 0x0⟩ /- CRC_INIT_HI -/,
  ⟨0x14010018, 16, 0x100, 1, 0x100000000, .team, .cold, 0x0, 0xffffffff, 0x0⟩ /- CRC_XOR_LO -/,
  ⟨0x1401001c, 16, 0x100, 1, 0x100000000, .team, .cold, 0x0, 0xffffffff, 0x0⟩ /- CRC_XOR_HI -/,
  ⟨0x14010020, 16, 0x100, 1, 0x100000000, .team, .cold, 0x0, 0xffffffff, 0x0⟩ /- CRC_EXP_LO -/,
  ⟨0x14010024, 16, 0x100, 1, 0x100000000, .team, .cold, 0x0, 0xffffffff, 0x0⟩ /- CRC_EXP_HI -/,
  ⟨0x14010028, 16, 0x100, 1, 0x100000000, .team, .cold, 0x0, 0x0, 0x0⟩ /- CRC_RES_LO -/,
  ⟨0x1401002c, 16, 0x100, 1, 0x100000000, .team, .cold, 0x0, 0x0, 0x0⟩ /- CRC_RES_HI -/,
  ⟨0x14010030, 16, 0x100, 1, 0x100000000, .team, .cold, 0x0, 0x0, 0x0⟩ /- CRC_CNT -/,
  ⟨0x14010034, 16, 0x100, 1, 0x100000000, .team, .cold, 0x0, 0x0, 0x0⟩ /- CRC_MIS -/,
  ⟨0x14010038, 16, 0x100, 1, 0x100000000, .team, .cold, 0x0, 0x0, 0x0⟩ /- CRC_CMD -/,
  ⟨0x14010040, 16, 0x100, 1, 0x100000000, .team, .cold, 0x0, 0xffffffff, 0x0⟩ /- CRC_SCAN_ADDR_LO -/,
  ⟨0x14010044, 16, 0x100, 1, 0x100000000, .team, .cold, 0x0, 0x3f, 0x0⟩ /- CRC_SCAN_ADDR_HI -/,
  ⟨0x14010048, 16, 0x100, 1, 0x100000000, .team, .cold, 0x0, 0xffffffff, 0x0⟩ /- CRC_SCAN_LEN -/,
  ⟨0x1401004c, 16, 0x100, 1, 0x100000000, .team, .cold, 0x0, 0x0, 0x0⟩ /- CRC_SCAN_CTL -/,
  ⟨0x14010050, 16, 0x100, 1, 0x100000000, .team, .cold, 0x0, 0x0, 0x60000000⟩ /- CRC_SCAN_STAT -/,
  ⟨0x14010054, 16, 0x100, 1, 0x100000000, .team, .cold, 0x0, 0x0, 0x0⟩ /- CRC_SCAN_RES_LO -/,
  ⟨0x14010058, 16, 0x100, 1, 0x100000000, .team, .cold, 0x0, 0x0, 0x0⟩ /- CRC_SCAN_RES_HI -/]

/-- Register rows of block XING. -/
def regRowsXING : List RegRow := [
  ⟨0x14020000, 1, 0x100000000, 1, 0x100000000, .team, .cold, 0x0, 0x0, 0x80000000⟩ /- XING_ERR -/,
  ⟨0x14020004, 1, 0x100000000, 1, 0x100000000, .team, .cold, 0x3, 0x7, 0x0⟩ /- XING_EVT_EN -/,
  ⟨0x14020008, 1, 0x100000000, 1, 0x100000000, .team, .cold, 0x0, 0x0, 0x0⟩ /- XING_CNT_CLR -/,
  ⟨0x14020100, 1, 0x100000000, 1, 0x100000000, .referee, .cold, 0x0, 0x3ffff, 0x0⟩ /- XING_CFG_0 -/,
  ⟨0x14020110, 1, 0x100000000, 1, 0x100000000, .referee, .cold, 0x1000a, 0x3ffff, 0x0⟩ /- XING_CFG_1 -/,
  ⟨0x14020120, 1, 0x100000000, 1, 0x100000000, .referee, .cold, 0x0, 0x3ffff, 0x0⟩ /- XING_CFG_2 -/,
  ⟨0x14020130, 1, 0x100000000, 1, 0x100000000, .referee, .cold, 0x0, 0x3ffff, 0x0⟩ /- XING_CFG_3 -/,
  ⟨0x14020140, 1, 0x100000000, 1, 0x100000000, .referee, .cold, 0x0, 0x3ffff, 0x0⟩ /- XING_CFG_4 -/,
  ⟨0x14020150, 1, 0x100000000, 1, 0x100000000, .referee, .cold, 0x1000a, 0x3ffff, 0x0⟩ /- XING_CFG_5 -/,
  ⟨0x14020160, 1, 0x100000000, 1, 0x100000000, .referee, .cold, 0x1000a, 0x3ffff, 0x0⟩ /- XING_CFG_6 -/,
  ⟨0x14020170, 1, 0x100000000, 1, 0x100000000, .referee, .cold, 0x1000a, 0x3ffff, 0x0⟩ /- XING_CFG_7 -/,
  ⟨0x14020180, 1, 0x100000000, 1, 0x100000000, .referee, .cold, 0x1000a, 0x3ffff, 0x0⟩ /- XING_CFG_8 -/,
  ⟨0x14020190, 1, 0x100000000, 1, 0x100000000, .referee, .cold, 0x0, 0x0, 0x0⟩ /- XING_CFG_9 -/,
  ⟨0x140201a0, 1, 0x100000000, 1, 0x100000000, .referee, .cold, 0x20001, 0x3ffff, 0x0⟩ /- XING_CFG_10 -/,
  ⟨0x140201b0, 1, 0x100000000, 1, 0x100000000, .referee, .cold, 0x0, 0x3ffff, 0x0⟩ /- XING_CFG_11 -/,
  ⟨0x14020104, 12, 0x10, 1, 0x100000000, .referee, .cold, 0x0, 0x0, 0x0⟩ /- XING_CNT_A -/,
  ⟨0x14020108, 12, 0x10, 1, 0x100000000, .referee, .cold, 0x0, 0x0, 0x0⟩ /- XING_CNT_B -/,
  ⟨0x1402010c, 12, 0x10, 1, 0x100000000, .team, .cold, 0x0, 0x0, 0xf⟩ /- XING_STAT -/]

/-- Register rows of block DMC. -/
def regRowsDMC : List RegRow := [
  ⟨0x15000000, 4, 0x1000, 1, 0x100000000, .referee, .cold, 0x40000000, 0xff000000, 0x0⟩ /- DMC_CFG -/,
  ⟨0x15000004, 4, 0x1000, 1, 0x100000000, .referee, .cold, 0x0, 0x0, 0x0⟩ /- DMC_STAT -/,
  ⟨0x15000008, 4, 0x1000, 1, 0x100000000, .referee, .cold, 0x0, 0x0, 0x0⟩ /- DMC_CAP -/,
  ⟨0x1500000c, 4, 0x1000, 1, 0x100000000, .referee, .cold, 0x14, 0xff, 0x0⟩ /- DMC_SCHED -/,
  ⟨0x15000010, 4, 0x1000, 1, 0x100000000, .referee, .cold, 0x0, 0x0, 0x0⟩ /- DMC_REF -/,
  ⟨0x15000014, 4, 0x1000, 1, 0x100000000, .referee, .cold, 0x0, 0x0, 0x0⟩ /- DMC_ECC_CNT -/,
  ⟨0x15000018, 4, 0x1000, 1, 0x100000000, .team, .cold, 0x0, 0x0, 0x80000000⟩ /- DMC_ERR -/,
  ⟨0x1500001c, 4, 0x1000, 1, 0x100000000, .team, .cold, 0x0, 0x0, 0x0⟩ /- DMC_ERR_LINE -/,
  ⟨0x15000020, 4, 0x1000, 1, 0x100000000, .referee, .cold, 0x80000002, 0x8000000f, 0x0⟩ /- DMC_SPARE_CFG -/,
  ⟨0x15000024, 4, 0x1000, 1, 0x100000000, .referee, .cold, 0x0, 0x0, 0x0⟩ /- DMC_CMD -/,
  ⟨0x15000028, 4, 0x1000, 1, 0x100000000, .referee, .cold, 0x0, 0x0, 0x0⟩ /- DMC_CMD_RES -/,
  ⟨0x1500002c, 4, 0x1000, 1, 0x100000000, .team, .cold, 0x7e, 0x7f, 0x0⟩ /- DMC_EVT_EN -/,
  ⟨0x15000030, 4, 0x1000, 1, 0x100000000, .team, .cold, 0x0, 0x0, 0x0⟩ /- DMC_CNT_CLR -/,
  ⟨0x15000100, 4, 0x1000, 16, 0x4, .referee, .cold, 0x0, 0x0, 0x0⟩ /- DMC_PORT_CFG -/,
  ⟨0x15000200, 4, 0x1000, 64, 0x4, .referee, .cold, 0x0, 0x0, 0x0⟩ /- DMC_SPARE -/]

/-- Register rows of block SLK. -/
def regRowsSLK : List RegRow := [
  ⟨0x16000000, 1, 0x100000000, 1, 0x100000000, .referee, .cold, 0x0, 0x0, 0x0⟩ /- SLK_ID -/,
  ⟨0x16000004, 1, 0x100000000, 1, 0x100000000, .referee, .cold, 0x3e8, 0x8000ffff, 0x0⟩ /- SLK_CFG -/,
  ⟨0x16000008, 1, 0x100000000, 1, 0x100000000, .team, .cold, 0x1f, 0x1f, 0x0⟩ /- SLK_EVT_EN -/,
  ⟨0x1600000c, 1, 0x100000000, 1, 0x100000000, .team, .cold, 0x0, 0x0, 0x0⟩ /- SLK_CHAN_RST -/,
  ⟨0x16000100, 4, 0x20, 1, 0x100000000, .referee, .cold, 0xc0000000, 0xffc0ffff, 0x0⟩ /- SLK_PORT_CTL -/,
  ⟨0x16000104, 4, 0x20, 1, 0x100000000, .referee, .cold, 0x0, 0x0, 0x0⟩ /- SLK_PORT_STAT -/,
  ⟨0x16000108, 4, 0x20, 1, 0x100000000, .referee, .cold, 0x0, 0x0, 0x0⟩ /- SLK_PORT_CNT -/,
  ⟨0x1600010c, 4, 0x20, 1, 0x100000000, .referee, .cold, 0x0, 0x0, 0x0⟩ /- SLK_PORT_DROP -/,
  ⟨0x16000110, 4, 0x20, 1, 0x100000000, .referee, .cold, 0x0, 0x0, 0x0⟩ /- SLK_PORT_DLY -/,
  ⟨0x16000400, 64, 0x4, 1, 0x100000000, .referee, .cold, 0x0, 0xffffffff, 0x0⟩ /- SLK_GROUP -/,
  ⟨0x16001000, 512, 0x4, 1, 0x100000000, .referee, .cold, 0x3f3f3f3f, 0x3f3f3f3f, 0x0⟩ /- SLK_ROUTE -/,
  ⟨0x16002000, 256, 0x8, 1, 0x100000000, .referee, .cold, 0x8000000, 0x0, 0x0⟩ /- SLK_CHAN_CFG -/,
  ⟨0x16002004, 256, 0x8, 1, 0x100000000, .referee, .cold, 0x0, 0x0, 0x0⟩ /- SLK_CHAN_RATE -/]

/-- Register rows of block ETH. -/
def regRowsETH : List RegRow := [
  ⟨0x16100000, 4, 0x100, 1, 0x100000000, .referee, .cold, 0x400005f2, 0xf0003fff, 0x0⟩ /- ETH_CFG -/,
  ⟨0x16100004, 4, 0x100, 1, 0x100000000, .referee, .cold, 0x40000000, 0x0, 0x0⟩ /- ETH_STAT -/,
  ⟨0x16100008, 4, 0x100, 1, 0x100000000, .referee, .cold, 0x0, 0x0, 0x0⟩ /- ETH_RX_CNT -/,
  ⟨0x1610000c, 4, 0x100, 1, 0x100000000, .referee, .cold, 0x0, 0x0, 0x0⟩ /- ETH_TX_CNT -/,
  ⟨0x16100010, 4, 0x100, 1, 0x100000000, .referee, .cold, 0x0, 0x0, 0x0⟩ /- ETH_ERR_CNT -/,
  ⟨0x16100014, 4, 0x100, 1, 0x100000000, .team, .cold, 0x0, 0xffffffff, 0x0⟩ /- ETH_TS_ADJ -/,
  ⟨0x16100018, 4, 0x100, 1, 0x100000000, .team, .cold, 0x0, 0x0, 0x40000000⟩ /- ETH_TXTS_STAT -/,
  ⟨0x1610001c, 4, 0x100, 1, 0x100000000, .team, .cold, 0x0, 0x0, 0x0⟩ /- ETH_TXTS_TAG -/,
  ⟨0x16100020, 4, 0x100, 1, 0x100000000, .team, .cold, 0x0, 0x0, 0x0⟩ /- ETH_TXTS_LO -/,
  ⟨0x16100024, 4, 0x100, 1, 0x100000000, .team, .cold, 0x0, 0x0, 0x0⟩ /- ETH_TXTS_HI -/,
  ⟨0x16100028, 4, 0x100, 1, 0x100000000, .team, .cold, 0x3, 0x3, 0x0⟩ /- ETH_EVT_EN -/]

/-- Register rows of block MT. -/
def regRowsMT : List RegRow := [
  ⟨0x16200000, 1, 0x100000000, 1, 0x100000000, .referee, .none, 0x0, 0x0, 0x0⟩ /- MT_NOW_LO -/,
  ⟨0x16200004, 1, 0x100000000, 1, 0x100000000, .referee, .none, 0x0, 0x0, 0x0⟩ /- MT_NOW_HI -/,
  ⟨0x16200008, 1, 0x100000000, 1, 0x100000000, .referee, .cold, 0x0, 0x8f800000, 0x0⟩ /- MT_CFG -/,
  ⟨0x1620000c, 1, 0x100000000, 1, 0x100000000, .referee, .cold, 0x0, 0x0, 0x0⟩ /- MT_STAT -/,
  ⟨0x16200010, 1, 0x100000000, 1, 0x100000000, .team, .cold, 0x0, 0x1fffff, 0x0⟩ /- MT_RATE -/,
  ⟨0x16200014, 1, 0x100000000, 1, 0x100000000, .referee, .cold, 0x0, 0x0, 0x0⟩ /- MT_RATE_NOW -/,
  ⟨0x16200018, 1, 0x100000000, 1, 0x100000000, .team, .cold, 0x0, 0xffffffff, 0x0⟩ /- MT_EPOCH_LO -/,
  ⟨0x1620001c, 1, 0x100000000, 1, 0x100000000, .team, .cold, 0x0, 0xffffffff, 0x0⟩ /- MT_EPOCH_HI -/,
  ⟨0x16200020, 1, 0x100000000, 1, 0x100000000, .team, .cold, 0x3e8, 0xc000ffff, 0x0⟩ /- MT_PPS_CFG -/,
  ⟨0x16200024, 1, 0x100000000, 1, 0x100000000, .team, .cold, 0x0, 0x0, 0x0⟩ /- MT_CAP_LO -/,
  ⟨0x16200028, 1, 0x100000000, 1, 0x100000000, .team, .cold, 0x0, 0x0, 0x0⟩ /- MT_CAP_HI -/,
  ⟨0x1620002c, 1, 0x100000000, 1, 0x100000000, .team, .cold, 0x0, 0x0, 0xc0000000⟩ /- MT_CAP_STAT -/,
  ⟨0x16200030, 1, 0x100000000, 1, 0x100000000, .team, .cold, 0x3, 0x3, 0x0⟩ /- MT_EVT_EN -/]

/-- Register rows of block PIN. -/
def regRowsPIN : List RegRow := [
  ⟨0x10020000, 1, 0x100000000, 1, 0x100000000, .team, .cold, 0x0, 0x0, 0xffffff⟩ /- PIN_CONFLICT -/,
  ⟨0x10020004, 1, 0x100000000, 1, 0x100000000, .referee, .cold, 0x0, 0x0, 0x0⟩ /- PIN_CONFLICT_LIVE -/,
  ⟨0x10020008, 1, 0x100000000, 1, 0x100000000, .team, .cold, 0xf, 0xf, 0x0⟩ /- PIN_EVT_EN -/,
  ⟨0x10020100, 20, 0x40, 1, 0x100000000, .referee, .cold, 0x0, 0x0, 0x0⟩ /- PIN_BANK_STAT -/,
  ⟨0x10020104, 20, 0x40, 1, 0x100000000, .referee, .cold, 0x0, 0x0, 0x0⟩ /- PIN_BANK_PLL -/,
  ⟨0x10020110, 20, 0x40, 4, 0xc, .referee, .cold, 0x0, 0xf8000000, 0x0⟩ /- PIN_PM_CFG -/,
  ⟨0x10020114, 20, 0x40, 4, 0xc, .referee, .cold, 0x0, 0xffffffff, 0x0⟩ /- PIN_PM_MV -/,
  ⟨0x10020118, 20, 0x40, 4, 0xc, .team, .cold, 0x0, 0x0, 0x80000000⟩ /- PIN_PM_STAT -/,
  ⟨0x10021000, 960, 0x10, 1, 0x100000000, .referee, .cold, 0x1000000, 0xcf00ff00, 0x0⟩ /- PIN_CFG -/,
  ⟨0x10021004, 960, 0x10, 1, 0x100000000, .referee, .cold, 0xa082000, 0xf9fe000, 0x0⟩ /- PIN_ELEC -/,
  ⟨0x10021008, 960, 0x10, 1, 0x100000000, .referee, .cold, 0x0, 0x7f7f, 0x0⟩ /- PIN_FAB -/]

/-- Register rows of block GPIO. -/
def regRowsGPIO : List RegRow := [
  ⟨0x10020800, 60, 0x10, 1, 0x100000000, .team, .cold, 0x0, 0xffff, 0x0⟩ /- GPIO_OUT -/,
  ⟨0x10020804, 60, 0x10, 1, 0x100000000, .team, .cold, 0x0, 0xffff, 0x0⟩ /- GPIO_OE -/,
  ⟨0x10020808, 60, 0x10, 1, 0x100000000, .team, .cold, 0x0, 0x0, 0x0⟩ /- GPIO_IN -/]

/-- Register rows of block PWR. -/
def regRowsPWR : List RegRow := [
  ⟨0x10010000, 1, 0x100000000, 1, 0x100000000, .referee, .aon, 0x0, 0x0, 0x0⟩ /- PWR_STATE -/,
  ⟨0x10010004, 1, 0x100000000, 1, 0x100000000, .referee, .cold, 0x0, 0x0, 0x0⟩ /- PWR_CMD -/,
  ⟨0x10010008, 1, 0x100000000, 1, 0x100000000, .referee, .cold, 0x0, 0x0, 0x0⟩ /- PWR_CMD_RES -/,
  ⟨0x1001000c, 1, 0x100000000, 1, 0x100000000, .referee, .cold, 0x0, 0x0, 0x0⟩ /- PWR_DOM_CMD -/,
  ⟨0x10010010, 1, 0x100000000, 1, 0x100000000, .referee, .cold, 0x0, 0x0, 0x0⟩ /- PWR_DOM_RES -/,
  ⟨0x10010014, 3, 0x4, 1, 0x100000000, .referee, .cold, 0x0, 0x0, 0x0⟩ /- PWR_DOM_ON -/,
  ⟨0x10010020, 1, 0x100000000, 1, 0x100000000, .referee, .none, 0x7fe, 0x0, 0x0⟩ /- PWR_SUP_STAT -/,
  ⟨0x10010024, 1, 0x100000000, 1, 0x100000000, .team, .aon, 0x0, 0x0, 0x7fe⟩ /- PWR_SUP_LOSS -/,
  ⟨0x10010028, 1, 0x100000000, 1, 0x100000000, .referee, .cold, 0x64, 0xff, 0x0⟩ /- PWR_RECOV -/,
  ⟨0x1001002c, 1, 0x100000000, 1, 0x100000000, .team, .cold, 0x7, 0x7, 0x0⟩ /- PWR_EVT_EN -/,
  ⟨0x10010030, 1, 0x100000000, 1, 0x100000000, .referee, .cold, 0x0, 0xfff, 0x0⟩ /- PWR_BLK_RST -/,
  ⟨0x10010034, 1, 0x100000000, 1, 0x100000000, .referee, .aon, 0x0, 0xc0ffffff, 0x0⟩ /- PWR_SAVE -/,
  ⟨0x10010038, 1, 0x100000000, 1, 0x100000000, .referee, .cold, 0x0, 0x0, 0x0⟩ /- PWR_SAVE_NEED -/]

/-- Register rows of block CFG. -/
def regRowsCFG : List RegRow := [
  ⟨0x10030000, 1, 0x100000000, 1, 0x100000000, .referee, .cold, 0x0, 0x0, 0x0⟩ /- CFG_STAT -/,
  ⟨0x10030004, 1, 0x100000000, 1, 0x100000000, .team, .cold, 0x0, 0x0, 0x80000000⟩ /- CFG_ERR -/,
  ⟨0x10030008, 1, 0x100000000, 1, 0x100000000, .team, .cold, 0x0, 0x0, 0x0⟩ /- CFG_ERR_ADDR -/,
  ⟨0x1003000c, 1, 0x100000000, 1, 0x100000000, .referee, .cold, 0x0, 0x0, 0x0⟩ /- CFG_PROG -/,
  ⟨0x10030010, 1, 0x100000000, 1, 0x100000000, .referee, .cold, 0x0, 0x0, 0x0⟩ /- CFG_IMG -/,
  ⟨0x10030014, 1, 0x100000000, 1, 0x100000000, .referee, .cold, 0xa0000, 0xffffff, 0x0⟩ /- CFG_KICK -/,
  ⟨0x10030018, 1, 0x100000000, 1, 0x100000000, .referee, .cold, 0x0, 0x0, 0x0⟩ /- CFG_PLAY_LO -/,
  ⟨0x1003001c, 1, 0x100000000, 1, 0x100000000, .referee, .cold, 0x0, 0x0, 0x0⟩ /- CFG_PLAY_HI -/,
  ⟨0x10030020, 1, 0x100000000, 1, 0x100000000, .referee, .cold, 0x0, 0x0, 0x0⟩ /- CFG_CMD -/,
  ⟨0x10030024, 1, 0x100000000, 1, 0x100000000, .referee, .cold, 0x0, 0xffffffff, 0x0⟩ /- CFG_ARG0 -/,
  ⟨0x10030028, 1, 0x100000000, 1, 0x100000000, .referee, .cold, 0x0, 0xffffffff, 0x0⟩ /- CFG_ARG1 -/,
  ⟨0x1003002c, 1, 0x100000000, 1, 0x100000000, .referee, .cold, 0x0, 0xffffffff, 0x0⟩ /- CFG_ARG2 -/,
  ⟨0x10030030, 1, 0x100000000, 1, 0x100000000, .referee, .cold, 0x0, 0x0, 0x0⟩ /- CFG_CMD_RES -/,
  ⟨0x10030034, 1, 0x100000000, 1, 0x100000000, .team, .cold, 0x7, 0x7, 0x0⟩ /- CFG_EVT_EN -/,
  ⟨0x10030040, 32, 0x4, 1, 0x100000000, .referee, .cold, 0x0, 0x0, 0x0⟩ /- CFG_RB_DATA -/]

/-- Register rows of block SWP. -/
def regRowsSWP : List RegRow := [
  ⟨0x10040000, 1, 0x100000000, 1, 0x100000000, .referee, .cold, 0xa, 0x3ff, 0x0⟩ /- SWP_CFG -/,
  ⟨0x10040004, 1, 0x100000000, 1, 0x100000000, .referee, .cold, 0x0, 0x0, 0x0⟩ /- SWP_STAT -/,
  ⟨0x10040008, 1, 0x100000000, 1, 0x100000000, .referee, .cold, 0x0, 0x0, 0x0⟩ /- SWP_CNT -/,
  ⟨0x1004000c, 1, 0x100000000, 1, 0x100000000, .referee, .cold, 0x0, 0x0, 0x0⟩ /- SWP_RESTART -/,
  ⟨0x10040010, 1, 0x100000000, 1, 0x100000000, .team, .cold, 0x2, 0x3, 0x0⟩ /- SWP_EVT_EN -/,
  ⟨0x10040014, 1, 0x100000000, 1, 0x100000000, .team, .cold, 0x0, 0x0, 0x0⟩ /- SWP_CNT_CLR -/]

/-- Register rows of block SUB. -/
def regRowsSUB : List RegRow := [
  ⟨0x10050000, 1, 0x100000000, 1, 0x100000000, .referee, .cold, 0x800000c8, 0xff0007ff, 0x0⟩ /- SUB_CFG -/,
  ⟨0x10050004, 1, 0x100000000, 1, 0x100000000, .referee, .cold, 0x0, 0x0, 0x0⟩ /- SUB_STAT -/,
  ⟨0x10050008, 1, 0x100000000, 1, 0x100000000, .team, .cold, 0x0, 0x0, 0x80000000⟩ /- SUB_ERR -/,
  ⟨0x1005000c, 1, 0x100000000, 1, 0x100000000, .referee, .cold, 0x0, 0x0, 0x0⟩ /- SUB_CNT -/,
  ⟨0x10050010, 1, 0x100000000, 1, 0x100000000, .referee, .cold, 0x800001e0, 0x8000ffff, 0x0⟩ /- SUB_DRILL_CFG -/,
  ⟨0x10050014, 1, 0x100000000, 1, 0x100000000, .referee, .cold, 0x0, 0xffffffff, 0x0⟩ /- SUB_DRILL_WIN -/,
  ⟨0x10050018, 1, 0x100000000, 1, 0x100000000, .referee, .cold, 0xffffffff, 0xffffffff, 0x0⟩ /- SUB_DRILL_ROWS -/,
  ⟨0x1005001c, 1, 0x100000000, 1, 0x100000000, .referee, .cold, 0x0, 0x0, 0x0⟩ /- SUB_DRILL_STAT -/,
  ⟨0x10050020, 1, 0x100000000, 1, 0x100000000, .team, .cold, 0x5, 0x7, 0x0⟩ /- SUB_EVT_EN -/,
  ⟨0x10050024, 1, 0x100000000, 1, 0x100000000, .referee, .cold, 0x0, 0x0, 0x0⟩ /- SUB_STORE -/,
  ⟨0x10050100, 32, 0x4, 1, 0x100000000, .referee, .cold, 0x3f3f3f3f, 0x0, 0x0⟩ /- SUB_DETOUR -/]

/-- Register rows of block FTT. -/
def regRowsFTT : List RegRow := [
  ⟨0x17200000, 1, 0x100000000, 1, 0x100000000, .referee, .aon, 0x0, 0x0, 0x0⟩ /- FTT_STAT -/,
  ⟨0x17200004, 1, 0x100000000, 1, 0x100000000, .referee, .aon, 0x0, 0x0, 0x0⟩ /- FTT_TIME -/,
  ⟨0x17200008, 1, 0x100000000, 1, 0x100000000, .referee, .cold, 0x80000064, 0x800000ff, 0x0⟩ /- FTT_CFG -/,
  ⟨0x1720000c, 1, 0x100000000, 1, 0x100000000, .referee, .cold, 0x0, 0x0, 0x0⟩ /- FTT_REDUCED -/,
  ⟨0x17200010, 1, 0x100000000, 1, 0x100000000, .team, .cold, 0x0, 0x1, 0x0⟩ /- FTT_EVT_EN -/]

/-- Register rows of block CAR. -/
def regRowsCAR : List RegRow := [
  ⟨0x17300000, 1, 0x100000000, 1, 0x100000000, .referee, .none, 0x0, 0x0, 0x0⟩ /- CAR_UID_LO -/,
  ⟨0x17300004, 1, 0x100000000, 1, 0x100000000, .referee, .none, 0x0, 0x0, 0x0⟩ /- CAR_UID_HI -/,
  ⟨0x17300008, 1, 0x100000000, 1, 0x100000000, .referee, .cold, 0x0, 0x0, 0x0⟩ /- CAR_STAT -/,
  ⟨0x1730000c, 1, 0x100000000, 1, 0x100000000, .team, .cold, 0x0, 0x0, 0x80000000⟩ /- CAR_ERR -/,
  ⟨0x17300010, 1, 0x100000000, 1, 0x100000000, .referee, .cold, 0x0, 0x0, 0x0⟩ /- CAR_CMD -/,
  ⟨0x17300400, 256, 0x4, 1, 0x100000000, .referee, .cold, 0x0, 0x0, 0x0⟩ /- CAR_REC -/]

/-- Register rows of block REF. -/
def regRowsREF : List RegRow := [
  ⟨0x18000000, 1, 0x100000000, 1, 0x100000000, .referee, .cold, 0x0, 0x0, 0x0⟩ /- REF_STAT -/,
  ⟨0x18000004, 1, 0x100000000, 1, 0x100000000, .referee, .cold, 0x0, 0x0, 0x0⟩ /- REF_CAUSE -/,
  ⟨0x18000008, 1, 0x100000000, 1, 0x100000000, .referee, .cold, 0x0, 0x0, 0x0⟩ /- REF_FW -/,
  ⟨0x1800000c, 1, 0x100000000, 1, 0x100000000, .referee, .none, 0x0, 0x0, 0x0⟩ /- REF_KEYS -/,
  ⟨0x18000010, 1, 0x100000000, 1, 0x100000000, .referee, .cold, 0x0, 0x0, 0x0⟩ /- REF_HB -/,
  ⟨0x18000014, 1, 0x100000000, 1, 0x100000000, .referee, .cold, 0x0, 0x0, 0x0⟩ /- REF_CTL -/]

/-- Register rows of block MBX. -/
def regRowsMBX : List RegRow := [
  ⟨0x18100000, 1, 0x100000000, 1, 0x100000000, .team, .cold, 0x300, 0x3ff, 0x0⟩ /- MBX_CTL -/,
  ⟨0x18100004, 1, 0x100000000, 1, 0x100000000, .team, .cold, 0x0, 0x0, 0xff⟩ /- MBX_IRQ -/,
  ⟨0x18100100, 8, 0x40, 1, 0x100000000, .team, .cold, 0x0, 0xff00ff, 0x0⟩ /- MBX_CALL -/,
  ⟨0x18100104, 8, 0x40, 6, 0x4, .team, .cold, 0x0, 0xffffffff, 0x0⟩ /- MBX_ARG -/,
  ⟨0x1810011c, 8, 0x40, 1, 0x100000000, .referee, .cold, 0x0, 0x0, 0x0⟩ /- MBX_RES -/,
  ⟨0x18100120, 8, 0x40, 4, 0x4, .referee, .cold, 0x0, 0x0, 0x0⟩ /- MBX_RET -/]

/-- Register rows of block MET. -/
def regRowsMET : List RegRow := [
  ⟨0x17100000, 1, 0x100000000, 1, 0x100000000, .metrology, .aon, 0x0, 0x0, 0x0⟩ /- MET_ID_LO -/,
  ⟨0x17100004, 1, 0x100000000, 1, 0x100000000, .metrology, .aon, 0x0, 0x0, 0x0⟩ /- MET_ID_HI -/,
  ⟨0x17100008, 1, 0x100000000, 1, 0x100000000, .metrology, .aon, 0x20000, 0x0, 0x0⟩ /- MET_STAT -/,
  ⟨0x1710000c, 1, 0x100000000, 1, 0x100000000, .metrology, .aon, 0x0, 0x0, 0x0⟩ /- MET_SEQ -/,
  ⟨0x17100010, 1, 0x100000000, 1, 0x100000000, .metrology, .aon, 0x0, 0x0, 0x0⟩ /- MET_SNAP_LO -/,
  ⟨0x17100014, 1, 0x100000000, 1, 0x100000000, .metrology, .aon, 0x0, 0x0, 0x0⟩ /- MET_SNAP_HI -/,
  ⟨0x17100018, 1, 0x100000000, 1, 0x100000000, .metrology, .none, 0x0, 0x0, 0x0⟩ /- MET_SB_COUNT -/,
  ⟨0x1710001c, 1, 0x100000000, 1, 0x100000000, .metrology, .aon, 0x0, 0x0, 0x0⟩ /- MET_XCHG -/,
  ⟨0x17100020, 1, 0x100000000, 1, 0x100000000, .metrology, .aon, 0x0, 0x0, 0x0⟩ /- MET_CH_STAT -/,
  ⟨0x17100024, 1, 0x100000000, 1, 0x100000000, .metrology, .aon, 0x0, 0x0, 0x0⟩ /- MET_MOD_STAT -/,
  ⟨0x17100028, 1, 0x100000000, 1, 0x100000000, .metrology, .aon, 0x0, 0x0, 0x0⟩ /- MET_PULSE_OVF -/,
  ⟨0x1710002c, 1, 0x100000000, 1, 0x100000000, .metrology, .aon, 0x0, 0x0, 0x0⟩ /- MET_EXP_DROP -/,
  ⟨0x17100040, 16, 0x4, 1, 0x100000000, .metrology, .aon, 0x0, 0x0, 0x0⟩ /- MET_UMP -/,
  ⟨0x17100080, 16, 0x4, 1, 0x100000000, .metrology, .aon, 0x0, 0x0, 0x0⟩ /- MET_PULSES -/,
  ⟨0x17101000, 8, 0x200, 1, 0x100000000, .metrology, .none, 0x0, 0x0, 0x0⟩ /- MET_EI_LO -/,
  ⟨0x17101004, 8, 0x200, 1, 0x100000000, .metrology, .none, 0x0, 0x0, 0x0⟩ /- MET_EI_HI -/,
  ⟨0x17101008, 8, 0x200, 1, 0x100000000, .metrology, .none, 0x0, 0x0, 0x0⟩ /- MET_EE_LO -/,
  ⟨0x1710100c, 8, 0x200, 1, 0x100000000, .metrology, .none, 0x0, 0x0, 0x0⟩ /- MET_EE_HI -/,
  ⟨0x17101010, 8, 0x200, 1, 0x100000000, .metrology, .none, 0x0, 0x0, 0x0⟩ /- MET_EQ1_LO -/,
  ⟨0x17101014, 8, 0x200, 1, 0x100000000, .metrology, .none, 0x0, 0x0, 0x0⟩ /- MET_EQ1_HI -/,
  ⟨0x17101018, 8, 0x200, 1, 0x100000000, .metrology, .none, 0x0, 0x0, 0x0⟩ /- MET_EQ2_LO -/,
  ⟨0x1710101c, 8, 0x200, 1, 0x100000000, .metrology, .none, 0x0, 0x0, 0x0⟩ /- MET_EQ2_HI -/,
  ⟨0x17101020, 8, 0x200, 1, 0x100000000, .metrology, .none, 0x0, 0x0, 0x0⟩ /- MET_EQ3_LO -/,
  ⟨0x17101024, 8, 0x200, 1, 0x100000000, .metrology, .none, 0x0, 0x0, 0x0⟩ /- MET_EQ3_HI -/,
  ⟨0x17101028, 8, 0x200, 1, 0x100000000, .metrology, .none, 0x0, 0x0, 0x0⟩ /- MET_EQ4_LO -/,
  ⟨0x1710102c, 8, 0x200, 1, 0x100000000, .metrology, .none, 0x0, 0x0, 0x0⟩ /- MET_EQ4_HI -/,
  ⟨0x17101030, 8, 0x200, 1, 0x100000000, .metrology, .none, 0x0, 0x0, 0x0⟩ /- MET_ES_LO -/,
  ⟨0x17101034, 8, 0x200, 1, 0x100000000, .metrology, .none, 0x0, 0x0, 0x0⟩ /- MET_ES_HI -/,
  ⟨0x17101038, 8, 0x200, 1, 0x100000000, .metrology, .aon, 0x0, 0x0, 0x0⟩ /- MET_P -/,
  ⟨0x1710103c, 8, 0x200, 1, 0x100000000, .metrology, .aon, 0x0, 0x0, 0x0⟩ /- MET_Q -/,
  ⟨0x17101040, 8, 0x200, 1, 0x100000000, .metrology, .aon, 0x0, 0x0, 0x0⟩ /- MET_S -/,
  ⟨0x17101044, 8, 0x200, 1, 0x100000000, .metrology, .aon, 0x0, 0x0, 0x0⟩ /- MET_FREQ -/,
  ⟨0x17101048, 8, 0x200, 1, 0x100000000, .metrology, .aon, 0x0, 0x0, 0x0⟩ /- MET_DEM -/,
  ⟨0x1710104c, 8, 0x200, 1, 0x100000000, .metrology, .aon, 0x0, 0x0, 0x0⟩ /- MET_DEM_MAX -/,
  ⟨0x17101050, 8, 0x200, 1, 0x100000000, .metrology, .aon, 0x0, 0x0, 0x0⟩ /- MET_POINT_STAT -/,
  ⟨0x17101060, 8, 0x200, 32, 0x4, .metrology, .aon, 0x0, 0x0, 0x0⟩ /- MET_PH -/,
  ⟨0x17140000, 16, 0x100, 64, 0x4, .metrology, .aon, 0x0, 0x0, 0x0⟩ /- MET_HARM -/,
  ⟨0x17180000, 4096, 0x40, 16, 0x4, .metrology, .none, 0x0, 0x0, 0x0⟩ /- MET_SB -/]

/-- Register rows of block UMP. -/
def regRowsUMP : List RegRow := [
  ⟨0x17000000, 1, 0x100000000, 1, 0x100000000, .referee, .aon, 0x0, 0x0, 0x0⟩ /- UMP_STAT -/,
  ⟨0x17000004, 1, 0x100000000, 1, 0x100000000, .referee, .aon, 0x0, 0x0, 0xffffffff⟩ /- UMP_ALARM_LO -/,
  ⟨0x17000008, 1, 0x100000000, 1, 0x100000000, .referee, .aon, 0x0, 0x0, 0xffffffff⟩ /- UMP_ALARM_HI -/,
  ⟨0x1700000c, 1, 0x100000000, 1, 0x100000000, .referee, .cold, 0x0, 0x0, 0x0⟩ /- UMP_OUT_LO -/,
  ⟨0x17000010, 1, 0x100000000, 1, 0x100000000, .referee, .cold, 0x0, 0x0, 0x0⟩ /- UMP_OUT_HI -/,
  ⟨0x17000014, 1, 0x100000000, 1, 0x100000000, .referee, .cold, 0x0, 0x0, 0x0⟩ /- UMP_HB -/,
  ⟨0x17000018, 1, 0x100000000, 1, 0x100000000, .referee, .aon, 0x0, 0x0, 0x80000000⟩ /- UMP_LOG_STAT -/,
  ⟨0x1700001c, 1, 0x100000000, 1, 0x100000000, .referee, .aon, 0x0, 0x0, 0x0⟩ /- UMP_LOG_POP -/,
  ⟨0x17000020, 1, 0x100000000, 1, 0x100000000, .team, .cold, 0x3, 0x3, 0x0⟩ /- UMP_EVT_EN -/,
  ⟨0x17000040, 8, 0x10, 1, 0x100000000, .referee, .cold, 0x0, 0xffffffff, 0x0⟩ /- UMP_MTC_VALUE_LO -/,
  ⟨0x17000044, 8, 0x10, 1, 0x100000000, .referee, .cold, 0x0, 0xffffffff, 0x0⟩ /- UMP_MTC_VALUE_HI -/,
  ⟨0x17000048, 8, 0x10, 1, 0x100000000, .referee, .cold, 0x0, 0xffffffff, 0x0⟩ /- UMP_MTC_PERIOD -/,
  ⟨0x1700004c, 8, 0x10, 1, 0x100000000, .referee, .cold, 0x0, 0x80000000, 0x0⟩ /- UMP_MTC_EN -/,
  ⟨0x170000c0, 8, 0x4, 1, 0x100000000, .referee, .aon, 0x0, 0x0, 0x0⟩ /- UMP_TEMP -/,
  ⟨0x170000e4, 10, 0x4, 1, 0x100000000, .referee, .aon, 0x0, 0x0, 0x0⟩ /- UMP_VSUP -/,
  ⟨0x17000200, 16, 0x10, 4, 0x4, .referee, .aon, 0x0, 0x0, 0x0⟩ /- UMP_LOG -/,
  ⟨0x17001000, 64, 0x10, 1, 0x100000000, .referee, .cold, 0x0, 0xfffffc00, 0x0⟩ /- UMP_RULE_W0 -/,
  ⟨0x17001004, 64, 0x10, 1, 0x100000000, .referee, .cold, 0x0, 0xffffffe0, 0x0⟩ /- UMP_RULE_W1 -/,
  ⟨0x17001008, 64, 0x10, 1, 0x100000000, .referee, .cold, 0x0, 0xffffffff, 0x0⟩ /- UMP_RULE_W2 -/,
  ⟨0x1700100c, 64, 0x10, 1, 0x100000000, .referee, .cold, 0x0, 0xffffffff, 0x0⟩ /- UMP_RULE_W3 -/]

/-- The blocks of one die (Table 20-1), each with the last address of its decoded span.  `se` is the alias span
0x4000_0000 to 0x457F_FFFF; the primary span is folded onto it by R483 before this enumeration is used. -/
inductive Blk where
  | bSYS | bPWR | bPIN | bCFG | bSWP | bSUB | bPACE | bRGN | bROS | bQ | bCRC | bXING | bDMC | bSLK | bETH | bMT | bUMP | bMET | bFTT | bCAR | bREF | bMBX | bSE
deriving DecidableEq, Repr

/-- Spans and rows of the blocks (Table 20-1). -/
def blkTable : List (Nat × Nat × Blk × List RegRow) := [
  (0x10000000, 0x1000ffff, .bSYS, regRowsSYS),
  (0x10010000, 0x1001ffff, .bPWR, regRowsPWR),
  (0x10020000, 0x1002ffff, .bPIN, regRowsPIN ++ regRowsGPIO),
  (0x10030000, 0x1003ffff, .bCFG, regRowsCFG),
  (0x10040000, 0x1004ffff, .bSWP, regRowsSWP),
  (0x10050000, 0x1005ffff, .bSUB, regRowsSUB),
  (0x10060000, 0x1006ffff, .bPACE, regRowsPACE),
  (0x11000000, 0x11057fff, .bRGN, regRowsRGN),
  (0x13000000, 0x1367ffff, .bROS, regRowsROS),
  (0x14000000, 0x1400ffff, .bQ, regRowsQ),
  (0x14010000, 0x1401ffff, .bCRC, regRowsCRC),
  (0x14020000, 0x1402ffff, .bXING, regRowsXING),
  (0x15000000, 0x1500ffff, .bDMC, regRowsDMC),
  (0x16000000, 0x1600ffff, .bSLK, regRowsSLK),
  (0x16100000, 0x1610ffff, .bETH, regRowsETH),
  (0x16200000, 0x1620ffff, .bMT, regRowsMT),
  (0x17000000, 0x1700ffff, .bUMP, regRowsUMP),
  (0x17100000, 0x171bffff, .bMET, regRowsMET),
  (0x17200000, 0x1720ffff, .bFTT, regRowsFTT),
  (0x17300000, 0x1730ffff, .bCAR, regRowsCAR),
  (0x18000000, 0x1800ffff, .bREF, regRowsREF),
  (0x18100000, 0x1810ffff, .bMBX, regRowsMBX),
  (0x40000000, 0x457fffff, .bSE, regRowsSE)]

/-- Does address `a` belong to a row (R482 layout: base plus copy times stride). -/
def RegRow.has (r : RegRow) (a : Nat) : Bool :=
  r.base ≤ a && (a - r.base) / r.s1 < r.n1 && (a - r.base) % r.s1 / r.s2 < r.n2 && (a - r.base) % r.s1 % r.s2 == 0

/-- The block whose decoded span holds `a`, with its rows (R484: none outside every decoded span). -/
def findBlk (a : Nat) : Option (Blk × List RegRow) :=
  (blkTable.find? (fun b => b.1 ≤ a && a ≤ b.2.1)).map (fun b => b.2.2)

/-- The row that holds address `a`, if any register stands there. -/
def findRow (a : Nat) : Option RegRow :=
  match findBlk a with
  | some (_, rows) => rows.find? (fun r => r.has a)
  | none => none

/-- The reset word of the register at `a` (0 where no register stands). -/
def rowReset (a : Nat) : Word :=
  match findRow a with
  | some r => BitVec.ofNat 32 r.reset
  | none => 0

end Sys2Proof.Machine
end

