-- ==== Sys2Proof/Machine/State.lean ====
section
/-! DEFINITION. The state of the machine, as plain data: every register, memory, queue, counter, mode and pin the spec
gives it, for each of the two dies, and the queue of commands that wait.  `DieSt.regs` holds the registers of the
register tables; the structures before it hold what the spec gives the machine beside its registers.  Fields marked
MODEL'S OWN are not the spec's. -/

namespace Sys2Proof.Machine

/-- The twelve orderable variants, by ordering code (Table 01-1): no other combination of enabled rows, metrology and
package exists (R10). -/
inductive Part where
  | tsl8640F3168 | tsl8640MF3168 | tsl8630F3168 | tsl8630MF3168
  | tsl8640F2112 | tsl8640MF2112 | tsl8630F2112 | tsl8630MF2112 | tsl8620F2112 | tsl8620MF2112
  | tsl8680T4096 | tsl8680MT4096
deriving DecidableEq, Repr

/-- One row of Table 01-1: SYS_ID.PART, enabled rows of a die, metrology, and the package (0 F3168, 1 F2112, 2 T4096). -/
structure PartRow where
  code : Nat
  rows : Nat
  met : Bool
  pkg : Nat
deriving DecidableEq, Repr

/-- `PartRow` at reset: nothing held, every count 0.  -/
def PartRow.reset : PartRow where
  code := 0
  rows := 0
  met := false
  pkg := 0

/-- Table 01-1. -/
def Part.row : Part → PartRow
  | .tsl8640F3168 => ⟨1, 32, false, 0⟩
  | .tsl8640MF3168 => ⟨2, 32, true, 0⟩
  | .tsl8630F3168 => ⟨3, 24, false, 0⟩
  | .tsl8630MF3168 => ⟨4, 24, true, 0⟩
  | .tsl8640F2112 => ⟨5, 32, false, 1⟩
  | .tsl8640MF2112 => ⟨6, 32, true, 1⟩
  | .tsl8630F2112 => ⟨7, 24, false, 1⟩
  | .tsl8630MF2112 => ⟨8, 24, true, 1⟩
  | .tsl8620F2112 => ⟨9, 16, false, 1⟩
  | .tsl8620MF2112 => ⟨10, 16, true, 1⟩
  | .tsl8680T4096 => ⟨11, 32, false, 2⟩
  | .tsl8680MT4096 => ⟨12, 32, true, 2⟩

/-- What fuses and bonding fix for one die (R10 to R15): the variant, the stepping, which die of the package it is, and the
fused serial number (CAR_UID, R414).  Every other figure of a variant follows from these. -/
structure Ident where
  part : Part
  /-- SYS_ID.STEPPING. -/
  stepping : Nat
  /-- Die 1 of the package. -/
  second : Bool
  uid : Nat
deriving DecidableEq, Repr

/-- SYS_ID.PKG: 0 F3168, 1 F2112, 2 T4096. -/
def Ident.pkg (i : Ident) : Nat := i.part.row.pkg

/-- SYS_ID.TWIN: 1 in T4096. -/
def Ident.twin (i : Ident) : Bool := i.pkg == 2

/-- SYS_ID.DIE. -/
def Ident.die (i : Ident) : Nat := if i.second then 1 else 0

/-- SYS_ID.MET: this die's Zinen island is enabled and bonded; in T4096 on die 0 only. -/
def Ident.met (i : Ident) : Bool := i.part.row.met && !i.second

/-- SYS_ID.ROWS: enabled rows. -/
def Ident.rows (i : Ident) : Nat := i.part.row.rows

/-- Not there at all: die 1 of a single-die part (R13, R16). -/
def Ident.absent (i : Ident) : Bool := i.second && !i.twin

/-- The variant the model's reset state stands for: TSL8640-M-F3168, stepping 0 (DESIGN CHOICE, log entry 1:
the spec describes twelve variants; every statement is about every `Ident`). -/
def Ident.reset : Ident where
  part := .tsl8640MF3168
  stepping := 0
  second := false
  uid := 0

/-- Die 1 of that single-die part: not there (R13, R16). -/
def Ident.none : Ident := { Ident.reset with second := true }

/-- The answer of one management-bus access (R5, R9, R17, R28). -/
structure Resp where
  data : Word
  err : Bool
deriving DecidableEq, Repr

/-- `Resp` at reset: nothing held, every count 0.  -/
def Resp.reset : Resp where
  data := 0
  err := false

/-- One 128-bit event record (R298). -/
structure EvRec where
  mt : Word64
  /-- 24-bit source number: device, die, local source. -/
  src : Nat
  code : Nat
  data : Nat
  /-- Received over Sunislink (USER 0b11) rather than raised on this die (USER 0b10) (R300). -/
  remote : Bool
  /-- Already forwarded as an EVENT message (R300). -/
  sent : Bool
deriving DecidableEq, Repr

/-- `EvRec` at reset: nothing held, every count 0.  -/
def EvRec.reset : EvRec where
  mt := 0
  src := 0
  code := 0
  data := 0
  remote := false
  sent := false


/-- A place a fabric signal comes from: quiet (constant 0, R71), the REQ or ACK output of a unit, its output Q0 or Q1, one
rail of registered bit `bit` of an encoder (R57; 2 i is S0 of the i-th unit of its stage and 2 i + 1 its S1, and Table 03-1
names no output for the rails: DESIGN CHOICE, log entry 169), a merge element, a grant of an arbiter, a wire an island drives
into the region (its level is an input of the command), a wire of the Geosh bridge at the region's row (R109: wires 2 i and
2 i + 1 are the T and F rails of bit i of the incoming channel, wire 16 the acknowledge of the outgoing one), or a routing
track of the region: the output of the multiplexer that drives it (R71). -/
inductive Sig where
  | quiet
  | req (unit : Nat)
  | ack (unit : Nat)
  | q (unit : Nat) (s1 : Bool)
  | enc (leader bit : Nat) (f : Bool)
  | merge (k : Nat)
  | grant (arb : Nat) (side : Bool)
  | island (k : Nat)
  | bridge (ch wire : Nat)
  | track (k : Nat)
deriving DecidableEq, Repr, Inhabited

/-- The classes of routing multiplexers that drive a track (Table 03-9); those of the fourth, unit input, are the select
fields of the units. -/
inductive MuxClass where
  | clusterOutput | regionSwitch | rowChannel
deriving DecidableEq, Repr, Inhabited

/-- A routed signal where it is read: where it comes from.  A signal of another region passes ring channel `there` of that
region and ring channel `here` of the region that reads it (R32, R90); one of an island or the bridge passes `here` alone.
`wire` says which wire of the channel it is: 0 the request, 1 the acknowledge, 2 + i data wire i. -/
structure Link where
  region : Nat
  sig : Sig
  here : Nat
  there : Nat
  wire : Nat
deriving DecidableEq, Repr, Inhabited

/-- The one multiplexer that drives track `track`: its class, its select code, and its sources, the wires that stand under
codes 1, 2 and on (R71). -/
structure Mux where
  track : Nat
  cls : MuxClass
  code : Nat
  sources : List Link
deriving DecidableEq, Repr, Inhabited

/-- Look-up table arrangements (Table 03-2). -/
inductive LutArr where
  | l6 | l5x2 | arith
deriving DecidableEq, Repr, Inhabited

/-- Carry/compare link modes (Table 03-3). -/
inductive ChainMode where
  | off | carry | and | or
deriving DecidableEq, Repr, Inhabited

/-- Chain input of a unit (R49): the unit before it, or, at the first unit of a chain, a constant or one of its routed
inputs I0 to I5. -/
inductive ChainSrc where
  | link
  | zero
  | one
  | routed (i : Nat)
deriving DecidableEq, Repr, Inhabited

/-- The role of a unit's handshake controller (Table 03-4): it runs a stage, belongs to the stage of a leader, carries a
rail of a bit of the dual-rail stage of that key, or is off, the unit being static.  One role a unit, so one mode (R30). -/
inductive Role where
  | leader
  | member (leader : Nat)
  | railT (key bit : Nat)
  | railF (key bit : Nat)
  | none
deriving DecidableEq, Repr, Inhabited

/-- One unit as the image sets it (R48 to R52): the select fields are those of I0 to I5; `s1` says whether S1 of an L6 unit
takes the carry/compare output or is unused (Table 03-2). -/
structure UnitCfg where
  unit : Nat
  arr : LutArr
  tt : Nat
  chain : ChainMode
  chainIn : ChainSrc
  sel : List Nat
  s1 : Bool
  role : Role
  rst0 : Bool
  rst1 : Bool
deriving DecidableEq, Repr, Inhabited

/-- One bundled-data stage (R53): its LEADER, its initial token (R63), the select codes of the leader's REQ_IN and ACK_OUT
(Table 03-9), and whether it is an encoder to a dual-rail channel (R57). -/
structure StageCfg where
  leader : Nat
  init : Bool
  reqSel : Nat
  ackSel : Nat
  encoder : Bool
  /-- The recipe (R116): weights of the four canaries of R117, in sixteenths. -/
  recipe : List Nat
deriving DecidableEq, Repr, Inhabited

/-- `StageCfg` at reset: nothing held, every count 0.  -/
def StageCfg.reset : StageCfg where
  leader := 0
  init := false
  reqSel := 0
  ackSel := 0
  encoder := false
  recipe := []

/-- One dual-rail stage (R55): its key is the unit that holds the T rail of bit 0, beside which its completion detector
sits; the wires of its input word, bit 0 first; the select code of that unit's ACK_OUT; whether it is a decoder, whose output
is a bundled channel (R57); and its initial token (R63), whose value its rail units' reset values give. -/
structure RailCfg where
  key : Nat
  inT : List Link
  inF : List Link
  ackSel : Nat
  decoder : Bool
  init : Bool
deriving DecidableEq, Repr, Inhabited

/-- `RailCfg` at reset: nothing held, every count 0.  -/
def RailCfg.reset : RailCfg where
  key := 0
  inT := []
  inF := []
  ackSel := 0
  decoder := false
  init := false

/-- One ring channel (R90): dual-rail or bundled, the cells of its wires and the signals that drive them: request,
acknowledge, then the data wires (of a dual-rail word, T and F of each bit in turn). -/
structure RingChan where
  dual : Bool
  cells : List Nat
  req : Link
  ack : Link
  data : List Link
deriving DecidableEq, Repr, Inhabited

/-- What the logic frames of a region place in it.  Where these lie in the frames is Oxlys payload (R3). -/
structure Design where
  units : List UnitCfg
  /-- The multiplexers of the region's tracks (R71). -/
  muxes : List Mux
  /-- Cluster inputs: cluster, input 0 to 47, and the signal on it. -/
  cins : List (Nat × Nat × Link)
  stages : List StageCfg
  rails : List RailCfg
  merges : List (List Link)
  arbs : List (Link × Link)
  ring : List RingChan
deriving DecidableEq, Repr, Inhabited

/-- `Design` at reset: nothing held, every count 0.  -/
def Design.reset : Design where
  units := []
  muxes := []
  cins := []
  stages := []
  rails := []
  merges := []
  arbs := []
  ring := []

/-- The running state of one bundled-data stage (R60). -/
structure StageSt where
  full : Bool
  /-- ACK_IN_driven: the acknowledge on the input channel. -/
  ackIn : Bool
  /-- REQ: the request on the output channel. -/
  req : Bool
  /-- A rise of request has won against a delay change: the delay line runs on the old delay (R62). -/
  runs : Bool
deriving DecidableEq, Repr

/-- `StageSt` at reset: nothing held, every count 0.  -/
def StageSt.reset : StageSt where
  full := false
  ackIn := false
  req := false
  runs := false

/-- The running state of one dual-rail stage (R55 to R58).  The word it holds stands in S0 of its rail units, the completion
state in their S1 (R51). -/
structure RailSt where
  /-- The acknowledge on the input channel. -/
  ack : Bool
  /-- It holds a token that the stage ahead has not captured. -/
  full : Bool
  /-- The rails of its output channel show its word; else they show null. -/
  drive : Bool
  /-- A decoder's bundled request. -/
  req : Bool
  /-- The bit whose illegal value has been reported and has not yet shown a legal value (R56). -/
  illegal : Option Nat
deriving DecidableEq, Repr

/-- `RailSt` at reset: nothing held, every count 0.  -/
def RailSt.reset : RailSt where
  ack := false
  full := false
  drive := false
  req := false
  illegal := none

/-- One channel of the isolation ring (R93 to R96). -/
structure RingSt where
  frozen : Bool
  forced : Bool
  /-- Request, acknowledge and data levels latched at the freeze. -/
  req : Bool
  ack : Bool
  data : Nat
  /-- Transitions held back at the frozen cells, with the level their far side drives (R94). -/
  held : List (Nat × Bool)
  /-- After a substitution from initial values: the channel completes its phases toward the outside (R394). -/
  drain : Bool
deriving DecidableEq, Repr

/-- `RingSt` at reset: nothing held, every count 0.  -/
def RingSt.reset : RingSt where
  frozen := false
  forced := false
  req := false
  ack := false
  data := 0
  held := []
  drain := false

/-- An access port's last response token (R83, R85, R86). -/
structure BmResp where
  data : Word64
  err : Bool
deriving DecidableEq, Repr

/-- `BmResp` at reset: nothing held, every count 0.  -/
def BmResp.reset : BmResp where
  data := 0
  err := false

/-- A triple-modular frame (R82). -/
structure Tmr where
  a : Nat
  b : Nat
  c : Nat
deriving DecidableEq, Repr

/-- `Tmr` at reset: nothing held, every count 0.  -/
def Tmr.reset : Tmr where
  a := 0
  b := 0
  c := 0

/-- The handshake fabric of one die.  Regions are numbered row × 44 + position (R11); a unit of region r has the key
1024 r + 16 cluster + unit. -/
structure FabSt where
  /-- What each region's logic frames place (R3). -/
  design : Tab Design
  /-- Request gates of the region open (R64, R65, R344). -/
  gate : Tab Bool
  /-- Bundled-data stages, by the leader's key. -/
  stages : Tab StageSt
  /-- Stage registers S0 and S1 of a unit: key 2 × unit + slot (R50). -/
  regs : Tab Bool
  /-- Dual-rail stages: key 1024 r + the stage's key. -/
  rails : Tab RailSt
  /-- Merge elements: key 544 r + element, 8 for each cluster then 32 of the region switch (R68). -/
  merges : Tab Bool
  /-- Arbiters: key 128 r + arbiter; the side granted (R69). -/
  arbs : Tab (Option Bool)
  /-- Ring channels: key 1536 r + channel. -/
  ring : Tab RingSt
  /-- Configuration bits of an isolation cell, three copies: key 1536 r + cell (R90). -/
  iso : Tab Tmr
  /-- The model's time, plus one, at which FREEZING of a region's ring began (R96). -/
  freezeAt : Tab Nat
  /-- The freeze under way in a region has already been counted as forced (RGN_RING_CNT.FORCED). -/
  forcedNow : Tab Bool
  /-- Block memory words: key (4 r + memory) × 512 + physical word. -/
  bm : Tab Word64
  /-- Stored code bits of a block memory word that differ from what was written: a mask over 72 bits. -/
  bmFlip : Tab Nat
  /-- Last response of a port: key 8 r + 2 × memory + port. -/
  bmResp : Tab BmResp
  /-- Next physical word of the scrubber: key 4 r + memory (R88). -/
  bmScrub : Tab Nat
  /-- Row-level frames: key 1024 × row + frame index (R81, R82). -/
  rowFrames : Tab Tmr
  /-- What drives a wire of the Geosh bridge toward the other die: key 136 × row + 17 × channel + wire (R109). -/
  bridge : Tab (Option Link)
  /-- Logic and content frames of a region as stored: key 1024 r + frame index (R79). -/
  frames : Tab Nat
  /-- Matched-delay setting of a leader, in taps (R62, R118): key as `stages`. -/
  delay : Tab Nat
  /-- A calibrator change of a leader that waits for an idle phase (R62). -/
  delayNext : Tab (Option Nat)
deriving DecidableEq, Repr

/-- `FabSt` at reset: nothing held, every count 0.  -/
def FabSt.reset : FabSt where
  design := Tab.empty
  gate := Tab.empty
  stages := Tab.empty
  regs := Tab.empty
  rails := Tab.empty
  merges := Tab.empty
  arbs := Tab.empty
  ring := Tab.empty
  iso := Tab.empty
  freezeAt := Tab.empty
  forcedNow := Tab.empty
  bm := Tab.empty
  bmFlip := Tab.empty
  bmResp := Tab.empty
  bmScrub := Tab.empty
  rowFrames := Tab.empty
  bridge := Tab.empty
  frames := Tab.empty
  delay := Tab.empty
  delayNext := Tab.empty


/-- A PMBus transaction of the governor (Table 05-3). -/
inductive PmbOp where
  | clearFaults
  | voutMode
  | voutCommand (mv : Nat)
  /-- STATUS_WORD, read in START or in FAULT. -/
  | statusWord
  /-- STATUS_WORD, read because PMB_ALERT_N asserted. -/
  | statusAlert
  /-- STATUS_WORD, read for PACE_CTL.RESUME in FAULT. -/
  | statusResume
  | statusVout
  | readVout
  | telemetry (code : Nat)
deriving DecidableEq, Repr

/-- The pace calibrators and the governor of one die, beside the PACE registers. -/
structure PaceSt where
  /-- Latest canary measurement of a cluster in quarter taps (R117): key 64 × region + cluster. -/
  canary : Tab (List Nat)
  /-- The setting the calibrator computed for a leader and moves it toward (R118): key 1024 × region + unit. -/
  target : Tab (Option Nat)
  /-- The region a pace monitor counts in; none of one that is placed on this die nowhere (R123). -/
  monRegion : Tab (Option Nat)
  /-- The leader, or the T unit of bit 0, of the sending stage of a monitor's channel (R123). -/
  monUnit : Tab Nat
  /-- Tokens and stall time in ns that a monitor has counted in its present window, and the model's time at its start
  (R123). -/
  count : Tab (Nat × Nat)
  monAt : Tab Nat
  /-- Tokens and stall time in ns of a monitor's last window (R123). -/
  window : Tab (Nat × Nat)
  /-- MARGIN_LOW was raised since the last decision (R125). -/
  marginLow : Bool
  /-- Monitors for which TARGET_MISSED has been raised at the present ceiling (R127). -/
  missed : List Nat
  /-- A step is under way (R126). -/
  stepping : Bool
  settled : Bool
  voutOk : Bool
  convTimedOut : Bool
  /-- The model's time at which the step began, the write of VOUT_COMMAND ended and SETTLE ended (R126). -/
  stepAt : Nat
  wroteAt : Nat
  settledAt : Nat
  /-- The model's time at the entry to FAULT, or at its last read of STATUS_WORD (Table 05-2). -/
  pollAt : Nat
  /-- Every cluster has been converged at some moment since SETTLE ended (R126). -/
  convOk : Bool
  /-- The model's time at which READ_VOUT and the wait for convergence were both done (R126). -/
  readyAt : Option Nat
  /-- A monitor window has started and ended since then (R126). -/
  windowed : Bool
  /-- The transaction on the bus and the attempts it has had. -/
  pmb : Option (PmbOp × Nat)
  pmbNext : List PmbOp
  /-- Minus the ULINEAR16 exponent the regulator reported (R130). -/
  vexp : Nat
deriving DecidableEq, Repr

/-- `PaceSt` at reset: nothing held, every count 0.  -/
def PaceSt.reset : PaceSt where
  canary := Tab.empty
  target := Tab.empty
  monRegion := Tab.empty
  monUnit := Tab.empty
  count := Tab.empty
  monAt := Tab.empty
  window := Tab.empty
  marginLow := false
  missed := []
  stepping := false
  settled := false
  voutOk := false
  convTimedOut := false
  stepAt := 0
  wroteAt := 0
  settledAt := 0
  pollAt := 0
  convOk := false
  readyAt := none
  windowed := false
  pmb := none
  pmbNext := []
  vexp := 0


/-- What a signal engine is doing (SE_STAT.STATE, R177: 0 to 6 in this order). -/
inductive SeMode where
  | off | halt | run | stall | idle | fault | frozen
deriving DecidableEq, Repr, Inhabited

/-- One register bank of a signal engine (Table 06-3, Table 06-4): an unlisted register is 0. -/
structure BankSt where
  d : Tab Word24
  a : Tab (BitVec 56)
  ap : Tab (BitVec 12)
  am : Tab (BitVec 12)
  lc : Tab (BitVec 16)
  sr : BitVec 16
  ra : BitVec 12
  pc : BitVec 12
  ls : Tab (BitVec 12)
  le : Tab (BitVec 12)
  act : Tab Bool
deriving DecidableEq, Repr

/-- `BankSt` at reset: nothing held, every count 0.  -/
def BankSt.reset : BankSt where
  d := Tab.empty
  a := Tab.empty
  ap := Tab.empty
  am := Tab.empty
  lc := Tab.empty
  sr := 0
  ra := 0
  pc := 0
  ls := Tab.empty
  le := Tab.empty
  act := Tab.empty

/-- The word that Fetch has read and Decode takes next (R149): its address, whether its read was uncorrectable, whether
it stands in a delay slot (R152), and what a loop wrap at it commits when it completes (R154). -/
structure FetchSt where
  addr : BitVec 12
  word : BitVec 32
  perr : Bool
  slot : Bool
  lcUpd : List (Nat × BitVec 16)
  actOff : List Nat
deriving DecidableEq, Repr

/-- `FetchSt` at reset: nothing held, every count 0.  -/
def FetchSt.reset : FetchSt where
  addr := 0
  word := 0
  perr := false
  slot := false
  lcUpd := []
  actOff := []

/-- The decoded instruction that Execute completes next (R149), with the operands Decode read and the private changes it
commits when it completes (R150). -/
structure ExecSt where
  addr : BitVec 12
  word : BitVec 32
  perr : Bool
  slot : Bool
  xv : Word24
  yv : Word24
  xerr : Bool
  yerr : Bool
  apUpd : List (Nat × BitVec 12)
  raUpd : Option (BitVec 12)
  /-- A LOOP that is illegal under R155. -/
  loopErr : Bool
  /-- LOOP: level, start, end. -/
  loopUpd : Option (Nat × BitVec 12 × BitVec 12)
  /-- Loop levels this instruction makes active. -/
  actOn : List Nat
  lcUpd : List (Nat × BitVec 16)
  actOff : List Nat
deriving DecidableEq, Repr

/-- `ExecSt` at reset: nothing held, every count 0.  -/
def ExecSt.reset : ExecSt where
  addr := 0
  word := 0
  perr := false
  slot := false
  xv := 0
  yv := 0
  xerr := false
  yerr := false
  apUpd := []
  raUpd := none
  loopErr := false
  loopUpd := none
  actOn := []
  lcUpd := []
  actOff := []

/-- A fetch that reached an active loop end, before the next fetch address is chosen (R154): the private loop state the
choice uses, and the registers an instruction completing in that cycle has written (R151). -/
structure WrapSt where
  addr : BitVec 12
  lc : Tab (BitVec 16)
  act : Tab Bool
  ls : Tab (BitVec 12)
  le : Tab (BitVec 12)
  moved : List Nat
  ended : List Nat
deriving DecidableEq, Repr

/-- `WrapSt` at reset: nothing held, every count 0.  -/
def WrapSt.reset : WrapSt where
  addr := 0
  lc := Tab.empty
  act := Tab.empty
  ls := Tab.empty
  le := Tab.empty
  moved := []
  ended := []

/-- Where a context stands within its port-3 words, and its output stage (Table 06-15, Table 07-3). -/
structure Port3 where
  /-- Tokens of the input word already taken. -/
  inPos : Nat
  /-- The input word under way: data, tag and POISON. -/
  inData : Nat
  inTag : Nat
  inPoison : Bool
  /-- Tokens of the output word already given. -/
  outPos : Nat
  /-- Staged words. -/
  count : Nat
  /-- The output stage: 64 words and their tags. -/
  stage : Tab Nat
  tags : Tab Nat
deriving DecidableEq, Repr

/-- `Port3` at reset: nothing held, every count 0.  -/
def Port3.reset : Port3 where
  inPos := 0
  inData := 0
  inTag := 0
  inPoison := false
  outPos := 0
  count := 0
  stage := Tab.empty
  tags := Tab.empty

/-- One signal engine (R134 to R177), beside its registers in the register map. -/
structure SeSt where
  mode : SeMode
  /-- The mode to return to at release from FROZEN (R175). -/
  before : SeMode
  /-- When the engine stopped for the freeze: the timers of its port crossings stand still since (R240). -/
  frozenAt : Nat
  /-- Program memory and data memories as written, and their flipped code bits: key 4096 × memory (0 P, 1 X, 2 Y) +
  address (R135). -/
  p : Tab Word
  x : Tab Word24
  y : Tab Word24
  flip : Tab Nat
  /-- Next word of the scrubber in each memory (R136). -/
  scrub : Tab Nat
  /-- AB0 to AB7 and AL0 to AL7 (R140). -/
  ab : Tab (BitVec 12)
  al : Tab (BitVec 12)
  b0 : BankSt
  b1 : BankSt
  /-- Bank 1 is active. -/
  active : Bool
  /-- The pipeline (R149): fetch address, fetched word, decoded instruction, pending wrap. -/
  fa : BitVec 12
  fw : Option FetchSt
  ew : Option ExecSt
  wrap : Option WrapSt
  /-- Private copies of the pointers, the return address and the loop state (R150). -/
  pap : Tab (BitVec 12)
  pra : BitVec 12
  plc : Tab (BitVec 16)
  pls : Tab (BitVec 12)
  ple : Tab (BitVec 12)
  pact : Tab Bool
  /-- The last instruction to complete was BR, CALL, RET or JMPD: no eligible boundary (R166). -/
  lastBranch : Bool
  /-- Holding registers of the ports (R164). -/
  inFull : Tab Bool
  inTok : Tab Word24
  outFull : Tab Bool
  outTok : Tab Word24
  /-- The last token the fabric took from an output port. -/
  taken : Tab Word24
  /-- In STALL: waiting on OUT, and the port. -/
  stallOut : Bool
  stallPort : Nat
  /-- A halt due at the next eligible boundary, with the reason of SE_HALTED (2 step, 3 request). -/
  haltReq : Option Nat
  /-- A freeze due at the next eligible boundary (R175). -/
  freezeReq : Bool
  /-- The present halt was made by HALT (R174). -/
  haltInsn : Bool
  /-- The present halt was made on entry to RECOVERY (R344, R345). -/
  haltRecov : Bool
  /-- A bank-0 instruction has completed since the last return from bank 1 or the last start (R168). -/
  ran : Bool
  /-- A port event is taken before the next instruction (R168). -/
  evDue : Bool
  /-- The breakpoint does not act on the next instruction (R174). -/
  brkSkip : Option (BitVec 12)
  /-- Pooled engine: the context loaded in the shadow bank (R171, R185). -/
  shadow : Option Nat
  /-- Pooled engine: the context of the active bank while it runs (SE_CTX). -/
  ctx : Option Nat
  /-- Window sizes in words of the engine's group, 0 none (R181). -/
  wx : Nat
  wy : Nat
  /-- Port 3 and the output stage of the running context, and of the one loaded in the shadow bank (R172, R195, R196). -/
  p3 : Port3
  p3s : Port3
deriving DecidableEq, Repr

/-- `SeSt` at reset: nothing held, every count 0.  -/
def SeSt.reset : SeSt where
  mode := .off
  before := .off
  frozenAt := 0
  p := Tab.empty
  x := Tab.empty
  y := Tab.empty
  flip := Tab.empty
  scrub := Tab.empty
  ab := Tab.empty
  al := Tab.empty
  b0 := BankSt.reset
  b1 := BankSt.reset
  active := false
  fa := 0
  fw := none
  ew := none
  wrap := none
  pap := Tab.empty
  pra := 0
  plc := Tab.empty
  pls := Tab.empty
  ple := Tab.empty
  pact := Tab.empty
  lastBranch := false
  inFull := Tab.empty
  inTok := Tab.empty
  outFull := Tab.empty
  outTok := Tab.empty
  taken := Tab.empty
  stallOut := false
  stallPort := 0
  haltReq := none
  freezeReq := false
  haltInsn := false
  haltRecov := false
  ran := false
  evDue := false
  brkSkip := none
  shadow := none
  ctx := none
  wx := 0
  wy := 0
  p3 := Port3.reset
  p3s := Port3.reset


/-- A word held by a hard queue (R206, R207, R212). -/
structure QWord where
  data : Word64
  /-- EOP, PRIO, USER (Table 08-1). -/
  tag : Nat
  /-- The parity bits P0 (bit 0) and P1 (bit 1) formed at the write side. -/
  par : Nat
  /-- A closing word (R214, R218). -/
  closing : Bool
  /-- Where it lies: 0 head store, 1 spill window, 2 tail store. -/
  place : Nat
  /-- Which word of the spill window it is there: seven lie in each 64-byte line (R212). -/
  slot : Option Nat
  /-- A window read could not correct the line that held the word (R264). -/
  err : Bool
deriving DecidableEq, Repr

/-- `QWord` at reset: nothing held, every count 0.  -/
def QWord.reset : QWord where
  data := 0
  tag := 0
  par := 0
  closing := false
  place := 0
  slot := none
  err := false

/-- A word as the read side delivers it (R207). -/
structure QOut where
  data : Word64
  tag : Nat
  poison : Bool
deriving DecidableEq, Repr

/-- `QOut` at reset: nothing held, every count 0.  -/
def QOut.reset : QOut where
  data := 0
  tag := 0
  poison := false

/-- A read-side command that waits for the end of the item being read (R220). -/
inductive QWait where
  | mark | rewind
deriving DecidableEq, Repr

/-- One hard queue, beside its registers (R206 to R222). -/
structure QSt where
  /-- Words from the read position on, oldest first, closing words in their place. -/
  words : List QWord
  /-- Words read since the mark and kept, oldest first (R220). -/
  kept : List QWord
  mark : Bool
  waits : List QWait
  /-- The read side is inside an item, whose next word is `words[cur]`. -/
  inItem : Bool
  cur : Nat
  /-- The PRIO of the first word of the item being read. -/
  rPrio : Nat
  /-- The write side is inside an item, and the PRIO of that item's first word. -/
  wIn : Bool
  wPrio : Nat
  /-- The rest of a refused item is being refused (R218). -/
  discard : Bool
  flushing : Bool
  nospill : Bool
  /-- Where in the spill window the next word goes. -/
  wnext : Nat
  /-- Words refused since the last Q_OVERRUN (Table 08-3). -/
  refused : Nat
  /-- The word last delivered at the read side. -/
  out : Option QOut
  /-- The Q_UNBIND call that waits for the queue to be empty (R209). -/
  unbind : Option Caller
deriving DecidableEq, Repr

/-- `QSt` at reset: nothing held, every count 0.  -/
def QSt.reset : QSt where
  words := []
  kept := []
  mark := false
  waits := []
  inItem := false
  cur := 0
  rPrio := 0
  wIn := false
  wPrio := 0
  discard := false
  flushing := false
  nospill := false
  wnext := 0
  refused := 0
  out := none
  unbind := none

/-- Parameters of a check-value unit (R226). -/
structure CrcPar where
  ctl : Word
  poly : Nat
  init : Nat
  xorout : Nat
  exp : Nat
deriving DecidableEq, Repr

/-- `CrcPar` at reset: nothing held, every count 0.  -/
def CrcPar.reset : CrcPar where
  ctl := 31
  poly := 0
  init := 0
  xorout := 0
  exp := 0

/-- A memory scan under way: the parameters, the channel, the address and the length GO took (R228). -/
structure ScanSt where
  par : CrcPar
  ch : Nat
  addr : Nat
  len : Nat
deriving DecidableEq, Repr

/-- `ScanSt` at reset: nothing held, every count 0.  -/
def ScanSt.reset : ScanSt where
  par := CrcPar.reset
  ch := 0
  addr := 0
  len := 0

/-- One check-value unit, beside its registers (R224 to R228). -/
structure CrcSt where
  /-- The parameters in force (R230). -/
  par : CrcPar
  reg : Nat
  inPacket : Bool
  /-- Results offered and not yet taken, each with the result queue its packet's parameters name (R227). -/
  offers : List (Nat × Word64)
  /-- The memory scan that runs (R228). -/
  scan : Option ScanSt
deriving DecidableEq, Repr

/-- `CrcSt` at reset: nothing held, every count 0.  -/
def CrcSt.reset : CrcSt where
  par := CrcPar.reset
  reg := 0
  inPacket := false
  offers := []
  scan := none


/-- How a run of a context ended (Table 07-4a). -/
inductive RunEnd where
  | done | again | error
  /-- A blocking IN3 with the input empty. -/
  | waitIn
  /-- A blocking OUT3 with the output queue short of room. -/
  | waitOut
  | preempt
  /-- An engine fault or a Roster fault, with its cause (Table 07-7). -/
  | fault (cause : Nat)
  | overrun
deriving DecidableEq, Repr

/-- Why the Roster has ordered a swap at an engine's next eligible boundary. -/
inductive SwapOrder where
  /-- Preemption (R193, R198), an overrun (R200), or a STOP (R186). -/
  | preempt | overrun | stop
deriving DecidableEq, Repr

/-- A context, beside its descriptor words (R179 to R200). -/
structure CtxSt where
  /-- Pending triggers: bit 0 queue, 1 period, 2 watch, 3 event, 4 software, 5 AGAIN, 6 MERGED, 7 reset by policy (R189). -/
  pend : Nat
  /-- MT of the earliest pending trigger. -/
  pendMt : Nat
  /-- In a port-3 wait: on the input, or on the output. -/
  wait3 : Option RunEnd
  /-- The next placement continues a run (R189). -/
  cont : Bool
  /-- How the run now ending ended. -/
  endedBy : Option RunEnd
  /-- A STOP waits for the context to leave its engine (R186). -/
  stopping : Bool
  /-- The spill window of the context's state or inbox that was lost while it ran or was being saved (R184). -/
  lost : Option Nat
  /-- A descriptor word was found uncorrectable while the context was RUNNING or SAVING (R179). -/
  descBad : Bool
  /-- ns the present run has lasted before this placement, and when it was placed. -/
  ran : Nat
  since : Nat
  /-- When the watch time began, and that it has fired (R187). -/
  watchFrom : Nat
  watchDone : Bool
  /-- Period triggers already fired: the next k (R187). -/
  perK : Nat
  /-- DUE_MISSED has been raised for the present dispatch deadline (R204). -/
  dueDone : Bool
  /-- Express slot (R197). -/
  slot : Option Nat
  /-- The inbox: words with their tags, oldest first (R195, R203). -/
  inbox : List QWord
  /-- The classifier's key of the context: key and profile (R202). -/
  key : Option (Nat × Nat)
deriving DecidableEq, Repr

/-- `CtxSt` at reset: nothing held, every count 0.  -/
def CtxSt.reset : CtxSt where
  pend := 0
  pendMt := 0
  wait3 := none
  cont := false
  endedBy := none
  stopping := false
  lost := none
  descBad := false
  ran := 0
  since := 0
  watchFrom := 0
  watchDone := false
  perK := 0
  dueDone := false
  slot := none
  inbox := []
  key := none

/-- What the Roster does with one pooled engine, beside the engine's own state. -/
structure EngSt where
  /-- The contexts being saved, first in first out, and whether the state of each lies in bank 1. -/
  saving : List (Nat × Bool)
  /-- The context whose state is being loaded. -/
  loading : Option Nat
  /-- What the Roster has ordered for the next eligible boundary: an order neither replaces nor hides another. -/
  orders : List SwapOrder
deriving DecidableEq, Repr

/-- `EngSt` at reset: nothing held, every count 0.  -/
def EngSt.reset : EngSt where
  saving := []
  loading := none
  orders := []

/-- The Roster (R178 to R205). -/
structure RosSt where
  ctx : Tab CtxSt
  /-- Flipped code bits of a descriptor word: key 16 × context + word (R179). -/
  descFlip : Tab Nat
  eng : Tab EngSt
  /-- Context SRAM by byte, and the flipped code bits of its 64-bit words (R182). -/
  sram : Tab Nat
  sramFlip : Tab Nat
  /-- The context named by the last SELECT (R205). -/
  selected : Option Nat
  /-- The STOP command under way (R186). -/
  stopCmd : Option Nat
  /-- An EXPRESS_RELEASE that waits for its context to stop (R197). -/
  release : Option (Nat × Caller)
deriving DecidableEq, Repr

/-- `RosSt` at reset: nothing held, every count 0.  -/
def RosSt.reset : RosSt where
  ctx := Tab.empty
  descFlip := Tab.empty
  eng := Tab.empty
  sram := Tab.empty
  sramFlip := Tab.empty
  selected := none
  stopCmd := none
  release := none


/-- One crossing between the fabric and an island, or between two islands (R231, R236). -/
structure XSt where
  /-- The holding register holds a value. -/
  full : Bool
  value : Nat
  /-- Values the source offers while the register is full; they wait there, unacknowledged (R234). -/
  wait : List Nat
  /-- The request flag has toggled and the flags do not rest as a pair. -/
  flight : Bool
  /-- The value in flight. -/
  flying : Nat
  /-- The destination has taken, or has seen as void, what is in flight. -/
  done : Bool
  /-- The mark of R242 on what is in flight. -/
  void : Bool
  /-- The model's time at the toggle, from which the timer counts (R241). -/
  since : Nat
  /-- The pending counter of a pulse crossing. -/
  pend : Nat
  /-- A void pulse took its place in the pending counter, and the next waits for the flags to rest (R236). -/
  next : Bool
  /-- The source side sees its peer in reset. -/
  dstRst : Bool
  /-- The destination side sees its peer in reset. -/
  srcRst : Bool
  /-- The destination side, and the source side, has been in reset and the other side has not yet seen it: nothing from before
  is taken (R237, R238). -/
  dstHit : Bool
  srcHit : Bool
  /-- Tokens offered on the status channel of a fabric source (R242), oldest first. -/
  status : List Nat
  /-- What the destination side took last. -/
  out : Option Nat
deriving DecidableEq, Repr

/-- `XSt` at reset: nothing held, every count 0.  -/
def XSt.reset : XSt where
  full := false
  value := 0
  wait := []
  flight := false
  flying := 0
  done := false
  void := false
  since := 0
  pend := 0
  next := false
  dstRst := false
  srcRst := false
  dstHit := false
  srcHit := false
  status := []
  out := none

/-- One user crossing primitive of a bank as the image sets it (R247): its width in bits, whether the fabric is its source,
and whether its status channel is routed. -/
structure UserX where
  width : Nat
  srcFabric : Bool
  status : Bool
deriving DecidableEq, Repr

/-- `UserX` at reset: nothing held, every count 0.  -/
def UserX.reset : UserX where
  width := 0
  srcFabric := false
  status := false


/-- A request of a memory port: one 64-byte line (R253). -/
structure DramReq where
  line : Nat
  wr : Bool
  /-- The 64 bytes of a write, byte 0 lowest. -/
  data : Nat
  /-- Byte enables of a write of ports 12 and 13; all ones elsewhere. -/
  be : Nat
  tag : Nat
deriving DecidableEq, Repr

/-- `DramReq` at reset: nothing held, every count 0.  -/
def DramReq.reset : DramReq where
  line := 0
  wr := false
  data := 0
  be := 0
  tag := 0

/-- An accepted operation (R254, R257). -/
structure DramOp where
  id : Nat
  port : Nat
  /-- Class the scheduler gives it, 0 after promotion. -/
  cls : Nat
  req : DramReq
  /-- The column command has been issued. -/
  issued : Bool
  /-- Time of acceptance. -/
  since : Nat
  /-- The line, and its flipped bits, as the column command of a read found them (R257). -/
  got : Nat × Nat
deriving DecidableEq, Repr

/-- `DramOp` at reset: nothing held, every count 0.  -/
def DramOp.reset : DramOp where
  id := 0
  port := 0
  cls := 0
  req := DramReq.reset
  issued := false
  since := 0
  got := (0, 0)

/-- The answer of a read (R253, R264). -/
structure DramAns where
  data : Nat
  tag : Nat
  err : Bool
deriving DecidableEq, Repr

/-- `DramAns` at reset: nothing held, every count 0.  -/
def DramAns.reset : DramAns where
  data := 0
  tag := 0
  err := false

/-- One DRAM channel, beside its registers (R250 to R271). -/
structure DmcSt where
  /-- Lines of the devices by physical line number: 64 bytes, byte 0 lowest. -/
  mem : Tab Nat
  /-- Stored code bits of a line that differ from what was written: 512 data bits, then 128 check bits (R264). -/
  flip : Tab Nat
  /-- Offer buffers by port, oldest first (R253). -/
  offers : Tab (List DramReq)
  /-- A write of a fabric port whose data tokens are still to come: its request and how many have come. -/
  partialWr : Tab (Option (DramReq × Nat))
  /-- Accepted operations not yet complete, oldest first. -/
  ops : List DramOp
  nextId : Nat
  /-- Open row of a bank, by subchannel, rank and bank. -/
  openRow : Tab (Option Nat)
  /-- What each port has answered, oldest first. -/
  ans : Tab (List DramAns)
  /-- Rate regulators of class-0 ports: thousandths of a token, and the time they were last topped up. -/
  tokens : Tab (Nat × Nat)
  /-- Time of the last refresh of each rank, plus one. -/
  lastRef : Tab Nat
  /-- A forced refresh that the spacing of R259 still holds back. -/
  forceDue : Tab Bool
  /-- Next line of the patrol. -/
  patrol : Nat
  /-- Row-error records: the distinct lines of a row with a correctable error in this pass (R265). -/
  rowErr : Tab (List Nat)
  /-- Rows, by their record's number, that became sparing candidates while DMC_SPARE_CFG.AUTO was 0 (R265, R266). -/
  cands : List Nat
  /-- Lines of a spare entry's row already copied. -/
  copied : Tab Nat
  /-- The timing setting of each rank, 0 that of its training, and one that waits until no request of the rank is in flight
  (R261). -/
  timing : Tab Nat
  timingNext : Tab (Option Nat)
  /-- Retraining slots that have failed in a row, by rank. -/
  trainFails : Tab Nat
  /-- A retraining of a rank asked for by DMC_CMD. -/
  retrain : Tab Bool
  /-- The devices report hPPR support (R267). -/
  hppr : Bool
  /-- Since when, plus one, panic has held back an MR4 read of a rank, and what a read held back for more than 1 ms will find
  immediately before the rank's next refresh (R258). -/
  mr4Held : Tab Nat
  mr4Wait : Tab (Option Nat)
deriving DecidableEq, Repr

/-- `DmcSt` at reset: nothing held, every count 0.  -/
def DmcSt.reset : DmcSt where
  mem := Tab.empty
  flip := Tab.empty
  offers := Tab.empty
  partialWr := Tab.empty
  ops := []
  nextId := 0
  openRow := Tab.empty
  ans := Tab.empty
  tokens := Tab.empty
  lastRef := Tab.empty
  forceDue := Tab.empty
  patrol := 0
  rowErr := Tab.empty
  cands := []
  copied := Tab.empty
  timing := Tab.empty
  timingNext := Tab.empty
  trainFails := Tab.empty
  retrain := Tab.empty
  hppr := false
  mr4Held := Tab.empty
  mr4Wait := Tab.empty


/-- One Sunislink port beside its registers. -/
structure PortSt where
  /-- The active lane 0 to 3 whose traffic the spare lane carries (R273). -/
  spare : Option Nat
  /-- Messages waiting to leave, in the order they came (R278). -/
  out : List SlkMsg
  /-- The replay buffer: messages sent and not yet acknowledged (R277). -/
  unacked : List SlkMsg
  /-- The message put on the lanes last. -/
  lane : Option SlkMsg
  /-- What went on the lanes last, in order: one message, or those of a replay, each with its number on the link (R277). -/
  lanes : List (Nat × SlkMsg)
  /-- The number of the next message this end sends, and of the next one it expects (R277). -/
  txNum : Nat
  rxNum : Nat
  /-- The number from which this end has asked for a replay (R277). -/
  ask : Option Nat
  /-- The model's time, plus one, at which the port went DOWN; 0 while it is not DOWN, or has been since COLD (R369). -/
  downAt : Nat
  /-- Held in HOLD until the next start from COLD, after SLK_DUP_ID (R281). -/
  dup : Bool
  /-- Drops since the last SLK_DROP (Table 11-6). -/
  drops : Nat
  /-- READY has come from this port (R285). -/
  ready : Bool
  /-- This device is the peer's upstream device (R285, R294). -/
  follows : Bool
  /-- The origin of the message refused last in HOLD: the HOLD indication link control carries back to it (R275). -/
  told : Option Nat
deriving DecidableEq, Repr

/-- `PortSt` at reset: nothing held, every count 0.  -/
def PortSt.reset : PortSt where
  spare := none
  out := []
  unacked := []
  lane := none
  lanes := []
  txNum := 0
  rxNum := 0
  ask := none
  downAt := 0
  dup := false
  drops := 0
  ready := false
  follows := false
  told := none

/-- Match Time beside its registers. -/
structure MtSt where
  /-- MT counts (R292). -/
  on : Bool
  /-- The 32-bit fraction the rate correction is accumulated in (R292). -/
  frac : Nat
  /-- Successive exchanges with an offset below 1 ns, up to 16 (R294). -/
  good : Nat
  /-- Successive exchanges missed on the port followed (R295). -/
  miss : Nat
  /-- The model's time at entry to holdover. -/
  holdAt : Nat
  /-- The PLAY instant, once decided or received (R285, R378). -/
  playAt : Option Nat
  /-- The PLAY instant has come since COLD: from then on MT never jumps (R292). -/
  played : Bool
  /-- READY has gone upstream, or, at the kickoff root, the instant has gone out (R285). -/
  readySent : Bool
  /-- Multiples of PERIOD that MT + MT_EPOCH has passed, as last acted on (R297). -/
  pps : Nat
  /-- MT at which the pulse falls. -/
  ppsEnd : Nat
deriving DecidableEq, Repr

/-- `MtSt` at reset: nothing held, every count 0.  -/
def MtSt.reset : MtSt where
  on := false
  frac := 0
  good := 0
  miss := 0
  holdAt := 0
  playAt := none
  played := false
  readySent := false
  pps := 0
  ppsEnd := 0


/-- One pin beside its registers (R314, R325). -/
structure PinSt where
  /-- Level and drive enable the pad latch holds. -/
  latch : Option (Bool × Bool)
  /-- The pull that a held pin keeps (R325). -/
  pull : Option Nat
  /-- The holds of Table 12-5 in force, a bit each in the table's order. -/
  holds : Nat
  /-- The last hold has ended and hands over when its 64 ns are over. -/
  ending : Bool
  /-- Settings stored before PLAY, which take effect at the PLAY instant (R312). -/
  stored : Bool
  /-- Writes of PIN_CFG held on the bus until the guard ends, with the PIN_ELEC value written with them and the call that
  made them. -/
  waiting : List (Word × Option Word × Option Caller)
  /-- The PIN_ELEC value that takes effect at the end of the guard. -/
  elecNext : Option Word
  /-- The Referee call that returns at the end of the guard (example of R315). -/
  caller : Option Caller
deriving DecidableEq, Repr

/-- `PinSt` at reset: nothing held, every count 0.  -/
def PinSt.reset : PinSt where
  latch := none
  pull := none
  holds := 0
  ending := false
  stored := false
  waiting := []
  elecNext := none
  caller := none

/-- One entry of a pin plan (R313): the pin and the values its registers take. -/
structure PlanPin where
  pin : Nat
  cfg : Word
  elec : Word
  fab : Word
deriving DecidableEq, Repr

/-- `PlanPin` at reset: nothing held, every count 0.  -/
def PlanPin.reset : PlanPin where
  pin := 0
  cfg := 0
  elec := 0
  fab := 0


/-- The modes of the NVM's bus (Table 14-7): 1S-1S-1S at 25 MHz, and at CLK 1S-4S-4S and 8D-8D-8D. -/
inductive XspiMode where
  | single | quad | octal
deriving DecidableEq, Repr, Inhabited

/-- One command the device issues on the NVM's bus (R365): the opcode, in 8D-8D-8D followed by its bitwise inverse; the
4-byte address and the data bytes, where the command has them; and the clock in MHz. -/
structure XspiCmd where
  mode : XspiMode
  mhz : Nat
  opcode : Nat
  inverse : Option Nat
  addr : Option Nat
  /-- Dummy cycles of a read (Table 14-6). -/
  dummy : Nat
  data : List Nat
deriving DecidableEq, Repr, Inhabited

/-- The loader (R355 to R383), beside the CFG registers. -/
structure LoadSt where
  /-- The boot block has been read and the entry sequence is done (R364). -/
  boot : Bool
  /-- Bytes 40 to 295 of the boot block in use: the directory (R364). -/
  dir : List Nat
  /-- What the boot block says of the NVM's fast mode: mode, CLK and DUMMY (Table 14-6). -/
  fast : XspiMode
  fastMhz : Nat
  dummy : Nat
  /-- No firmware package of the directory has passed its check (R366). -/
  fwBad : Bool
  /-- Referee firmware of this start has been verified (R417), and its package. -/
  fw : Option FwPkg
  /-- A stream is under way: a SYNC has come. -/
  inStream : Bool
  /-- The last SELECT named this device (R356). -/
  sel : Bool
  /-- A whole image has been taken. -/
  took : Bool
  /-- A HEADER record has been taken in this stream. -/
  hdrSeen : Bool
  /-- A stream of this start has ended in error (R366). -/
  failed : Bool
  /-- The header whose body is coming. -/
  hdr : Option ImgHdr
  /-- Bytes still to come of an image this device does not take: its records and their trailers (R356). -/
  skip : Nat
  /-- The model's time at the last stream bytes (R368). -/
  lastAt : Nat
  /-- Stream byte offset, record bytes of the body received, blocks that passed every check, and the digest the next
  block must have. -/
  off : Nat
  body : Nat
  blk : Nat
  want : Nat
  /-- Body records received and not yet acted on, with the body offset of their end (R361). -/
  recs : List (Nat × BodyRec)
  /-- Regions this load writes (R372), and rows. -/
  written : List Nat
  rowsWritten : List Nat
  /-- Where a home position's personality is written, plus one (R371). -/
  place : Tab Nat
  /-- Ring signatures of the home positions, plus one (R99). -/
  sig : Tab Nat
  /-- The region table entries this die loads. -/
  list : List RgnEntry
  /-- The TEAM record must come next (R356). -/
  teamDue : Bool
  /-- The TEAM record waits for its DRAM channel: the host holds still (R421). -/
  teamWait : Bool
  /-- What a host status read has driven last: on SSP four bytes, byte 0 first, on PSP the low and the high half (Table 14-8). -/
  hostOut : List Nat
  /-- Bytes of the present stream that CONFIG messages have brought (R369). -/
  cfgBytes : Nat
  /-- The streamed Team image copied to DRAM (R421). -/
  team : Option TeamImg
  /-- The load has ended well and LINE-UP may follow (R379). -/
  loaded : Bool
  /-- The frames the image store holds: home position × 1024 + frame, and 1,408 + row for row-level frames (R400). -/
  store : Tab Nat
  /-- The scratch slot: homes and benches of the partial personalities staged, and their frames by bench × 1024 + frame. -/
  scratch : List (Nat × Nat)
  scratchFrames : Tab Nat
  /-- PLOAD under way: home and bench (R375). -/
  pload : Option (Nat × Nat)
  /-- The channel, byte address and length in bytes that it reads (R375). -/
  ploadAt : Nat × Nat × Nat
  /-- A COMMIT under way, or one that waits for a substitution: its homes and benches (R377). -/
  commit : Option (List (Nat × Nat))
  /-- The call a CFG_CMD was made for, answered when it ends. -/
  caller : Option Caller
  /-- KICKOFF_WAIT has been raised; the model's time at LINE-UP (R378). -/
  kickLate : Bool
  lineUpAt : Nat
  /-- Destinations a lead has begun to send its stream to, and the CONFIG messages of each, for a port that reaches HOLD later
(R369). -/
  sent : List Nat
  sentMsgs : List (List SlkMsg)
  /-- Directory entries that a lead has sent (R369). -/
  sentEntry : List Nat
deriving DecidableEq, Repr

/-- `LoadSt` at reset: nothing held, every count 0.  -/
def LoadSt.reset : LoadSt where
  boot := false
  dir := []
  fast := .single
  fastMhz := 0
  dummy := 0
  fwBad := false
  fw := none
  inStream := false
  sel := false
  took := false
  hdrSeen := false
  failed := false
  hdr := none
  skip := 0
  lastAt := 0
  off := 0
  body := 0
  blk := 0
  want := 0
  recs := []
  written := []
  rowsWritten := []
  place := Tab.empty
  sig := Tab.empty
  list := []
  teamDue := false
  teamWait := false
  hostOut := []
  cfgBytes := 0
  team := none
  loaded := false
  store := Tab.empty
  scratch := []
  scratchFrames := Tab.empty
  pload := none
  ploadAt := (0, 0, 0)
  commit := none
  caller := none
  kickLate := false
  lineUpAt := 0
  sent := []
  sentMsgs := []
  sentEntry := []


/-- A quarantine record (Table 15-9): INDEX carries the die in bit 15. -/
structure QuarRec where
  kind : Nat
  cause : Nat
  index : Nat
  detail : Nat
  mt : Nat
deriving DecidableEq, Repr

/-- `QuarRec` at reset: nothing held, every count 0.  -/
def QuarRec.reset : QuarRec where
  kind := 0
  cause := 0
  index := 0
  detail := 0
  mt := 0

/-- A copy of the quarantine map whose CRC is right (Table 15-8). -/
structure QuarMap where
  seq : Nat
  /-- UID of the part that wrote it (R403). -/
  uid : Nat
  recs : List QuarRec
deriving DecidableEq, Repr

/-- `QuarMap` at reset: nothing held, every count 0.  -/
def QuarMap.reset : QuarMap where
  seq := 0
  uid := 0
  recs := []

/-- A copy of the TEAM_SEL record whose CRC is right (Table 16-9). -/
structure TeamSel where
  seq : Nat
  uid : Nat
  slot : Nat
  trial : Bool
  trialSlot : Nat
deriving DecidableEq, Repr

/-- `TeamSel` at reset: nothing held, every count 0.  -/
def TeamSel.reset : TeamSel where
  seq := 0
  uid := 0
  slot := 0
  trial := false
  trialSlot := 0

/-- The record area of the NVM (R364, R403, R408, R420), and the sectors the Referee has programmed outside it. -/
structure NvmSt where
  quarA : Option QuarMap
  quarB : Option QuarMap
  /-- Career log by slot, 0 to 1,919: the words of the record last written there. -/
  career : Tab (Option (Tab Word))
  carNext : Nat
  selA : Option TeamSel
  selB : Option TeamSel
  /-- FTT_END as written to a free map slot: RESULT and data, MT (FTT_EVT_EN.COPY). -/
  fttCopy : Option (Nat × Nat)
  /-- Bytes the Referee has programmed, by NVM offset (R419). -/
  data : Tab Nat
  /-- The staged Referee package (R419). -/
  staged : Option FwPkg
  /-- The commands of the last operation on the NVM's bus, in order (R365). -/
  bus : List XspiCmd
deriving DecidableEq, Repr

/-- `NvmSt` at reset: nothing held, every count 0.  -/
def NvmSt.reset : NvmSt where
  quarA := none
  quarB := none
  career := Tab.empty
  carNext := 0
  selA := none
  selB := none
  fttCopy := none
  data := Tab.empty
  staged := none
  bus := []

/-- What waits for the substitution engine, in the order of detection (R391). -/
inductive Repair where
  /-- The check of a pair that disagreed: homes of copies A and B, and the model's time at which it last agreed (R389). -/
  | check (a b since : Nat)
  /-- A faulty copy, by its home, that takes the state of the good copy. -/
  | copy (home : Nat)
  /-- A personality, by its home, that is substituted from initial values. -/
  | fresh (home : Nat)
deriving DecidableEq, Repr, Inhabited

/-- The Sweeper, the substitution engine and Drill, beside the SWP, SUB and FTT registers. -/
structure RelSt where
  /-- Flipped bits of a stored logic frame: 1,096 bits, by 1024 × region + frame (R385). -/
  flip : Tab Nat
  /-- Next frame of a region's reader. -/
  next : Tab Nat
  /-- Heartbeats a reader has missed in a row. -/
  rdMiss : Tab Nat
  /-- The model's times of the last coordinator miscompares, plus one (R386). -/
  coordAt : List Nat
  /-- The model's time, plus one, of the last finding of R389 in a region. -/
  found : Tab Nat
  /-- What waits for the substitution engine, oldest first; the first entry is in service while SUB_STAT.STEP is not 0
  and the KIND is 1 or 2. -/
  todo : List Repair
  /-- Tokens dropped at the force-freezes of the substitution under way (R395). -/
  dropped : Nat
  /-- The pair partner of a home position, plus one. -/
  pair : Tab Nat
  /-- Homes whose pair runs single (R390). -/
  single : List Nat
  /-- Time of a region's last rewrite in place, plus one (R396). -/
  rewrite : Tab Nat
  /-- State-bus aborts of the substitution being retried. -/
  aborts : Nat
  /-- Drill: next position of a row, the home under test, and the model's time the row was last served. -/
  drillPos : Tab Nat
  drillHome : Tab (Option Nat)
  drillAt : Tab Nat
  /-- Rows whose Drill pace has elapsed. -/
  drillDue : Tab Bool
  /-- A suspended row: the free benches it had, plus one (R402). -/
  drillBad : Tab Nat
  /-- The region a row's Drill tests, plus one. -/
  drillOn : Tab Nat
  /-- Its test has passed and its personality waits to be moved back. -/
  drillBack : Tab Bool
  /-- Resources the latest Full-Time Test failed, by KIND × 65536 + INDEX, and that one has run. -/
  fttBad : List Nat
  fttRan : Bool
  /-- Seconds and ns for the Career schedule. -/
  carAt : Nat
deriving DecidableEq, Repr

/-- `RelSt` at reset: nothing held, every count 0.  -/
def RelSt.reset : RelSt where
  flip := Tab.empty
  next := Tab.empty
  rdMiss := Tab.empty
  coordAt := []
  found := Tab.empty
  todo := []
  dropped := 0
  pair := Tab.empty
  single := []
  rewrite := Tab.empty
  aborts := 0
  drillPos := Tab.empty
  drillHome := Tab.empty
  drillAt := Tab.empty
  drillDue := Tab.empty
  drillBad := Tab.empty
  drillOn := Tab.empty
  drillBack := Tab.empty
  fttBad := []
  fttRan := false
  carAt := 0


/-- A trigger of Table 13-6. -/
inductive Trig where
  | fullTime (cause : Nat) (half : Bool)
  | recovery (cause : Nat)
  | halfTime
  | wake
  | resume
  | restart
deriving DecidableEq, Repr

/-- A transition in progress (R341). -/
inductive Going where
  /-- Entry to HALF-TIME, with its cause. -/
  | half (cause : Nat)
  /-- The Full-Time Test has ended or been skipped; the device leaves for its destination (R349, R406). -/
  | leave
  /-- RESUME: the MT at which PLAY begins (R345). -/
  | resume (t : Nat)
  /-- A transition out of PLAY waits for a substitution to end (R341). -/
  | wait (t : Trig)
deriving DecidableEq, Repr

/-- What HALF-TIME keeps of the switched-off domains in the save area (R348). -/
structure KeptSt where
  regs : Tab Word
  fab : FabSt
  pace : PaceSt
  se : Tab SeSt
  q : Tab QSt
  crc : Tab CrcSt
  claims : Tab Nat
  ros : RosSt
  tapAt : Tab Nat
  portAt : Tab Nat
  chanAt : Tab Nat
  /-- The port crossings of the engines (R240, Table 04-8). -/
  xing : Tab XSt
  slkAdm : Tab Nat
  ethCfg : Tab Word
  userX : Tab (Option UserX)
  rel : RelSt
  /-- The loader's part: what it knows of the personalities, and the image store, which lies in DRAM (R400). -/
  load : LoadSt
deriving DecidableEq, Repr

/-- `KeptSt` at reset: nothing held, every count 0.  -/
def KeptSt.reset : KeptSt where
  regs := Tab.empty
  fab := FabSt.reset
  pace := PaceSt.reset
  se := Tab.empty
  q := Tab.empty
  crc := Tab.empty
  claims := Tab.empty
  ros := RosSt.reset
  tapAt := Tab.empty
  portAt := Tab.empty
  chanAt := Tab.empty
  xing := Tab.empty
  slkAdm := Tab.empty
  ethCfg := Tab.empty
  userX := Tab.empty
  rel := RelSt.reset
  load := LoadSt.reset

/-- The verified header fields kept in the Umpire domain (R348). -/
structure HdrKept where
  pmbAddr : Nat
  vmin : Nat
  vmax : Nat
  dmc : List Nat
  domains : Nat
  store : Word
deriving DecidableEq, Repr

/-- `HdrKept` at reset: nothing held, every count 0.  -/
def HdrKept.reset : HdrKept where
  pmbAddr := 0
  vmin := 0
  vmax := 0
  dmc := []
  domains := 0
  store := 0

/-- The state controller (R329 to R353), beside the PWR registers. -/
structure PwrSt where
  /-- PWRGOOD is high. -/
  good : Bool
  /-- The straps as sampled at PWRGOOD: CFG_MODE, DEVID, and one BKPULL bit for each bank (R312, R363). -/
  mode : Nat
  devid : Nat
  pulls : Nat
  /-- Dispatch and Ethernet have stopped for a transition out of PLAY (R344, R349). -/
  stopping : Bool
  /-- The PLLs are locked (R292). -/
  pll : Bool
  going : Option Going
  /-- Triggers latched during the transition in progress (R341). -/
  latched : List Trig
  /-- The FULL-TIME under way ends in HALF-TIME (R346). -/
  ftHalf : Bool
  /-- Restarts with cause 20 in a row without reaching PLAY, and that the third has left the device in COLD (R340). -/
  streak : Nat
  stuck : Bool
  /-- The present start came from COLD (R362). -/
  cold : Bool
  /-- The key under which the image store is encrypted, drawn at each full load of an encrypted image (R362). -/
  storeKey : Option Nat
  /-- FULL-TIME was entered from a start that had not reached PLAY: the PLAY instant is still to come (R312). -/
  unplayed : Bool
  /-- The model's time at entry to RECOVERY (R345). -/
  recovAt : Nat
  /-- The model's time at entry to FULL-TIME (R406). -/
  ftAt : Nat
  /-- The domain PWR_DOM_CMD is switching on (R335). -/
  domGoing : Option Nat
  /-- The DOMAIN call that waits for it. -/
  domCaller : Option Caller
  /-- The save area's contents, while a warm resume may use them (R348). -/
  kept : Option KeptSt
  hdr : Option HdrKept
deriving DecidableEq, Repr

/-- `PwrSt` at reset: nothing held, every count 0.  -/
def PwrSt.reset : PwrSt where
  good := false
  mode := 0
  devid := 0
  pulls := 0
  stopping := false
  pll := false
  going := none
  latched := []
  ftHalf := false
  streak := 0
  stuck := false
  cold := false
  storeKey := none
  unplayed := false
  recovAt := 0
  ftAt := 0
  domGoing := none
  domCaller := none
  kept := none
  hdr := none


/-- A remote call in service (R425). -/
structure RemCall where
  key : Nat
  /-- Device ID it came from, remote code, arguments. -/
  src : Nat
  code : Nat
  args : List Nat
  /-- Taken by the Referee and not yet ended. -/
  busy : Bool
deriving DecidableEq, Repr

/-- `RemCall` at reset: nothing held, every count 0.  -/
def RemCall.reset : RemCall where
  key := 0
  src := 0
  code := 0
  args := []
  busy := false

/-- Fuses of one die that registers do not hold (Table 16-6). -/
structure FuseSt where
  /-- Digest of a programmed signing-key slot. -/
  sigKey : Tab (Option Nat)
  /-- A programmed AES key slot. -/
  aesKey : Tab (Option Nat)
  /-- Number of FW_MIN fuses blown (R417). -/
  fwMin : Nat
deriving DecidableEq, Repr

/-- `FuseSt` at reset: nothing held, every count 0.  -/
def FuseSt.reset : FuseSt where
  sigKey := Tab.empty
  aesKey := Tab.empty
  fwMin := 0

/-- The Referee, Team and the mailbox (R415 to R432), beside the REF and MBX registers. -/
structure RefSt where
  /-- Slots in the order their GO came (R422). -/
  order : List Nat
  remotes : List RemCall
  nextKey : Nat
  /-- MGMT_SEND calls waiting for an answer: slot, and the model's time of sending. -/
  sends : List (Nat × Nat)
  /-- Answers sent to remote callers: device, remote status, return words. -/
  answers : List (Nat × Nat × List Nat)
  /-- Why the Referee restarts, and the model's time at which it began (R428). -/
  restart : Option (Nat × Nat)
  /-- Calls whose hardware has reported while the Referee restarts: caller, status and return words (R428). -/
  late : List (Caller × Nat × List Nat)
  /-- BUSY calls that die 1 forwards and die 0, which restarts, has not answered (R429). -/
  fwd : List Caller
  /-- What each caller's call holds while BUSY: caller and resource (R423). -/
  holds : List (Caller × Nat)
  /-- Team runs; the image it runs, the NVM slot it came from, or none for a streamed image (R416 to R421). -/
  team : Option TeamImg
  teamSlot : Option Nat
  /-- The Team images in NVM slots A and B (R418). -/
  slotImg : Tab (Option TeamImg)
  /-- MT by which a trial image must call TEAM_ALIVE (R419). -/
  trialEnd : Option Nat
deriving DecidableEq, Repr

/-- `RefSt` at reset: nothing held, every count 0.  -/
def RefSt.reset : RefSt where
  order := []
  remotes := []
  nextKey := 0
  sends := []
  answers := []
  restart := none
  late := []
  fwd := []
  holds := []
  team := none
  teamSlot := none
  slotImg := Tab.empty
  trialEnd := none


/-- A pulse output (R445). -/
structure PulseSt where
  /-- Pulses fallen due and not yet started, and whether the output is high, low after a pulse, or idle (1, 2, 0). -/
  pend : Nat
  phase : Nat
deriving DecidableEq, Repr

/-- `PulseSt` at reset: nothing held, every count 0.  -/
def PulseSt.reset : PulseSt where
  pend := 0
  phase := 0

/-- What the island holds beside the MET registers (R433 to R454); `store` fields lie in the sealed store. -/
structure MetSt where
  /-- Store: SEALED, the digest of the authority key plus one, MET_STAT.ROLLBACK, MET_ID. -/
  sealed : Bool
  key : Nat
  rollback : Bool
  imageId : Nat
  /-- Store: payload words of each parameter of Table 17-7, by code. -/
  param : Tab (List Nat)
  /-- What a parameter was before a change that waits for a point's next window boundary, by 256 × point + code (R448). -/
  old : Tab (Option (List Nat))
  /-- Energies: key 8 × point + register (0 import, 1 export, 2 to 5 Q1 to Q4, 6 apparent), count × 2^32 + fraction. -/
  energy : Tab Nat
  /-- Store: the last checkpoint of the energies and pending pulse counts, and whether it is a periodic one. -/
  ckEnergy : Tab Nat
  ckPend : Tab Nat
  ckPeriodic : Bool
  pulse : Tab PulseSt
  /-- Import energy of a point at the start of its demand interval (R439). -/
  demFrom : Tab Nat
  /-- The demand interval of a point that runs, counted from MT + MT_EPOCH 0 (R293, Table 17-7). -/
  demNo : Tab Nat
  /-- Demand of the last completed interval and the highest since the last SEAL record, as binary32, by point. -/
  dem : Tab Nat
  demMax : Tab Nat
  /-- Channel to serving modulator, where it differs from the channel's number (R443). -/
  serve : Tab Nat
  /-- Ready spares, longest waiting first; modulators calibrating; the first exchange has not been set up. -/
  spares : List Nat
  calib : List Nat
  /-- Next channel of the exchange, and the exchange under way: channel and spare. -/
  nextCh : Nat
  xchg : Option (Nat × Nat)
  /-- The spare that last disagreed on a channel, plus one (R444). -/
  disagree : Tab Nat
  /-- The island is measuring (R434). -/
  running : Bool
  /-- The window of a point that follows a change of IMAGE is invalid (R448). -/
  badWin : Tab Bool
  /-- Tokens offered to the fabric, by point × 128 + word index (R451). -/
  tokens : Tab (Option Nat)
  /-- Snapshots of a point, for the Umpire's slots. -/
  snaps : Tab Nat
  /-- Pulse outputs drive their pins: a PLAY instant has come since COLD (R446). -/
  pinsOn : Bool
  /-- A change of PINS waits for the next PLAY instant (R448). -/
  pinsDue : Bool
  /-- When measurement stopped, since a supply left its range (R452). -/
  offAt : Option Nat
  /-- The island has loaded its image from the sealed store since VAON came (R434, R485). -/
  loaded : Bool
deriving DecidableEq, Repr

/-- `MetSt` at reset: nothing held, every count 0.  -/
def MetSt.reset : MetSt where
  sealed := false
  key := 0
  rollback := false
  imageId := 0
  param := Tab.empty
  old := Tab.empty
  energy := Tab.empty
  ckEnergy := Tab.empty
  ckPend := Tab.empty
  ckPeriodic := false
  pulse := Tab.empty
  demFrom := Tab.empty
  demNo := Tab.empty
  dem := Tab.empty
  demMax := Tab.empty
  serve := Tab.empty
  spares := [16, 17]
  calib := []
  nextCh := 0
  xchg := none
  disagree := Tab.empty
  running := false
  badWin := Tab.empty
  tokens := Tab.empty
  snaps := Tab.empty
  pinsOn := false
  pinsDue := false
  offAt := none
  loaded := false


/-- One Umpire rule in operation (R459, R460). -/
structure RuleSt where
  /-- Last samples, newest first. -/
  samples : List Word
  /-- The bit c, and the last values of c, newest first. -/
  c : Bool
  cs : List Bool
  /-- Successive samples on which c differed from the output. -/
  differ : Nat
  /-- The rule's latched pin is active. -/
  latched : Bool
  /-- Rule words that take effect at the rule's next tick (R463). -/
  next : Option (Word × Word × Word × Word)
  /-- The snapshot of its slot's point the rule sampled last. -/
  seen : Nat
  /-- A comparator has fired and the rule has not sampled it. -/
  fired : Bool
deriving DecidableEq, Repr

/-- `RuleSt` at reset: nothing held, every count 0.  -/
def RuleSt.reset : RuleSt where
  samples := []
  c := false
  cs := []
  differ := 0
  latched := false
  next := none
  seen := 0
  fired := false

/-- The Umpire, beside the UMP registers (R455 to R468). -/
structure UmpSt where
  rule : Tab RuleSt
  /-- The model's time of the last beat of the Referee and of the coordinator, plus one; 0 none. -/
  refBeat : Nat
  swpBeat : Nat
  /-- A restart of the Referee was ordered and no beat has come: the time, plus one, and failures in a row. -/
  ordered : Nat
  fails : Nat
  /-- Misses in a row of the coordinator. -/
  swpRun : Nat
deriving DecidableEq, Repr

/-- `UmpSt` at reset: nothing held, every count 0.  -/
def UmpSt.reset : UmpSt where
  rule := Tab.empty
  refBeat := 0
  swpBeat := 0
  ordered := 0
  fails := 0
  swpRun := 0

/-- The IEEE 1149.1 port (R476, R477). -/
structure JtagSt where
  /-- Instruction code, 0xFF after test-logic reset. -/
  ir : Nat
  /-- Boundary register, what was shifted in and what was captured: cell n is the level of pin n, cell 4096 + n its drive
  enable, cells from 8192 up those of the DDR5 and VAUX-class pins. -/
  preload : Tab Bool
  sampled : Tab Bool
  /-- The data register last shifted out. -/
  out : Nat
  bypass : Bool
deriving DecidableEq, Repr

/-- `JtagSt` at reset: nothing held, every count 0.  -/
def JtagSt.reset : JtagSt where
  ir := 0xFF
  preload := Tab.empty
  sampled := Tab.empty
  out := 0
  bypass := false


/-- Everything one die holds (R2, R34). -/
structure DieSt where
  /-- Fuses and bonding (R10 to R15). -/
  idn : Ident
  /-- Every register of the die's map that is not computed at the read, by die-relative address; an unlisted one holds its reset word (Table 20-1, R336). -/
  regs : Tab Word
  /-- The last answer each bus master got, by `Master.key` (R5 to R9). -/
  resp : Tab Resp
  /-- Each master's read latch: register address and high word (R8). -/
  rdLatch : Tab (Option (Nat × Word))
  /-- Each master's write latch: register address and low word (R8). -/
  wrLatch : Tab (Option (Nat × Word))
  /-- MODEL'S OWN: how many free values this die has used. -/
  free : Nat
  /-- MODEL'S OWN: nanoseconds since the model's start, for the spec's rate limits and pauses. -/
  now : Nat
  /-- Match Time (R292). -/
  mt : Word64
  /-- Event records raised and not yet delivered to the collector (R300). -/
  raised : List EvRec
  /-- Records the event collector holds (R300). -/
  coll : List EvRec
  /-- MODEL'S OWN: time of the last event of a rate-limited kind, plus one; 0 none. -/
  evLast : Tab Nat
  /-- The loaded image has NO_READBACK (R362). -/
  noRb : Bool
  /-- The handshake fabric, the rings, block memories and frames (R48 to R115). -/
  fab : FabSt
  /-- Pace calibrators and governor (R116 to R133). -/
  pace : PaceSt
  /-- Signal engines by region index (R134 to R177). -/
  se : Tab SeSt
  /-- Hard queues by number (R206 to R222). -/
  q : Tab QSt
  /-- Check-value units by number (R224 to R230). -/
  crc : Tab CrcSt
  /-- The claim table: resource of Table 16-4 to claimant of Table 16-5, 0 none (R426). -/
  claims : Tab Nat
  /-- The Roster (R178 to R205). -/
  ros : RosSt
  /-- User crossing primitives the image names, by 32 × bank + primitive (R247). -/
  userX : Tab (Option UserX)
  /-- The personality holds the bank reset primitive of bank b asserted (R247). -/
  bankRst : Tab Bool
  /-- Crossings, by kind × 2^24 + instance × 2^8 + sub (R231 to R249). -/
  xing : Tab XSt
  /-- The row end the image gives tap channel k: row × 44, plus 43 at the east end (R244); set when the gates open. -/
  tapAt : Tab Nat
  /-- The row end the image gives fabric DRAM port p of channel c, by 8 × c + p, as tapAt (R253). -/
  portAt : Tab Nat
  /-- The row end the image gives user token channel c, as tapAt (R288). -/
  chanAt : Tab Nat
  /-- Queues admitted as class 0 for Sunislink: RATE plus 1 (R287, R288). -/
  slkAdm : Tab Nat
  /-- DRAM channels by number (R250 to R271). -/
  dmc : Tab DmcSt
  /-- QUEUE messages that wait at the crossing of port p, with the MT of their arrival (R287, R344). -/
  slkHeld : Tab (List (Word64 × List Nat))
  /-- Sunislink ports 0 to 3 (R272 to R278). -/
  port : Tab PortSt
  /-- Next CHAN expected of each CONFIG destination, at most 16 (R283, R369). -/
  cfgSeq : List (Nat × Nat)
  /-- MGMT messages received and not yet served (R425). -/
  mgmtIn : List SlkMsg
  /-- The model's times at which a class-0 token channel sent its tokens of the last microsecond (R278, R288). -/
  chanSent : Tab (List Nat)
  /-- The model's time plus one at which a token channel ran out of credit (R288). -/
  chanZero : Tab Nat
  /-- Transmit timestamps of an Ethernet port, oldest first: TAG and MT (R291). -/
  txts : Tab (List (Nat × Word64))
  /-- ETH_CFG as read at the PLAY instant (R289); 0 before. -/
  ethCfg : Tab Word
  /-- The frame an Ethernet port sent last, FCS included (R290). -/
  ethOut : Tab (List Nat)
  /-- Match Time (R292 to R297). -/
  mtm : MtSt
  /-- The image header of this start has been verified (R294, R357, R485). -/
  hdrOk : Bool
  /-- Words a port has read of the queue item it is taking, by queue (R287, R290). -/
  linkIn : Tab (List QOut)
  /-- Pins, by pin number (R306 to R325). -/
  pin : Tab PinSt
  /-- Levels of a bank's 48 pins as the synchronisers last showed them (R318). -/
  pinLevel : Tab Nat
  /-- The pin plan of the loaded image, until the PLAY instant (R313). -/
  plan : List PlanPin
  /-- A bank's levels at its matchers' last sample; none since the mechanism took over (R319, R320). -/
  pmPrev : Tab (Option Nat)
  /-- Hits of matcher 4 × bank + m since its last PM_MATCH (R320). -/
  pmHits : Tab Nat
  /-- A debounce filter: debounced level and ticks that differed (R321). -/
  deb : Tab (Option (Bool × Nat))
  /-- The PLL of a bank has lost lock and not locked again (R324). -/
  pllLost : Tab Bool
  /-- The loader (R355 to R383). -/
  load : LoadSt
  /-- The record area of the NVM (R364, R403, R408, R420). -/
  nvm : NvmSt
  /-- Sweeping, pairing, substitution and Drill (R384 to R402). -/
  rel : RelSt
  /-- Supplies, power domains and device states (R329 to R354). -/
  pwr : PwrSt
  /-- Fuses (Table 16-6). -/
  fuse : FuseSt
  /-- The Referee, Team and the mailbox (R415 to R432). -/
  ref : RefSt
  /-- The Zinen island (R433 to R454). -/
  met : MetSt
  /-- The Umpire (R455 to R468). -/
  ump : UmpSt
  /-- The test port (R476, R477). -/
  jtag : JtagSt
deriving DecidableEq, Repr

/-- A die at reset: VAON has just come up (R336, R337): the device is in COLD, every register holds its reset word and
every memory the value its log entry names. -/
def DieSt.reset : DieSt where
  idn := Ident.reset
  regs := Tab.empty
  resp := Tab.empty
  rdLatch := Tab.empty
  wrLatch := Tab.empty
  free := 0
  now := 0
  mt := 0
  raised := []
  coll := []
  evLast := Tab.empty
  noRb := false
  fab := FabSt.reset
  pace := PaceSt.reset
  se := Tab.empty
  q := Tab.empty
  crc := Tab.empty
  claims := Tab.empty
  ros := RosSt.reset
  userX := Tab.empty
  bankRst := Tab.empty
  xing := Tab.empty
  tapAt := Tab.empty
  portAt := Tab.empty
  chanAt := Tab.empty
  slkAdm := Tab.empty
  dmc := Tab.empty
  slkHeld := Tab.empty
  port := Tab.empty
  cfgSeq := []
  mgmtIn := []
  chanSent := Tab.empty
  chanZero := Tab.empty
  txts := Tab.empty
  ethCfg := Tab.empty
  ethOut := Tab.empty
  mtm := MtSt.reset
  hdrOk := false
  linkIn := Tab.empty
  pin := Tab.empty
  pinLevel := Tab.empty
  plan := []
  pmPrev := Tab.empty
  pmHits := Tab.empty
  deb := Tab.empty
  pllLost := Tab.empty
  load := LoadSt.reset
  nvm := NvmSt.reset
  rel := RelSt.reset
  pwr := PwrSt.reset
  fuse := FuseSt.reset
  ref := RefSt.reset
  met := MetSt.reset
  ump := UmpSt.reset
  jtag := JtagSt.reset

/-- Why the machine stops.  No command of this model stops it: the constructor is kept for a block whose effect no
chapter gives, and no meaning raises it. -/
inductive Fault where
  /-- Raised by no meaning.  Safe: a claim that a command faults cannot be proved. -/
  | none
deriving DecidableEq, Repr

/-- Why a command is refused. -/
inductive Refusal where
  /-- Raised by an arm of `exec` whose command has no meaning yet.  Safe: nothing can be proved of its effect. -/
  | notModelled (mnemonic : String)
deriving DecidableEq, Repr

/-- The machine: the commands that wait, first in first out, and the two dies.  Die 1 is absent on a single-die part. -/
structure State where
  /-- MODEL'S OWN: commands waiting to be carried out, first in, first out. -/
  pending : List Instr
  d0 : DieSt
  d1 : DieSt
deriving DecidableEq, Repr

/-- The machine right after reset. -/
def State.reset : State where
  pending := []
  d0 := DieSt.reset
  d1 := { DieSt.reset with idn := Ident.none }

end Sys2Proof.Machine
end

