-- ==== Sys2Proof/Config.lean ====
section
/-! DEFINITION. What the spec leaves open, as constants with no body: nothing can be proved of their values.  The
number a choice is applied to is `DieSt.free`, a count of the free values already used (MODEL'S OWN, log entry 3). -/

namespace Sys2Proof

/-- The outcome of a mutual-exclusion element or an arbiter where two events meet (R62, R69, R87, R95, R236): the spec
says that one of two outcomes follows and not which.  A free value. -/
opaque Config.choice : Nat → Bool

/-- A number the spec names as left to the device and gives no value for (for example the state of the always-on
domain after a breach of R331, R333).  A free value. -/
opaque Config.freeNat : Nat → Nat

/-- What the logic frames of a personality place in its region, and how the row-level frames join its ring to those of
other home positions: their payload is Oxlys's and not part of the device's contract (R3).  Applied to the home
position, the region's frames 0 to 319 in order, and the row-level frames by 1024 × row + index.  A free value. -/
opaque Config.design : Nat → List Nat → List (Nat × Nat) → Machine.Design

/-- Does a configured path pass through the west (0) or east (1) half of a row whose row-level frames hold this, by
frame index (R106).  Their payload is Oxlys's (R3).  A free value. -/
opaque Config.rowPath : List (Nat × Nat) → Nat → Bool

/-- Does a logic frame, with its index, hold a reserved select code (R72).  Where the select fields lie is Oxlys's (R3).
A free value. -/
opaque Config.reservedSelect : Nat → Nat → Bool

/-- The four bits of a unit's handshake controllers in a state frame (R374, Table 04-8), from the levels the model keeps
of it.  The spec gives their number and not their meaning.  A free value. -/
opaque Config.controllerBits : Nat → Nat

/-- Does a frame of an east row end, 720 to 735, with its index, enable the Geosh bridge (R112).  Where the enables lie is
Oxlys's (R3).  A free value. -/
opaque Config.bridgeOn : Nat → Nat → Bool

/-- What an image gives beside its header, in payload that R3 leaves to Oxlys, from a region's logic frames: SE_CFG
(R170), AB0 to AB7 and AL0 to AL7 (R140), RGN_BM_MODE (R83), and the pace monitors the region's channels carry, each with
the leader, or the T unit of bit 0, of the sending stage (R123).  Free values. -/
opaque Config.seCfg : List Nat → Nat
opaque Config.seBuffers : List Nat → List (BitVec 12) × List (BitVec 12)
opaque Config.bmModes : List Nat → Nat
opaque Config.monitors : List Nat → List (Nat × Nat)

/-- What an image places of the fabric's DRAM ports and of the Sunislink user token channels, from the row-level frames by
1024 × row + index: channel, port and class (R253); channel and SLK_CHAN_CFG word (R288).  Free values. -/
opaque Config.dmcPorts : List (Nat × Nat) → List (Nat × Nat × Nat)
opaque Config.slkChans : List (Nat × Nat) → List (Nat × Nat)

/-- How many pair comparators of a row the row-level frames use, by 1024 × row + index (R387).  A free value. -/
opaque Config.comparators : List (Nat × Nat) → Nat → Nat

/-- What drives the wires of the Geosh bridge toward the other die, from the row-level frames by 1024 × row + index: wire, by
136 × row + 17 × channel + wire, and link (R109).  A free value. -/
opaque Config.bridge : List (Nat × Nat) → List (Nat × Machine.Link)

/-- The user crossing primitives an image names, from the row-level frames by 1024 × row + index: primitive, by 32 × bank +
number, and its setting (R247).  A free value. -/
opaque Config.userX : List (Nat × Nat) → List (Nat × Machine.UserX)

/-- The serial lanes whose token crossings an image uses, from the row-level frames by 1024 × row + index (R19, R26).  A free
value. -/
opaque Config.lanes : List (Nat × Nat) → List Nat

/-- The row end of each tap channel, from the row-level frames by 1024 × row + index: channel, and row × 44, plus 43 at the
east end (R244).  A free value. -/
opaque Config.taps : List (Nat × Nat) → List (Nat × Nat)

/-- The row ends, counted so, of the fabric's DRAM ports, by 8 × channel + port (R253), and of the user token channels (R288), from
the row-level frames by 1024 × row + index.  Free values. -/
opaque Config.dramEnds : List (Nat × Nat) → List (Nat × Nat)
opaque Config.slkEnds : List (Nat × Nat) → List (Nat × Nat)

end Sys2Proof
end

