-- ==== Sys2Proof/Machine/Ops.lean ====
section
/-! DEFINITION. The operations every family of commands shares: registers and their fields, counters that saturate,
events, free choices, power and presence, and the checks of one management-bus access (R4 to R9, R17, R28). -/

namespace Sys2Proof.Machine

/-- What a meaning answers. -/
abbrev Out := Host.Outcome State Fault Refusal

/-! ### Registers -/

/-- The stored word of the register at `a`. -/
def DieSt.rd (d : DieSt) (a : Nat) : Word := d.regs.get rowReset a

/-- Store a word in the register at `a`. -/
def DieSt.wr (d : DieSt) (a : Nat) (v : Word) : DieSt := { d with regs := d.regs.set rowReset a v }

/-- The value of a field. -/
def DieSt.f (d : DieSt) (x : Fld) : Nat := x.of (d.rd x.addr)

/-- Is a one-bit field set. -/
def DieSt.on (d : DieSt) (x : Fld) : Bool := d.f x == 1

/-- Set a field. -/
def DieSt.put (d : DieSt) (x : Fld) (v : Nat) : DieSt := d.wr x.addr (x.put (d.rd x.addr) v)

/-- Add one to a counter field that saturates. -/
def DieSt.bump (d : DieSt) (x : Fld) : DieSt := d.put x (satInc x.width (d.f x))

/-- Add `n` to a counter field that saturates. -/
def DieSt.bumpBy (d : DieSt) (x : Fld) (n : Nat) : DieSt := d.put x (min (2 ^ x.width - 1) (d.f x + n))

/-- Add `n` to a counter field that wraps. -/
def DieSt.wrapBy (d : DieSt) (x : Fld) (n : Nat) : DieSt := d.put x ((d.f x + n) % 2 ^ x.width)

/-- The 64-bit value held in a low and a high word. -/
def DieSt.rd64 (d : DieSt) (lo hi : Nat) : Nat := (d.rd lo).toNat + (d.rd hi).toNat * 2 ^ 32

/-- Store a 64-bit value in a low and a high word. -/
def DieSt.wr64 (d : DieSt) (lo hi : Nat) (v : Nat) : DieSt :=
  (d.wr lo (BitVec.ofNat 32 v)).wr hi (BitVec.ofNat 32 (v >>> 32))

/-- Add `n` to the little-endian count of `w` bytes at byte `off` of the live Career record (Table 15-11), which lies in
one of its words; it saturates (DESIGN CHOICE, log entry 38: the spec names no width rule). -/
def DieSt.car (d : DieSt) (off w n : Nat) : DieSt :=
  d.bumpBy ⟨R.CAR_REC (off / 4), 8 * (off % 4) + 8 * w - 1, 8 * (off % 4)⟩ n

/-! ### Check values (R225, Table 08-5) -/

/-- Reverse the low `w` bits. -/
def reflectBits (w n : Nat) : Nat := (List.range w).foldl (fun r i => 2 * r + (n / 2 ^ i) % 2) 0

/-- The width W of a set of parameters. -/
def CrcPar.w (p : CrcPar) : Nat := bits p.ctl.toNat 5 0 + 1

/-- One bit of a byte into the register (R226). -/
def CrcPar.bitIn (p : CrcPar) (reg : Nat) (b : Bool) : Nat :=
  let fb := bit reg (p.w - 1) != b
  let r := reg * 2 % 2 ^ p.w
  if fb then Nat.xor r (p.poly % 2 ^ p.w) else r

/-- One byte into the register, highest bit first, reflected before if REFIN. -/
def CrcPar.byteIn (p : CrcPar) (reg b : Nat) : Nat :=
  let b := if bit p.ctl.toNat 29 then reflectBits 8 (b % 256) else b % 256
  [7, 6, 5, 4, 3, 2, 1, 0].foldl (fun r i => p.bitIn r (bit b i)) reg

/-- The result of a register value (R226). -/
def CrcPar.result (p : CrcPar) (reg : Nat) : Nat :=
  Nat.xor (if bit p.ctl.toNat 28 then reflectBits p.w reg else reg) (p.xorout % 2 ^ p.w)

/-- The start value. -/
def CrcPar.start (p : CrcPar) : Nat := p.init % 2 ^ p.w

/-- IEEE 802.3 check value of Table 08-5. -/
def crc32Par : CrcPar where
  ctl := 0xF000001F
  poly := 0x04C11DB7
  init := 0xFFFFFFFF
  xorout := 0xFFFFFFFF
  exp := 0

/-- CRC-32 of bytes (IEEE 802.3 set). -/
def crc32 (l : List Nat) : Nat := crc32Par.result (l.foldl crc32Par.byteIn crc32Par.start)

/-! ### Free values -/

/-- Use one free choice. -/
def DieSt.choose (d : DieSt) : Bool × DieSt := (Config.choice d.free, { d with free := d.free + 1 })

/-- Use one free number below `n` (`n` at least 1). -/
def DieSt.freeBelow (d : DieSt) (n : Nat) : Nat × DieSt := (Config.freeNat d.free % n, { d with free := d.free + 1 })

/-! ### Events (R298, R300) -/

/-- The 24-bit source number of a local source (R298). -/
def DieSt.source (d : DieSt) (l : Nat) : Nat := d.f F.SLK_ID_ID * 8192 + d.idn.die * 4096 + l % 4096

/-- Raise an event: its record waits to be delivered to the collector, unless the collector's domain 74 is off (R300). -/
def DieSt.raise (d : DieSt) (l code data : Nat) : DieSt :=
  if bit (d.rd (R.PWR_DOM_ON 2)).toNat 10 then
    { d with raised := d.raised ++ [⟨d.mt, d.source l, code, data % 2 ^ 24, false, false⟩] }
  else d

/-- Raise an event if `c`. -/
def DieSt.raiseIf (d : DieSt) (c : Bool) (l code data : Nat) : DieSt := if c then d.raise l code data else d

/-- May an event of the rate-limited kind `key` be raised, at most once in `per` ns. -/
def DieSt.due (d : DieSt) (key per : Nat) : Bool :=
  d.evLast.get (fun _ => 0) key == 0 || d.now + 1 - d.evLast.get (fun _ => 0) key ≥ per

/-- Raise an event of a rate-limited kind, at most once in `per` ns. -/
def DieSt.raiseLim (d : DieSt) (c : Bool) (key per l code data : Nat) : DieSt :=
  if c && d.due key per then
    { d.raise l code data with evLast := d.evLast.set (fun _ => 0) key (d.now + 1) }
  else d

/-! ### Presence (R11 to R17) -/

/-- Bonded pin banks (Table 01-2). -/
def Ident.banks (i : Ident) : Nat := if i.pkg = 0 then 20 else if i.pkg = 1 then 12 else 15

/-- Bonded DDR5 channels (Table 01-2). -/
def Ident.ddr (i : Ident) : Nat := if i.pkg = 1 then 2 else 4

/-- Is serial lane `n` bonded (Table 01-2): in F2112 lanes 0 to 9, 20 and 21. -/
def Ident.lane (i : Ident) (n : Nat) : Bool := if i.pkg = 1 then decide (n < 10) || n == 20 || n == 21 else decide (n < 24)

/-- Bonded serial lanes (Table 01-2). -/
def Ident.lanes (i : Ident) : Nat := ((List.range 24).filter i.lane).length

/-- Bonded Sunislink ports (Table 01-2). -/
def Ident.slk (i : Ident) : Nat := if i.pkg = 1 then 2 else 4

/-- Bonded Ethernet ports (Table 01-2). -/
def Ident.eth (i : Ident) : Nat := if i.pkg = 1 then 2 else 4

/-- Bonded lane quads (Table 01-2). -/
def Ident.quad (i : Ident) (q : Nat) : Bool := if i.pkg = 1 then q < 3 || q == 5 else q < 6

/-- SYS_ID (R15). -/
def Ident.sysId (i : Ident) : Word :=
  BitVec.ofNat 32 (0x86 * 2 ^ 24 + i.part.row.code * 2 ^ 20 + i.stepping % 16 * 2 ^ 16 + b2n i.twin * 2 ^ 15
    + i.die * 2 ^ 14 + b2n i.met * 2 ^ 13 + i.pkg * 2 ^ 11 + i.rows * 2 ^ 5)

/-- SYS_RES (R15). -/
def Ident.sysRes (i : Ident) : Word :=
  BitVec.ofNat 32 (i.banks * 2 ^ 27 + i.ddr * 2 ^ 24 + i.lanes * 2 ^ 19 + i.slk * 2 ^ 16 + i.eth * 2 ^ 13)

/-- Region `r` lies in an enabled row (R11). -/
def DieSt.hasRegion (d : DieSt) (r : Nat) : Bool := r / 44 < d.idn.rows

/-- The bench positions of a row (R11, R32). -/
def isBench (r : Nat) : Bool := r % 44 == 10 || r % 44 == 21 || r % 44 == 32 || r % 44 == 43

/-! ### Device state and power (R334, R338) -/

/-- The device state (Table 13-3; 8 is factory test). -/
def DieSt.dev (d : DieSt) : Nat := d.f F.PWR_STATE_STATE

/-- The device is in PLAY and no transition out of it has stopped dispatch (R344, R349). -/
def DieSt.playing (d : DieSt) : Bool := d.dev == 4 && !d.pwr.stopping

/-- Is power domain `k` of Table 13-2 on.  Domain 78 is never switched; 79 is on while VAON and VANA are good. -/
def DieSt.domOn (d : DieSt) (k : Nat) : Bool :=
  if k = 78 then true
  else if k = 79 then d.idn.met && d.on F.PWR_SUP_STAT_VAON && d.on F.PWR_SUP_STAT_VANA
  else bit (d.rd (R.PWR_DOM_ON (k / 32))).toNat (k % 32)

/-- Switch the stored on bit of domain `k`. -/
def DieSt.setDom (d : DieSt) (k : Nat) (b : Bool) : DieSt :=
  d.wr (R.PWR_DOM_ON (k / 32)) (BitVec.ofNat 32 (putBit (d.rd (R.PWR_DOM_ON (k / 32))).toNat (k % 32) b))

/-- The half-row domain of a region (Table 13-2). -/
def halfRow (r : Nat) : Nat := 2 * (r / 44) + (if r % 44 < 22 then 0 else 1)

/-- Is region `r` there and powered. -/
def DieSt.regionOn (d : DieSt) (r : Nat) : Bool := d.hasRegion r && d.domOn (halfRow r)

/-- RGN_STAT.STATE codes (R114). -/
def rgOff : Nat := 0
def rgBlank : Nat := 1
def rgLoading : Nat := 2
def rgReady : Nat := 3
def rgRunning : Nat := 4
def rgFrozen : Nat := 5
def rgFailed : Nat := 6
def rgQuarantined : Nat := 7

/-- The state of a region. -/
def DieSt.rgState (d : DieSt) (r : Nat) : Nat := d.f (F.RGN_STAT_STATE r)

/-- The ring state of a region (Table 04-6: 0 ISOLATE, 1 PASS, 2 FREEZING, 3 FROZEN). -/
def DieSt.ringState (d : DieSt) (r : Nat) : Nat := d.f (F.RGN_STAT_RING r)

/-- The queue hub is powered and out of reset. -/
def DieSt.hubOn (d : DieSt) : Bool := d.domOn 74 && !d.on F.PWR_BLK_RST_HUB

/-- The Roster is powered and out of reset. -/
def DieSt.rosOn (d : DieSt) : Bool := d.domOn 75 && !d.on F.PWR_BLK_RST_ROSTER

/-- DRAM channel `c` is bonded, powered and out of reset. -/
def DieSt.dmcOn (d : DieSt) (c : Nat) : Bool :=
  c < d.idn.ddr && d.domOn (64 + c) && !bit (d.f F.PWR_BLK_RST_DMC) c

/-- Lane quad `q` is bonded, powered and out of reset. -/
def DieSt.quadOn (d : DieSt) (q : Nat) : Bool :=
  d.idn.quad q && d.domOn (68 + q) && !bit (d.f F.PWR_BLK_RST_QUAD) q

/-! ### One management-bus access -/

/-- A finding of R389 in a region: the time of the last one is kept. -/
def DieSt.finding (d : DieSt) (rg : Nat) : DieSt := { d with rel := { d.rel with found := d.rel.found.set (fun _ => 0) rg (d.now + 1) } }

/-- Number a master. -/
def masterKey : Master → Nat
  | .referee => 0
  | .team => 1
  | .host => 2
  | .testPort => 3
  | .fabric r => 4 + r

/-- Fold an engine's primary address onto its alias, outside the slots of R483. -/
def foldSe (a : Nat) : Nat :=
  if a < 0x12000000 || a > 0x177FFFFF then a
  else
    let i := (a - 0x12000000) / 65536
    if (256 ≤ i && i ≤ 359) || (512 ≤ i && i ≤ 514) || i == 768 || i == 1024 || i == 1040 || i == 1056
        || i == 1280 || (1296 ≤ i && i ≤ 1307) || i == 1312 || i == 1328 then a
    else a - 0x12000000 + 0x40000000

/-- Does the register at (folded) address `a` belong to a resource this die has not (R17). -/
def DieSt.absentAt (d : DieSt) (b : Blk) (a : Nat) : Bool :=
  match b with
  | .bRGN => (a - 0x11000000) / 0x100 / 44 ≥ d.idn.rows
  | .bSE => (a - 0x40000000) / 0x10000 / 44 ≥ d.idn.rows
  | .bPIN =>
    let o := a - 0x10020000
    if 0x100 ≤ o && o < 0x600 then (o - 0x100) / 0x40 ≥ d.idn.banks
    else if 0x800 ≤ o && o < 0xBC0 then (o - 0x800) / 0x10 / 3 ≥ d.idn.banks
    else if 0x1000 ≤ o && o < 0x4C00 then (o - 0x1000) / 0x10 / 48 ≥ d.idn.banks
    else false
  | .bDMC => (a - 0x15000000) / 0x1000 < 4 && (a - 0x15000000) / 0x1000 ≥ d.idn.ddr
  | .bSLK => 0x100 ≤ a - 0x16000000 && a - 0x16000000 < 0x180 && (a - 0x16000100) / 0x20 ≥ d.idn.slk
  | .bETH => (a - 0x16100000) / 0x100 < 4 && (a - 0x16100000) / 0x100 ≥ d.idn.eth
  | .bMET => !d.idn.met
  | .bSUB => 0x100 ≤ a - 0x10050000 && a - 0x10050000 < 0x180 && (a - 0x10050100) / 4 ≥ d.idn.rows
  | _ => false

/-- Is the block of (folded) address `a` powered and out of reset (R28).  The spec does not name the domain of the
PACE, PIN, XING and SLK blocks: they answer with the management bus (DESIGN CHOICE, log entry 5). -/
def DieSt.liveAt (d : DieSt) (b : Blk) (a : Nat) : Bool :=
  match b with
  | .bSE => d.domOn (halfRow ((a - 0x40000000) / 0x10000))
  | .bROS => d.rosOn
  | .bQ => d.hubOn
  | .bCRC => d.hubOn
  | .bETH => d.hubOn
  | .bDMC => if (a - 0x15000000) / 0x1000 < 4 then d.dmcOn ((a - 0x15000000) / 0x1000) else true
  | .bCFG => d.domOn 77
  | .bSWP => d.domOn 77
  | .bSUB => d.domOn 77
  | .bRGN => d.domOn 77
  | .bFTT => d.domOn 77
  | .bCAR => d.domOn 77
  | .bMET => d.domOn 79
  | _ => true

/-- What the checks of one access find. -/
inductive Access where
  /-- Carried out. -/
  | ok
  /-- No effect, error response. -/
  | err
  /-- No register stands there: reads 0 and ignores writes, with a normal response (R484). -/
  | void
deriving DecidableEq, Repr

/-- May master `m` write a register of owner `o` (R9). -/
def mayWrite (m : Master) (o : Owner) : Bool :=
  match o, m with
  | .referee, .referee => true
  | .team, .referee => true
  | .team, .team => true
  | _, _ => false

/-- The Referee is restarting: no new claim, admission, pin owner or partial load is taken (R38). -/
def DieSt.restarting (d : DieSt) : Bool := d.f F.REF_STAT_STATE == 2

/-- The management bus answers master `m` now (Table 02-2).  The Referee from WARM-UP, Team from PLAY once released,
the fabric ports in PLAY while the half-row they lie in is on; a host and the test port do not send register accesses of this kind. -/
def DieSt.busUp (d : DieSt) (m : Master) : Bool :=
  !d.idn.absent && d.domOn 76 &&
  match m with
  | .referee => true
  | .team => decide (4 ≤ d.dev ∧ d.dev ≠ 8)
  | .fabric r => d.dev == 4 && decide (r < d.idn.rows) && d.domOn (2 * r)
  | .host => false
  | .testPort => false

/-- The checks of a write of `size` bytes at (folded) address `a` by master `m`, in the order alignment (R5), decoding
(R484), presence (R17), power (R28), owner (R9). -/
def DieSt.writeCheck (d : DieSt) (m : Master) (a size : Nat) : Access :=
  if !d.busUp m then .err
  else if size ≠ 4 || a % 4 ≠ 0 then .err
  else
    match findBlk a with
    | none => .err
    | some (b, rows) =>
      if d.absentAt b a then .err
      else if !d.liveAt b a then .err
      else if b = .bREF && m ≠ .referee then .err
      else
        match rows.find? (fun r => r.has a) with
        | none => .void
        | some r => if mayWrite m r.owner then .ok else .err

/-- The checks of a read (R5, R9, R17, R28, R484). -/
def DieSt.readCheck (d : DieSt) (m : Master) (a size : Nat) : Access :=
  if !d.busUp m then .err
  else if size ≠ 4 || a % 4 ≠ 0 then .err
  else
    match findBlk a with
    | none => .err
    | some (b, rows) =>
      if d.absentAt b a then .void
      else if !d.liveAt b a then .err
      else if b = .bREF && m ≠ .referee then .err
      else
        match rows.find? (fun r => r.has a) with
        | none => .void
        | some _ => .ok

/-- Give master `m` its answer. -/
def DieSt.answer (d : DieSt) (m : Master) (data : Word) (err : Bool) : DieSt :=
  { d with resp := d.resp.set (fun _ => Resp.reset) (masterKey m) ⟨data, err⟩ }

/-- A write by `m` of the register at `a` whose effect, once the access checks pass, is `g`; `g` says whether the
write itself is refused with an error. -/
def DieSt.busDo (d : DieSt) (m : Master) (a : Nat) (g : DieSt → DieSt × Bool) : DieSt :=
  match d.writeCheck m a 4 with
  | .err => d.answer m 0 true
  | .void => d.answer m 0 false
  | .ok => (g d).1.answer m 0 (g d).2

/-- As `busDo`, for an effect that no operand refuses. -/
def DieSt.busAct (d : DieSt) (m : Master) (a : Nat) (g : DieSt → DieSt) : DieSt := d.busDo m a (fun x => (g x, false))

/-! ### One command -/

/-- The state of a die.  The package has one NVM, bonded on die 0 (R13, R370): die 1 reaches it there, and the field of
die 1's own state stays unused. -/
def State.die (s : State) : Die → DieSt
  | .die0 => s.d0
  | .die1 => { s.d1 with nvm := s.d0.nvm }

/-- The state with die `x` replaced, what it holds of the NVM in die 0, and everything else as it was. -/
def State.setDie (s : State) (x : Die) (d : DieSt) : State :=
  match x with
  | .die0 => { s with d0 := d }
  | .die1 => { s with d0 := { s.d0 with nvm := d.nvm }, d1 := { d with nvm := s.d1.nvm } }

/-- Apply `g` to a die; an absent die never acts (R16). -/
def onDie (x : Die) (s : State) (g : DieSt → DieSt) : State :=
  if (s.die x).idn.absent then s else s.setDie x (g (s.die x))

/-- Apply `g` to both dies of the package. -/
def onBoth (s : State) (g : DieSt → DieSt) : State := onDie .die1 (onDie .die0 s g) g

/-- A command whose effect on one die is `g`. -/
def act (x : Die) (s : State) (g : DieSt → DieSt) : Out := .next (onDie x s g)

/-- A command whose effect reaches both dies. -/
def actBoth (s : State) (g : DieSt → DieSt) : Out := .next (onBoth s g)

end Sys2Proof.Machine
end

