-- ==== Sys2Proof/Machine/Header.lean ====
section
/-! DEFINITION. The bytes of the stream that the loader reads itself: the record header (R355) and the image header with its
tables (R357, Table 14-2, Table 14-3).  All multi-byte fields are little-endian. -/

namespace Sys2Proof.Machine

/-! ### Record headers (R355) -/

/-- TYPE of a record header. -/
def recType (w : Word64) : Nat := bits w.toNat 63 56

/-- ARG of a record header. -/
def recArg (w : Word64) : Nat := bits w.toNat 55 0

/-- A record header. -/
def recHdr (type arg : Nat) : Word64 := BitVec.ofNat 64 (type % 256 * 2 ^ 56 + arg % 2 ^ 56)

/-! ### The image header (R357) -/

/-- The little-endian value of `n` bytes from byte `k`. -/
def leAt (b : List Nat) (k n : Nat) : Nat := ofBytes (slice b k n)

/-- Region table entry `i`, of a table that starts at byte `o`. -/
def rgnEntryAt (b : List Nat) (o i : Nat) : RgnEntry where
  die := bits (leAt b (o + 16 * i) 2) 15 15
  region := bits (leAt b (o + 16 * i) 2) 10 0
  optional := bit (leAt b (o + 16 * i + 2) 1) 0
  paired := bit (leAt b (o + 16 * i + 2) 1) 1
  pid := leAt b (o + 16 * i + 4) 4
  sig := leAt b (o + 16 * i + 8) 8

/-- Bank table entry `i`. -/
def bankEntryAt (b : List Nat) (o i : Nat) : BankEntry where
  die := bits (leAt b (o + 4 * i) 4) 24 24
  bank := bits (leAt b (o + 4 * i) 4) 29 25
  pll := BitVec.ofNat 32 (leAt b (o + 4 * i) 4) &&& 0x800FFFFF

/-- Pin plan entry `i`. -/
def pinEntryAt (b : List Nat) (o i : Nat) : PinEntry where
  die := bits (leAt b (o + 16 * i) 4) 15 15
  pin := bits (leAt b (o + 16 * i) 4) 14 0
  cfg := BitVec.ofNat 32 (leAt b (o + 16 * i + 4) 4)
  elec := BitVec.ofNat 32 (leAt b (o + 16 * i + 8) 4)
  fab := BitVec.ofNat 32 (leAt b (o + 16 * i + 12) 4)

/-- Where the bank table, the pin plan and the public key start, and the length that the counts give. -/
def hdrBankAt (b : List Nat) : Nat := 256 + 16 * leAt b 116 2
def hdrPinAt (b : List Nat) : Nat := hdrBankAt b + 4 * leAt b 120 1
def hdrKeyAt (b : List Nat) : Nat := hdrPinAt b + 16 * leAt b 118 2
def hdrLength (b : List Nat) : Nat := hdrKeyAt b + 200

/-- The bytes that Table 14-2, Table 14-3 and the public key leave 0, the unused bits of FLAGS among them. -/
def hdrReservedOk (b : List Nat) : Bool :=
  (slice b 121 7).all (fun v => v == 0) && (slice b 240 16).all (fun v => v == 0) && leAt b 8 4 / 2 ^ 9 == 0
  && (List.range (leAt b 116 2)).all (fun i => nth 0 b (256 + 16 * i + 3) == 0) && (slice b (hdrKeyAt b + 97) 7).all (fun v => v == 0)

/-- The image header that a HEADER record's bytes spell. -/
def readHdr (r : HdrRec) : ImgHdr :=
  let b := r.bytes
  let flag := bit (leAt b 8 4)
  { formOk := leAt b 0 4 == 0x36384C54 && leAt b 4 2 == 1 && decide (leAt b 6 1 ≤ 1) && decide (leAt b 7 1 < 3)
      && hdrReservedOk b && decide (b.length = hdrLength b)
    kind := leAt b 6 1
    pkg := leAt b 7 1
    noReadback := flag 0
    encrypted := flag 1
    ksys := flag 2
    kroot := flag 3
    mtRoot := flag 4
    upPort := bits (leAt b 8 4) 6 5
    met := flag 7
    teamFollows := flag 8
    rows := leAt b 12 1
    slkPrefix := leAt b 13 1 % 128
    pmbAddr := leAt b 14 1 % 128
    keySlot := bits (leAt b 15 1) 1 0
    aesSlot := bits (leAt b 15 1) 4 4
    vmin := leAt b 16 2
    vmax := leAt b 18 2
    bodyLen := leAt b 20 4
    dmc := slice b 24 8
    domains0 := leAt b 32 16
    domains1 := leAt b 48 16
    nonce := leAt b 64 8
    imageId := BitVec.ofNat 32 (leAt b 72 4)
    store0 := BitVec.ofNat 32 (leAt b 76 4)
    store1 := BitVec.ofNat 32 (leAt b 80 4)
    groups := (List.range 16).map (fun i => leAt b (84 + 2 * i) 2)
    digest0 := leAt b 128 48
    monitors := (List.range 16).map (fun i => BitVec.ofNat 32 (leAt b (176 + 4 * i) 4))
    regions := (List.range (leAt b 116 2)).map (rgnEntryAt b 256)
    bankTable := (List.range (leAt b 120 1)).map (bankEntryAt b (hdrBankAt b))
    pinPlan := (List.range (leAt b 118 2)).map (pinEntryAt b (hdrPinAt b))
    keyDigest := r.keyDigest
    sigOk := r.sigOk }

/-- Bytes of an image body on the stream: its records and a 64-byte trailer after every block (R356). -/
def bodyOnStream (len : Nat) : Nat := len + 64 * ((len + 65535) / 65536)

end Sys2Proof.Machine
end

