-- ==== Sys2Proof/Machine/Fabric.lean ====
section
/-! DEFINITION. The handshake fabric: look-up tables and chains, bundled-data and dual-rail stages, merge elements and
arbiters, and matched-delay changes (R48 to R78). -/

namespace Sys2Proof.Machine

/-! ### Signals -/

/-- A bundled-data stage's state; a stage nothing has touched is empty and idle. -/
def DieSt.stage (d : DieSt) (k : Nat) : StageSt := d.fab.stages.get (fun _ => StageSt.reset) k

/-- Store a stage's state. -/
def DieSt.setStage (d : DieSt) (k : Nat) (s : StageSt) : DieSt :=
  { d with fab := { d.fab with stages := d.fab.stages.set (fun _ => StageSt.reset) k s } }

/-- A dual-rail stage's state. -/
def DieSt.rail (d : DieSt) (k : Nat) : RailSt := d.fab.rails.get (fun _ => RailSt.reset) k

/-- Store a dual-rail stage's state. -/
def DieSt.setRail (d : DieSt) (k : Nat) (s : RailSt) : DieSt :=
  { d with fab := { d.fab with rails := d.fab.rails.set (fun _ => RailSt.reset) k s } }

/-- A ring channel. -/
def DieSt.ringCh (d : DieSt) (rg ch : Nat) : RingSt := d.fab.ring.get (fun _ => RingSt.reset) (1536 * rg + ch)

/-- Store a ring channel. -/
def DieSt.setRingCh (d : DieSt) (rg ch : Nat) (s : RingSt) : DieSt :=
  { d with fab := { d.fab with ring := d.fab.ring.set (fun _ => RingSt.reset) (1536 * rg + ch) s } }

/-- Bitwise majority of three copies (R82, R90). -/
def vote (t : Tmr) : Nat := Nat.lor (Nat.lor (Nat.land t.a t.b) (Nat.land t.a t.c)) (Nat.land t.b t.c)

/-- The home position, as a region number, of what is loaded in region `rg` (RGN_STAT.HOME). -/
def DieSt.homeOf (d : DieSt) (rg : Nat) : Nat :=
  if d.f (F.RGN_STAT_HOME rg) = 63 then rg else rg / 44 * 44 + d.f (F.RGN_STAT_HOME rg)

/-- Where the personality homed at `home` is loaded or runs (RGN_STAT.AT). -/
def DieSt.nowAt (d : DieSt) (home : Nat) : Nat :=
  if d.f (F.RGN_STAT_AT home) = 63 then home else home / 44 * 44 + d.f (F.RGN_STAT_AT home)

/-- The data bits of logic frame `k` of region `rg` as they stand, upset ones included (R385). -/
def DieSt.frameNow (d : DieSt) (rg k : Nat) : Nat :=
  Nat.xor (d.fab.frames.get (fun _ => 0) (1024 * rg + k)) (d.rel.flip.get (fun _ => 0) (1024 * rg + k) % 2 ^ 1024)

/-- The row-level frames as voted (R82), by 1024 × row + index. -/
def DieSt.rowsNow (d : DieSt) : List (Nat × Nat) := d.fab.rowFrames.cells.map (fun c => (c.1, vote c.2))

/-- A data bit of a logic frame of region `rg` is upset. -/
def DieSt.upsetIn (d : DieSt) (rg : Nat) : Bool :=
  d.rel.flip.cells.any (fun c => c.1 / 1024 == rg && decide (c.1 % 1024 < 320) && c.2 % 2 ^ 1024 != 0)

/-- What region `rg`'s logic frames place: as loaded, or, while data bits of them are upset, what the frames as they stand
place (R3, R73). -/
def DieSt.design (d : DieSt) (rg : Nat) : Design :=
  if d.upsetIn rg then Config.design (d.homeOf rg) ((List.range 320).map (d.frameNow rg)) d.rowsNow
  else d.fab.design.get (fun _ => Design.reset) rg

/-- Unit `u` as the image sets it. -/
def Design.unit (s : Design) (u : Nat) : Option UnitCfg := s.units.find? (fun x => x.unit == u)

/-- The role of unit `u`; the controller of one the image does not place is off (R51). -/
def Design.role (s : Design) (u : Nat) : Role := (s.unit u).elim .none (fun x => x.role)

/-- The units of a leader's stage: itself and its members in the same quad (R51, R53). -/
def Design.members (s : Design) (u : Nat) : List Nat :=
  (s.units.filter (fun x => x.unit / 64 == u / 64 && (x.role == .member u || (x.unit == u && x.role == .leader)))).map (fun x => x.unit)

/-- The units that hold the T (or F) rails of dual-rail stage `k`, with the bit each holds. -/
def Design.rails' (s : Design) (k : Nat) (f : Bool) : List (Nat × Nat) :=
  s.units.filterMap (fun x => match x.role with
    | .railT j i => if j == k && !f then some (i, x.unit) else none
    | .railF j i => if j == k && f then some (i, x.unit) else none
    | _ => none)

/-- The bundled-data stage of leader `u`. -/
def DieSt.stageCfg (d : DieSt) (rg u : Nat) : Option StageCfg :=
  if (d.design rg).role u = .leader then (d.design rg).stages.find? (fun s => s.leader == u) else none

/-- The dual-rail stage of key `k`. -/
def DieSt.railCfg (d : DieSt) (rg k : Nat) : Option RailCfg :=
  if (d.design rg).role k = .railT k 0 then (d.design rg).rails.find? (fun s => s.key == k) else none

/-- Stage register S0 or S1 of unit `u` (R50). -/
def DieSt.reg (d : DieSt) (rg u : Nat) (s1 : Bool) : Bool := d.fab.regs.get (fun _ => false) (2 * (1024 * rg + u) + b2n s1)

/-- The level a signal of region `rg` is driven at.  Quiet is 0.  A rail unit's Q0 shows its rail while its stage drives its
word, and null otherwise; a decoder's shows the bundled data (R55, R57).  A static unit's output has a value only for the
stage it feeds in its own quad, which `DieSt.capture` works out (R53, R54): elsewhere its level is the command's. -/
def DieSt.sigAt (d : DieSt) (lv rg : Nat) (s : Sig) : Bool :=
  match s with
  | .quiet => false
  | .req u =>
    match (d.design rg).role u with
    | .leader => (d.stage (1024 * rg + u)).req
    | .railT k _ => (d.rail (1024 * rg + k)).req
    | _ => false
  | .ack u =>
    match (d.design rg).role u with
    | .leader => (d.stage (1024 * rg + u)).ackIn
    | .railT k _ => (d.rail (1024 * rg + k)).ack
    | _ => false
  | .q u s1 =>
    match (d.design rg).role u with
    | .none => bit lv (65536 + 2 * u + b2n s1)
    | .railT k _ | .railF k _ =>
      d.reg rg u s1 && (s1 || (d.rail (1024 * rg + k)).drive || (d.railCfg rg k).elim false (fun c => c.decoder))
    | _ => d.reg rg u s1
  | .enc u i f => (d.stage (1024 * rg + u)).req && (d.stageCfg rg u).elim false (fun c => c.encoder)
      && (match ((d.design rg).members u)[i / 2]? with | some m => d.reg rg m (i % 2 == 1) != f | none => false)
  | .merge k => d.fab.merges.get (fun _ => false) (544 * rg + k)
  | .grant a side => d.fab.arbs.get (fun _ => none) (128 * rg + a) == some side
  | .island k => bit lv k
  | .bridge _ _ | .track _ => false

/-- What the configuration bits of a cell hold that carries wire `w` of channel `ch` (R90). -/
def cellWord (ch w : Nat) (dual : Bool) : Nat := (ch * 256 + w) * 2 + b2n dual + 1

/-- The cell of wire `w` of a ring channel, as voted, joins it (R90). -/
def DieSt.cellJoins (d : DieSt) (rg ch w : Nat) : Bool :=
  match (d.design rg).ring[ch]? with
  | none => false
  | some c =>
    match c.cells[w]? with
    | none => false
    | some n => vote (d.fab.iso.get (fun _ => Tmr.reset) (1536 * rg + n)) == cellWord ch w c.dual

/-- The latched level of wire `w` of a channel. -/
def RingSt.latched (c : RingSt) (w : Nat) : Bool :=
  match w with
  | 0 => c.req
  | 1 => c.ack
  | i + 2 => bit c.data i

/-- What a level becomes on its way through wire `w` of channel `ch` of region `rg`'s ring (Table 04-6): itself in PASS, 0
(idle, data 0, dual-rail null) in ISOLATE, the latched level on a frozen channel. -/
def DieSt.throughRing (d : DieSt) (rg ch w : Nat) (level : Bool) : Bool :=
  d.cellJoins rg ch w &&
  match d.ringState rg with
  | 0 => false
  | 1 =>
    let c := d.ringCh rg ch
    if c.drain then c.latched w else level
  | _ =>
    let c := d.ringCh rg ch
    if c.frozen then c.latched w else level

/-- The highest select code that names a source (Table 03-9). -/
def MuxClass.top : MuxClass → Nat
  | .clusterOutput => 64
  | .regionSwitch => 32
  | .rowChannel => 12

/-- The source a multiplexer's code names: code 0 and the reserved codes name none and drive quiet (R71, R73). -/
def Mux.pick (m : Mux) : Option Link := if 0 < m.code && m.code ≤ m.cls.top then m.sources[m.code - 1]? else none

/-- Where a signal that region `rg` reads comes from, the tracks of the region followed back to it through their
multiplexers; none is quiet. -/
def DieSt.follow (d : DieSt) (rg : Nat) : Nat → Link → Option Link
  | 0, _ => none
  | n + 1, l =>
    match l.sig with
    | .track k =>
      if l.region = d.homeOf rg then
        match (d.design rg).muxes.find? (fun m => m.track == k) with
        | some m => match m.pick with | some o => d.follow rg n o | none => none
        | none => none
      else some l
    | _ => some l

/-- As many tracks as a signal of one region passes at most in the model: longer than any path within a region switch. -/
def maxTracks : Nat := 32

/-- The level of a signal where it leaves its own region's ring, or its row end: a link names its region by home position;
the detour sets join that to the bench the personality runs at (R97, R100). -/
def DieSt.levelOut (d : DieSt) (lv : Nat) (l : Link) : Bool :=
  let r := d.nowAt l.region
  d.throughRing r l.there l.wire
    (match d.follow r maxTracks l with
    | some o => o.region == l.region && d.sigAt lv r o.sig
    | none => false)

/-- What comes to a die's fabric from outside it while a command acts: the levels of the wires the islands drive, and the
other die of the package, over the Geosh bridge. -/
structure FabEnv where
  lv : Nat
  far : Option DieSt

/-- The east half-row of a row is powered on this die of a two-die part (R111). -/
def DieSt.bridgeHalf (d : DieSt) (row : Nat) : Bool := !d.idn.absent && d.idn.twin && decide (row < d.idn.rows) && d.domOn (2 * row + 1)

/-- What a die drives onto a wire of a row's bridge toward the other die (R109). -/
def DieSt.bridgeOut (d : DieSt) (lv row ch w : Nat) : Bool :=
  match d.fab.bridge.get (fun _ => none) (136 * row + 17 * ch + w) with
  | some l => d.levelOut lv l
  | none => false

/-- A wire that arrives over a row's bridge: null and a low acknowledge unless the east half-row is powered on both dies
(R111).  The other die's own island wires stand above the first 131,072 levels of the command. -/
def DieSt.bridgeIn (d : DieSt) (e : FabEnv) (row ch w : Nat) : Bool :=
  match e.far with
  | some o => d.bridgeHalf row && o.bridgeHalf row && decide (ch < 8) && o.bridgeOut (e.lv >>> 131072) row ch w
  | none => false

/-- The level region `rg` sees on a routed signal (R32): that of the source its tracks name, and a signal from outside the
region passes the isolation rings between. -/
def DieSt.level (d : DieSt) (e : FabEnv) (rg : Nat) (l : Link) : Bool :=
  match d.follow rg maxTracks l with
  | none => false
  | some o =>
    match o.sig with
    | .island k => d.throughRing rg o.here o.wire (bit e.lv k)
    | .bridge ch w => d.throughRing rg o.here o.wire (d.bridgeIn e (rg / 44) ch w)
    | s =>
      if o.region = d.homeOf rg then d.sigAt e.lv rg s
      else d.throughRing rg o.here o.wire (d.levelOut e.lv o)

/-- Unit output `i` of a cluster: Q0, Q1, REQ and ACK of its unit 0, then of unit 1, and on (log entry 19). -/
def unitSig (cl i : Nat) : Sig :=
  let u := 16 * cl + i / 4
  match i % 4 with
  | 0 => .q u false
  | 1 => .q u true
  | 2 => .req u
  | _ => .ack u

/-- What the select code of REQ_IN or ACK_OUT of unit `u` names: code 0 quiet, 1 to 64 the cluster's unit outputs, 65 to 112
the cluster inputs; a reserved code drives quiet (R71, R73). -/
def DieSt.inLink (d : DieSt) (rg u code : Nat) : Option Link :=
  if code = 0 then none
  else if code ≤ 64 then some ⟨d.homeOf rg, unitSig (u / 16) (code - 1), 0, 0, 0⟩
  else if code ≤ 112 then ((d.design rg).cins.find? (fun c => c.1 == u / 16 && c.2.1 == code - 65)).map (fun c => c.2.2)
  else none

/-- The level at REQ_IN or ACK_OUT of unit `u`. -/
def DieSt.levelIn (d : DieSt) (e : FabEnv) (rg u code : Nat) : Bool := (d.inLink rg u code).elim false (d.level e rg)

/-! ### Look-up tables and chains (R48, R49, R71, R73) -/

/-- Levels of a quad's 256 unit outputs (Q0, Q1, REQ, ACK of unit 0, then of unit 1, …) while its static logic settles:
the levels, and a 1 for each that is not known. -/
structure QuadLv where
  v : Nat
  unk : Nat

/-- What an output may be: its level, or both while it is not known. -/
def QuadLv.may (q : QuadLv) (i : Nat) : List Bool := if bit q.unk i then [false, true] else [bit q.v i]

/-- A cluster input of a quad: a level from outside the quad, or one of its own outputs. -/
inductive CinSrc where
  | lv (b : Bool)
  | out (i : Nat)

/-- What the source a unit-input select field names may be: code 0 quiet, 1 to 64 the cluster's unit outputs, 65 to 112 the
cluster inputs; a reserved code drives quiet (R71, R73). -/
def selMay (q : QuadLv) (cin : List ((Nat × Nat) × CinSrc)) (cl code : Nat) : List Bool :=
  if code = 0 then [false]
  else if code ≤ 64 then q.may (64 * cl + (code - 1))
  else if code ≤ 112 then
    match cin.find? (fun c => c.1 == (cl, code - 65)) with
    | some (_, .lv b) => [b]
    | some (_, .out i) => q.may i
    | none => [false]
  else [false]

/-- The numbers the first `n` routed inputs may spell, I0 lowest. -/
def lutMay (q : QuadLv) (cin : List ((Nat × Nat) × CinSrc)) (cl : Nat) (sel : List Nat) (n : Nat) : List Nat :=
  (List.range n).foldl (fun l i => l.flatMap (fun v => (selMay q cin cl (nth 0 sel i)).map (fun b => v + b2n b * 2 ^ i))) [0]

/-- Function outputs of a unit for S0 and S1, and its chain output (Table 03-2, Table 03-3), from the look-up table
index and the chain input. -/
def unitOut (u : UnitCfg) (ix : Nat) (ci : Bool) : Bool × Bool × Bool :=
  let f5a := bit u.tt (ix % 32)
  let f5b := bit u.tt (32 + ix % 32)
  let co := match u.chain with
    | .off => false
    | .carry => f5b || (f5a && ci)
    | .and => f5a && ci
    | .or => f5a || ci
  match u.arr with
  | .l6 => (bit u.tt ix, co, co)
  | .l5x2 => (f5a, f5b, co)
  | .arith => (xor f5a ci, co, co)

/-- The one level of a list that holds no other. -/
def sole : List Bool → Option Bool
  | [] => none
  | b :: r => if r.all (fun x => x == b) then some b else none

/-- Has a unit's chain output, or its Q0 in ARITH, to do with its chain input (Table 03-2, Table 03-3). -/
def UnitCfg.usesChain (u : UnitCfg) : Bool := u.arr == .arith || u.chain != .off

/-- One pass over the 64 units of a quad, in chain order: the function outputs of each unit, where they are known, from
the levels before the pass.  An output of a static unit, or of the chain, is known once every input of its unit is: what
stands in a loop of static units is never known, whatever masks it (R54).  A stage's register takes a bit that comes out
one way for everything its inputs may be. -/
def quadPass (units : List UnitCfg) (q : QuadLv) (cin : List ((Nat × Nat) × CinSrc)) (base : Nat) :
    Nat → List Bool → List (Option Bool × Option Bool)
  | 0, _ => []
  | n + 1, ci =>
    let k := 63 - n
    match units.find? (fun u => u.unit == base + k) with
    | none => (some false, some false) :: quadPass units q cin base n [false]
    | some u =>
      let c := match u.chainIn with
        | .link => ci
        | .zero => [false]
        | .one => [true]
        | .routed i => selMay q cin (k / 16) (nth 0 u.sel i)
      let ixs := lutMay q cin (k / 16) u.sel (if u.arr = .l6 then 6 else 5)
      let o := ixs.flatMap (fun ix => c.map (fun b => unitOut u ix b))
      let seen := ixs.length == 1 && (c.length == 1 || !u.usesChain)
      let out := if seen || u.role != .none then (sole (o.map (fun x => x.1)), sole (o.map (fun x => x.2.1))) else (none, none)
      out :: quadPass units q cin base n (if seen then (o.map (fun x => x.2.2)).eraseDups else [false, true])

/-- Does the unit after place `k` of a quad take its chain input from the link, so that the unit at `k` is not the last of
its chain (R49). -/
def chainGoesOn (units : List UnitCfg) (base k : Nat) : Bool :=
  k < 63 && match units.find? (fun u => u.unit == base + k + 1) with
  | some u => u.chainIn == .link && (u.chain != .off || u.arr == .arith)
  | none => false

/-- Is an output routed to S1 of the unit at place `k` (Table 03-2): in ARITH only at the last unit of a chain; in L6 the
image leaves S1 unused, which then captures nothing (DEDUCED from R50, log entry 130). -/
def s1Routed (units : List UnitCfg) (base k : Nat) : Bool :=
  match units.find? (fun u => u.unit == base + k) with
  | some u =>
    match u.arr with
    | .l6 => u.s1
    | .l5x2 => true
    | .arith => !chainGoesOn units base k
  | none => false

/-- An output of a quad becomes known. -/
def QuadLv.learn (q : QuadLv) (i : Nat) (o : Option Bool) : QuadLv :=
  match o with
  | some b => ⟨putBit q.v i b, putBit q.unk i false⟩
  | none => q

/-- The outputs of a quad with what a pass found of Q0 and Q1 of its static units (R50, R54). -/
def staticOuts (units : List UnitCfg) (base : Nat) (q : QuadLv) (outs : List (Option Bool × Option Bool)) : QuadLv :=
  (List.range 64).foldl (fun q k =>
    match units.find? (fun u => u.unit == base + k) with
    | some u =>
      if u.role = .none then
        let o := nth (none, none) outs k
        let q := q.learn (4 * k) o.1
        if s1Routed units base k then q.learn (4 * k + 1) o.2 else q
      else q
    | none => q) q

/-- Let the static units settle from nothing known of them: at most 8 look-up table levels feed a stage (R53), so ten
passes find every output of logic the spec allows.  What stands in or behind a loop of static units is never found (R54). -/
def settle (units : List UnitCfg) (cin : List ((Nat × Nat) × CinSrc)) (base : Nat) : Nat → QuadLv → QuadLv
  | 0, q => q
  | n + 1, q => settle units cin base n (staticOuts units base q (quadPass units q cin base 64 [false]))

/-- The unit outputs of the quad of unit `u` in region `rg` before its static logic settles. -/
def DieSt.quadLv (d : DieSt) (lv rg u : Nat) : QuadLv :=
  (List.range 64).foldl (fun q k =>
    let n := u / 64 * 64 + k
    let g := d.sigAt lv rg
    match (d.design rg).unit n with
    | none => q
    | some c =>
      if c.role = .none then ⟨q.v, q.unk + (1 + 2 * b2n (s1Routed (d.design rg).units (u / 64 * 64) k)) * 16 ^ k⟩
      else ⟨q.v + (b2n (g (.q n false)) + 2 * b2n (g (.q n true)) + 4 * b2n (g (.req n)) + 8 * b2n (g (.ack n))) * 16 ^ k, q.unk⟩)
    ⟨0, 0⟩

/-- The cluster inputs of the quad of unit `u`: a wire from a unit of the same quad follows it; any other has the level of
its registered source (R53, R59, R71). -/
def DieSt.quadCins (d : DieSt) (e : FabEnv) (rg u : Nat) : List ((Nat × Nat) × CinSrc) :=
  ((d.design rg).cins.filter (fun c => c.1 / 4 == u / 64)).map (fun c =>
    let l := c.2.2
    let out := match d.follow rg maxTracks l with
      | some ⟨r, .q n s1, _, _, _⟩ => if r = d.homeOf rg && n / 64 == u / 64 then some (4 * (n % 64) + b2n s1) else none
      | _ => none
    ((c.1 % 4, c.2.1), match out with | some i => CinSrc.out i | none => .lv (d.level e rg l)))

/-- The outputs of the quad of unit `u` once its static logic has settled. -/
def DieSt.quadOuts (d : DieSt) (e : FabEnv) (rg u : Nat) : List (Option Bool × Option Bool) :=
  let units := (d.design rg).units
  let base := u / 64 * 64
  let cin := d.quadCins e rg u
  quadPass units (settle units cin base 10 (d.quadLv e.lv rg u)) cin base 64 [false]

/-- What the units of the quads of `ms` give, by quad. -/
def DieSt.outsOf (d : DieSt) (e : FabEnv) (rg : Nat) (ms : List Nat) : List (Nat × List (Option Bool × Option Bool)) :=
  (ms.map (fun m => m / 64)).eraseDups.map (fun q => (q, d.quadOuts e rg (64 * q)))

/-- What unit `m` gives. -/
def outAt (outs : List (Nat × List (Option Bool × Option Bool))) (m : Nat) : Option Bool × Option Bool :=
  nth (none, none) ((outs.find? (fun o => o.1 == m / 64)).elim [] (fun o => o.2)) (m % 64)

/-- S0 of the units `ms`, and S1 of those of `s1`, capture the outputs that Table 03-2 routes to them (R50).  A bit that hangs
on a loop of static units has no defined value (R54) and is free. -/
def DieSt.captureUnits (d : DieSt) (rg : Nat) (ms s1 : List Nat) (e : FabEnv) : DieSt :=
  let outs := d.outsOf e rg ms
  let fz := Config.freeNat d.free
  let known := ms.all (fun m => (outAt outs m).1.isSome && ((outAt outs m).2.isSome || !s1.contains m))
  let d := if known then d else { d with free := d.free + 1 }
  ms.foldl (fun (d : DieSt) m =>
    let o := outAt outs m
    let n := 1024 * rg + m
    let regs := d.fab.regs.set (fun _ => false) (2 * n) (o.1.getD (bit fz (2 * m)))
    { d with fab := { d.fab with
        regs := if s1.contains m then regs.set (fun _ => false) (2 * n + 1) (o.2.getD (bit fz (2 * m + 1))) else regs } }) d

/-- Capture the registers of a stage (R60): S1 of a unit to which no output is routed keeps its value. -/
def DieSt.capture (d : DieSt) (rg : Nat) (st : StageCfg) (e : FabEnv) : DieSt :=
  let ms := (d.design rg).members st.leader
  d.captureUnits rg ms (ms.filter (fun m => s1Routed (d.design rg).units (m / 64 * 64) (m % 64))) e

/-! ### The four-phase handshake (R58 to R65) -/

/-- The request gates of a region are open (R64). -/
def DieSt.gateOpen (d : DieSt) (rg : Nat) : Bool := d.fab.gate.get (fun _ => false) rg

/-! ### What a pace monitor counts (R123) -/

/-- The monitors on the channel whose sending stage is that of unit `u` of region `rg`. -/
def DieSt.monsOf (d : DieSt) (rg u : Nat) : List Nat :=
  (List.range 16).filter (fun i => d.on (F.PACE_MON_TGT_EN i) && d.pace.monRegion.get (fun _ => none) i == some rg
    && d.pace.monUnit.get (fun _ => 0) i == u)

/-- A token has passed on the channel of unit `u`: its monitors count it. -/
def DieSt.tokenPassed (d : DieSt) (rg u : Nat) : DieSt :=
  { d with pace := { d.pace with
      count := (d.monsOf rg u).foldl (fun t i => t.upd (fun _ => (0, 0)) i (fun c => (c.1 + 1, c.2))) d.pace.count } }

/-- The stage of unit `u` holds a token. -/
def DieSt.stageFull (d : DieSt) (rg u : Nat) : Bool :=
  match (d.design rg).role u with
  | .leader => (d.stage (1024 * rg + u)).full
  | .railT k _ => (d.rail (1024 * rg + k)).full || (d.rail (1024 * rg + k)).req
  | _ => false

/-- The stage that drives an acknowledge is full; where no stage drives it (a merge element, an island, the bridge), it is
full while the acknowledge is low (DESIGN CHOICE, log entry 132). -/
def DieSt.takerFull (d : DieSt) (rg : Nat) (l : Link) : Bool :=
  match d.follow rg maxTracks l with
  | none => true
  | some o =>
    let r := d.nowAt o.region
    let o := if o.region = d.homeOf rg then o else (d.follow r maxTracks o).getD o
    match o.sig with
    | .ack u => d.stageFull r u
    | s => !d.sigAt 0 r s

/-- The sending stage of unit `u` is empty, or its request is high while the receiving stage is full (R123). -/
def DieSt.stalled (d : DieSt) (rg u : Nat) : Bool :=
  !d.stageFull rg u ||
  match d.stageCfg rg u, d.railCfg rg u with
  | some c, _ => (d.stage (1024 * rg + u)).req && (d.inLink rg u c.ackSel).elim true (d.takerFull rg)
  | _, some c => ((d.rail (1024 * rg + u)).drive || (d.rail (1024 * rg + u)).req) && (d.inLink rg u c.ackSel).elim true (d.takerFull rg)
  | _, _ => false

/-- One nanosecond passes: each monitor whose channel stalls counts it. -/
def DieSt.monTick (d : DieSt) : DieSt :=
  let on := (List.range 16).filter (fun i => d.on (F.PACE_MON_TGT_EN i)
    && (d.pace.monRegion.get (fun _ => none) i).any (fun rg => d.stalled rg (d.pace.monUnit.get (fun _ => 0) i)))
  { d with pace := { d.pace with count := on.foldl (fun t i => t.upd (fun _ => (0, 0)) i (fun c => (c.1, c.2 + 1))) d.pace.count } }

/-! ### The stages -/

/-- R60, capture. -/
def DieSt.stageCapture (d : DieSt) (rg u : Nat) (e : FabEnv) : DieSt :=
  match d.stageCfg rg u with
  | none => d
  | some st =>
    let k := 1024 * rg + u
    let s := d.stage k
    if d.regionOn rg && d.levelIn e rg u st.reqSel && !s.ackIn && !s.full then
      (d.capture rg st e).setStage k { s with full := true, ackIn := true }
    else d

/-- R60, the end of the matched delay; the request gate of R64 holds the request low while it is closed. -/
def DieSt.delayEnd (d : DieSt) (rg u : Nat) (e : FabEnv) : DieSt :=
  match d.stageCfg rg u with
  | none => d
  | some st =>
    let k := 1024 * rg + u
    let s := d.stage k
    if d.regionOn rg && d.gateOpen rg && s.full && !s.req && !d.levelIn e rg u st.ackSel then
      d.setStage k { s with req := true, runs := false }
    else d

/-- R60, hand-over. -/
def DieSt.handover (d : DieSt) (rg u : Nat) (e : FabEnv) : DieSt :=
  match d.stageCfg rg u with
  | none => d
  | some st =>
    let k := 1024 * rg + u
    let s := d.stage k
    if d.regionOn rg && s.req && d.levelIn e rg u st.ackSel then
      (d.tokenPassed rg u).setStage k { s with full := false, req := false }
    else d

/-- R60, phase 4 on the input. -/
def DieSt.inputWithdraw (d : DieSt) (rg u : Nat) (e : FabEnv) : DieSt :=
  match d.stageCfg rg u with
  | none => d
  | some st =>
    let k := 1024 * rg + u
    let s := d.stage k
    if d.regionOn rg && s.ackIn && !d.levelIn e rg u st.reqSel then
      d.setStage k { s with ackIn := false }
    else d

/-! ### Dual-rail (R55 to R58) -/

/-- Every bit shows 0 or 1. -/
def railsComplete (n t f : Nat) : Bool := (List.range n).all (fun i => xor (bit t i) (bit f i))

/-- Every bit is null. -/
def railsNull (n t f : Nat) : Bool := (List.range n).all (fun i => !bit t i && !bit f i)

/-- The lowest-numbered bit that shows 1 on both rails: R56 raises one event a stage and names no bit where several are
illegal at once (DESIGN CHOICE, log entry 131). -/
def railsIllegal (n t f : Nat) : Option Nat := (List.range n).find? (fun i => bit t i && bit f i)

/-- A reported bit that shows a legal value again may be reported anew (R56). -/
def RailSt.seen (s : RailSt) (t f : Nat) : RailSt :=
  match s.illegal with
  | some i => if bit t i && bit f i then s else { s with illegal := none }
  | none => s

/-- The levels of wires, the first lowest. -/
def DieSt.levels (d : DieSt) (e : FabEnv) (rg : Nat) (l : List Link) : Nat :=
  (List.range l.length).foldl (fun v i => v + b2n ((l[i]?).elim false (d.level e rg)) * 2 ^ i) 0

/-- The T rails of a dual-rail stage's input word. -/
def DieSt.railT (d : DieSt) (e : FabEnv) (rg : Nat) (c : RailCfg) : Nat := d.levels e rg c.inT

/-- The F rails of a dual-rail stage's input word. -/
def DieSt.railF (d : DieSt) (e : FabEnv) (rg : Nat) (c : RailCfg) : Nat := d.levels e rg c.inF

/-- S0 of a dual-rail stage's units captures what their look-up tables give (R50). -/
def DieSt.railWord (d : DieSt) (rg k : Nat) (e : FabEnv) : DieSt :=
  let ds := d.design rg
  d.captureUnits rg ((ds.rails' k false ++ ds.rails' k true).map (fun x => x.2)) [] e

/-- S1 of a dual-rail stage's units takes the completion state (R51). -/
def DieSt.railDone (d : DieSt) (rg k : Nat) (b : Bool) : DieSt :=
  let ds := d.design rg
  { d with fab := { d.fab with
    regs := (ds.rails' k false ++ ds.rails' k true).foldl (fun r x => r.set (fun _ => false) (2 * (1024 * rg + x.2) + 1) b) d.fab.regs } }

/-- The output channel of a dual-rail stage (R55, R58): its word is offered on an idle channel, once the gates are open
(R64), and withdrawn to null when the stage ahead has acknowledged it.  A decoder's initial token is a bundled one: its request
rises and falls as a leader's (R64). -/
def DieSt.railOut (d : DieSt) (e : FabEnv) (rg : Nat) (c : RailCfg) (s : RailSt) : RailSt :=
  let a := d.levelIn e rg c.key c.ackSel
  if c.decoder then
    if !s.full then s
    else if s.req then (if a then { s with req := false, full := false } else s)
    else if d.gateOpen rg && !a then { s with req := true }
    else s
  else if s.drive then (if a then { s with drive := false, full := false } else s)
  else if s.full && d.gateOpen rg && !a then { s with drive := true }
  else s

/-- A dual-rail stage's new state; its monitors count a token the stage ahead has taken. -/
def DieSt.railPut (d : DieSt) (c : RailCfg) (rg : Nat) (s : RailSt) : DieSt :=
  let old := d.rail (1024 * rg + c.key)
  (if (old.full && !s.full) || (c.decoder && !old.full && !old.ack && s.ack) then d.tokenPassed rg c.key else d).setRail (1024 * rg + c.key) s

/-- R55: a complete word is captured and acknowledged.  A decoder (R57) first raises its bundled request, and raises the
dual-rail acknowledge when the bundled acknowledge has risen. -/
def DieSt.railCapture (d : DieSt) (rg k : Nat) (e : FabEnv) : DieSt :=
  match d.railCfg rg k with
  | none => d
  | some c =>
    let key := 1024 * rg + k
    let t := d.railT e rg c
    let f := d.railF e rg c
    let s := (d.rail key).seen t f
    let a := d.levelIn e rg c.key c.ackSel
    if d.regionOn rg && railsComplete c.inT.length t f && !s.ack then
      if s.full then d.railPut c rg (d.railOut e rg c s)
      else if c.decoder then
        if s.req then d.railPut c rg { s with ack := a }
        else if d.gateOpen rg && !a then ((d.railWord rg k e).railDone rg k true).railPut c rg { s with req := true }
        else d.railPut c rg s
      else ((d.railWord rg k e).railDone rg k true).railPut c rg (d.railOut e rg c { s with ack := true, full := true })
    else d.railPut c rg (if d.regionOn rg then d.railOut e rg c s else s)

/-- R55: a captured word that has returned to null lowers the acknowledge. -/
def DieSt.railNull (d : DieSt) (rg k : Nat) (e : FabEnv) : DieSt :=
  match d.railCfg rg k with
  | none => d
  | some c =>
    let key := 1024 * rg + k
    let t := d.railT e rg c
    let f := d.railF e rg c
    let s := (d.rail key).seen t f
    if d.regionOn rg && railsNull c.inT.length t f && s.ack then
      (d.railDone rg k false).railPut c rg (d.railOut e rg c { s with ack := false, req := false })
    else d.railPut c rg (if d.regionOn rg then d.railOut e rg c s else s)

/-- R56: a bit with both rails at 1 stalls the stage; the region reports it once.  `ut` and `uf` are the rails a
disturbance inverts. -/
def DieSt.railIllegal (d : DieSt) (rg k ut uf : Nat) (e : FabEnv) : DieSt :=
  match d.railCfg rg k with
  | none => d
  | some c =>
    let key := 1024 * rg + k
    let t := Nat.xor (d.railT e rg c) ut
    let f := Nat.xor (d.railF e rg c) uf
    let s := (d.rail key).seen t f
    match railsIllegal c.inT.length t f with
    | none => d.setRail key s
    | some i =>
      if d.regionOn rg && s.illegal.isNone then
        let u := (((d.design rg).rails' k false).find? (fun x => x.1 == i)).elim k (fun x => x.2)
        ((d.finding rg).setRail key { s with illegal := some i }).raise rg 0x0301 (u / 16 % 64 * 2 ^ 18 + u % 16 * 2 ^ 14)
      else d.setRail key s

/-! ### Merges and arbiters (R67 to R69) -/

/-- R67: a Muller C-element. -/
def DieSt.mergeChange (d : DieSt) (rg k : Nat) (e : FabEnv) : DieSt :=
  match (d.design rg).merges[k]? with
  | none => d
  | some ins =>
    let key := 544 * rg + k
    let put := fun b => { d with fab := { d.fab with merges := d.fab.merges.set (fun _ => false) key b } }
    if !d.regionOn rg || ins.isEmpty then d
    else if ins.all (fun l => d.level e rg l) then put true
    else if ins.all (fun l => !d.level e rg l) then put false
    else d

/-- R69: a grant stays until its request falls; of two requests exactly one is granted, and which is open. -/
def DieSt.arbiterGrant (d : DieSt) (rg k : Nat) (e : FabEnv) : DieSt :=
  match (d.design rg).arbs[k]? with
  | none => d
  | some (l0, l1) =>
    let key := 128 * rg + k
    let r0 := d.level e rg l0
    let r1 := d.level e rg l1
    let put := fun (d : DieSt) (g : Option Bool) => { d with fab := { d.fab with arbs := d.fab.arbs.set (fun _ => none) key g } }
    let held := match d.fab.arbs.get (fun _ => none) key with
      | some false => r0
      | some true => r1
      | none => false
    if !d.regionOn rg || held then d
    else if r0 && r1 then put d.choose.2 (some d.choose.1)
    else if r0 then put d (some false)
    else if r1 then put d (some true)
    else put d none

/-! ### Matched delays (R62) -/

/-- A leader's present matched delay, in taps. -/
def DieSt.delayOf (d : DieSt) (k : Nat) : Nat := d.fab.delay.get (fun _ => 0) k

/-- R62: a change waits for an idle channel with no token on the delay line; met by a rise of request, one of the two wins
and which is open.  The token that then starts down the delay line runs on one setting in full: until its request has risen no
further change is made.  Behind a closed gate no request rises, and none is on the delay line (R64). -/
def DieSt.delayApply (d : DieSt) (rg u : Nat) (e : FabEnv) (meets : Bool) : DieSt :=
  match d.stageCfg rg u, d.fab.delayNext.get (fun _ => none) (1024 * rg + u) with
  | some st, some v =>
    let k := 1024 * rg + u
    let s := d.stage k
    let rises := s.full && d.gateOpen rg
    let run := fun (d : DieSt) => d.setStage k { s with runs := rises }
    let go := fun (d : DieSt) => { d with fab := { d.fab with
      delay := d.fab.delay.set (fun _ => 0) k v, delayNext := d.fab.delayNext.set (fun _ => none) k none } }
    if d.regionOn rg && !s.req && !d.levelIn e rg u st.ackSel && !(s.runs && rises) then
      if rises && meets then (if d.choose.1 then go (run d.choose.2) else run d.choose.2)
      else if rises then run d
      else go (run d)
    else d
  | _, _ => d

/-! ### Region reset (R63, R65) -/

/-- Put every register, stage, channel, merge element and arbiter of a region back: each stage holds its initial token or is
empty, each register its reset value (S1 of a rail unit 0), each channel is idle. -/
def DieSt.fabricReset (d : DieSt) (rg : Nat) : DieSt :=
  let ds := d.design rg
  let fb := d.fab
  let inRg := fun n k => decide (k / n ≠ rg)
  let rail := fun (r : Role) => match r with
    | .railT _ _ | .railF _ _ => true
    | _ => false
  let regs := ds.units.foldl (fun (t : Tab Bool) u =>
    (t.set (fun _ => false) (2 * (1024 * rg + u.unit)) u.rst0).set (fun _ => false) (2 * (1024 * rg + u.unit) + 1) (u.rst1 && !rail u.role))
    (fb.regs.keep (inRg 2048))
  let stages := ds.stages.foldl (fun (t : Tab StageSt) s =>
    t.set (fun _ => StageSt.reset) (1024 * rg + s.leader) { StageSt.reset with full := s.init }) (fb.stages.keep (inRg 1024))
  let rails := ds.rails.foldl (fun (t : Tab RailSt) s =>
    t.set (fun _ => RailSt.reset) (1024 * rg + s.key) { RailSt.reset with full := s.init }) (fb.rails.keep (inRg 1024))
  { d with fab := { fb with
      regs := regs, stages := stages, rails := rails,
      merges := fb.merges.keep (inRg 544), arbs := fb.arbs.keep (inRg 128) } }

/-! ### The commands -/

/-- The fabric's surroundings as a command on die `x` finds them. -/
def State.fabEnv (s : State) (x : Die) (env : Nat) : FabEnv :=
  ⟨env, some (match x with | .die0 => s.d1 | .die1 => s.d0)⟩

/-- STAGE_CAPTURE (R60). -/
def execStageCapture (x : Die) (rg u env : Nat) (s : State) : Out :=
  act x s (fun d => d.stageCapture rg u (s.fabEnv x env))

/-- MATCHED_DELAY_END (R60). -/
def execMatchedDelayEnd (x : Die) (rg u env : Nat) (s : State) : Out :=
  act x s (fun d => d.delayEnd rg u (s.fabEnv x env))

/-- STAGE_HANDOVER (R60). -/
def execStageHandover (x : Die) (rg u env : Nat) (s : State) : Out :=
  act x s (fun d => d.handover rg u (s.fabEnv x env))

/-- INPUT_WITHDRAW (R60). -/
def execInputWithdraw (x : Die) (rg u env : Nat) (s : State) : Out :=
  act x s (fun d => d.inputWithdraw rg u (s.fabEnv x env))

/-- DUAL_RAIL_CAPTURE (R55). -/
def execDualRailCapture (x : Die) (rg k env : Nat) (s : State) : Out :=
  act x s (fun d => d.railCapture rg k (s.fabEnv x env))

/-- DUAL_RAIL_NULL (R55). -/
def execDualRailNull (x : Die) (rg k env : Nat) (s : State) : Out :=
  act x s (fun d => d.railNull rg k (s.fabEnv x env))

/-- DR_ILLEGAL (R56). -/
def execDrIllegal (x : Die) (rg k ut uf env : Nat) (s : State) : Out :=
  act x s (fun d => d.railIllegal rg k ut uf (s.fabEnv x env))

/-- MERGE_ELEMENT_CHANGE (R67). -/
def execMergeElementChange (x : Die) (rg k env : Nat) (s : State) : Out :=
  act x s (fun d => d.mergeChange rg k (s.fabEnv x env))

/-- ARBITER_GRANT (R69). -/
def execArbiterGrant (x : Die) (rg k env : Nat) (s : State) : Out :=
  act x s (fun d => d.arbiterGrant rg k (s.fabEnv x env))

end Sys2Proof.Machine
end

