-- ==== Sys2Proof/Machine/Region.lean ====
section
/-! DEFINITION. Block memories, the isolation ring's freeze, row-level frames and the RGN counters (R82 to R96, R113
to R115). -/

namespace Sys2Proof.Machine

/-! ### Error correction shared by the check-bit-protected memories -/

/-- How many bits of `n` below `w` are 1. -/
def popcount : Nat → Nat → Nat
  | 0, _ => 0
  | w + 1, n => n % 2 + popcount w (n / 2)

/-- What the check bits of a word say of its flipped bits: 0 good, 1 a single-bit error, 2 uncorrectable (R84). -/
def eccClass (w flip : Nat) : Nat := min 2 (popcount w flip)

/-- The flipped bits of a word after further bits `upset` have flipped. -/
def eccFlip (w flip upset : Nat) : Nat := Nat.xor flip upset % 2 ^ w

/-! ### Block memories (R83 to R88) -/

/-- The key of a physical word. -/
def bmKey (rg m w : Nat) : Nat := (4 * rg + m) * 512 + w

/-- The data written to a physical word. -/
def DieSt.bmWord (d : DieSt) (k : Nat) : Word64 := d.fab.bm.get (fun _ => 0) k

/-- The flipped code bits of a physical word (data in bits 63 to 0, check bits above). -/
def DieSt.bmFlips (d : DieSt) (k : Nat) : Nat := d.fab.bmFlip.get (fun _ => 0) k

/-- Store a physical word with valid check bits. -/
def DieSt.bmStore (d : DieSt) (k : Nat) (v : Word64) : DieSt :=
  { d with fab := { d.fab with bm := d.fab.bm.set (fun _ => 0) k v, bmFlip := d.fab.bmFlip.set (fun _ => 0) k 0 } }

/-- Record the flipped bits of a physical word. -/
def DieSt.bmSetFlips (d : DieSt) (k n : Nat) : DieSt :=
  { d with fab := { d.fab with bmFlip := d.fab.bmFlip.set (fun _ => 0) k n } }

/-- The stored data bits as they stand, flipped ones included. -/
def DieSt.bmRaw (d : DieSt) (k : Nat) : Word64 := d.bmWord k ^^^ BitVec.ofNat 64 (d.bmFlips k)

/-- Give a port its response token. -/
def DieSt.bmReply (d : DieSt) (rg m p : Nat) (v : Word64) (err : Bool) : DieSt :=
  { d with fab := { d.fab with bmResp := d.fab.bmResp.set (fun _ => BmResp.reset) (8 * rg + 2 * m + p) ⟨v, err⟩ } }

/-- The width of a port: 64, 32, 16 or 8 bits (Table 04-4). -/
def DieSt.bmWidth (d : DieSt) (rg m p : Nat) : Nat :=
  match bits (d.rd (R.RGN_BM_MODE rg)).toNat (4 * m + 2 * p + 1) (4 * m + 2 * p) with
  | 0 => 64
  | 1 => 32
  | 2 => 16
  | _ => 8

/-- Data bits of a block memory event (Table 04-10). -/
def bmEvData (m src : Nat) (wr : Bool) (w : Nat) : Nat := m * 2 ^ 22 + src * 2 ^ 20 + b2n wr * 2 ^ 19 + w

/-- A single-bit error was corrected: count it and raise BM_CORR if enabled (R85, R88). -/
def DieSt.bmCorr (d : DieSt) (rg m src : Nat) (wr : Bool) (w : Nat) : DieSt :=
  (d.bump (F.RGN_BM_CNT_CORR rg)).raiseIf (d.on (F.RGN_EVT_EN_CORR rg)) rg 0x0401 (bmEvData m src wr w)

/-- An uncorrectable error: count it, latch it unless one is latched, raise BM_UNCORR unless disabled (R85, R86). -/
def DieSt.bmUncorr (d : DieSt) (rg m src : Nat) (wr : Bool) (w : Nat) : DieSt :=
  let d := (d.finding rg).bump (F.RGN_BM_CNT_UNCORR rg)
  let d := if d.on (F.RGN_BM_ERR_VALID rg) then d
    else ((((d.put (F.RGN_BM_ERR_VALID rg) 1).put (F.RGN_BM_ERR_SOURCE rg) src).put (F.RGN_BM_ERR_WR rg) (b2n wr)).put
      (F.RGN_BM_ERR_MEM rg) m).put (F.RGN_BM_ERR_WORD rg) w
  d.raiseIf (d.on (F.RGN_EVT_EN_UNCORR rg)) rg 0x0402 (bmEvData m src wr w)

/-- A port of a running region may be accessed. -/
def DieSt.bmUp (d : DieSt) (rg m p : Nat) : Bool :=
  d.regionOn rg && d.rgState rg == rgRunning && decide (m < 4) && decide (p < 2)

/-- R85: a port read of the word at `a` in the port's width. -/
def DieSt.bmRead (d : DieSt) (rg m p a upset : Nat) : DieSt :=
  let wd := d.bmWidth rg m p
  let w := a * wd / 64 % 512
  let k := bmKey rg m w
  let fl := eccFlip 72 (d.bmFlips k) upset
  let d := d.bmSetFlips k fl
  let cut := fun (v : Word64) => BitVec.ofNat 64 (v.toNat >>> (wd * (a % (64 / wd))) % 2 ^ wd)
  match eccClass 72 fl with
  | 0 => d.bmReply rg m p (cut (d.bmWord k)) false
  | 1 => (d.bmReply rg m p (cut (d.bmWord k)) false).bmCorr rg m p false w
  | _ => (d.bmReply rg m p (cut (d.bmRaw k)) true).bmUncorr rg m p false w

/-- The response token of a write: its ERR bit; the data it carries the spec leaves open (a free value, log entry 170). -/
def DieSt.bmWrote (d : DieSt) (rg m p : Nat) (err : Bool) : DieSt :=
  ({ d with free := d.free + 1 } : DieSt).bmReply rg m p (BitVec.ofNat 64 (Config.freeNat d.free)) err

/-- R84, R86: a W64 write is always applied and clears any error. -/
def DieSt.bmWrite64 (d : DieSt) (rg m p a : Nat) (v : Word64) : DieSt :=
  (d.bmStore (bmKey rg m (a % 512)) v).bmWrote rg m p false

/-- Put the low `wd` bits of `v` at bit offset `o` of `w`. -/
def mergeBits (w : Word64) (o wd : Nat) (v : Word64) : Word64 :=
  BitVec.ofNat 64 (w.toNat - w.toNat >>> o % 2 ^ wd * 2 ^ o + v.toNat % 2 ^ wd * 2 ^ o)

/-- R84, R86: a narrower write is one read-modify-write; it is not applied to an uncorrectable word. -/
def DieSt.bmWriteNarrow (d : DieSt) (rg m p a : Nat) (v : Word64) (upset : Nat) : DieSt :=
  let wd := d.bmWidth rg m p
  let w := a * wd / 64 % 512
  let k := bmKey rg m w
  let fl := eccFlip 72 (d.bmFlips k) upset
  let d := d.bmSetFlips k fl
  let nv := mergeBits (d.bmWord k) (wd * (a % (64 / wd))) wd v
  match eccClass 72 fl with
  | 0 => (d.bmStore k nv).bmWrote rg m p false
  | 1 => ((d.bmStore k nv).bmWrote rg m p false).bmCorr rg m p true w
  | _ => (d.bmWrote rg m p true).bmUncorr rg m p true w

/-- R88: the scrubber's next word; it runs only in a RUNNING region whose ring is neither FREEZING nor FROZEN. -/
def DieSt.bmScrub (d : DieSt) (rg m upset : Nat) : DieSt :=
  let sk := 4 * rg + m
  let w := d.fab.bmScrub.get (fun _ => 0) sk % 512
  let k := bmKey rg m w
  let fl := eccFlip 72 (d.bmFlips k) upset
  if d.bmUp rg m 0 && d.ringState rg < 2 then
    let d := { d with fab := { d.fab with bmScrub := d.fab.bmScrub.set (fun _ => 0) sk ((w + 1) % 512) } }
    let d := d.bmSetFlips k fl
    match eccClass 72 fl with
    | 0 => d
    | 1 => (d.bmSetFlips k 0).bmCorr rg m 2 false w
    | _ => d.bmUncorr rg m 2 false w
  else d

/-! ### Row-level frames (R82) -/

/-- Flip bits of one copy. -/
def Tmr.flip (t : Tmr) (copy mask : Nat) : Tmr :=
  match copy with
  | 0 => { t with a := Nat.xor t.a mask }
  | 1 => { t with b := Nat.xor t.b mask }
  | _ => { t with c := Nat.xor t.c mask }

/-- The upsets of a row's frames since its last vote. -/
def flipRow (row : Nat) (t : Tab Tmr) (u : List (Nat × Nat × Nat)) : Tab Tmr :=
  (u.filter (fun e => decide (e.1 < 1024))).foldl (fun t e => t.upd (fun _ => Tmr.reset) (1024 * row + e.1) (fun v => v.flip e.2.1 e.2.2)) t

/-- The upsets of a row's isolation cells: they are voted on every use and not rewritten (R90). -/
def flipCells (row : Nat) (t : Tab Tmr) (u : List (Nat × Nat × Nat)) : Tab Tmr :=
  (u.filter (fun e => decide (1024 ≤ e.1))).foldl (fun t e =>
    t.upd (fun _ => Tmr.reset) (1536 * (44 * row) + (e.1 - 1024) % 67584) (fun v => v.flip e.2.1 e.2.2)) t

/-- Rewrite every frame of a row with its majority (R82). -/
def voteRow (row : Nat) (t : Tab Tmr) : Tab Tmr :=
  ((t.cells.filter (fun c => c.1 / 1024 == row)).map (fun c => c.1)).foldl (fun (t : Tab Tmr) k =>
    t.upd (fun _ => Tmr.reset) k (fun v => ⟨vote v, vote v, vote v⟩)) t

/-- R82: every frame of the row is voted and rewritten. -/
def DieSt.rowVote (d : DieSt) (row : Nat) (u : List (Nat × Nat × Nat)) : DieSt :=
  if row < d.idn.rows && (d.domOn (2 * row) || d.domOn (2 * row + 1)) then
    { d with fab := { d.fab with rowFrames := voteRow row (flipRow row d.fab.rowFrames u), iso := flipCells row d.fab.iso u } }
  else d

/-! ### The isolation ring (R91 to R96) -/

/-- Set a region's ring state. -/
def DieSt.setRing (d : DieSt) (rg v : Nat) : DieSt := d.put (F.RGN_STAT_RING rg) v

/-- Is every channel of the ring frozen. -/
def DieSt.allFrozen (d : DieSt) (rg : Nat) : Bool :=
  (List.range (d.design rg).ring.length).all (fun ch => (d.ringCh rg ch).frozen)

/-- The ring is FROZEN once every channel has frozen. -/
def DieSt.ringDone (d : DieSt) (rg : Nat) : DieSt := if d.allFrozen rg then d.setRing rg 3 else d

/-- Freezing begins: no channel of the ring is frozen yet (R91, R93), but one that still completes its phases toward the
outside (R394) keeps driving what it has latched, so its token is not lost. -/
def DieSt.freezeBegin (d : DieSt) (rg : Nat) : DieSt :=
  let fb := d.fab
  ({ d with fab := { fb with
      ring := fb.ring.keep (fun k => decide (k / 1536 ≠ rg) || (fb.ring.get (fun _ => RingSt.reset) k).drain),
      freezeAt := fb.freezeAt.set (fun _ => 0) rg (d.now + 1),
      forcedNow := fb.forcedNow.set (fun _ => false) rg false } }.setRing rg 2).ringDone rg

/-- R394: the outside acknowledge, at this level, reaches a channel that completes its phases. -/
def RingSt.drainTo (s : RingSt) (level : Bool) : RingSt :=
  if level then { s with req := false, ack := true } else if s.req then s else RingSt.reset

/-- A channel at the release of its ring: one that completes its phases (R394) takes the acknowledge held back at it. -/
def RingSt.released (s : RingSt) : RingSt :=
  if !s.drain then RingSt.reset
  else
    let r := { s with held := [] }
    match s.held.getLast? with
    | some h => r.drainTo h.2
    | none => r

/-- The ring returns to PASS: each cell presents the level its far side drives (R94). -/
def DieSt.ringRelease (d : DieSt) (rg : Nat) : DieSt :=
  let old := d.fab.ring.cells.filter (fun (c : Nat × RingSt) => c.1 / 1536 == rg)
  { d with fab := { d.fab with
      ring := old.foldl (fun (t : Tab RingSt) (c : Nat × RingSt) => t.set (fun _ => RingSt.reset) c.1 c.2.released)
        (d.fab.ring.keep (fun k => decide (k / 1536 ≠ rg))) } }.setRing rg 1

/-- The levels on the data wires of a ring channel. -/
def DieSt.chData (d : DieSt) (e : FabEnv) (rg : Nat) (c : RingChan) : Nat := d.levels e rg c.data

/-- Every bit of a dual-rail word on a channel's data wires (T and F of each bit in turn) is 0 or 1, or every bit is null
(R55). -/
def dualSettled (n w : Nat) : Bool :=
  (List.range (n / 2)).all (fun i => xor (bit w (2 * i)) (bit w (2 * i + 1)))
    || (List.range (n / 2)).all (fun i => !bit w (2 * i) && !bit w (2 * i + 1))

/-- The freeze under way is that of a COMMIT, in which a channel counts as settled only when it is idle (R377). -/
def DieSt.commitFreeze (d : DieSt) : Bool := d.f F.SUB_STAT_STEP == 2 && d.f F.SUB_STAT_KIND == 5

/-- Is a channel idle: request and acknowledge low, and a dual-rail word null. -/
def DieSt.chIdle (d : DieSt) (e : FabEnv) (rg : Nat) (c : RingChan) : Bool :=
  !d.level e rg c.req && !d.level e rg c.ack && (!c.dual || d.chData e rg c == 0)

/-- Is a channel settled, as far as its levels say (R93, R377). -/
def DieSt.chSettled (d : DieSt) (e : FabEnv) (rg : Nat) (c : RingChan) : Bool :=
  (!c.dual || dualSettled c.data.length (d.chData e rg c)) && (!d.commitFreeze || d.chIdle e rg c)

/-- A channel freezes with the levels it shows: request, acknowledge and data. -/
def DieSt.chFrozen (d : DieSt) (e : FabEnv) (rg ch : Nat) (c : RingChan) : RingSt :=
  { d.ringCh rg ch with frozen := true, req := d.level e rg c.req, ack := d.level e rg c.ack, data := d.chData e rg c }

/-- R93, R95: a settled channel freezes and latches its levels; a dual-rail channel whose word is neither complete nor null
is not settled.  That levels have held for 4 ns is what the command reports.  Met by a transition, either it passes first
and the channel must settle again, or the channel freezes first; which is open. -/
def DieSt.channelFreeze (d : DieSt) (rg ch : Nat) (e : FabEnv) (meets : Bool) : DieSt :=
  match (d.design rg).ring[ch]? with
  | none => d
  | some c =>
    if d.hasRegion rg && d.ringState rg == 2 && !(d.ringCh rg ch).frozen && d.chSettled e rg c then
      let go := fun (d' : DieSt) => (d'.setRingCh rg ch (d.chFrozen e rg ch c)).ringDone rg
      if meets then (if d.choose.1 then go d.choose.2 else d.choose.2) else go d
    else d

/-- SUB_ERR latches the first error (R412); causes 1 FORCED, 2 NO_BENCH, 3 STORE, 4 COPY. -/
def DieSt.subErr (d : DieSt) (cause home : Nat) : DieSt :=
  if d.on F.SUB_ERR_VALID then d
  else ((d.put F.SUB_ERR_VALID 1).put F.SUB_ERR_CAUSE cause).put F.SUB_ERR_HOME (home % 2048)

/-- A token is dropped at a force-freeze of a region's ring (R96, R395). -/
def DieSt.tokenDropped (d : DieSt) (rg : Nat) : DieSt :=
  let d := (((d.bump (F.RGN_RING_CNT_DROPS rg)).car 44 4 1).bump F.SUB_CNT_DROPS).subErr 1 (d.homeOf rg)
  { d with rel := { d.rel with dropped := d.rel.dropped + 1 } }

/-- The freeze under way counts once as one that ended in a force-freeze (RGN_RING_CNT.FORCED). -/
def DieSt.countForced (d : DieSt) (rg : Nat) : DieSt :=
  if d.fab.forcedNow.get (fun _ => false) rg then d
  else { d.bump (F.RGN_RING_CNT_FORCED rg) with fab := { d.fab with forcedNow := d.fab.forcedNow.set (fun _ => false) rg true } }

/-- R96: 20 µs after FREEZING began, a channel not settled is force-frozen idle (request, acknowledge and data 0), and a
token or partial word in flight on it is dropped and counted. -/
def DieSt.forceFreeze (d : DieSt) (rg ch : Nat) (inFlight : Bool) : DieSt :=
  let s := d.ringCh rg ch
  if d.hasRegion rg && d.ringState rg == 2 && !s.frozen && decide (ch < (d.design rg).ring.length)
      && decide (d.fab.freezeAt.get (fun _ => 0) rg + 20000 ≤ d.now + 1) then
    let d := d.setRingCh rg ch { s with frozen := true, forced := true, req := false, ack := false, data := 0 }
    let d := if inFlight then d.tokenDropped rg else d
    (d.countForced rg).ringDone rg
  else d

/-- The ring channels of a region as they stand, by channel. -/
def DieSt.latchedRing (d : DieSt) (rg : Nat) : List (Nat × RingSt) :=
  (d.fab.ring.cells.filter (fun c => c.1 / 1536 == rg)).map (fun c => (c.1 % 1536, c.2))

/-- A bench ring FROZEN with the levels that a source ring has latched (Table 15-4). -/
def DieSt.latchBench (d : DieSt) (bench : Nat) (old : List (Nat × RingSt)) : DieSt :=
  ({ d with fab := { d.fab with
      ring := old.foldl (fun (t : Tab RingSt) x => t.set (fun _ => RingSt.reset) (1536 * bench + x.1) { x.2 with held := [] })
        (d.fab.ring.keep (fun k => decide (k / 1536 ≠ bench))) } } : DieSt).setRing bench 3

/-- After a substitution from initial values (R394) the ring of `rg` returns to PASS; an outbound channel whose latched
levels `old` are not idle completes its phases toward the outside first. -/
def DieSt.ringReleaseFresh (d : DieSt) (rg : Nat) (old : List (Nat × RingSt)) : DieSt :=
  let d := d.ringRelease rg
  let out := (List.range (d.design rg).ring.length).filter (fun ch =>
    ((d.design rg).ring[ch]?).elim false (fun c => c.req.region == d.homeOf rg))
  (old.filter (fun x => out.contains x.1 && (x.2.req || x.2.ack))).foldl (fun d x =>
    d.setRingCh rg x.1 { RingSt.reset with frozen := true, drain := true, req := x.2.req && !x.2.ack, ack := x.2.ack }) d

/-- R394: the outside acknowledge reaches a channel that completes its phases. -/
def DieSt.drainStep (d : DieSt) (rg ch : Nat) (level : Bool) : DieSt := d.setRingCh rg ch ((d.ringCh rg ch).drainTo level)

/-- R94: a transition that reaches a frozen cell is held back; the latched levels stand. -/
def DieSt.holdTransition (d : DieSt) (rg ch cell : Nat) (level : Bool) : DieSt :=
  let s := d.ringCh rg ch
  if d.hasRegion rg && d.ringState rg == 1 && s.drain then d.drainStep rg ch level
  else if d.hasRegion rg && 2 ≤ d.ringState rg && s.frozen then
    d.setRingCh rg ch { s with held := (s.held.filter (fun h => h.1 != cell)) ++ [(cell, level)] }
  else d

/-! ### What the frames of a region hold (Table 04-2) -/

/-- The bit string of `n` frames from `base` of a region, as stored. -/
def DieSt.frameBits (d : DieSt) (rg base n : Nat) : Nat :=
  (d.fab.frames.cells.filter (fun c => decide (1024 * rg + base ≤ c.1) && decide (c.1 < 1024 * rg + base + n))).foldl
    (fun v c => v + c.2 * 2 ^ (1024 * (c.1 - 1024 * rg - base))) 0

/-- The non-zero words of `w` bits of a bit string. -/
def wordsOf (v w count : Nat) : List (Nat × Nat) :=
  if v = 0 then [] else (List.range count).filterMap (fun k => let x := v / 2 ^ (w * k) % 2 ^ w; if x = 0 then none else some (k, x))

/-- The logic frames of a region, 0 to 319. -/
def DieSt.logic (d : DieSt) (rg : Nat) : List Nat := (List.range 320).map (fun i => d.fab.frames.get (fun _ => 0) (1024 * rg + i))

/-- Program memory as the frames of a region give it (R79). -/
def DieSt.imageP (d : DieSt) (rg : Nat) : Tab Word :=
  ⟨(wordsOf (d.frameBits rg 320 128) 32 4096).map (fun c => (c.1, BitVec.ofNat 32 c.2))⟩

/-- X (0) or Y (1) memory as the frames of a region give it. -/
def DieSt.imageXY (d : DieSt) (rg y : Nat) : Tab Word24 :=
  ⟨(wordsOf (d.frameBits rg (448 + 96 * y) 96) 24 4096).map (fun c => (c.1, BitVec.ofNat 24 c.2))⟩

/-- The block memories of a region as its frames give them: words the frames do not hold are 0, with valid check bits (R80). -/
def DieSt.imageBm (d : DieSt) (rg : Nat) : Tab Word64 :=
  (List.range 4).foldl (fun (t : Tab Word64) m =>
    (wordsOf (d.frameBits rg (640 + 32 * m) 32) 64 512).foldl (fun t c => t.set (fun _ => 0) (bmKey rg m c.1) (BitVec.ofNat 64 c.2)) t)
    (d.fab.bm.keep (fun k => decide (k / 2048 ≠ rg)))

/-- The configuration bits of a region's isolation cells, as the image groups its ring wires (R90). -/
def imageIso (rg : Nat) (ring : List RingChan) (t : Tab Tmr) : Tab Tmr :=
  ((List.range ring.length).zip ring).foldl (fun (t : Tab Tmr) c =>
    ((List.range c.2.cells.length).zip c.2.cells).foldl (fun (t : Tab Tmr) w =>
      let v := cellWord c.1 w.1 c.2.dual
      t.set (fun _ => Tmr.reset) (1536 * rg + w.2 % 1536) ⟨v, v, v⟩) t)
    (t.keep (fun k => decide (k / 1536 ≠ rg)))

/-! ### Row-level frames of a half-row (R105, R108, R109, Table 04-3) -/

/-- The half-row of a row, 0 west or 1 east, that frame `ix` of position 44 configures. -/
def rowHalf (ix : Nat) : Nat := if ix < 352 || (704 ≤ ix && ix < 720) then 0 else 1

/-- What drives the bridge's wires is what the row-level frames say (R109). -/
def DieSt.placeBridge (d : DieSt) : DieSt :=
  { d with fab := { d.fab with
      bridge := (Config.bridge d.rowsNow).foldl (fun (t : Tab (Option Link)) c => t.set (fun _ => none) c.1 (some c.2)) Tab.empty } }

/-- A half-row that goes off loses its row-level frames (R105, R335). -/
def DieSt.loseRowFrames (d : DieSt) (k : Nat) : DieSt :=
  ({ d with fab := { d.fab with rowFrames := d.fab.rowFrames.keep (fun c => decide (c / 1024 ≠ k / 2) || decide (rowHalf (c % 1024) ≠ k % 2)) } }
    : DieSt).placeBridge

/-- The row-level frames of a half-row that comes on are rewritten from the image store (R108). -/
def DieSt.rewriteRowFrames (d : DieSt) (k : Nat) (store : Tab Nat) : DieSt :=
  let l := store.cells.filter (fun c => c.1 / 1024 == 1408 + k / 2 && rowHalf (c.1 % 1024) == k % 2)
  ({ d with fab := { d.fab with
      rowFrames := l.foldl (fun (t : Tab Tmr) c => t.set (fun _ => Tmr.reset) (c.1 - 1408 * 1024) ⟨c.2, c.2, c.2⟩) d.fab.rowFrames } }
    : DieSt).placeBridge

/-- Set the detour of a bench to a home position, 63 none (R100). -/
def DieSt.setDetour (d : DieSt) (bench v : Nat) : DieSt :=
  let row := bench / 44
  let k := (bench % 44 - 10) / 11
  d.put ⟨R.SUB_DETOUR row, 8 * k + 5, 8 * k⟩ v

/-! ### The commands -/

/-- BM_READ (R85). -/
def execBmRead (x : Die) (rg m p a upset : Nat) (s : State) : Out :=
  act x s (fun d => if d.bmUp rg m p then d.bmRead rg m p a upset else d)

/-- BM_W64_WRITE (R86): the port is in mode W64. -/
def execBmW64Write (x : Die) (rg m p a : Nat) (v : Word64) (s : State) : Out :=
  act x s (fun d => if d.bmUp rg m p && d.bmWidth rg m p == 64 then d.bmWrite64 rg m p a v else d)

/-- BM_NARROW_WRITE (R84): the port is in a narrower mode. -/
def execBmNarrowWrite (x : Die) (rg m p a : Nat) (v : Word64) (upset : Nat) (s : State) : Out :=
  act x s (fun d => if d.bmUp rg m p && d.bmWidth rg m p != 64 then d.bmWriteNarrow rg m p a v upset else d)

/-- BM_SCRUB_STEP (R88). -/
def execBmScrubStep (x : Die) (rg m upset : Nat) (s : State) : Out := act x s (fun d => d.bmScrub rg m upset)

/-- ROW_FRAME_VOTE (R82). -/
def execRowFrameVote (x : Die) (row : Nat) (upset : List (Nat × Nat × Nat)) (s : State) : Out :=
  act x s (fun d => d.rowVote row upset)

/-- CHANNEL_FREEZE (R93). -/
def execChannelFreeze (x : Die) (rg ch env : Nat) (meets : Bool) (s : State) : Out :=
  act x s (fun d => d.channelFreeze rg ch (s.fabEnv x env) meets)

/-- FORCE_FREEZE (R96). -/
def execForceFreeze (x : Die) (rg ch : Nat) (inFlight : Bool) (s : State) : Out :=
  act x s (fun d => d.forceFreeze rg ch inFlight)

/-- FROZEN_TRANSITION_HELD (R94). -/
def execFrozenTransitionHeld (x : Die) (rg ch cell : Nat) (level : Bool) (s : State) : Out :=
  act x s (fun d => d.holdTransition rg ch cell level)

/-- RGN_CNT_CLR_RING (R114). -/
def execRgnCntClrRing (x : Die) (m : Master) (rg : Nat) (s : State) : Out :=
  act x s (fun d => d.busAct m (R.RGN_CNT_CLR rg) (fun d => d.wr (R.RGN_RING_CNT rg) 0))

/-- RGN_CNT_CLR_BM (R114). -/
def execRgnCntClrBm (x : Die) (m : Master) (rg : Nat) (s : State) : Out :=
  act x s (fun d => d.busAct m (R.RGN_CNT_CLR rg) (fun d => d.wr (R.RGN_BM_CNT rg) 0))

/-- RGN_CNT_CLR_FRAME (R114). -/
def execRgnCntClrFrame (x : Die) (m : Master) (rg : Nat) (s : State) : Out :=
  act x s (fun d => d.busAct m (R.RGN_CNT_CLR rg) (fun d => d.wr (R.RGN_FRAME_CNT rg) 0))

end Sys2Proof.Machine
end

