-- ==== Sys2Proof/Machine/Quar.lean ====
section
/-! DEFINITION. The NVM's bus and the quarantine map (R365, R403, R404).  A copy of the map is held as what its bytes say:
SEQ, UID and records, or nothing while its CRC fails.  The NVM is bonded on die 0 and serves both dies (R13, R370). -/

namespace Sys2Proof.Machine

/-! ### Commands on the NVM's bus (R365, Table 14-7) -/

/-- A command in the fast mode: in 8D-8D-8D the opcode is followed by its bitwise inverse, and every command has a 4-byte
address. -/
def DieSt.fastCmd (d : DieSt) (op : Nat) (addr : Option Nat) (data : List Nat) : XspiCmd where
  mode := d.load.fast
  mhz := d.load.fastMhz
  opcode := op
  inverse := if d.load.fast = .octal then some (255 - op % 256) else none
  addr := if d.load.fast = .octal then some (addr.getD 0) else addr
  dummy := 0
  data := data

/-- A command in 1S-1S-1S at 25 MHz. -/
def singleCmd (op : Nat) (addr : Option Nat) (data : List Nat) : XspiCmd := ⟨.single, 25, op, none, addr, 0, data⟩

/-- The first word of directory entry `k` that a boot block's directory holds: TYPE, FLAGS and DEST (R364). -/
def dirType (dir : List Nat) (k : Nat) : Nat := nth 0 dir (16 * k)

/-- The offset of directory entry `k`; bit 31 chooses CS1. -/
def dirOffset (dir : List Nat) (k : Nat) : Nat := ofBytes (slice dir (16 * k + 4) 4)

/-- NVM byte of the record area: directory entry TYPE 5 (R364). -/
def DieSt.recordArea (d : DieSt) : Nat :=
  match (List.range 16).find? (fun k => dirType d.load.dir k == 5) with
  | some k => dirOffset d.load.dir k
  | none => 0

/-- The commands of an erase of 4 KiB sectors and of a program that starts at `at'`, the device asking for the status last.
How a program splits into pages is the memory's and not recorded (DESIGN CHOICE, log entry 152). -/
def DieSt.nvmCmds (d : DieSt) (erase : List Nat) (at' : Nat) (data : List Nat) : List XspiCmd :=
  erase.flatMap (fun a => [d.fastCmd 0x06 none [], d.fastCmd 0x21 (some a) []])
  ++ [d.fastCmd 0x06 none [], d.fastCmd 0x12 (some at') data, d.fastCmd 0x05 none []]

/-- The device writes the NVM: these commands go out. -/
def DieSt.onNvmBus (d : DieSt) (l : List XspiCmd) : DieSt := { d with nvm := { d.nvm with bus := l } }

/-- The sectors of `n` bytes from `a`. -/
def sectors (a n : Nat) : List Nat := (List.range ((a % 4096 + n + 4095) / 4096)).map (fun i => a / 4096 * 4096 + 4096 * i)

/-! ### The quarantine map -/

/-- A copy counts only when its UID is this part's (R403). -/
def QuarMap.ofPart (uid : Nat) (m : Option QuarMap) : Option QuarMap := m.filter (fun q => q.uid == uid)

/-- The valid copy with the higher SEQ; empty when both are invalid (R403). -/
def DieSt.quar (d : DieSt) : QuarMap :=
  match QuarMap.ofPart d.idn.uid d.nvm.quarA, QuarMap.ofPart d.idn.uid d.nvm.quarB with
  | some a, some b => if a.seq < b.seq then b else a
  | some a, none => a
  | none, some b => b
  | none, none => ⟨0, d.idn.uid, []⟩

/-- The copy that the next write of the map takes: an invalid one, else the one with the older SEQ; true is copy B. -/
def DieSt.quarNext (d : DieSt) : Bool :=
  match QuarMap.ofPart d.idn.uid d.nvm.quarA, QuarMap.ofPart d.idn.uid d.nvm.quarB with
  | none, _ => false
  | some _, none => true
  | some a, some b => !decide (a.seq < b.seq)

/-- The 16 bytes of a quarantine record (Table 15-9). -/
def QuarRec.bytes (r : QuarRec) : List Nat :=
  [r.kind % 256, r.cause % 256] ++ wordBytes 2 r.index ++ wordBytes 4 r.detail ++ wordBytes 8 r.mt

/-- The bytes of a copy of the map: the header of Table 15-8, then the records. -/
def QuarMap.bytes (m : QuarMap) : List Nat :=
  let h := wordBytes 4 0x50414D51 ++ wordBytes 2 1 ++ wordBytes 2 m.recs.length ++ wordBytes 4 m.seq ++ wordBytes 8 m.uid
    ++ List.replicate 8 0
  let l := m.recs.flatMap QuarRec.bytes
  h ++ wordBytes 4 (crc32 (h ++ l)) ++ l

/-- Write the map: the copy with the older SEQ takes SEQ + 1 (R403). -/
def DieSt.quarWrite (d : DieSt) (l : List QuarRec) : DieSt :=
  let m : QuarMap := ⟨d.quar.seq + 1, d.idn.uid, l.take 4094⟩
  let off := d.recordArea + (if d.quarNext then 65536 else 0)
  let d := d.onNvmBus (d.nvmCmds (sectors off m.bytes.length) off m.bytes)
  if d.quarNext then { d with nvm := { d.nvm with quarB := some m } } else { d with nvm := { d.nvm with quarA := some m } }

/-- INDEX of a resource of this die (Table 15-9). -/
def DieSt.quarIndex (d : DieSt) (i : Nat) : Nat := d.idn.die * 2 ^ 15 + i % 2 ^ 15

/-- Write a quarantine record. -/
def DieSt.quarAdd (d : DieSt) (kind cause i detail : Nat) : DieSt :=
  d.quarWrite (d.quar.recs ++ [⟨kind, cause, d.quarIndex i, detail, d.mt.toNat⟩])

/-- Remove the records of a resource. -/
def DieSt.quarDrop (d : DieSt) (kind i : Nat) : DieSt :=
  d.quarWrite (d.quar.recs.filter (fun r => r.kind != kind || r.index != d.quarIndex i))

/-- Has a resource a record. -/
def DieSt.quarHas (d : DieSt) (kind i : Nat) : Bool := d.quar.recs.any (fun r => r.kind == kind && r.index == d.quarIndex i)

end Sys2Proof.Machine
end

