-- ==== Sys2Proof/Machine/XingCore.lean ====
section
/-! DEFINITION. The crossings as such: which there are, the holding register and the flags (R231 to R247). -/

namespace Sys2Proof.Machine

/-- The key of a crossing. -/
def xKey (r : XRef) : Nat := r.kind * 2 ^ 25 + r.inst % 2 ^ 16 * 2 ^ 9 + r.sub % 2 ^ 8 * 2 + b2n r.srcFabric

/-- Crossing `r`. -/
def DieSt.xr (d : DieSt) (r : XRef) : XSt := d.xing.get (fun _ => XSt.reset) (xKey r)

/-- Replace crossing `r`. -/
def DieSt.setXr (d : DieSt) (r : XRef) (v : XSt) : DieSt := { d with xing := d.xing.set (fun _ => XSt.reset) (xKey r) v }

/-- Is the crossing there: kinds 12 to 15 are reserved, and a crossing of an absent resource never acts (R16, R244, R247). -/
def DieSt.xHas (d : DieSt) (r : XRef) : Bool :=
  match r.kind with
  | 0 => decide (r.inst / 8 / 44 < d.idn.rows)
  | 1 => decide (r.inst / 44 < d.idn.rows)
  | 2 => decide (r.inst < 256)
  | 3 => decide (r.inst < 16)
  | 4 => decide (r.inst < 2048)
  | 5 => decide (r.inst < d.idn.rows)
  | 6 => decide (r.inst / 4 < d.idn.ddr)
  | 7 => d.idn.lane r.inst && (decide (20 ≤ r.inst) || r.inst == 0 || (r.inst % 5 == 1 && r.sub == 0))
  | 8 => decide (r.inst = 0)
  | 9 => decide (r.inst < 4) && d.idn.met
  | 10 => decide (r.inst = 0)
  | 11 => decide (r.inst / 32 < d.idn.banks)
    && (r.inst % 32 == 16 || (d.userX.get (fun _ => none) r.inst).elim false (fun u => u.srcFabric == r.srcFabric))
  | _ => false

/-! ### Sides in reset (Table 09-2) -/

/-- The half-row of the row end at which the fabric side of a crossing lies.  Queue ends name it, their command channels with them
(Q_CFG); taps, fabric DRAM ports and user token channels lie where the image places them (R244, R253, R288); the bus port lies at
the west end, whose source number Table 09-3 gives it.  The spec gives no place to event ports and metrology exports, whose
half-row is not tested (DESIGN CHOICE, log entry 142). -/
def DieSt.xHalf (d : DieSt) (r : XRef) : Option Nat :=
  match r.kind with
  | 2 =>
    let q := r.inst / 4
    if r.inst % 4 = 2 then
      some (if r.sub = 0 then 2 * d.f (F.Q_CFG_WSEL q) + d.f (F.Q_CFG_WSIDE q) else 2 * d.f (F.Q_CFG_RSEL q) + d.f (F.Q_CFG_RSIDE q))
    else some (r.sub % 64)
  | 3 => some (halfRow (d.tapAt.get (fun _ => 0) r.inst))
  | 5 => some (2 * r.inst)
  | 6 => if r.sub < 8 then some (halfRow (d.portAt.get (fun _ => 0) (8 * (r.inst / 4) + r.sub))) else none
  | 7 => if r.inst = 0 then some (halfRow (d.chanAt.get (fun _ => 0) r.sub)) else none
  | _ => none

/-- A fabric side at a row end is in reset: the device is before the PLAY instant, or its half-row is off. -/
def DieSt.xEndReset (d : DieSt) (r : XRef) : Bool :=
  d.dev < 4 || d.dev == 5 || d.dev == 8 || (d.xHalf r).any (fun h => !d.domOn h)

/-- Who asks at a DRAM port of group 1 or 2 is the Roster or the queue hub; those of group 3 are never off (Table 10-4). -/
def DieSt.xAskerReset (d : DieSt) (r : XRef) : Bool :=
  match r.inst % 4 with
  | 0 => d.xEndReset r
  | 1 => !d.rosOn
  | 2 => !d.hubOn
  | _ => false

/-- The island of a crossing is held in reset, its domain is off, or its PLL has not locked. -/
def DieSt.xIslandReset (d : DieSt) (r : XRef) : Bool :=
  match r.kind with
  | 1 => !d.rosOn
  | 2 => !d.hubOn
  | 3 => !d.hubOn
  | 4 => !d.rosOn
  | 5 => !d.domOn 76
  | 6 => !d.dmcOn (r.inst / 4)
  | 7 => if r.inst = 0 then (List.range 6).all (fun q => !d.quadOn q) else !d.quadOn (r.inst / 4)
  | 9 => !d.domOn 79
  | 10 => !d.domOn 78
  | 11 => !d.on (F.PIN_BANK_STAT_LOCK (r.inst / 32)) || d.bankRst.get (fun _ => false) (r.inst / 32)
  | _ => false

/-- The engine of a region, and with it both sides of a crossing that lies in the region, is in reset: its half-row is off or
the region is neither RUNNING nor FROZEN. -/
def DieSt.xRegionReset (d : DieSt) (rg : Nat) : Bool := !d.regionOn rg || d.rgState rg != rgRunning

/-- Is the source side, or the destination side, of a crossing in reset.  One side of a Roster crossing is the Roster and
the other the engine of its region; of a METROLOGY crossing the reader's; of a TIME or UMPIRE crossing an island that is
never off. -/
def DieSt.xReset (d : DieSt) (r : XRef) (source : Bool) : Bool :=
  match r.kind with
  | 0 => d.xRegionReset (r.inst / 8)
  | 1 => if source == r.srcFabric then d.xRegionReset r.inst else d.xIslandReset r
  | 6 => if source == r.srcFabric then d.xAskerReset r else d.xIslandReset r
  | 7 => if source == r.srcFabric then (if r.inst = 0 then d.xEndReset r else !d.hubOn) else d.xIslandReset r
  | 8 => false
  | 9 =>
    if source then d.xIslandReset r
    else if r.inst = 0 then d.xEndReset r
    else if r.inst = 1 then !d.rosOn
    else false
  | 10 => source != r.srcFabric && d.xIslandReset r
  | _ => if source == r.srcFabric then d.xEndReset r else d.xIslandReset r

/-- The request flag toggles: the value is in flight and the timer starts (R231, R241). -/
def XSt.launch (s : XSt) (now : Nat) : XSt :=
  { s with flight := true, flying := s.value, done := false, void := false, since := now }

/-- Step 1 of R231, as far as the crossing's state lets it go: a waiting value loads an empty register, and a full
register toggles the request flag once the flags rest as a pair. -/
def XSt.push (s : XSt) (now : Nat) : XSt :=
  let s := if s.full then s
    else match s.wait with
      | v :: r => { s with full := true, value := v, wait := r }
      | [] => s
  if s.full && !s.flight then s.launch now else s

/-- Is the crossing one of pulses: of a bank's primitives 8 to 15 are (Table 09-4), and event ports, whose events have no value
(DEDUCED from R187 and R236, log entry 176). -/
def xPulseKind (r : XRef) : Bool := r.kind == 4 || (r.kind == 11 && decide (8 ≤ r.inst % 32) && decide (r.inst % 32 < 16))

/-- Is the crossing one of tokens: of a bank's primitives 0 to 7 are (Table 09-4), and every other kind but event ports. -/
def xToken (r : XRef) : Bool := r.kind != 4 && (r.kind != 11 || decide (r.inst % 32 < 8))

/-- A token on the status channel of a fabric source; one that the personality leaves unrouted ends in a sink (R242, R247). -/
def DieSt.xStatus (d : DieSt) (r : XRef) (code : Nat) : List Nat :=
  if r.srcFabric && (r.kind != 11 || (d.userX.get (fun _ => none) r.inst).elim false (fun u => u.status)) then [code] else []

/-- The bits a crossing's holding register has: of a user token primitive as many as the image gives it, else at most the 144
of R231. -/
def DieSt.xWidth (d : DieSt) (r : XRef) : Nat :=
  if r.kind = 11 then (d.userX.get (fun _ => none) r.inst).elim 1 (fun u => min 72 u.width) else 144

/-- A port crossing of an engine stands still while its region is frozen with the engine (R240). -/
def DieSt.xStill (d : DieSt) (r : XRef) : Bool :=
  r.kind == 0 && (d.se.get (fun _ => SeSt.reset) (r.inst / 8)).mode == .frozen

/-- The source offers a value.  A METROLOGY crossing loads only an empty register (R246); any other offer waits at the
source while the register is full (R234). -/
def DieSt.xOffer (d : DieSt) (r : XRef) (v : Nat) : DieSt :=
  let s := d.xr r
  if !d.xHas r || !xToken r || d.xReset r true || d.xStill r then d
  else if s.full && r.kind == 9 then d
  else d.setXr r ({ s with wait := s.wait ++ [v % 2 ^ d.xWidth r] }.push d.now)

/-- Can a value pass the crossing now: it is there, neither side is in reset, and nothing is held or in flight. -/
def DieSt.xOpen (d : DieSt) (r : XRef) : Bool :=
  d.xHas r && !d.xReset r true && !d.xReset r false && !(d.xr r).full && !(d.xr r).flight

/-- A value passes through a crossing whose other side takes it at once: both steps of the flags, one value (R231).  With the other
side in reset, or an earlier value in the way, it is offered and waits there, and the timer runs on it (R238, R241). -/
def DieSt.xPass (d : DieSt) (r : XRef) (v : Nat) : DieSt :=
  if d.xOpen r then d.setXr r { d.xr r with out := some (v % 2 ^ d.xWidth r) } else d.xOffer r v

/-- The crossing of a key. -/
def xOfKey (k : Nat) : XRef := ⟨k / 2 ^ 25, k / 2 ^ 9 % 2 ^ 16, k / 2 % 2 ^ 8, k % 2 == 1⟩

/-- What is left of a crossing's own state when its source side is in reset. -/
def XSt.srcReset (s : XSt) : XSt :=
  { s with full := false, wait := [], flight := false, done := false, void := false, pend := 0, next := false, status := [] }

/-- What a reset of the source side, or of the destination side, leaves the other to see.  A side that is itself in reset sees
nothing and forgets what it had seen (R238, R239). -/
def XSt.hit (s : XSt) (src dst : Bool) : XSt :=
  { s with
    srcHit := !dst && (s.srcHit || (src && !s.srcRst)), srcRst := !dst && s.srcRst
    dstHit := !src && (s.dstHit || (dst && !s.dstRst)), dstRst := !src && s.dstRst }

/-- Mark what has come to be in reset: a source loses what it holds and has in flight, and a destination takes nothing until
the source has seen its reset (R237, R238). -/
def DieSt.xMark (d : DieSt) : DieSt :=
  { d with xing := d.xing.cells.foldl (fun (t : Tab XSt) c =>
      let r := xOfKey c.1
      let s := if d.xReset r true then c.2.srcReset else c.2
      t.set (fun _ => XSt.reset) c.1 (s.hit (d.xReset r true) (d.xReset r false))) d.xing }

/-- Both sides of the port crossings of a region's engine come out of a reset together: neither sees the other's (R239). -/
def DieSt.xClearPorts (d : DieSt) (rg : Nat) : DieSt :=
  { d with xing := d.xing.keep (fun k => decide ((xOfKey k).kind ≠ 0) || decide ((xOfKey k).inst / 8 ≠ rg)) }

/-- The port crossings of a frozen engine move with its state to another region (R240, Table 04-8). -/
def DieSt.xMove (d : DieSt) (src dst : Nat) : DieSt :=
  let mine := fun (rg k : Nat) => (xOfKey k).kind == 0 && (xOfKey k).inst / 8 == rg
  { d with xing := (d.xing.cells.filter (fun c => mine src c.1)).foldl (fun (t : Tab XSt) c =>
      t.set (fun _ => XSt.reset) (c.1 - 4096 * src + 4096 * dst) c.2) (d.xing.keep (fun k => !mine dst k)) }

/-- The fabric's crossing of kind 9: a waiting word of the island loads the empty register, lowest point and word first; a
fabric in reset discards what is offered (R246, R451, R452). -/
def DieSt.metOffer (d : DieSt) : DieSt :=
  let r : XRef := ⟨9, 0, 0, false⟩
  let s := d.xr r
  if d.xReset r false then { d with met := { d.met with tokens := Tab.empty } }
  else if s.full || s.flight then d
  else
    match d.met.tokens.cells with
    | (k, some v) :: _ => { d.xOffer r v with met := { d.met with tokens := d.met.tokens.set (fun _ => none) k none } }
    | _ => d

end Sys2Proof.Machine
end

