-- ==== Sys2Proof/Machine/Dram.lean ====
section
/-! DEFINITION. The DRAM controllers: ports, scheduling, refresh, ECC, sparing and repair (R250 to R271). -/

namespace Sys2Proof.Machine

/-! ### Channels, lines and spare rows (R250 to R252, R266) -/

/-- Channel `c`. -/
def DieSt.ch (d : DieSt) (c : Nat) : DmcSt := d.dmc.get (fun _ => DmcSt.reset) c

/-- Replace channel `c`. -/
def DieSt.setCh (d : DieSt) (c : Nat) (v : DmcSt) : DieSt := { d with dmc := d.dmc.set (fun _ => DmcSt.reset) c v }

/-- DMC_STAT.STATE codes. -/
def chOff : Nat := 0
def chTraining : Nat := 1
def chReady : Nat := 2
def chFailed : Nat := 3

/-- Is the channel READY. -/
def DieSt.chReady (d : DieSt) (c : Nat) : Bool := d.dmcOn c && d.f (F.DMC_STAT_STATE c) == Machine.chReady

/-- Ranks of the channel. -/
def DieSt.ranks (d : DieSt) (c : Nat) : Nat := d.f (F.DMC_CFG_RANKS2 c) + 1

/-- Is the configuration one of Table 10-2 (R250, R251). -/
def DieSt.dramConfigOk (d : DieSt) (c : Nat) : Bool :=
  d.f (F.DMC_CFG_BIN c) != 3 && d.f (F.DMC_CFG_DENS c) != 3
  && !(d.on (F.DMC_CFG_X4 c) && d.f (F.DMC_CFG_DENS c) != 0 && d.on (F.DMC_CFG_RANKS2 c))

/-- Lines of a row in one bank (Table 10-3). -/
def DieSt.rowLines (d : DieSt) (c : Nat) : Nat := if d.on (F.DMC_CFG_X4 c) then 128 else 64

/-- Lines that share one row number: both subchannels, 32 banks, every rank. -/
def DieSt.rowStride (d : DieSt) (c : Nat) : Nat := 64 * d.rowLines c * d.ranks c

/-- Nominal capacity in lines (Table 10-2). -/
def DieSt.nominalLines (d : DieSt) (c : Nat) : Nat :=
  (16 + 8 * d.f (F.DMC_CFG_DENS c)) * (if d.on (F.DMC_CFG_X4 c) then 2 else 1) * d.ranks c * 2 ^ 24

/-- Rows of a bank. -/
def DieSt.dramRows (d : DieSt) (c : Nat) : Nat := d.nominalLines c / d.rowStride c

/-- Usable lines, from the channel's training on: the top row of every bank is reserved (R252). -/
def DieSt.capLines (d : DieSt) (c : Nat) : Nat := d.f (F.DMC_CAP_SIZE c) * 1024

/-- The fields of a line address (Table 10-3). -/
structure LineAddr where
  subch : Nat
  bank : Nat
  col : Nat
  rank : Nat
  row : Nat
deriving DecidableEq, Repr

/-- Take a line address apart. -/
def DieSt.lineFields (d : DieSt) (c l : Nat) : LineAddr :=
  { subch := l % 2, bank := l / 2 % 32, col := l / 64 % d.rowLines c, rank := l / 64 / d.rowLines c % d.ranks c
    row := l / d.rowStride c }

/-- Put a line address together. -/
def DieSt.lineOf (d : DieSt) (c : Nat) (a : LineAddr) : Nat :=
  a.subch + 2 * a.bank + 64 * a.col + 64 * d.rowLines c * a.rank + d.rowStride c * a.row

/-- The key of a bank. -/
def LineAddr.bankKey (a : LineAddr) : Nat := a.subch * 64 + a.rank * 32 + a.bank

/-- Does entry `k` name the row of `a`. -/
def DieSt.spareNames (d : DieSt) (c k : Nat) (a : LineAddr) : Bool :=
  d.f (F.DMC_SPARE_SUBCH c k) == a.subch && d.f (F.DMC_SPARE_RANK c k) == a.rank
  && d.f (F.DMC_SPARE_BANK c k) == a.bank && d.f (F.DMC_SPARE_ROW c k) == a.row

/-- The line of the devices that holds line `l`: the spare row where the line has been copied (R266). -/
def DieSt.physLine (d : DieSt) (c l : Nat) : Nat :=
  let a := d.lineFields c l
  let hit := (List.range 64).any (fun k =>
    d.spareNames c k a
    && (decide (2 ≤ d.f (F.DMC_SPARE_STATE c k))
        || (d.f (F.DMC_SPARE_STATE c k) == 1 && decide (a.col < (d.ch c).copied.get (fun _ => 0) k))))
  if hit then d.lineOf c { a with row := d.dramRows c - 1 } else l

/-! ### ECC (R264) -/

/-- The 4-bit nibble lane of a stored code bit: 32 data bits and 8 check bits a beat, ten lanes. -/
def codeLane (i : Nat) : Nat := if i < 512 then i % 32 / 4 else 8 + (i - 512) % 8 / 4

/-- The nibble lanes that hold flipped bits. -/
def badLanes (flip : Nat) : List Nat :=
  (List.range 10).filter (fun n => (List.range 640).any (fun i => codeLane i == n && bit flip i))

/-- What the code says of a line: 0 good, 1 correctable (one lane), 2 uncorrectable. -/
def lineClass (flip : Nat) : Nat := if flip = 0 then 0 else min 2 (badLanes flip).length

/-- The line as written. -/
def DmcSt.line (h : DmcSt) (p : Nat) : Nat := h.mem.get (fun _ => 0) p

/-- The flipped code bits of a line. -/
def DmcSt.flips (h : DmcSt) (p : Nat) : Nat := h.flip.get (fun _ => 0) p

/-- The line a read delivers: corrected, or as stored when it cannot be corrected. -/
def DmcSt.lineOut (h : DmcSt) (p : Nat) : Nat :=
  if lineClass (h.flips p) = 2 then Nat.xor (h.line p) (h.flips p % 2 ^ 512) else h.line p

/-- Write a line with new check bits. -/
def DmcSt.putLine (h : DmcSt) (p v : Nat) : DmcSt :=
  { h with mem := h.mem.set (fun _ => 0) p (v % 2 ^ 512), flip := h.flip.set (fun _ => 0) p 0 }

/-- Bits of a line that have flipped since the last access. -/
def DmcSt.hit (h : DmcSt) (p u : Nat) : DmcSt :=
  { h with flip := h.flip.set (fun _ => 0) p (Nat.xor (h.flips p) u % 2 ^ 640) }

/-- Bit mask of the enabled bytes of a line. -/
def byteMask (be : Nat) : Nat → Nat
  | 0 => 0
  | n + 1 => byteMask be n + (if bit be n then 255 * 2 ^ (8 * n) else 0)

/-- Merge the enabled bytes of a write into a line; an uncorrectable line keeps its other bits and its error. -/
def DmcSt.mergeLine (h : DmcSt) (p v be : Nat) : DmcSt :=
  let m := byteMask be 64
  let old := h.line p
  let nv := old - Nat.land old m + Nat.land v m
  if lineClass (h.flips p) = 2 then
    { h with mem := h.mem.set (fun _ => 0) p nv, flip := h.flip.set (fun _ => 0) p (h.flips p - Nat.land (h.flips p) m) }
  else h.putLine p nv

/-- Does a byte address lie below DMC_CAP (R252). -/
def DieSt.dramThere (d : DieSt) (c a : Nat) : Bool := decide (a / 64 < d.capLines c)

/-- One byte of the channel as a reader sees it; at or above DMC_CAP there is none (R252). -/
def DieSt.dramByte (d : DieSt) (c a : Nat) : Nat :=
  if d.dramThere c a then (d.ch c).lineOut (d.physLine c (a / 64)) / 2 ^ (8 * (a % 64)) % 256 else 0

/-- Does a read of the byte's line end with ERR: it is uncorrectable, or lies at or above DMC_CAP (R252, R264). -/
def DieSt.dramBad (d : DieSt) (c a : Nat) : Bool :=
  !d.dramThere c a || lineClass ((d.ch c).flips (d.physLine c (a / 64))) == 2

/-- Write the enabled bytes of one line of the channel, all of them as a whole-line write; at or above DMC_CAP nothing is written
(R252, R253). -/
def DieSt.linePut (d : DieSt) (c l v be : Nat) : DieSt :=
  if l < d.capLines c then
    let p := d.physLine c l
    d.setCh c (if be = 2 ^ 64 - 1 then (d.ch c).putLine p v else (d.ch c).mergeLine p v be)
  else d

/-- Write one byte of the channel. -/
def DieSt.dramPut (d : DieSt) (c a v : Nat) : DieSt := d.linePut c (a / 64) (v % 256 * 2 ^ (8 * (a % 64))) (2 ^ (a % 64))

/-- Write a run of bytes of the channel from address `a`, line by line (R253). -/
def DieSt.dramPuts (d : DieSt) (c a : Nat) (l : List Nat) : DieSt :=
  if l.isEmpty then d
  else
    (List.range ((a + l.length + 63) / 64 - a / 64)).foldl (fun (d : DieSt) k =>
      let b := 64 * (a / 64 + k)
      let lo := max a b
      let hi := min (a + l.length) (b + 64)
      d.linePut c (a / 64 + k) (ofBytes (slice l (lo - a) (hi - lo)) * 2 ^ (8 * (lo - b))) ((2 ^ (hi - lo) - 1) * 2 ^ (lo - b))) d

/-! ### Events, errors and sparing candidates (R264 to R266, R270) -/

/-- The port group of a port (Table 10-4). -/
def portGroup (p : Nat) : Nat := if p < 8 then 0 else if p = 8 then 1 else if p < 12 then 2 else 3

/-- Raise event `k` of Table 10-6 for a port group. -/
def DieSt.dmcEvt (d : DieSt) (c grp k data : Nat) : DieSt :=
  d.raiseIf (k == 5 || bit (d.f (F.DMC_EVT_EN_EN c)) k) (0x5D0 + 4 * c + grp) (0x0A01 + k) data

/-- Start sparing the row of `a` (R266): the first free entry, unless the bank's spare row is already in use. -/
def DieSt.spareStart (d : DieSt) (c : Nat) (a : LineAddr) : DieSt × Bool :=
  let used := (List.range 64).any (fun k =>
    d.f (F.DMC_SPARE_STATE c k) != 0 && d.f (F.DMC_SPARE_SUBCH c k) == a.subch && d.f (F.DMC_SPARE_RANK c k) == a.rank
    && d.f (F.DMC_SPARE_BANK c k) == a.bank)
  match (List.range 64).find? (fun k => d.f (F.DMC_SPARE_STATE c k) == 0), used with
  | some k, false =>
    let d := ((d.put (F.DMC_SPARE_SUBCH c k) a.subch).put (F.DMC_SPARE_RANK c k) a.rank).put (F.DMC_SPARE_BANK c k) a.bank
    let d := ((d.put (F.DMC_SPARE_ROW c k) a.row).put (F.DMC_SPARE_STATE c k) 1).put (F.DMC_CMD_RES_BUSY c) 1
    let h := d.ch c
    ((d.setCh c { h with copied := h.copied.set (fun _ => 0) k 0 }).car (328 + 12 * c) 2 1, true)
  | _, _ => (d.dmcEvt c 3 3 (2 ^ 17 + a.row), false)

/-- The key of a row's error record. -/
def rowKey (a : LineAddr) : Nat := a.row * 128 + a.bankKey

/-- The row of a record, at its first line. -/
def rowOfKey (k : Nat) : LineAddr :=
  { subch := k % 128 / 64, bank := k % 128 % 32, col := 0, rank := k % 128 / 32 % 2, row := k / 128 }

/-- The row has become a sparing candidate (R265): with AUTO it takes a free entry, and without stays one (R266). -/
def DieSt.candidate (d : DieSt) (c : Nat) (a : LineAddr) : DieSt :=
  if (List.range 64).any (fun k => d.f (F.DMC_SPARE_STATE c k) != 0 && d.spareNames c k a) then d
  else if d.on (F.DMC_SPARE_CFG_AUTO c) then (d.spareStart c a).1
  else
    let h := d.ch c
    if h.cands.contains (rowKey a) then d else d.setCh c { h with cands := h.cands ++ [rowKey a] }

/-- AUTO is 1: rows that have become candidates before take entries now (R266). -/
def DieSt.autoSpare (d : DieSt) (c : Nat) : DieSt :=
  if d.on (F.DMC_SPARE_CFG_AUTO c) then
    let h := d.ch c
    h.cands.foldl (fun (d : DieSt) k => d.candidate c (rowOfKey k)) (d.setCh c { h with cands := [] })
  else d

/-- Count what a read of line `l` for port `p` (15 patrol or copy) finds: class `cls` of its ECC (R264, R265). -/
def DieSt.lineFoundAs (d : DieSt) (c p l cls : Nat) : DieSt :=
  let a := d.lineFields c l
  let grp := if p = 15 then 3 else portGroup p
  match cls with
  | 0 => d
  | 1 =>
    let d := ((d.bump (F.DMC_ECC_CNT_CORR c)).car (320 + 12 * c) 4 1).dmcEvt c grp 0 (p * 2 ^ 20 + a.row % 2 ^ 17)
    let h := d.ch c
    let rec1 := h.rowErr.get (fun _ => []) (rowKey a)
    let rec2 := if rec1.contains a.col then rec1 else rec1 ++ [a.col]
    let d := d.setCh c { h with rowErr := h.rowErr.set (fun _ => []) (rowKey a) rec2 }
    if rec2.length = max 1 (d.f (F.DMC_SPARE_CFG_THRESH c)) && rec1.length < rec2.length then d.candidate c a else d
  | _ =>
    let d := (d.bump (F.DMC_ECC_CNT_UNCORR c)).car (324 + 12 * c) 4 1
    let d := if d.on (F.DMC_ERR_VALID c) then d
      else ((d.put (F.DMC_ERR_VALID c) 1).put (F.DMC_ERR_PORT c) p).put (F.DMC_ERR_LINE_LINE c) l
    (d.dmcEvt c grp 1 (p * 2 ^ 20 + a.row % 2 ^ 17)).candidate c a

/-- Count what a read of line `l` finds in the line as it stands. -/
def DieSt.lineFound (d : DieSt) (c p l : Nat) : DieSt := d.lineFoundAs c p l (lineClass ((d.ch c).flips (d.physLine c l)))

/-- The crossing of port `p` of channel `c` toward its requester, and from it (Table 09-3). -/
def dramX (c p : Nat) : XRef := ⟨6, 4 * c + portGroup p, p, false⟩
def dramFrom (c p : Nat) : XRef := ⟨6, 4 * c + portGroup p, p, true⟩

/-- Reads of the lines that hold `n` bytes from address `a`, for port `p`: what they find is counted (R264, R265), and the request
and the last line cross (R26, Table 09-3). -/
def DieSt.bytesFound (d : DieSt) (c p a n : Nat) : DieSt :=
  let d := (List.range ((a + n + 63) / 64 - a / 64)).foldl (fun d k =>
    if d.dramThere c (64 * (a / 64 + k)) then d.lineFound c p (a / 64 + k) else d) d
  (d.xPass (dramFrom c p) (a / 64)).xPass (dramX c p) ((d.ch c).lineOut (d.physLine c ((a + n - 1) / 64)))

/-- A write of a run of bytes by the requester of port `p` crosses to the channel (R26, R253, Table 09-3). -/
def DieSt.portPuts (d : DieSt) (c p a : Nat) (l : List Nat) : DieSt :=
  if l.isEmpty then d else (d.dramPuts c a l).xPass (dramFrom c p) (2 ^ 30 + a / 64)

/-- Rows whose records reach a threshold that has been lowered from `old` become candidates (R265). -/
def DieSt.threshLowered (d : DieSt) (c old : Nat) : DieSt :=
  let new := max 1 (d.f (F.DMC_SPARE_CFG_THRESH c))
  (d.ch c).rowErr.cells.foldl (fun d x =>
    if new ≤ x.2.length && x.2.length < max 1 old then d.candidate c (rowOfKey x.1) else d) d

/-- Read line `l` for port `p` with every effect of R264, after bits `u` have flipped. -/
def DieSt.lineRead (d : DieSt) (c p l u : Nat) : DieSt × Nat × Bool :=
  let pl := d.physLine c l
  let d := d.setCh c ((d.ch c).hit pl u)
  let out := (d.ch c).lineOut pl
  let bad := lineClass ((d.ch c).flips pl) == 2
  (d.lineFound c p l, out, bad)

/-! ### Ports and acceptance (R253 to R255) -/

/-- The class of a port (Table 10-4): that of DMC_PORT_CFG for the fabric ports. -/
def DieSt.portClass (d : DieSt) (c p : Nat) : Nat :=
  if p < 8 then d.f (F.DMC_PORT_CFG_CLASS c p)
  else if p = 9 || p = 13 then 1
  else if p = 11 then 3
  else 2

/-- The offer buffer of a port. -/
def DmcSt.offered (h : DmcSt) (p : Nat) : List DramReq := h.offers.get (fun _ => []) p

/-- Does a class-0 port hold panic (R255). -/
def DieSt.panics (d : DieSt) (c p : Nat) : Bool :=
  decide (p < 8) && d.on (F.DMC_PORT_CFG_EN c p) && d.portClass c p == 0 && decide (d.f (F.DMC_PORT_CFG_PANIC c p) ≠ 0)
  && decide (d.f (F.DMC_PORT_CFG_PANIC c p) ≤ ((d.ch c).offered p).length)

/-- Does any class-0 port of the channel hold panic. -/
def DieSt.chPanic (d : DieSt) (c : Nat) : Bool := (List.range 8).any (fun p => d.panics c p)

/-- Outstanding class-0 operations. -/
def DmcSt.c0 (h : DmcSt) : List DramOp := h.ops.filter (fun o => o.cls == 0)

/-- The tokens a port's regulator holds now, in thousandths (R254): RATE a microsecond, at most CREDITS. -/
def DieSt.tokensNow (d : DieSt) (c p : Nat) : Nat :=
  let t := (d.ch c).tokens.get (fun _ => (0, 0)) p
  min (d.f (F.DMC_PORT_CFG_CREDITS c p) * 1000) (t.1 + d.f (F.DMC_PORT_CFG_RATE c p) * (d.now - t.2))

/-- Does an accepted operation that has not issued its column command match line `l`, for a read or a write (R257). -/
def DramOp.matchesLine (o : DramOp) (l : Nat) (wr : Bool) : Bool := !o.issued && o.req.line == l && (wr || o.req.wr)

/-- Does an accepted operation that has not issued its column command address line `l`: it is promoted by a class-0 request
to the line, whether or not that request has to wait for it (R257). -/
def DramOp.sameLine (o : DramOp) (l : Nat) : Bool := !o.issued && o.req.line == l

/-- R254: may class-0 port `p` accept request `r` now. -/
def DieSt.mayAccept (d : DieSt) (c p : Nat) (r : DramReq) : Bool :=
  let h := d.ch c
  let promo := h.ops.filter (fun o => o.sameLine r.line && o.cls != 0)
  let bk := (d.lineFields c r.line).bankKey
  let inBank := h.c0.filter (fun o => (d.lineFields c o.req.line).bankKey == bk)
  decide (1000 ≤ d.tokensNow c p)
  && decide ((h.ops.filter (fun o => o.port == p)).length < d.f (F.DMC_PORT_CFG_CREDITS c p))
  && decide (h.c0.length + promo.length < 16) && decide (inBank.length + promo.length < 4)

/-- Keep DMC_STAT.C0_OUT and PANIC as the state has them. -/
def DieSt.chShow (d : DieSt) (c : Nat) : DieSt :=
  (d.put (F.DMC_STAT_C0_OUT c) (d.ch c).c0.length).put (F.DMC_STAT_PANIC c) (b2n (d.chPanic c))

/-- Give port `p` an answer. -/
def DmcSt.reply (h : DmcSt) (p : Nat) (a : DramAns) : DmcSt :=
  { h with ans := h.ans.set (fun _ => []) p (h.ans.get (fun _ => []) p ++ [a]) }

/-- The eight tokens a fabric port's read returns over its crossing: 64 data bits each, the last with the tag in bits 71 to 64
and ERR in bit 72 (R253). -/
def DramAns.tokens (a : DramAns) : List Nat :=
  (List.range 8).map (fun k => a.data / 2 ^ (64 * k) % 2 ^ 64 + (if k = 7 then a.tag % 256 * 2 ^ 64 + b2n a.err * 2 ^ 72 else 0))

/-- Answer a request: the port keeps the answer, and a read of a fabric port sends it as tokens (R253). -/
def DieSt.dramReply (d : DieSt) (c p : Nat) (a : DramAns) (wr : Bool) : DieSt :=
  let d := d.setCh c ((d.ch c).reply p a)
  if p < 8 && !wr then a.tokens.foldl (fun d v => d.xOffer (dramX c p) v) d else d

/-- A request leaves the offer buffer for the scheduler; on a channel that is not READY, or at or above DMC_CAP, it ends
with ERR (R252, R269). -/
def DieSt.takeReq (d : DieSt) (c p : Nat) (r : DramReq) : DieSt :=
  let h := d.ch c
  if !d.chReady c || decide (d.capLines c ≤ r.line) then d.dramReply c p ⟨0, r.tag, true⟩ r.wr
  else
    let cls := d.portClass c p
    let ops := if cls = 0 then h.ops.map (fun o => if o.sameLine r.line then { o with cls := 0 } else o) else h.ops
    let op : DramOp := { id := h.nextId, port := p, cls := cls, req := r, issued := false, since := d.now, got := (0, 0) }
    let tok := if cls = 0 then h.tokens.set (fun _ => (0, 0)) p (d.tokensNow c p - 1000, d.now) else h.tokens
    d.setCh c { h with ops := ops ++ [op], nextId := h.nextId + 1, tokens := tok }

/-- A requester of ports 8 to 13 offers a request: it takes a place of the 32 of the port's offer buffer (R253). -/
def DieSt.dramOffer (d : DieSt) (c p : Nat) (a : DramArg) : DieSt :=
  let h := d.ch c
  if p < 8 || 32 ≤ (h.offered p).length then d
  else
    let be := if p = 12 || p = 13 then a.be % 2 ^ 64 else 2 ^ 64 - 1
    d.setCh c { h with
      offers := h.offers.set (fun _ => []) p (h.offered p ++ [⟨a.line, a.wr, a.data % 2 ^ 512, be, a.tag % 256⟩]) }

/-- DRAM_REQUEST_ACCEPT: the oldest request of the port's offer buffer. -/
def DieSt.dramAccept (d : DieSt) (c p : Nat) (req : Option DramArg) : DieSt :=
  if !d.dmcOn c || decide (14 ≤ p) then d
  else
    let d := match req with
      | some a => d.dramOffer c p a
      | none => d
    let h := d.ch c
    match h.offered p, req with
    | r :: rest, _ =>
      if d.portClass c p = 0 && d.chReady c && decide (p < 8) && !d.mayAccept c p r then d.chShow c
      else ((d.setCh c { h with offers := h.offers.set (fun _ => []) p rest }).takeReq c p r).chShow c
    | [], _ => d

/-- Does the offer buffer of a fabric port take the token that stands at its crossing: one that completes a request needs a
place (R253). -/
def DieSt.dramTakes (d : DieSt) (c p tok : Nat) : Bool :=
  let h := d.ch c
  decide ((h.offered p).length < 32) ||
  match h.partialWr.get (fun _ => none) p with
  | some (_, n) => n != 7
  | none => bit tok 30

/-- A fabric port's request token or data token arrives in its offer buffer (R253): [35:6] line in bits [29:0], bit 30
write, [38:31] tag; a write is followed by eight data tokens. -/
def DieSt.dramToken (d : DieSt) (c p tok : Nat) : DieSt :=
  let h := d.ch c
  if !d.dmcOn c || decide (8 ≤ p) || !d.dramTakes c p tok then d
  else
    match h.partialWr.get (fun _ => none) p with
    | some (r, n) =>
      let r := { r with data := r.data + tok % 2 ^ 64 * 2 ^ (64 * n) }
      if n = 7 then
        (d.setCh c { h with
          partialWr := h.partialWr.set (fun _ => none) p none, offers := h.offers.set (fun _ => []) p (h.offered p ++ [r]) }).chShow c
      else d.setCh c { h with partialWr := h.partialWr.set (fun _ => none) p (some (r, n + 1)) }
    | none =>
      let r : DramReq := { line := tok % 2 ^ 30, wr := bit tok 30, data := 0, be := 2 ^ 64 - 1, tag := bits tok 38 31 }
      if r.wr then d.setCh c { h with partialWr := h.partialWr.set (fun _ => none) p (some (r, 0)) }
      else (d.setCh c { h with offers := h.offers.set (fun _ => []) p (h.offered p ++ [r]) }).chShow c

/-! ### Refresh (R258, R259) -/

/-- The owed count of a rank. -/
def DieSt.owed (d : DieSt) (c rank : Nat) : Nat := if rank = 0 then d.f (F.DMC_REF_OWED0 c) else d.f (F.DMC_REF_OWED1 c)

/-- Set the owed count of a rank; it never exceeds four. -/
def DieSt.setOwed (d : DieSt) (c rank n : Nat) : DieSt :=
  if rank = 0 then d.put (F.DMC_REF_OWED0 c) (min 4 n) else d.put (F.DMC_REF_OWED1 c) (min 4 n)

/-- 1.6 us have passed since the last refresh of the rank. -/
def DieSt.refSpaced (d : DieSt) (c rank : Nat) : Bool :=
  let t := (d.ch c).lastRef.get (fun _ => 0) rank
  t == 0 || decide (t - 1 + 1600 ≤ d.now)

/-- What MR4 of a rank says (R258): 0 normal rate, 1 twice the rate, 2 above it. -/
def DieSt.mr4Found (d : DieSt) (c rank ind : Nat) : DieSt :=
  let fld := if rank = 0 then F.DMC_REF_HALF0 c else F.DMC_REF_HALF1 c
  let was := d.on fld
  let data := rank * 2 ^ 23 + 2 ^ 21
  if ind = 0 then d.put fld 0
  else if ind = 1 then (if was then d else (d.put fld 1).dmcEvt c 3 2 data)
  else (d.put fld 1).dmcEvt c 3 2 (data + 2 ^ 22)

/-- A refresh of the rank is issued, and immediately before it an MR4 read that has waited for it (R258). -/
def DieSt.refreshNow (d : DieSt) (c rank : Nat) : DieSt :=
  let d := match (d.ch c).mr4Wait.get (fun _ => none) rank with
    | none => d
    | some ind =>
      let h := d.ch c
      (d.setCh c { h with
        mr4Held := h.mr4Held.set (fun _ => 0) rank 0, mr4Wait := h.mr4Wait.set (fun _ => none) rank none }).mr4Found c rank ind
  let h := d.ch c
  d.setCh c { h with lastRef := h.lastRef.set (fun _ => 0) rank (d.now + 1), openRow := h.openRow.keep (fun b => b / 32 % 2 != rank) }

/-- A forced refresh (R259). -/
def DieSt.refreshForced (d : DieSt) (c rank : Nat) : DieSt :=
  let d := (d.refreshNow c rank).bump (F.DMC_REF_FORCED c)
  let h := d.ch c
  (d.setCh c { h with forceDue := h.forceDue.set (fun _ => false) rank false }).dmcEvt c 3 6 (rank * 2 ^ 23)

/-- A refresh falls due. -/
def DieSt.refreshDue (d : DieSt) (c rank : Nat) : DieSt :=
  if !d.chReady c || decide (d.ranks c ≤ rank) || d.on (F.DMC_STAT_SELFREF c) then d
  else if d.chPanic c then
    if d.owed c rank < 4 then d.setOwed c rank (d.owed c rank + 1)
    else if d.refSpaced c rank then d.refreshForced c rank
    else
      let h := d.ch c
      d.setCh c { h with forceDue := h.forceDue.set (fun _ => false) rank true }
  else if d.refSpaced c rank then d.refreshNow c rank
  else d.setOwed c rank (d.owed c rank + 1)

/-- The refresh the scheduler must or may issue before any request (R256, R259): a forced one, or outside panic an owed
one. -/
def DieSt.refreshNext (d : DieSt) (c : Nat) : Option DieSt :=
  match (List.range (d.ranks c)).find? (fun r =>
      d.refSpaced c r && ((d.ch c).forceDue.get (fun _ => false) r || (!d.chPanic c && decide (0 < d.owed c r)))) with
  | none => none
  | some r =>
    if (d.ch c).forceDue.get (fun _ => false) r then some (d.refreshForced c r)
    else some ((d.refreshNow c r).setOwed c r (d.owed c r - 1))

/-- A read of MR4 that comes at its time: one training slot, which panic or a waiting class-0 request holds back (R42, R258,
R260).  Held back by panic for more than 1 ms, it goes immediately before the rank's next refresh. -/
def DieSt.mr4 (d : DieSt) (c rank ind : Nat) (c0waits : Bool) : DieSt :=
  let h := d.ch c
  if !d.chReady c || decide (d.ranks c ≤ rank) || d.on (F.DMC_STAT_SELFREF c) then d
  else if d.chPanic c then
    let t := h.mr4Held.get (fun _ => 0) rank
    if t = 0 then d.setCh c { h with mr4Held := h.mr4Held.set (fun _ => 0) rank (d.now + 1) }
    else if t + 1000000 < d.now + 1 then d.setCh c { h with mr4Wait := h.mr4Wait.set (fun _ => none) rank (some ind) }
    else d
  else if c0waits then d
  else (d.setCh c { h with
    mr4Held := h.mr4Held.set (fun _ => 0) rank 0, mr4Wait := h.mr4Wait.set (fun _ => none) rank none }).mr4Found c rank ind

/-! ### Scheduling (R256, R257) -/

/-- The order of an operation in R256: smaller first. -/
def DieSt.opRank (d : DieSt) (c : Nat) (o : DramOp) : Nat :=
  let a := d.lineFields c o.req.line
  let hit := (d.ch c).openRow.get (fun _ => none) a.bankKey == some a.row
  let age := d.f (F.DMC_SCHED_AGE c)
  if o.cls = 0 then (if d.panics c o.port then 0 else 1)
  else if age ≠ 0 && decide (age * 1000 ≤ d.now - o.since) then 2
  else 2 * o.cls + (if hit then 1 else 2)

/-- Does an earlier operation on the same line hold `o` back (R257). -/
def heldBack (ops : List DramOp) (o : DramOp) : Bool :=
  ops.any (fun e => decide (e.id < o.id) && e.matchesLine o.req.line o.req.wr)

/-- The best of a list by R256; among equals the one accepted first. -/
def DieSt.bestOp (d : DieSt) (c : Nat) : List DramOp → Option DramOp
  | [] => none
  | o :: r =>
    match d.bestOp c r with
    | none => some o
    | some b => if d.opRank c o ≤ d.opRank c b then some o else some b

/-- Issue the next command of operation `o`: the row is opened first, then the column command reaches the memory. -/
def DieSt.issueOp (d : DieSt) (c : Nat) (o : DramOp) : DieSt :=
  let h := d.ch c
  let a := d.lineFields c o.req.line
  if h.openRow.get (fun _ => none) a.bankKey != some a.row then
    d.setCh c { h with openRow := h.openRow.set (fun _ => none) a.bankKey (some a.row) }
  else if o.req.wr then
    let p := d.physLine c o.req.line
    let d := if o.req.be = 2 ^ 64 - 1 then d else d.lineFound c o.port o.req.line
    let h := d.ch c
    let h1 := if o.req.be = 2 ^ 64 - 1 then h.putLine p o.req.data else h.mergeLine p o.req.data o.req.be
    d.setCh c { h1 with ops := h1.ops.filter (fun e => e.id != o.id) }
  else
    let p := d.physLine c o.req.line
    d.setCh c { h with ops := h.ops.map (fun e => if e.id = o.id then { e with issued := true, got := (h.line p, h.flips p) } else e) }

/-- DRAM_COMMAND_ISSUE. -/
def DieSt.dramIssue (d : DieSt) (c : Nat) (ready : List Nat) : DieSt :=
  if !d.chReady c || d.on (F.DMC_STAT_SELFREF c) then d
  else
    match d.refreshNext c with
    | some d' => d'.chShow c
    | none =>
      let h := d.ch c
      match d.bestOp c (h.ops.filter (fun o => !o.issued && ready.contains o.id && !heldBack h.ops o)) with
      | none => d
      | some o => (d.issueOp c o).chShow c

/-- The memory returned line `w` in place of the one read: the code covers the line address, so what comes reads as
uncorrectable (R264). -/
def DieSt.opWrong (d : DieSt) (c : Nat) (o : DramOp) (w : Nat) : DieSt × Nat × Bool :=
  let p := d.physLine c w
  (d.lineFoundAs c o.port o.req.line 2, Nat.xor ((d.ch c).line p) ((d.ch c).flips p % 2 ^ 512), true)

/-- What an issued read delivers after bits `u` have flipped: the line as its column command found it, whatever has been
written since (R257). -/
def DieSt.opRead (d : DieSt) (c : Nat) (o : DramOp) (u : Nat) : DieSt × Nat × Bool :=
  let p := d.physLine c o.req.line
  if o.got = ((d.ch c).line p, (d.ch c).flips p) then d.lineRead c o.port o.req.line u
  else
    let fl := Nat.xor o.got.2 u % 2 ^ 640
    let cls := lineClass fl
    (d.lineFoundAs c o.port o.req.line cls, if cls = 2 then Nat.xor o.got.1 (fl % 2 ^ 512) else o.got.1, cls == 2)

/-- A timing setting that waits is applied once no request of the rank is in flight (R261). -/
def DieSt.retime (d : DieSt) (c : Nat) : DieSt :=
  (List.range (d.ranks c)).foldl (fun (d : DieSt) rank =>
    let h := d.ch c
    match h.timingNext.get (fun _ => none) rank with
    | some v =>
      if h.ops.any (fun o => o.issued && (d.lineFields c o.req.line).rank == rank) then d
      else d.setCh c { h with timing := h.timing.set (fun _ => 0) rank v, timingNext := h.timingNext.set (fun _ => none) rank none }
    | none => d) d

/-- DRAM_READ_DONE. -/
def DieSt.dramDone (d : DieSt) (c id u : Nat) (wrong : Option Nat) : DieSt :=
  if !d.chReady c then d
  else
    match (d.ch c).ops.find? (fun o => o.id == id && o.issued) with
    | none => d
    | some o =>
      let r := match wrong with
        | some w => if w = o.req.line then d.opRead c o u else d.opWrong c o w
        | none => d.opRead c o u
      let h := r.1.ch c
      let d := r.1.setCh c { h with ops := h.ops.filter (fun e => e.id != id) }
      ((d.dramReply c o.port ⟨r.2.1, o.req.tag, r.2.2⟩ false).retime c).chShow c

/-! ### Background work (R260, R261, R265, R266) -/

/-- May a background step start (R42, R255, R260). -/
def DieSt.mayBackground (d : DieSt) (c : Nat) (c0waits : Bool) : Bool :=
  d.chReady c && !d.on (F.DMC_STAT_SELFREF c) && !c0waits && !d.chPanic c

/-- PATROL_SCRUB_STEP: a correctable line is written back corrected; the pass starts again at line 0 with its row-error
records cleared (R260, R265). -/
def DieSt.patrolStep (d : DieSt) (c u : Nat) (c0waits : Bool) : DieSt :=
  if !d.mayBackground c c0waits then d
  else
    let l := (d.ch c).patrol
    let p := d.physLine c l
    let r := d.lineRead c 15 l u
    let d := r.1
    let h := d.ch c
    let h := if lineClass (h.flips p) = 1 then h.putLine p (h.line p) else h
    let wraps := decide (d.capLines c ≤ l + 1)
    d.setCh c { h with patrol := if wraps then 0 else l + 1, rowErr := if wraps then Tab.empty else h.rowErr }

/-- CALIBRATION_SLOT.  A retraining that finds the rank's timing moved by more than half of the remaining eye gives a new setting;
three failed retrainings in a row on a rank raise DRAM_TRAIN_FAIL, and the rank keeps its last good setting (R261). -/
def DieSt.calSlot (d : DieSt) (c rank : Nat) (kind : CalKind) (ok c0waits : Bool) : DieSt :=
  if !d.mayBackground c c0waits || decide (d.ranks c ≤ rank) then d
  else
    match kind with
    | .retrain moved =>
      let h := d.ch c
      let n := if ok then 0 else h.trainFails.get (fun _ => 0) rank + 1
      let next := if ok && moved.isSome then h.timingNext.set (fun _ => none) rank moved else h.timingNext
      let d := (d.setCh c { h with
        trainFails := h.trainFails.set (fun _ => 0) rank n, retrain := h.retrain.set (fun _ => false) rank false
        timingNext := next }).retime c
      if n = 3 then d.dmcEvt c 3 4 (rank * 2 ^ 23) else d
    | _ => d

/-- Do three failed retraining slots stand on every rank (R269). -/
def DieSt.trainLost (d : DieSt) (c : Nat) : Bool :=
  (List.range (d.ranks c)).all (fun r => decide (3 ≤ (d.ch c).trainFails.get (fun _ => 0) r))

/-- DMC_CMD_RES.BUSY after a copy has ended: another may still run. -/
def DieSt.copyBusy (d : DieSt) (c : Nat) : DieSt :=
  d.put (F.DMC_CMD_RES_BUSY c) (b2n ((List.range 64).any (fun k => d.f (F.DMC_SPARE_STATE c k) == 1)))

/-- SPARE_COPY_STEP: one line is read, corrected and written to the spare row; an uncorrectable line stays so (R266). -/
def DieSt.copyStep (d : DieSt) (c k u : Nat) (c0waits : Bool) : DieSt :=
  if !d.mayBackground c c0waits || decide (64 ≤ k) || d.f (F.DMC_SPARE_STATE c k) != 1 then d
  else
    let n := (d.ch c).copied.get (fun _ => 0) k
    let a : LineAddr := { subch := d.f (F.DMC_SPARE_SUBCH c k), bank := d.f (F.DMC_SPARE_BANK c k), col := n,
                          rank := d.f (F.DMC_SPARE_RANK c k), row := d.f (F.DMC_SPARE_ROW c k) }
    let src := d.lineOf c a
    let dst := d.lineOf c { a with row := d.dramRows c - 1 }
    let r := d.lineRead c 15 src u
    let d := r.1
    let h := d.ch c
    let h1 := h.putLine dst (h.line src)
    let h1 := if r.2.2 then { h1 with flip := h1.flip.set (fun _ => 0) dst (h.flips src) } else h1
    let d := d.setCh c { h1 with copied := h1.copied.set (fun _ => 0) k (n + 1) }
    if n + 1 = d.rowLines c then
      let d := d.put (F.DMC_SPARE_STATE c k) 2
      let d := d.quarAdd 2 5 (4 * k + c) (d.rd (R.DMC_SPARE c k)).toNat
      (d.copyBusy c).dmcEvt c 3 3 (k * 2 ^ 18 + a.row % 2 ^ 17)
    else d

/-! ### DMC_CMD (R266, R271) -/

/-- Write DMC_CMD_RES. -/
def DieSt.dmcStatus (d : DieSt) (c n : Nat) : DieSt := d.put (F.DMC_CMD_RES_STATUS c) n

/-- DMC_CMD SPARE. -/
def DieSt.dmcSpare (d : DieSt) (c subch rank bank row : Nat) : DieSt :=
  if !d.chReady c then d.dmcStatus c 3
  else if decide (d.ranks c ≤ rank) || decide (d.dramRows c - 1 ≤ row) then d.dmcStatus c 2
  else
    let r := d.spareStart c ⟨subch % 2, bank % 32, 0, rank, row⟩
    r.1.dmcStatus c (if r.2 then 0 else 1)

/-- DMC_CMD FREE: ACTIVE entries only. -/
def DieSt.dmcFree (d : DieSt) (c k : Nat) : DieSt :=
  if d.f (F.DMC_SPARE_STATE c (k % 64)) = 2 then ((d.quarDrop 2 (4 * (k % 64) + c)).wr (R.DMC_SPARE c (k % 64)) 0).dmcStatus c 0 else d.dmcStatus c 3

/-- DMC_CMD RETRAIN. -/
def DieSt.dmcRetrain (d : DieSt) (c : Nat) : DieSt :=
  if !d.chReady c then d.dmcStatus c 3
  else
    let h := d.ch c
    (d.setCh c { h with retrain := (List.range (d.ranks c)).foldl (fun t r => t.set (fun _ => false) r true) h.retrain }).dmcStatus c 0

/-! ### Training and repair (R267, R268) -/

/-- Training starts on every channel the header configures (R268). -/
def DieSt.dramTrain (d : DieSt) : DieSt :=
  (List.range 4).foldl (fun d c =>
    if d.dmcOn c && d.on (F.DMC_CFG_EN c) && d.f (F.DMC_STAT_STATE c) == chOff then
      (d.put (F.DMC_STAT_STATE c) chTraining).put (F.DMC_STAT_SELFREF c) 0
    else d) d

/-- A channel has become FAILED: every request on it ends with ERR (R269). -/
def DieSt.dramEnd (d : DieSt) (c cause : Nat) : DieSt :=
  let d := (d.put (F.DMC_STAT_STATE c) chFailed).put (F.DMC_STAT_CAUSE c) cause
  let h := d.ch c
  let all := h.ops.map (fun o => (o.port, o.req)) ++ h.offers.cells.flatMap (fun x => x.2.map (fun r => (x.1, r)))
  let d := d.setCh c { h with ops := [], offers := Tab.empty, partialWr := Tab.empty }
  let d := all.foldl (fun (d : DieSt) x => d.dramReply c x.1 ⟨0, x.2.tag, true⟩ x.2.wr) d
  (d.chShow c).dmcEvt c 3 5 (cause * 2 ^ 20)

/-- After the Full-Time Test every ACTIVE entry of a channel whose devices report hPPR support is under repair (R267). -/
def DieSt.pprStart (d : DieSt) : DieSt :=
  (List.range 4).foldl (fun d c =>
    if d.chReady c && (d.ch c).hppr then
      (List.range 64).foldl (fun d k => if d.f (F.DMC_SPARE_STATE c k) == 2 then d.put (F.DMC_SPARE_STATE c k) 3 else d) d
    else d) d

/-- POST_PACKAGE_REPAIR_END: a repaired entry is copied back and freed; otherwise it stays ACTIVE and is counted (R267). -/
def DieSt.pprEnd (d : DieSt) (c k : Nat) (ok : Bool) : DieSt :=
  if d.f (F.DMC_SPARE_STATE c k) != 3 || decide (64 ≤ k) || d.dev != 7 then d
  else if ok then
    let base : LineAddr := { subch := d.f (F.DMC_SPARE_SUBCH c k), bank := d.f (F.DMC_SPARE_BANK c k), col := 0,
                             rank := d.f (F.DMC_SPARE_RANK c k), row := d.f (F.DMC_SPARE_ROW c k) }
    let h := (List.range (d.rowLines c)).foldl (fun (h : DmcSt) n =>
      let src := d.lineOf c { base with col := n, row := d.dramRows c - 1 }
      let dst := d.lineOf c { base with col := n }
      let h1 := h.putLine dst (h.line src)
      if lineClass (h.flips src) = 2 then { h1 with flip := h1.flip.set (fun _ => 0) dst (h.flips src) } else h1) (d.ch c)
    ((d.setCh c h).quarDrop 2 (4 * k + c)).wr (R.DMC_SPARE c k) 0
  else (d.put (F.DMC_SPARE_STATE c k) 2).car 48 4 1

/-! ### The commands -/

/-- DRAM_REQUEST_ACCEPT (R254). -/
def execDramRequestAccept (x : Die) (c p : Nat) (req : Option DramArg) (s : State) : Out :=
  act x s (fun d => d.dramAccept c p req)

/-- DRAM_COMMAND_ISSUE (R256). -/
def execDramCommandIssue (x : Die) (c : Nat) (ready : List Nat) (s : State) : Out := act x s (fun d => d.dramIssue c ready)

/-- DRAM_READ_DONE (R264). -/
def execDramReadDone (x : Die) (c id upset : Nat) (wrong : Option Nat) (s : State) : Out :=
  act x s (fun d => d.dramDone c id upset wrong)

/-- REFRESH_DUE (R259). -/
def execRefreshDue (x : Die) (c rank : Nat) (s : State) : Out := act x s (fun d => d.refreshDue c rank)

/-- MR4_READ (R258). -/
def execMr4Read (x : Die) (c rank ind : Nat) (c0waits : Bool) (s : State) : Out := act x s (fun d => d.mr4 c rank ind c0waits)

/-- PATROL_SCRUB_STEP (R260). -/
def execPatrolScrubStep (x : Die) (c upset : Nat) (c0waits : Bool) (s : State) : Out :=
  act x s (fun d => d.patrolStep c upset c0waits)

/-- SPARE_COPY_STEP (R266). -/
def execSpareCopyStep (x : Die) (c k upset : Nat) (c0waits : Bool) (s : State) : Out :=
  act x s (fun d => d.copyStep c k upset c0waits)

/-- DMC_SPARE (R266). -/
def execDmcSpare (x : Die) (m : Master) (c subch rank bank row : Nat) (s : State) : Out :=
  act x s (fun d => d.busAct m (R.DMC_CMD c) (fun d => d.dmcSpare c subch rank bank row))

/-- DMC_FREE (R266). -/
def execDmcFree (x : Die) (m : Master) (c k : Nat) (s : State) : Out :=
  act x s (fun d => d.busAct m (R.DMC_CMD c) (fun d => d.dmcFree c k))

/-- DMC_RETRAIN (R271). -/
def execDmcRetrain (x : Die) (m : Master) (c : Nat) (s : State) : Out :=
  act x s (fun d => d.busAct m (R.DMC_CMD c) (fun d => d.dmcRetrain c))

/-- DMC_CNT_CLR_REF (R271). -/
def execDmcCntClrRef (x : Die) (m : Master) (c : Nat) (s : State) : Out :=
  act x s (fun d => d.busAct m (R.DMC_CNT_CLR c) (fun d => d.put (F.DMC_REF_FORCED c) 0))

/-- DMC_CNT_CLR_ECC (R271). -/
def execDmcCntClrEcc (x : Die) (m : Master) (c : Nat) (s : State) : Out :=
  act x s (fun d => d.busAct m (R.DMC_CNT_CLR c) (fun d => d.wr (R.DMC_ECC_CNT c) 0))

end Sys2Proof.Machine
end

