-- ==== Sys2Proof/Machine/Queue.lean ====
section
/-! DEFINITION. Hard queues and check-value units (R206 to R230). -/

namespace Sys2Proof.Machine

/-! ### Claims (R426) -/

/-- The claimant of a resource, 0 none (Table 16-5). -/
def DieSt.claim (d : DieSt) (r : Nat) : Nat := d.claims.get (fun _ => 0) r

/-- Set the claimant of a resource. -/
def DieSt.setClaim (d : DieSt) (r who : Nat) : DieSt := { d with claims := d.claims.set (fun _ => 0) r who }

/-- Claimant codes of Table 16-5. -/
def claimReferee : Nat := 1 * 2 ^ 28
def claimTeam : Nat := 2 * 2 ^ 28
def claimPinPlan : Nat := 3 * 2 ^ 28
def claimMet : Nat := 4 * 2 ^ 28
def claimContext (n : Nat) : Nat := 5 * 2 ^ 28 + n
def claimUnit (u : Nat) : Nat := 6 * 2 ^ 28 + u

/-! ### Queues -/

/-- Queue `q`. -/
def DieSt.que (d : DieSt) (q : Nat) : QSt := d.q.get (fun _ => QSt.reset) q

/-- Is priority mode set (R216). -/
def DieSt.qPrio (d : DieSt) (q : Nat) : Bool := d.on (F.Q_CFG_PRIO q)

/-- Words of the spill window: none in priority mode or after a window was lost (R212, R214, R216). -/
def DieSt.qWindow (d : DieSt) (q : Nat) : Nat :=
  if d.qPrio q || (d.que q).nospill then 0 else 7168 * min 65536 (d.f (F.Q_SPILL_SIZE_SIZE q))

/-- The capacity in words (R212). -/
def DieSt.qCap (d : DieSt) (q : Nat) : Nat := 512 + d.qWindow q

/-- Words of a list that count toward the level: closing words do not (R218). -/
def countWords (l : List QWord) : Nat := (l.filter (fun w => !w.closing)).length

/-- Words held from the read position: Q_LEVEL. -/
def QSt.level (s : QSt) : Nat := countWords s.words

/-- Words held, from the mark when one is held (R217). -/
def QSt.held (s : QSt) : Nat := s.level + countWords s.kept

/-- Is the word the last of its item. -/
def QWord.eop (w : QWord) : Bool := bit w.tag 5

/-- The PRIO of a tag. -/
def tagPrio (t : Nat) : Nat := bits t 4 2

/-- Words of a list that lie at place `p`; a closing word lies in the closing register, outside every store (R212). -/
def placedAt (p : Nat) (l : List QWord) : Nat := (l.filter (fun w => w.place == p && !w.closing)).length

/-- The oldest `n` words at place `p` move to place `p2`. -/
def moveWords (p p2 : Nat) : Nat → List QWord → List QWord
  | 0, l => l
  | _, [] => []
  | n + 1, w :: r => if w.place == p && !w.closing then { w with place := p2 } :: moveWords p p2 n r else w :: moveWords p p2 (n + 1) r

/-- The first `a` words lie at place `p`, the next `b` at place `q` and the others at place `r`. -/
def layWords (p q r : Nat) : Nat → Nat → List QWord → List QWord
  | _, _, [] => []
  | a, b, w :: l =>
    if w.closing then w :: layWords p q r a b l
    else if a ≠ 0 then { w with place := p } :: layWords p q r (a - 1) b l
    else if b ≠ 0 then { w with place := q } :: layWords p q r a (b - 1) l
    else { w with place := r } :: layWords p q r a b l

/-- Words at the front of a list that lie in the head store, and words at its end that lie in the tail store. -/
def leadHead (l : List QWord) : Nat := countWords (l.takeWhile (fun w => w.place == 0 || w.closing))
def endTail (l : List QWord) : Nat := countWords (l.reverse.takeWhile (fun w => w.place == 2 || w.closing))

/-- The words of a queue in their stores (R212).  Unread words lie in order in the head store, the window and the tail store, at most
256 in either store; with none in the window the oldest 256 lie in the head store.  What is left of the head store holds the
newest kept words, then the window, and a full queue's oldest lie in the tail store. -/
def QSt.settle (s : QSt) (win : Nat) : QSt :=
  let n := countWords s.words
  let spilt := placedAt 1 s.words ≠ 0
  let t := if spilt then min 256 (endTail s.words) else min 256 (n - 256)
  let h := if spilt then min 256 (max (leadHead s.words) (n - t - win)) else min 256 n
  let m := n - t - h
  let k := countWords s.kept
  let kh := min k (256 - h)
  let kw := min (k - kh) (win - m)
  { s with words := layWords 0 1 2 h m s.words, kept := layWords 2 1 0 (k - kh - kw) kw s.kept }

/-- The items of a list of words, each with the index of its first word; the last may lack its end. -/
def itemStarts : Nat → Bool → List QWord → List Nat
  | _, _, [] => []
  | k, start, w :: r => if start then k :: itemStarts (k + 1) w.eop r else itemStarts (k + 1) w.eop r

/-- Does the item at index `k` have its EOP word. -/
def itemWhole (l : List QWord) (k : Nat) : Bool := (l.drop k).any (fun w => w.eop)

/-- Among the items that start at `ks`, the one whose first word has the highest PRIO, and among equals the first. -/
def bestItem (l : List QWord) : List Nat → Option Nat
  | [] => none
  | k :: r =>
    match bestItem l r with
    | none => some k
    | some b =>
      let p := fun (i : Nat) => ((l[i]?).map (fun w => tagPrio w.tag)).getD 0
      if p b ≤ p k then some k else some b

/-- The start of the item that the closing word ends: while the closing register is in use that item is read before any other
(R218). -/
def QSt.cutItem (s : QSt) : Option Nat :=
  (s.words.findIdx? (fun w => w.closing)).bind (fun c => ((itemStarts 0 true s.words).filter (fun k => decide (k ≤ c))).getLast?)

/-- The index of the next readable word (R215, R216, R218). -/
def QSt.next (s : QSt) (prio : Bool) : Option Nat :=
  if s.inItem then
    match s.words[s.cur]? with
    | some w => if w.place = 1 then none else some s.cur
    | none => none
  else if prio then
    match s.cutItem with
    | some k => some k
    | none => bestItem s.words ((itemStarts 0 true s.words).filter (fun k => itemWhole s.words k))
  else
    match s.words with
    | w :: _ => if w.place = 1 then none else some 0
    | [] => none

/-- Nothing is readable. -/
def DieSt.qEmpty (d : DieSt) (q : Nat) : Bool := ((d.que q).next (d.qPrio q)).isNone

/-- Q_STAT.FULL. -/
def DieSt.qFull (d : DieSt) (q : Nat) : Bool := decide (d.qCap q ≤ (d.que q).held)

/-- A flag crossing of queue `q` toward the fabric end of a row end: FULL toward the write end, EMPTY toward the read end
(R210).  The two share an instance of Table 09-3; which of its crossings is which is the model's (DESIGN CHOICE, log entry 147). -/
def qFlagX (q row : Nat) (east empty : Bool) : XRef := ⟨2, 4 * q + 1, row * 2 + b2n east + 64 * b2n empty, false⟩

/-- Replace queue `q`; each change of a flag is offered to the crossing of the fabric end that sees it (R210). -/
def DieSt.setQue (d : DieSt) (q : Nat) (v : QSt) : DieSt :=
  let e : DieSt := { d with q := d.q.set (fun _ => QSt.reset) q v }
  let full := d.qFull q != e.qFull q && d.f (F.Q_CFG_WSRC q) == 1
  let empty := d.qEmpty q != e.qEmpty q && d.f (F.Q_CFG_RSNK q) == 1
  let e := if full then e.xOffer (qFlagX q (d.f (F.Q_CFG_WSEL q)) (d.on (F.Q_CFG_WSIDE q)) false) (b2n (e.qFull q)) else e
  if empty then e.xOffer (qFlagX q (d.f (F.Q_CFG_RSEL q)) (d.on (F.Q_CFG_RSIDE q)) true) (b2n (e.qEmpty q)) else e

/-- The first place at or after `k`, of the `n` places of a window, that is none of `used`. -/
def freeSlot (used : List Nat) (n : Nat) : Nat → Nat → Nat
  | 0, k => k % n
  | f + 1, k => if used.contains (k % n) then freeSlot used n f (k + 1) else k % n

/-- Each word that has come into the window takes a free place there from `k` on; what lies in no window has none. -/
def slotWords (n : Nat) : List Nat → Nat → List QWord → List QWord × Nat
  | _, k, [] => ([], k)
  | used, k, w :: l =>
    if w.place == 1 && !w.closing then
      match w.slot with
      | some _ =>
        let t := slotWords n used k l
        (w :: t.1, t.2)
      | none =>
        let s := freeSlot used n used.length k
        let t := slotWords n (s :: used) (s + 1) l
        ({ w with slot := some s } :: t.1, t.2)
    else
      let t := slotWords n used k l
      ({ w with slot := none } :: t.1, t.2)

/-- The 72 bits of a stored word (R206). -/
def QWord.stored (w : QWord) : Nat := w.data.toNat + w.tag % 64 * 2 ^ 64 + w.par % 4 * 2 ^ 70

/-- Line `n` of a window as the words in it make it: word i at bit 72 × i. -/
def windowLine (l : List QWord) (n : Nat) : Nat :=
  l.foldl (fun v w => match w.slot with
    | some s => if s / 7 = n then v + w.stored * 2 ^ (72 * (s % 7)) else v
    | none => v) 0

/-- The port by which a queue's words pass to and from its window, and the window's first line (Table 10-4, R212). -/
def DieSt.spillPort (d : DieSt) (q : Nat) : Nat := 8 + d.f (F.Q_CFG_SCLASS q)
def DieSt.spillLine (d : DieSt) (q : Nat) : Nat := d.f (F.Q_SPILL_BASE_BASE q) * 1024

/-- Words that have come into the window of queue `q` are written there, line by line (R212). -/
def DieSt.spillSync (d : DieSt) (q : Nat) : DieSt :=
  let s := d.que q
  let l := s.kept ++ s.words
  if d.qWindow q = 0 || l.all (fun w => (w.place == 1 && !w.closing) == w.slot.isSome) then d
  else
    let used := l.filterMap (fun w => if w.place = 1 then w.slot else none)
    let r := slotWords (d.qWindow q) used s.wnext l
    let fresh := (r.1.filterMap (fun w => w.slot)).filter (fun k => !used.contains k)
    let c := d.f (F.Q_SPILL_BASE_CH q)
    let d := d.setQue q { s with kept := r.1.take s.kept.length, words := r.1.drop s.kept.length, wnext := r.2 }
    ((fresh.map (fun k => k / 7)).eraseDups).foldl (fun (d : DieSt) n =>
      d.portPuts c (d.spillPort q) (64 * (d.spillLine q + n)) (wordBytes 64 (windowLine r.1 n))) d

/-- Replace queue `q`, its words in their stores. -/
def DieSt.putQue (d : DieSt) (q : Nat) (v : QSt) : DieSt := (d.setQue q (v.settle (d.qWindow q))).spillSync q

/-- Q_STAT as it reads now (R223). -/
def DieSt.qStat (d : DieSt) (q : Nat) : Word :=
  let s := d.que q
  BitVec.ofNat 32 (b2n (d.qFull q) * 2 ^ 31 + b2n (d.qEmpty q) * 2 ^ 30 + b2n ((s.kept ++ s.words).any (fun w => w.place == 1)) * 2 ^ 29
    + b2n s.mark * 2 ^ 28 + b2n s.flushing * 2 ^ 27 + b2n s.discard * 2 ^ 26 + b2n s.nospill * 2 ^ 25)

/-- Raise event `k` of Table 08-3. -/
def DieSt.qEvt (d : DieSt) (q k data : Nat) : DieSt :=
  d.raiseIf (bit (d.f (F.Q_EVT_EN_EN q)) k) (0x580 + q) (0x0801 + k) data

/-- The parity of the low `w` bits. -/
def parity (w n : Nat) : Nat := popcount w n % 2

/-- P0 over data [31:0] and P1 over data [63:32] and the tag (R207). -/
def wordParity (data tag : Nat) : Nat := parity 32 data + 2 * ((parity 32 (data / 2 ^ 32) + parity 6 tag) % 2)

/-- The agent Q_CFG names at the write side (Table 08-2). -/
def DieSt.qWriter (d : DieSt) (q : Nat) : Option QEnd :=
  match d.f (F.Q_CFG_WSRC q) with
  | 1 => some (.fabric (d.f (F.Q_CFG_WSEL q)) (d.on (F.Q_CFG_WSIDE q)))
  | 2 => some .roster
  | 3 => some .team
  | 4 => some (.checkUnit (d.f (F.Q_CFG_WSEL q)))
  | 5 => some .subst
  | 6 => some .collector
  | _ => none

/-- The agent Q_CFG names at the read side. -/
def DieSt.qReader (d : DieSt) (q : Nat) : Option QEnd :=
  match d.f (F.Q_CFG_RSNK q) with
  | 1 => some (.fabric (d.f (F.Q_CFG_RSEL q)) (d.on (F.Q_CFG_RSIDE q)))
  | 2 => some .roster
  | 3 => some .team
  | 4 => some (.ethernet (d.f (F.Q_CFG_RSEL q)))
  | 5 => some (.slkPort (d.f (F.Q_CFG_RSEL q)))
  | _ => none

/-! ### Check-value units (R224 to R228) -/

/-- Unit `u`. -/
def DieSt.crcU (d : DieSt) (u : Nat) : CrcSt := d.crc.get (fun _ => CrcSt.reset) u

/-- Replace unit `u`. -/
def DieSt.setCrc (d : DieSt) (u : Nat) (v : CrcSt) : DieSt := { d with crc := d.crc.set (fun _ => CrcSt.reset) u v }

/-- The parameters a unit's registers hold (R230). -/
def DieSt.crcPar (d : DieSt) (u : Nat) : CrcPar where
  ctl := d.rd (R.CRC_CTL u)
  poly := d.rd64 (R.CRC_POLY_LO u) (R.CRC_POLY_HI u)
  init := d.rd64 (R.CRC_INIT_LO u) (R.CRC_INIT_HI u)
  xorout := d.rd64 (R.CRC_XOR_LO u) (R.CRC_XOR_HI u)
  exp := d.rd64 (R.CRC_EXP_LO u) (R.CRC_EXP_HI u)

/-- Is RUN set. -/
def CrcPar.run (p : CrcPar) : Bool := bit p.ctl.toNat 30

/-- Is EN set. -/
def CrcPar.en (p : CrcPar) : Bool := bit p.ctl.toNat 31

/-- A packet starts: the parameters take effect, unless a running unit keeps its own until RESTART (R227, R230). -/
def DieSt.crcStart (d : DieSt) (u : Nat) : DieSt :=
  let s := d.crcU u
  if s.par.en && s.par.run then d.setCrc u { s with inPacket := true }
  else
    let p := d.crcPar u
    d.setCrc u { s with par := p, reg := p.start, inPacket := true }

/-- CRC_RES shows a result. -/
def DieSt.crcShow (d : DieSt) (u v : Nat) : DieSt := d.wr64 (R.CRC_RES_LO u) (R.CRC_RES_HI u) v

/-- A packet ends in per-packet mode (R227). -/
def DieSt.crcEnd (d : DieSt) (u : Nat) : DieSt :=
  let s := d.crcU u
  let p := s.par
  let res := p.result s.reg
  let d := (d.crcShow u res).wrapBy (⟨R.CRC_CNT u, 31, 0⟩) 1
  let d := if bit p.ctl.toNat 22 && d.qWriter (bits p.ctl.toNat 21 16) == some (.checkUnit u) then
      d.setCrc u { s with offers := s.offers ++ [(bits p.ctl.toNat 21 16, BitVec.ofNat 64 res)] }
    else d
  if bit p.ctl.toNat 27 && res != p.exp % 2 ^ p.w then
    let d := d.bump ⟨R.CRC_MIS u, 31, 0⟩
    d.raiseLim true (0x0811 * 2 ^ 20 + u) 1000000 (0x5C0 + u) 0x0811 (d.rd (R.CRC_CNT u)).toNat
  else d

/-- Bytes of a packet reach unit `u`; `last` ends the packet. -/
def DieSt.crcTake (d : DieSt) (u : Nat) (bytes : List Nat) (last : Bool) : DieSt :=
  let d := if (d.crcU u).inPacket then d else d.crcStart u
  let s := d.crcU u
  if !s.par.en then d.setCrc u { s with inPacket := !last }
  else
    let s := { s with reg := bytes.foldl s.par.byteIn s.reg, inPacket := !last }
    let d := d.setCrc u s
    if s.par.run then d.crcShow u (s.par.result s.reg)
    else if last then d.crcEnd u
    else d

/-- Units attached to a point (R224). -/
def DieSt.watchers (d : DieSt) (kind idx : Nat) : List Nat :=
  (List.range 16).filter (fun u => d.f (F.CRC_ATTACH_KIND u) == kind && d.f (F.CRC_ATTACH_INDEX u) == idx)

/-- A queue word or tap word passes an attachment point (Table 08-4). -/
def DieSt.crcWord (d : DieSt) (kind idx data tag : Nat) : DieSt :=
  (d.watchers kind idx).foldl (fun d u =>
    let d := if (d.crcU u).inPacket then d else d.crcStart u
    let c := (d.crcU u).par.ctl.toNat
    let n := if bit tag 5 && bits c 25 23 ≠ 0 then bits c 25 23 else 8
    let skip := bit c 26 && tag % 4 == 1
    d.crcTake u (if skip then [] else wordBytes n data) (bit tag 5)) d

/-- An item is cut at the write side: the packet of each unit that watches it ends with the bytes taken (DEDUCED, log entry 145:
each item is one packet, and no further word of this one is stored). -/
def DieSt.crcCut (d : DieSt) (q : Nat) : DieSt :=
  (d.watchers 1 q).foldl (fun d u => if (d.crcU u).inPacket then d.crcTake u [] true else d) d

/-- A whole packet passes an attachment point: an Ethernet frame or a Sunislink payload. -/
def DieSt.crcPacket (d : DieSt) (kind idx : Nat) (bytes : List Nat) : DieSt :=
  (d.watchers kind idx).foldl (fun d u => d.crcTake u bytes true) d

/-! ### Commands of the read side, and the flush (R219, R220) -/

/-- Write Q_CMD_RES.STATUS: 0 OK, 1 NO_MARK, 2 MODE, 3 DISABLED. -/
def DieSt.qStatus (d : DieSt) (q n : Nat) : DieSt := d.put (F.Q_CMD_RES_STATUS q) n

/-- MARK at an item boundary. -/
def QSt.placeMark (s : QSt) : QSt := { s with mark := true, kept := [] }

/-- REWIND at an item boundary. -/
def DieSt.qRewindNow (d : DieSt) (q : Nat) : DieSt :=
  let s := d.que q
  if s.mark then d.putQue q { s with words := s.kept ++ s.words, kept := [] }
  else (d.put (F.Q_ERR_REWIND_FAIL q) 1).qStatus q 1

/-- The commands that waited for the end of the item being read act in the order they came. -/
def DieSt.qWaits (d : DieSt) (q : Nat) : List QWait → DieSt
  | [] => d
  | .mark :: r => (d.setQue q (d.que q).placeMark).qWaits q r
  | .rewind :: r => (d.qRewindNow q).qWaits q r

/-- The words of the item the reader is inside, from the read position. -/
def QSt.itemRest (s : QSt) : List QWord :=
  let l := s.words.drop s.cur
  match l.findIdx? (fun w => w.eop) with
  | some k => l.take (k + 1)
  | none => l

/-- The flush point is reached (R219). -/
def DieSt.qFlushPoint (d : DieSt) (q : Nat) : DieSt :=
  let s := d.que q
  let rest := if s.inItem then s.itemRest else []
  (d.putQue q { s with words := rest, kept := [], mark := false, cur := 0, flushing := false }).put (F.Q_CMD_RES_BUSY q) 0

/-- The write side has finished an item: a pending flush reaches its point. -/
def DieSt.qItemDone (d : DieSt) (q : Nat) : DieSt := if (d.que q).flushing then d.qFlushPoint q else d

/-- FLUSH. -/
def DieSt.qFlush (d : DieSt) (q : Nat) : DieSt :=
  let s := d.que q
  let d := d.qStatus q 0
  if s.wIn then (d.setQue q { s with flushing := true }).put (F.Q_CMD_RES_BUSY q) 1 else d.qFlushPoint q

/-- The status that refuses a mark command: MODE before DISABLED (R209, R216). -/
def DieSt.qRefuses (d : DieSt) (q : Nat) : Nat := if d.qPrio q then 2 else if !d.on (F.Q_CFG_EN q) then 3 else 0

/-- MARK. -/
def DieSt.qMark (d : DieSt) (q : Nat) : DieSt :=
  if d.qRefuses q ≠ 0 then d.qStatus q (d.qRefuses q)
  else
    let s := d.que q
    (d.setQue q (if s.inItem then { s with waits := s.waits ++ [.mark] } else s.placeMark)).qStatus q 0

/-- REWIND. -/
def DieSt.qRewind (d : DieSt) (q : Nat) : DieSt :=
  if d.qRefuses q ≠ 0 then d.qStatus q (d.qRefuses q)
  else
    let s := d.que q
    let d := d.qStatus q 0
    if s.inItem then d.setQue q { s with waits := s.waits ++ [.rewind] } else d.qRewindNow q

/-- CLEAR_MARK. -/
def DieSt.qClearMark (d : DieSt) (q : Nat) : DieSt :=
  if d.qRefuses q ≠ 0 then d.qStatus q (d.qRefuses q)
  else
    let s := d.que q
    (d.setQue q { s with mark := false, kept := [], waits := s.waits.filter (fun w => w != .mark) }).qStatus q 0

/-- May a command come from `src`: a fabric write end sends FLUSH only, and only a named end sends any (R210). -/
def DieSt.qEndMay (d : DieSt) (q : Nat) (src : QSrc) (flush : Bool) : Bool :=
  match src with
  | .bus _ => true
  | .writeEnd => flush && d.f (F.Q_CFG_WSRC q) == 1
  | .readEnd => d.f (F.Q_CFG_RSNK q) == 1

/-- A queue command from the bus or from a fabric end. -/
def DieSt.qCommand (d : DieSt) (q : Nat) (src : QSrc) (flush : Bool) (g : DieSt → DieSt) : DieSt :=
  match src with
  | .bus m => d.busAct m (R.Q_CMD q) g
  | _ => if decide (q < 64) && d.hubOn && d.qEndMay q src flush then g d else d

/-! ### The write side (R207, R209, R211, R217, R218, R221) -/

/-- Count a refused word; `ovr` sets OVERRUN and raises Q_OVERRUN at most once a millisecond. -/
def DieSt.qRefuse (d : DieSt) (q : Nat) (ovr : Bool) : DieSt :=
  let d := d.bump (F.Q_CNT_REFUSED q)
  if ovr then
    let s := d.que q
    let n := satInc 16 s.refused
    let d := d.put (F.Q_ERR_OVERRUN q) 1
    let key := 0x0801 * 2 ^ 20 + q
    if bit (d.f (F.Q_EVT_EN_EN q)) 0 && d.due key 1000000 then
      (d.setQue q { s with refused := 0 }).raiseLim true key 1000000 (0x580 + q) 0x0801 n
    else d.setQue q { s with refused := n }
  else d

/-- Store a word. -/
def DieSt.qStore (d : DieSt) (q data tag : Nat) : DieSt :=
  let s := d.que q
  let w : QWord := { data := BitVec.ofNat 64 data, tag := tag, par := wordParity (data % 2 ^ 64) tag, closing := false, place := 2, slot := none, err := false }
  let d := d.putQue q { s with
    words := s.words ++ [w], wIn := !bit tag 5, wPrio := if s.wIn then s.wPrio else tagPrio tag }
  d.crcWord 1 q data tag

/-- The closing word of an item of priority `p` (R214). -/
def closingWord (p : Nat) : QWord :=
  { data := 0, tag := 2 ^ 5 + 4 * p, par := 0, closing := true, place := 0, slot := none, err := false }

/-- The words up to the last EOP word. -/
def wholeItems (l : List QWord) : List QWord := (l.reverse.dropWhile (fun w => !w.eop)).reverse

/-- Place a closing word behind the words stored (R214, R218).  The closing register holds one word: while another cut item's
word waits there, the stored words of this item are dropped, and nothing of it is read (DESIGN CHOICE, log entry 143). -/
def QSt.close (s : QSt) : QSt :=
  { s with words := if s.words.any (fun w => w.closing) then wholeItems s.words else s.words ++ [closingWord s.wPrio] }

/-- A refusal at a full queue (R217, R218). -/
def DieSt.qFullWord (d : DieSt) (q tag : Nat) : DieSt :=
  let s := d.que q
  let s1 := if s.wIn then s.close else s
  let d := if s.wIn then d.crcCut q else d
  let d := d.putQue q { s1 with wIn := !bit tag 5, discard := !bit tag 5, wPrio := if s.wIn then s.wPrio else tagPrio tag }
  d.qRefuse q true

/-- A word is offered to a queue by the agent Q_CFG names. -/
def DieSt.qOffer (d : DieSt) (q data tag : Nat) : DieSt :=
  let s := d.que q
  let tag := tag % 64
  let eop := bit tag 5
  if !d.on (F.Q_CFG_EN q) && !s.wIn then d.qRefuse q false
  else
    let d :=
      if s.discard then (d.setQue q { s with discard := !eop, wIn := !eop }).qRefuse q true
      else if decide (s.held < d.qCap q) then d.qStore q data tag
      else if s.mark && d.on (F.Q_CFG_MARK_YIELD q) && decide (s.level < d.qCap q) then
        let d := ((d.setQue q { s with mark := false, kept := [] }).put (F.Q_ERR_MARK_LOST q) 1).qEvt q 2 0
        d.qStore q data tag
      else d.qFullWord q tag
    if eop then d.qItemDone q else d

/-- Room for a whole item of `n` words written by the device itself (R211). -/
def DieSt.qRoom (d : DieSt) (q n : Nat) : Bool :=
  let s := d.que q
  d.on (F.Q_CFG_EN q)
  && decide (n + (if d.on (F.Q_CFG_MARK_YIELD q) then s.level else s.held) ≤ d.qCap q)

/-- Append an item, a list of data and tag (R211). -/
def DieSt.qAppend (d : DieSt) (q : Nat) (item : List (Nat × Nat)) : DieSt :=
  item.foldl (fun d w => d.qOffer q w.1 w.2) d

/-- QUEUE_WORD_WRITE. -/
def DieSt.qWordWrite (d : DieSt) (q : Nat) (who : QEnd) (data tag : Nat) : DieSt :=
  if !d.hubOn || decide (64 ≤ q) then d
  else
    match who with
    | .fabric _ _ => if d.qWriter q = some who then d.qOffer q data tag else d.qRefuse q false
    | .checkUnit u =>
      let o := (d.crcU u).offers
      match o.find? (fun v => v.1 == q) with
      | some v =>
        let d := d.setCrc u { d.crcU u with offers := o.erase v }
        if d.qWriter q = some who then d.qOffer q v.2.toNat 32 else d
      | none => d
    | _ => if d.qWriter q = some who then d.qOffer q data tag else d

/-! ### The read side (R207, R209, R215, R216, R220) -/

/-- Take word `k` from the queue and deliver it.  A word whose window line could not be corrected is delivered with POISON
(R264), counted as a parity failure is (DESIGN CHOICE, log entry 144). -/
def DieSt.qTake (d : DieSt) (q k u : Nat) : DieSt × Option QOut :=
  let s := d.que q
  match s.words[k]? with
  | none => (d, none)
  | some w =>
    let data := Nat.xor w.data.toNat (u % 2 ^ 64)
    let tag := Nat.xor w.tag (bits u 69 64)
    let par := Nat.xor w.par (bits u 71 70)
    let fails := !w.closing && (w.err || wordParity data tag != par)
    let w2 := if w.closing then w else { w with data := BitVec.ofNat 64 data, tag := tag, par := par, place := 0 }
    let o : QOut := { data := w2.data, tag := w2.tag, poison := w.closing || fails }
    let eop := w2.eop
    let s := { s with
      words := s.words.eraseIdx k, kept := if s.mark then s.kept ++ [w2] else s.kept, inItem := !eop
      cur := if eop then 0 else k, rPrio := if s.inItem then s.rPrio else tagPrio w2.tag, out := some o, waits := if eop then [] else s.waits }
    let waits := (d.que q).waits
    let d := d.putQue q s
    let d := if fails then ((d.bump (F.Q_CNT_POISON q)).put (F.Q_ERR_POISON q) 1).qEvt q 1 o.tag else d
    let d := if eop then d.qWaits q waits else d
    (d.crcWord 2 q o.data.toNat o.tag, some o)

/-- Read the next word, if any is readable. -/
def DieSt.qRead (d : DieSt) (q u : Nat) : DieSt × Option QOut :=
  match (d.que q).next (d.qPrio q) with
  | none => (d, none)
  | some k => d.qTake q k u

/-- Read a whole item, up to and including its EOP word; `us` are the bits of its words that have flipped. -/
def DieSt.qReadItem (d : DieSt) (q : Nat) : Nat → List Nat → DieSt × List QOut
  | 0, _ => (d, [])
  | n + 1, us =>
    match d.qRead q (us.headD 0) with
    | (d, none) => (d, [])
    | (d, some o) =>
      if bit o.tag 5 then (d, [o])
      else
        let r := d.qReadItem q n us.tail
        (r.1, o :: r.2)

/-- The data crossing of a fabric read end, and the value a delivered word is on it: data, tag, POISON (R207, R210). -/
def qReadX (q row : Nat) (east : Bool) : XRef := ⟨2, 4 * q + 3, row * 2 + b2n east, false⟩
def QOut.wires (o : QOut) : Nat := o.data.toNat + o.tag * 2 ^ 64 + b2n o.poison * 2 ^ 70

/-- QUEUE_WORD_READ.  A fabric end takes the word over its data crossing, whose register must be empty. -/
def DieSt.qWordRead (d : DieSt) (q : Nat) (who : QEnd) (u : Nat) : DieSt :=
  if d.hubOn && decide (q < 64) && d.qReader q == some who then
    match who with
    | .fabric row east =>
      let x := qReadX q row east
      if d.xReset x true || (d.xr x).srcRst || (d.xr x).full then d
      else
        match d.qRead q u with
        | (d, some o) => d.xOffer x o.wires
        | (d, none) => d
    | _ => (d.qRead q u).1
  else d

/-! ### Configuration (R208, R209, R214) -/

/-- Reserved codes of Q_CFG (R208). -/
def qCfgReserved (v : Word) : Bool :=
  bits v.toNat 27 25 == 7 || decide (6 ≤ bits v.toNat 18 16) || bits v.toNat 9 8 == 0

/-- Is the queue disabled and empty. -/
def DieSt.qIdle (d : DieSt) (q : Nat) : Bool := !d.on (F.Q_CFG_EN q) && (d.que q).words.isEmpty

/-- The state of a queue after a reconfiguration: neither side is inside an item, and no flush waits for the end of one. -/
def QSt.fresh (s : QSt) : QSt :=
  { s with
    mark := false, kept := [], waits := [], nospill := false, inItem := false, cur := 0, rPrio := 0
    wIn := false, wPrio := 0, discard := false, flushing := false, wnext := 0 }

/-- A reconfiguration of queue `q`: an item cut at the write side ends its packet too, and a flush that waited for it is over. -/
def DieSt.qFresh (d : DieSt) (q : Nat) : DieSt :=
  let s := d.que q
  let d := if s.wIn && !s.discard then d.crcCut q else d
  (d.setQue q s.fresh).put (F.Q_CMD_RES_BUSY q) 0

/-- Does the queue serve an admitted express context.  A descriptor in use has a state that is not FREE. -/
def DieSt.servesExpress (d : DieSt) (q : Nat) : Bool :=
  d.regs.cells.any (fun c => decide (0x13400000 ≤ c.1) && decide (c.1 < 0x13400000 + 0x40 * 40960) && c.1 % 0x40 == 0
    && bits c.2.toNat 31 28 != 0 && bit c.2.toNat 18
    && (let n := (c.1 - 0x13400000) / 0x40
        let w1 := (d.rd (R.ROS_CTX n 1)).toNat
        let w2 := (d.rd (R.ROS_CTX n 2)).toNat
        (!bit w1 31 && bits w1 29 24 == q) || (bit w2 31 && bits w2 5 0 == q)))

/-- Set Q_CFG, Q_SPILL_BASE and Q_SPILL_SIZE together, without their reserved bits, when R208 and R209 allow the change;
`none` when not.  Only a pinned queue serves an admitted express context (R213): a change that would unpin such a queue is
refused (DESIGN CHOICE, log entry 146). -/
def DieSt.qConfigure (d : DieSt) (q : Nat) (cfg base size : Word) : Option DieSt :=
  let cfg := cfg &&& 0xFFFFFF00
  let base := base &&& 0xC00FFFFF
  let size := size &&& 0x1FFFF
  let c0 := d.rd (R.Q_CFG q)
  let b0 := d.rd (R.Q_SPILL_BASE q)
  let s0 := d.rd (R.Q_SPILL_SIZE q)
  let bits0 := c0.toNat % 2 ^ 31 == cfg.toNat % 2 ^ 31 && b0 == base && s0 == size
  if bits0 then some (d.wr (R.Q_CFG q) cfg)
  else if d.qIdle q && !(d.servesExpress q && !bit cfg.toNat 30) then
    some ((((d.wr (R.Q_CFG q) cfg).wr (R.Q_SPILL_BASE q) base).wr (R.Q_SPILL_SIZE q) size).qFresh q)
  else none

/-- The agent a Q_CFG word names at an end: code, side and selector. -/
def qEndOf (v : Nat) (wr : Bool) : Nat × Nat × Nat :=
  if wr then (bits v 27 25, bits v 24 24, bits v 23 19) else (bits v 18 16, bits v 15 15, bits v 14 10)

/-- Who claims an end that Q_CFG binds: the hardware unit it names, else `who`; none where no agent, or the Roster's read
side, stands there (R208, Table 16-5). -/
def qEndClaim (v who : Nat) (wr : Bool) : Nat :=
  let e := qEndOf v wr
  if e.1 = 0 || (!wr && e.1 = 2) then 0
  else if wr && e.1 = 4 then claimUnit e.2.2
  else if wr && e.1 = 5 then claimUnit 0x100
  else if wr && e.1 = 6 then claimUnit 0x101
  else who

/-- The claim of an end, in the Referee's table (Table 16-4). -/
def qEndRes (q : Nat) (wr : Bool) : Nat := (if wr then 0x600 else 0x640) + q

/-- Does an end of a Q_CFG word that comes into force take a new claim: its binding is one (R208).  An end left as it was keeps its claimant, and no
claim is released here (R426). -/
def DieSt.qEndNew (d : DieSt) (q old v who : Nat) (wr : Bool) : Bool :=
  qEndClaim v who wr != 0 && !(qEndOf v wr == qEndOf old wr && d.claim (qEndRes q wr) != 0)

/-- As `qEndNew` says, the table takes the claim or stays. -/
def DieSt.qEndBound (d : DieSt) (q old v who : Nat) (wr : Bool) : DieSt :=
  if d.qEndNew q old v who wr then d.setClaim (qEndRes q wr) (qEndClaim v who wr) else d

/-- A write of Q_CFG, Q_SPILL_BASE or Q_SPILL_SIZE by the Referee; the second value says that it is refused.  One that would take a
new claim is refused while the Referee restarts (R38; that the write ends with an error is the model's choice, log entry 192). -/
def DieSt.qCfgWrite (d : DieSt) (q k : Nat) (v : Word) : DieSt × Bool :=
  let cfg := if k = 0 then v else d.rd (R.Q_CFG q)
  let base := if k = 1 then v else d.rd (R.Q_SPILL_BASE q)
  let size := if k = 2 then v else d.rd (R.Q_SPILL_SIZE q)
  if (k == 0 && qCfgReserved v) || (k == 2 && decide (65536 < size.toNat % 2 ^ 17))
      || (bit cfg.toNat 30 && decide (size.toNat % 2 ^ 17 ≠ 0))
      || (d.restarting && [true, false].any (d.qEndNew q (d.rd (R.Q_CFG q)).toNat cfg.toNat claimReferee)) then (d, true)
  else
    let old := (d.rd (R.Q_CFG q)).toNat
    match d.qConfigure q cfg base size with
    | some d' => ((d'.qEndBound q old cfg.toNat claimReferee true).qEndBound q old cfg.toNat claimReferee false, false)
    | none => (d, true)

/-- SPILL_WRITE_END: the oldest `n` words of the tail store, as far as the window has room, now lie in the window (R212). -/
def DieSt.spillOut (d : DieSt) (q n : Nat) : DieSt :=
  let s := d.que q
  let l := s.kept ++ s.words
  let l := moveWords 2 1 (min n (d.qWindow q - placedAt 1 l)) l
  if d.hubOn && decide (q < 64) then
    (d.setQue q { s with kept := l.take s.kept.length, words := l.drop s.kept.length }).spillSync q
  else d

/-- The oldest `n` words of the window as its lines give them: `line` gives a line's 512 bits, and whether its read ended with ERR. -/
def fetchWords (line : Nat → Nat × Bool) : Nat → List QWord → List QWord
  | 0, l => l
  | _, [] => []
  | n + 1, w :: l =>
    if w.place == 1 && !w.closing then
      let s := w.slot.getD 0
      let v := (line (s / 7)).1 / 2 ^ (72 * (s % 7)) % 2 ^ 72
      { w with
        data := BitVec.ofNat 64 v, tag := bits v 69 64, par := bits v 71 70, place := 0, slot := none, err := (line (s / 7)).2 }
        :: fetchWords line n l
    else w :: fetchWords line (n + 1) l

/-- SPILL_FETCH_END: the oldest `n` unread words of the window now lie in the head store; where it has no room, kept words give way,
and then later words that the window is to give again.  Each line that holds one of them is read once by the port of the queue's
class, in which bits `us` have flipped, line by line (R264); a word of a line that is uncorrectable, or at or above DMC_CAP, is
delivered with POISON.  What is read at or above DMC_CAP is a free value (log entry 177). -/
def DieSt.spillIn (d : DieSt) (q n : Nat) (us : List Nat) : DieSt :=
  let s := d.que q
  let n := min n (min 256 (placedAt 1 s.words))
  let c := d.f (F.Q_SPILL_BASE_CH q)
  let at' := fun (k : Nat) => d.spillLine q + k
  let slots := ((s.words.filter (fun w => w.place == 1 && !w.closing)).take n).filterMap (fun w => w.slot)
  let lines := (slots.map (fun k => k / 7)).eraseDups
  if d.hubOn && decide (q < 64) && decide (n ≠ 0) then
    let port := d.spillPort q
    let d := (lines.zip (List.range lines.length)).foldl (fun (d : DieSt) x =>
      let l := at' x.1
      let d := if l < d.capLines c then d.setCh c ((d.ch c).hit (d.physLine c l) (nth 0 us x.2)) else d
      d.bytesFound c port (64 * l) 64) d
    let open' := Config.freeNat d.free % 2 ^ 512
    let line := fun (k : Nat) =>
      if at' k < d.capLines c then ((d.ch c).lineOut (d.physLine c (at' k)), d.dramBad c (64 * at' k)) else (open', true)
    let d := if lines.all (fun k => decide (at' k < d.capLines c)) then d else { d with free := d.free + 1 }
    d.putQue q { s with words := fetchWords line n s.words }
  else d

/-- Drop words up to and including the first EOP word. -/
def dropItem : List QWord → List QWord
  | [] => []
  | w :: r => if w.eop then r else dropItem r

/-- The PRIO of the item the words of a list end in. -/
def QSt.endPrio (s : QSt) (l : List QWord) : Nat :=
  match ((itemStarts 0 (!s.inItem) l).getLast?).bind (fun k => l[k]?) with
  | some w => tagPrio w.tag
  | none => s.rPrio

/-- The words of a list without the item that ends in a closing word. -/
def dropClosed (l : List QWord) : List QWord :=
  match l.findIdx? (fun w => w.closing) with
  | some k => wholeItems (l.take k) ++ l.drop (k + 1)
  | none => l

/-- The words that are left when the window fails (R214): those of the head store, closed by a closing word if they end inside an
item, and those of the tail store behind its first EOP word.  The closing register holds one word: where another cut item's
waits in it, the item of the two that the reader has not come to loses its words, and nothing of it is read (DESIGN CHOICE,
log entry 143). -/
def QSt.unspilt (s : QSt) : List QWord :=
  let first := s.words.takeWhile (fun w => w.place == 0)
  let tail := dropItem ((s.words.drop first.length).filter (fun w => w.place != 1))
  let inside := match first.getLast? with
    | some w => !w.eop
    | none => s.inItem
  if !inside then first ++ tail
  else if first.any (fun w => w.closing) then wholeItems first ++ tail
  else first ++ [closingWord (s.endPrio first)] ++ dropClosed tail

/-- R214: the DRAM channel of the window has failed: its words are lost, the head store is closed, and the tail store's words up to
its first EOP word go, with the rest of an item that is still being written; its packet in a unit that watches it ends there.  A
mark some of whose kept words the window held goes with them (DESIGN CHOICE, log entry 148). -/
def DieSt.spillFail (d : DieSt) (q c : Nat) : DieSt :=
  if d.qWindow q = 0 || d.f (F.Q_SPILL_BASE_CH q) != c then d
  else
    let s := d.que q
    let first := s.words.takeWhile (fun w => w.place == 0)
    let cut := s.wIn && !((s.words.drop first.length).filter (fun w => w.place != 1)).any (fun w => w.eop)
    let s1 := { s with words := s.unspilt, discard := s.discard || cut, nospill := true }
    let s1 := if placedAt 1 s.kept = 0 then s1 else { s1 with kept := [], mark := false }
    let d := if cut && !s.discard then d.crcCut q else d
    ((d.setQue q (s1.settle 0)).put (F.Q_ERR_SPILL_FAIL q) 1).qEvt q 3 c

/-! ### The commands -/

/-- QUEUE_WORD_WRITE (R217). -/
def execQueueWordWrite (x : Die) (q : Nat) (who : QEnd) (data : Word64) (tag : Nat) (s : State) : Out :=
  act x s (fun d => d.qWordWrite q who data.toNat tag)

/-- QUEUE_WORD_READ (R215). -/
def execQueueWordRead (x : Die) (q : Nat) (who : QEnd) (upset : Nat) (s : State) : Out :=
  act x s (fun d => d.qWordRead q who upset)

/-- Q_FLUSH (R219). -/
def execQFlush (x : Die) (q : Nat) (src : QSrc) (s : State) : Out :=
  act x s (fun d => d.qCommand q src true (fun d => d.qFlush q))

/-- Q_MARK (R220). -/
def execQMark (x : Die) (q : Nat) (src : QSrc) (s : State) : Out :=
  act x s (fun d => d.qCommand q src false (fun d => d.qMark q))

/-- Q_REWIND (R220). -/
def execQRewind (x : Die) (q : Nat) (src : QSrc) (s : State) : Out :=
  act x s (fun d => d.qCommand q src false (fun d => d.qRewind q))

/-- Q_CLEAR_MARK (R220). -/
def execQClearMark (x : Die) (q : Nat) (src : QSrc) (s : State) : Out :=
  act x s (fun d => d.qCommand q src false (fun d => d.qClearMark q))

/-- Q_CMD code 5: Q_CNT is cleared. -/
def DieSt.qCntClr (d : DieSt) (q : Nat) : DieSt := (d.wr (R.Q_CNT q) 0).qStatus q 0

/-- Q_CNT_CLEAR (R223). -/
def execQCntClear (x : Die) (m : Master) (q : Nat) (s : State) : Out :=
  act x s (fun d => d.busAct m (R.Q_CMD q) (fun d => d.qCntClr q))

/-- A write of Q_WR_TAG: the word of Q_WR_LO and Q_WR_HI is offered, if Team writes the queue. -/
def DieSt.qWrTag (d : DieSt) (q tag : Nat) : DieSt × Bool :=
  if d.qWriter q = some .team then (d.qOffer q (d.rd64 (R.Q_WR_LO q) (R.Q_WR_HI q)) tag, false) else (d, true)

/-- Q_WR_TAG (R223): refused while the write side is not bound to Team. -/
def execQWrTag (x : Die) (m : Master) (q tag : Nat) (s : State) : Out :=
  act x s (fun d => d.busDo m (R.Q_WR_TAG q) (fun d => d.qWrTag q tag))

/-- One Q_POP. -/
def DieSt.qPop (d : DieSt) (q u : Nat) : DieSt :=
  match d.qRead q u with
  | (d, some o) =>
    ((d.wr (R.Q_RD_LO q) (o.data.setWidth 32)).wr (R.Q_RD_HI q) (o.data.extractLsb' 32 32)).wr (R.Q_RD_TAG q)
      (BitVec.ofNat 32 (2 ^ 31 + b2n o.poison * 64 + o.tag))
  | (d, none) => d.put (F.Q_RD_TAG_VALID q) 0

/-- A write of Q_POP, if Team reads the queue. -/
def DieSt.qPopDo (d : DieSt) (q u : Nat) : DieSt × Bool :=
  if d.qReader q = some .team then (d.qPop q u, false) else (d, true)

/-- Q_POP (R223): refused while the read side is not bound to Team. -/
def execQPop (x : Die) (m : Master) (q upset : Nat) (s : State) : Out :=
  act x s (fun d => d.busDo m (R.Q_POP q) (fun d => d.qPopDo q upset))

/-- Q_CFG_WRITE (R208). -/
def execQCfgWrite (x : Die) (m : Master) (q k : Nat) (v : Word) (s : State) : Out :=
  act x s (fun d =>
    d.busDo m (if k = 0 then R.Q_CFG q else if k = 1 then R.Q_SPILL_BASE q else R.Q_SPILL_SIZE q) (fun d => d.qCfgWrite q (min 2 k) v))

/-- SPILL_WRITE_END (R212). -/
def execSpillWriteEnd (x : Die) (q n : Nat) (s : State) : Out := act x s (fun d => d.spillOut q n)

/-- SPILL_FETCH_END (R212). -/
def execSpillFetchEnd (x : Die) (q n : Nat) (us : List Nat) (s : State) : Out := act x s (fun d => d.spillIn q n us)

/-- CRC_CMD.RESTART: `reg` returns to INIT, and a running unit takes what its registers hold (R227, R230). -/
def DieSt.crcRestart (d : DieSt) (u : Nat) : DieSt :=
  let s := d.crcU u
  let p := if s.par.run then d.crcPar u else s.par
  d.setCrc u { s with par := p, reg := p.start }

/-- CRC_RESTART (R227). -/
def execCrcRestart (x : Die) (m : Master) (u : Nat) (s : State) : Out :=
  act x s (fun d => d.busAct m (R.CRC_CMD u) (fun d => d.crcRestart u))

/-- CRC_CMD.CNT_CLR. -/
def DieSt.crcCntClr (d : DieSt) (u : Nat) : DieSt := (d.wr (R.CRC_CNT u) 0).wr (R.CRC_MIS u) 0

/-- CRC_CNT_CLR (R230). -/
def execCrcCntClr (x : Die) (m : Master) (u : Nat) (s : State) : Out :=
  act x s (fun d => d.busAct m (R.CRC_CMD u) (fun d => d.crcCntClr u))

/-- The byte range of a scan: channel, address, length. -/
def DieSt.scanRange (d : DieSt) (u : Nat) : Nat × Nat × Nat :=
  (d.f (F.CRC_SCAN_ADDR_HI_CH u), (d.rd (R.CRC_SCAN_ADDR_LO u)).toNat + d.f (F.CRC_SCAN_ADDR_HI_ADDR u) * 2 ^ 32,
    (d.rd (R.CRC_SCAN_LEN u)).toNat)

/-- A scan ends with an error code (0 none) and raises CRC_SCAN_DONE. -/
def DieSt.scanOver (d : DieSt) (u code : Nat) : DieSt :=
  let d := d.setCrc u { d.crcU u with scan := none }
  let d := (d.put (F.CRC_SCAN_STAT_BUSY u) 0).put (F.CRC_SCAN_STAT_CODE u) code
  let d := if code = 0 then d.put (F.CRC_SCAN_STAT_DONE u) 1 else d.put (F.CRC_SCAN_STAT_ERR u) 1
  d.raise (0x5C0 + u) 0x0812 (code * 2 ^ 21)

/-- CRC_SCAN_CTL.GO (R228). -/
def DieSt.scanGo (d : DieSt) (u : Nat) : DieSt :=
  let r := d.scanRange u
  let fail := fun (code : Nat) => (d.put (F.CRC_SCAN_STAT_ERR u) 1).put (F.CRC_SCAN_STAT_CODE u) code
  if d.on (F.CRC_SCAN_STAT_BUSY u) || d.f (F.CRC_ATTACH_KIND u) ≠ 0 then fail 1
  else if r.2.2 = 0 || decide (d.capLines r.1 * 64 < r.2.1 + r.2.2) || decide (d.idn.ddr ≤ r.1) then fail 2
  else (d.setCrc u { d.crcU u with scan := some ⟨d.crcPar u, r.1, r.2.1, r.2.2⟩ }).put (F.CRC_SCAN_STAT_BUSY u) 1

/-- CRC_SCAN_GO (R228). -/
def execCrcScanGo (x : Die) (m : Master) (u : Nat) (s : State) : Out :=
  act x s (fun d => d.busAct m (R.CRC_SCAN_CTL u) (fun d => d.scanGo u))

/-- CRC_SCAN_CTL.ABORT: the scan has ended early, which ERR says (R228, R230). -/
def DieSt.scanAbort (d : DieSt) (u : Nat) : DieSt :=
  if d.on (F.CRC_SCAN_STAT_BUSY u) then
    (((d.setCrc u { d.crcU u with scan := none }).put (F.CRC_SCAN_STAT_BUSY u) 0).put (F.CRC_SCAN_STAT_ERR u) 1).put
      (F.CRC_SCAN_STAT_CODE u) 0
  else d

/-- CRC_SCAN_ABORT (R228). -/
def execCrcScanAbort (x : Die) (m : Master) (u : Nat) (s : State) : Out :=
  act x s (fun d => d.busAct m (R.CRC_SCAN_CTL u) (fun d => d.scanAbort u))

/-- The register after a scan's bytes, in rising address order. -/
def DieSt.scanReg (d : DieSt) (p : CrcPar) (c a : Nat) : Nat → Nat
  | 0 => p.start
  | n + 1 => p.byteIn (d.scanReg p c a n) (d.dramByte c (a + n))

/-- Lines of a scan's range. -/
def ScanSt.lines (p : ScanSt) : Nat := (p.addr + p.len + 63) / 64 - p.addr / 64

/-- The end of a scan: with an uncorrectable line, one stored so or the one a read found at `bad`, it ends with code 3 and has
read no further (R228).  The lines it has read count (R264). -/
def DieSt.scanEnd (d : DieSt) (u : Nat) (bad : Option Nat) : DieSt :=
  match (d.crcU u).scan with
  | none => d
  | some p =>
    let stored := (List.range p.lines).find? (fun k => d.dramBad p.ch (64 * (p.addr / 64 + k)))
    let found := (bad.map (fun a => a / 64 - p.addr / 64)).filter (fun k => decide (k < p.lines))
    let first := match stored, found with
      | some a, some b => some (min a b)
      | some a, none => some a
      | none, b => b
    match first with
    | some k =>
      let d := d.bytesFound p.ch 11 (64 * (p.addr / 64)) (64 * k)
      (if stored == some k then d.lineFound p.ch 11 (p.addr / 64 + k) else d.lineFoundAs p.ch 11 (p.addr / 64 + k) 2).scanOver u 3
    | none =>
      let v := p.par.result (d.scanReg p.par p.ch p.addr p.len)
      ((d.bytesFound p.ch 11 p.addr p.len).wr64 (R.CRC_SCAN_RES_LO u) (R.CRC_SCAN_RES_HI u) v).scanOver u 0

/-- CRC_SCAN_END (R228). -/
def execCrcScanEnd (x : Die) (u : Nat) (bad : Option Nat) (s : State) : Out := act x s (fun d => d.scanEnd u bad)

end Sys2Proof.Machine
end

