-- ==== Sys2Proof/Machine/Nvm.lean ====
section
/-! DEFINITION. The record area of the NVM: the Career log and the TEAM_SEL record (R408, R420).  A copy is held as what its
bytes say, or nothing while its CRC fails. -/

namespace Sys2Proof.Machine

/-! ### The Career log -/

/-- A word of a Career record. -/
def careerWord (r : Tab Word) (k : Nat) : Nat := (r.get (fun _ => 0) k).toNat

/-- Is a record of the log one of this die of this part (R403, R408, Table 15-11). -/
def DieSt.careerOwn (d : DieSt) (r : Tab Word) : Bool :=
  careerWord r 2 + careerWord r 3 * 2 ^ 32 == d.idn.uid % 2 ^ 64 && careerWord r 4 % 256 == d.idn.die

/-- The valid Career record of this die with the highest SEQ. -/
def DieSt.lastCareer (d : DieSt) : Option (Tab Word) :=
  ((d.nvm.career.cells.filterMap (fun c => c.2)).filter d.careerOwn).foldl (fun b r =>
    match b with
    | none => some r
    | some x => if careerWord x 1 < careerWord r 1 then some r else some x) none

/-- The live record as words, with its fixed fields and its CRC (Table 15-11). -/
def DieSt.careerWords (d : DieSt) (seq : Nat) : Tab Word :=
  let w (k : Nat) : Word :=
    if k = 0 then 0x52414331
    else if k = 1 then BitVec.ofNat 32 seq
    else if k = 2 then BitVec.ofNat 32 d.idn.uid
    else if k = 3 then BitVec.ofNat 32 (d.idn.uid / 2 ^ 32)
    else if k = 4 then BitVec.ofNat 32 (d.idn.die + 256)
    else d.rd (R.CAR_REC k)
  let t := (List.range 255).foldl (fun t k => t.set (fun _ => 0) k (w k)) (Tab.empty : Tab Word)
  t.set (fun _ => 0) 255 (BitVec.ofNat 32 (crc32 ((List.range 255).flatMap (fun k => wordBytes 4 (w k).toNat))))

/-- Show a record in the CAR block. -/
def DieSt.careerShow (d : DieSt) (t : Tab Word) : DieSt :=
  (List.range 256).foldl (fun d k => d.wr (R.CAR_REC k) (t.get (fun _ => 0) k)) d

/-- Write the live record to the next slot, the sector erased before its first slot is written; a write that fails sets CAR_ERR and raises CAR_FAIL (R408). -/
def DieSt.careerWrite (d : DieSt) (ok : Bool) : DieSt :=
  if !ok then
    (if d.on F.CAR_ERR_VALID then d else (d.put F.CAR_ERR_VALID 1).put F.CAR_ERR_CAUSE 1).raise 0x705 0x0F41 (2 ^ 21)
  else
    let seq := (d.rd (R.CAR_REC 1)).toNat + 1
    let t := d.careerWords seq
    let at' := d.recordArea + 131072 + 1024 * d.nvm.carNext
    let d := d.onNvmBus (d.nvmCmds (if d.nvm.carNext % 4 = 0 then [at'] else []) at'
      ((List.range 256).flatMap (fun k => wordBytes 4 (t.get (fun _ => 0) k).toNat)))
    let d := (d.careerShow t).put F.CAR_STAT_SEQ seq
    { d with nvm := { d.nvm with
      career := d.nvm.career.set (fun _ => none) d.nvm.carNext (some t)
      carNext := (d.nvm.carNext + 1) % 1920 } }

/-- A record stands in the log, but of another part (R414: UID mismatch). -/
def DieSt.careerOther (d : DieSt) : Bool :=
  (d.nvm.career.cells.filterMap (fun c => c.2)).any (fun r => careerWord r 2 + careerWord r 3 * 2 ^ 32 != d.idn.uid % 2 ^ 64)

/-- At start the Referee continues from the last valid record, or from zero (R408). -/
def DieSt.careerStart (d : DieSt) : DieSt :=
  match d.lastCareer with
  | some t => ((d.careerShow t).put F.CAR_STAT_VALID 1).put F.CAR_STAT_SEQ (t.get (fun _ => 0) 1).toNat
  | none =>
    let d := d.put F.CAR_STAT_VALID 0
    let cause := if d.careerOther then 3 else 2
    let d := if d.on F.CAR_ERR_VALID then d else (d.put F.CAR_ERR_VALID 1).put F.CAR_ERR_CAUSE cause
    ((d.wr (R.CAR_REC 0) 0x52414331).wr (R.CAR_REC 4) (BitVec.ofNat 32 (d.idn.die + 256))).raise 0x705 0x0F41 (cause * 2 ^ 21)

/-! ### TEAM_SEL -/

/-- A copy counts only when its UID is this part's. -/
def TeamSel.ofPart (uid : Nat) (m : Option TeamSel) : Option TeamSel := m.filter (fun q => q.uid == uid)

/-- The valid copy with the higher SEQ; SLOT 0, TRIAL 0 with both invalid (R420). -/
def DieSt.sel (d : DieSt) : TeamSel :=
  match TeamSel.ofPart d.idn.uid d.nvm.selA, TeamSel.ofPart d.idn.uid d.nvm.selB with
  | some a, some b => if a.seq < b.seq then b else a
  | some a, none => a
  | none, some b => b
  | none, none => ⟨0, d.idn.uid, 0, false, 0⟩

/-- The copy that the next write takes: an invalid one, else the one with the older SEQ; true is copy B. -/
def DieSt.selNext (d : DieSt) : Bool :=
  match TeamSel.ofPart d.idn.uid d.nvm.selA, TeamSel.ofPart d.idn.uid d.nvm.selB with
  | none, _ => false
  | some _, none => true
  | some a, some b => !decide (a.seq < b.seq)

/-- The 32 bytes of a TEAM_SEL copy (Table 16-9). -/
def TeamSel.bytes (m : TeamSel) : List Nat :=
  let b := wordBytes 4 0x4C455354 ++ wordBytes 4 m.seq ++ wordBytes 8 m.uid ++ [m.slot % 256, b2n m.trial, m.trialSlot % 256]
    ++ List.replicate 9 0
  b ++ wordBytes 4 (crc32 b)

/-- Write TEAM_SEL: the copy with the older SEQ takes SEQ + 1. -/
def DieSt.selWrite (d : DieSt) (slot : Nat) (trial : Bool) (trialSlot : Nat) : DieSt :=
  let m : TeamSel := ⟨d.sel.seq + 1, d.idn.uid, slot, trial, trialSlot⟩
  let at' := d.recordArea + 2097152 + (if d.selNext then 4096 else 0)
  let d := d.onNvmBus (d.nvmCmds [at'] at' m.bytes)
  if d.selNext then { d with nvm := { d.nvm with selB := some m } } else { d with nvm := { d.nvm with selA := some m } }

end Sys2Proof.Machine
end

