-- ==== Sys2Proof/Machine/SeDecode.lean ====
section
/-! DEFINITION. Signal engine instructions and their encoding (R156 to R163). -/

namespace Sys2Proof.Machine

/-- One load of the parallel format: pointer, modifier, destination (Table 06-8). -/
structure ParLoad where
  ap : Nat
  md : Nat
  dd : Nat
deriving DecidableEq, Repr

/-- A legal signal engine instruction.  Numbers are field values; codes are those of Tables 06-7, 06-9, 06-10. -/
inductive SeInsn where
  | nop
  | halt
  | yield (code : Nat)
  | swap
  | ret
  | jmpd (ds : Nat)
  | endl (level : Nat)
  | ld (m ap md rc : Nat)
  | st (m ap md rc : Nat)
  | lda (m addr rc : Nat)
  | sta (m addr rc : Nat)
  | move (dst src : Nat)
  | ldi (dst imm : Nat)
  | ldih (dd imm : Nat)
  | alu (sub dd ds : Nat) (imm : Bool) (dt k : Nat)
  | acc (sub ad as dd sh : Nat)
  | br (cond target : Nat)
  | call (target : Nat)
  | loop (level : Nat) (reg : Bool) (last count : Nat)
  | tokIn (port dd : Nat) (nb : Bool)
  | tokOut (port ds : Nat) (nb : Bool)
  | addp (ap step : Nat)
  | par (op ad sx sy : Nat) (x y : Option ParLoad)
deriving DecidableEq, Repr

/-- Register codes an instruction may name as a source (Table 06-7). -/
def srcCode (c : Nat) : Bool := c ≤ 0x0B || (0x10 ≤ c && c ≤ 0x33)

/-- Register codes an instruction may name as a destination (Table 06-7): AB and AL are illegal. -/
def dstCode (c : Nat) : Bool := c ≤ 0x0B || (0x10 ≤ c && c ≤ 0x1F) || (0x30 ≤ c && c ≤ 0x33)

/-- Keep an instruction only if `c`: every reserved or unused field is 0 (R156). -/
def legal (c : Bool) (i : SeInsn) : Option SeInsn := if c then some i else none

/-- A load of the parallel format (R159): when it is not enabled its fields are 0. -/
def decodeLoad (en ap md dd : Nat) : Option (Option ParLoad) :=
  if en = 1 then some (some ⟨ap, md, dd⟩)
  else if ap = 0 && md = 0 && dd = 0 then some none
  else none

/-- Are the fields a parallel operation does not use 0 (R156, R159). -/
def parFields (op ad sx sy : Nat) : Bool :=
  if op = 0 then ad == 0 && sx == 0 && sy == 0
  else if op ≤ 4 || op = 14 then true
  else if op = 5 || op = 12 || op = 13 then sx == 0 && sy == 0
  else if op ≤ 8 then sy == 0
  else if op ≤ 11 then sx == 0 && decide (sy < 4)
  else false

/-- The parallel format (Table 06-8). -/
def decodePar (w : Nat) : Option SeInsn :=
  match decodeLoad (bits w 18 18) (bits w 17 15) (bits w 14 13) (bits w 12 10),
      decodeLoad (bits w 9 9) (bits w 8 6) (bits w 5 4) (bits w 3 1) with
  | some x, some y =>
    let same := match x, y with
      | some a, some b => a.ap == b.ap
      | _, _ => false
    legal (bits w 0 0 == 0 && !same && parFields (bits w 30 27) (bits w 26 25) (bits w 24 22) (bits w 21 19))
      (.par (bits w 30 27) (bits w 26 25) (bits w 24 22) (bits w 21 19) x y)
  | _, _ => none

/-- The control group (Table 06-12). -/
def decodeCtl (w : Nat) : Option SeInsn :=
  match bits w 25 22 with
  | 0 => legal (bits w 21 0 == 0) .nop
  | 1 => legal (bits w 21 0 == 0) .halt
  | 2 => legal (bits w 21 2 == 0 && bits w 1 0 != 3) (.yield (bits w 1 0))
  | 3 => legal (bits w 21 0 == 0) .swap
  | 4 => legal (bits w 21 0 == 0) .ret
  | 5 => legal (bits w 21 3 == 0) (.jmpd (bits w 2 0))
  | 6 => legal (bits w 21 1 == 0) (.endl (bits w 0 0))
  | _ => none

/-- The ALU format (R160). -/
def decodeAlu (w : Nat) : Option SeInsn :=
  let sub := bits w 25 22
  let im := bits w 15 15
  legal (sub ≤ 12 && (sub != 8 || bits w 21 19 == 0) && (if im = 1 then bits w 14 12 == 0 else bits w 11 0 == 0))
    (.alu sub (bits w 21 19) (bits w 18 16) (im == 1) (bits w 14 12) (bits w 11 0))

/-- Are the fields an accumulator operation does not use 0 (R161). -/
def accFields (sub ad dd sh : Nat) : Bool :=
  match sub with
  | 0 => dd == 0
  | 1 => sh == 0
  | 2 => ad == 0 && sh == 0
  | 3 => dd == 0 && sh == 0
  | 4 => ad == 0 && sh == 0
  | 5 => ad == 0 && sh == 0
  | 6 => ad == 0 && sh == 0
  | 7 => sh == 0
  | 8 => sh == 0
  | 9 => sh == 0
  | _ => false

/-- The accumulator format (R161). -/
def decodeAcc (w : Nat) : Option SeInsn :=
  legal (bits w 8 0 == 0 && accFields (bits w 25 22) (bits w 21 20) (bits w 17 15) (bits w 14 9))
    (.acc (bits w 25 22) (bits w 21 20) (bits w 19 18) (bits w 17 15) (bits w 14 9))

/-- Decode one word; `none` is an illegal word (R156, R157). -/
def seDecode (w : Nat) : Option SeInsn :=
  if bits w 31 31 = 1 then decodePar w
  else
    match bits w 30 26 with
    | 0x00 => decodeCtl w
    | 0x01 => legal (bits w 13 0 == 0 && dstCode (bits w 19 14)) (.ld (bits w 25 25) (bits w 24 22) (bits w 21 20) (bits w 19 14))
    | 0x02 => legal (bits w 13 0 == 0 && srcCode (bits w 19 14)) (.st (bits w 25 25) (bits w 24 22) (bits w 21 20) (bits w 19 14))
    | 0x03 => legal (bits w 6 0 == 0 && dstCode (bits w 12 7)) (.lda (bits w 25 25) (bits w 24 13) (bits w 12 7))
    | 0x04 => legal (bits w 6 0 == 0 && srcCode (bits w 12 7)) (.sta (bits w 25 25) (bits w 24 13) (bits w 12 7))
    | 0x05 => legal (bits w 13 0 == 0 && dstCode (bits w 25 20) && srcCode (bits w 19 14)) (.move (bits w 25 20) (bits w 19 14))
    | 0x06 => legal (dstCode (bits w 25 20)) (.ldi (bits w 25 20) (bits w 19 0))
    | 0x07 => legal (bits w 22 12 == 0) (.ldih (bits w 25 23) (bits w 11 0))
    | 0x08 => decodeAlu w
    | 0x09 => decodeAcc w
    | 0x0A => legal (bits w 21 12 == 0 && bits w 25 22 != 15) (.br (bits w 25 22) (bits w 11 0))
    | 0x0B => legal (bits w 25 12 == 0) (.call (bits w 11 0))
    | 0x0C => legal (bits w 24 24 == 0 || bits w 11 3 == 0)
        (.loop (bits w 25 25) (bits w 24 24 == 1) (bits w 23 12) (bits w 11 0))
    | 0x0D => legal (bits w 19 0 == 0) (.tokIn (bits w 25 24) (bits w 23 21) (bits w 20 20 == 1))
    | 0x0E => legal (bits w 19 0 == 0) (.tokOut (bits w 25 24) (bits w 23 21) (bits w 20 20 == 1))
    | 0x0F => legal (bits w 22 12 == 0) (.addp (bits w 25 23) (bits w 11 0))
    | _ => none

/-- The row of the command table an instruction belongs to. -/
inductive SeKind where
  | nop | halt | yieldDone | yieldAgain | yieldError | swap | ret | jmpd | endl | ld | st | lda | sta | move | ldi | ldih
  | br | call | loop | tokIn | tokOut | addp
  | alu (sub : Nat)
  | acc (sub : Nat)
  | par (op : Nat)
deriving DecidableEq, Repr

/-- The row of an instruction; an illegal word belongs to the row of NOP and faults there. -/
def SeInsn.kind : Option SeInsn → SeKind
  | none => .nop
  | some .nop => .nop
  | some .halt => .halt
  | some (.yield 0) => .yieldDone
  | some (.yield 1) => .yieldAgain
  | some (.yield _) => .yieldError
  | some .swap => .swap
  | some .ret => .ret
  | some (.jmpd _) => .jmpd
  | some (.endl _) => .endl
  | some (.ld _ _ _ _) => .ld
  | some (.st _ _ _ _) => .st
  | some (.lda _ _ _) => .lda
  | some (.sta _ _ _) => .sta
  | some (.move _ _) => .move
  | some (.ldi _ _) => .ldi
  | some (.ldih _ _) => .ldih
  | some (.alu sub _ _ _ _ _) => .alu sub
  | some (.acc sub _ _ _ _) => .acc sub
  | some (.br _ _) => .br
  | some (.call _) => .call
  | some (.loop _ _ _ _) => .loop
  | some (.tokIn _ _ _) => .tokIn
  | some (.tokOut _ _ _) => .tokOut
  | some (.addp _ _) => .addp
  | some (.par op _ _ _ _ _) => .par op

/-- BR, CALL, RET and JMPD have a delay slot (R152). -/
def SeInsn.branches : SeInsn → Bool
  | .br _ _ => true
  | .call _ => true
  | .ret => true
  | .jmpd _ => true
  | _ => false

/-- Is a word that of a control transfer, which may not stand in a delay slot (R152): BR, CALL, LOOP, HALT, YIELD, SWAP, RET
or JMPD by its opcode, legal or not (R173 names SLOT before ILLEGAL; DEDUCED, log entry 118). -/
def transferWord (w : Nat) : Bool :=
  bits w 31 31 == 0 && (
    (decide (0x0A ≤ bits w 30 26) && decide (bits w 30 26 ≤ 0x0C))
    || (bits w 30 26 == 0 && decide (1 ≤ bits w 25 22) && decide (bits w 25 22 ≤ 5)))

end Sys2Proof.Machine
end

