-- ==== Sys2Proof/Machine/Flags.lean ====
section
/-! DEFINITION. Signal engine arithmetic and flags (R142 to R146, R160, R161). -/

namespace Sys2Proof.Machine

/-- The four flags of SR[3:0]. -/
structure Nzvc where
  n : Bool
  z : Bool
  v : Bool
  c : Bool
deriving DecidableEq, Repr

/-- SR fields (Table 06-4). -/
def srIm (sr : BitVec 16) : Bool := sr.getLsbD 15
def srSat (sr : BitVec 16) : Bool := sr.getLsbD 14
def srOg (sr : BitVec 16) : Bool := sr.getLsbD 13
def srN (sr : BitVec 16) : Bool := sr.getLsbD 3
def srZ (sr : BitVec 16) : Bool := sr.getLsbD 2
def srV (sr : BitVec 16) : Bool := sr.getLsbD 1
def srC (sr : BitVec 16) : Bool := sr.getLsbD 0

/-- Replace the four flags. -/
def srFlags (sr : BitVec 16) (f : Nzvc) : BitVec 16 :=
  (sr &&& 0xFFF0) ||| BitVec.ofNat 16 (8 * b2n f.n + 4 * b2n f.z + 2 * b2n f.v + b2n f.c)

/-- Set the sticky SAT bit if `b` (R145). -/
def srSetSat (sr : BitVec 16) (b : Bool) : BitVec 16 := if b then sr ||| 0x4000 else sr

/-- Set the sticky OG bit if `b` (R144). -/
def srSetOg (sr : BitVec 16) (b : Bool) : BitVec 16 := if b then sr ||| 0x2000 else sr

/-- Replace C alone. -/
def srSetC (sr : BitVec 16) (b : Bool) : BitVec 16 := (sr &&& 0xFFFE) ||| BitVec.ofNat 16 (b2n b)

/-- Replace Z alone. -/
def srSetZ (sr : BitVec 16) (b : Bool) : BitVec 16 := (sr &&& 0xFFFB) ||| BitVec.ofNat 16 (4 * b2n b)

/-- Does an exact value lie outside the 56-bit range. -/
def out56 (i : Int) : Bool := decide (i < -(2 ^ 55 : Int)) || decide (i ≥ (2 ^ 55 : Int))

/-- Align a 24-bit value into an accumulator (R142). -/
def align (im : Bool) (d : Word24) : BitVec 56 :=
  if im then BitVec.ofInt 56 d.toInt else BitVec.ofInt 56 (d.toInt * 2 ^ 24)

/-- The product the multiplier forms (R143): exact, shifted left by one in fractional mode. -/
def product (im unsignedY : Bool) (x y : Word24) : Int :=
  let p := x.toInt * (if unsignedY then (y.toNat : Int) else y.toInt)
  if im then p else 2 * p

/-- V of an accumulator result (R144). -/
def accV (im : Bool) (r : BitVec 56) : Bool :=
  let i := r.toInt
  if im then decide (i < -(2 ^ 23 : Int)) || decide (i ≥ (2 ^ 23 : Int))
  else decide (i < -(2 ^ 47 : Int)) || decide (i ≥ (2 ^ 47 : Int))

/-- Flags of an accumulator result (R144). -/
def accFlags (im : Bool) (r : BitVec 56) (c : Bool) : Nzvc := ⟨r.getLsbD 55, r == 0, accV im r, c⟩

/-- The store value of an accumulator, and whether it clamps (R145). -/
def storeValue (im : Bool) (a : BitVec 56) : Word24 × Bool :=
  let s := if im then a.toInt else a.toInt / 2 ^ 24
  if s > 2 ^ 23 - 1 then (0x7FFFFF, true)
  else if s < -(2 ^ 23) then (0x800000, true)
  else (BitVec.ofInt 24 s, false)

/-- An accumulator clamped to the range a store takes, and whether it clamps (R161, SAT). -/
def satAcc (im : Bool) (a : BitVec 56) : BitVec 56 × Bool :=
  let m : Int := if im then 2 ^ 23 else 2 ^ 47
  if a.toInt > m - 1 then (BitVec.ofInt 56 (m - 1), true)
  else if a.toInt < -m then (BitVec.ofInt 56 (-m), true)
  else (a, false)

/-- How many bits from bit 55 downward equal bit 55. -/
def leading (a : BitVec 56) : Nat → Nat
  | 0 => 0
  | k + 1 => if a.getLsbD k == a.getLsbD 55 then 1 + leading a k else 0

/-- The exponent of an accumulator (R146). -/
def exponent (a : BitVec 56) : Int := if a = 0 then 0 else (leading a 56 : Int) - 9

/-- An accumulator shifted by `n`, left for positive (R146), and whether OG is set (R144). -/
def shiftAcc (a : BitVec 56) (n : Int) : BitVec 56 × Bool :=
  if n ≥ 0 then
    let e := a.toInt * 2 ^ n.toNat
    (BitVec.ofInt 56 e, out56 e)
  else (BitVec.ofInt 56 (a.toInt / 2 ^ (-n).toNat), false)

/-- An addition of two accumulator values: result, carry out of bit 55, OG (R144). -/
def addAcc (a b : BitVec 56) (exact : Int) : BitVec 56 × Bool × Bool :=
  (a + b, decide (a.toNat + b.toNat ≥ 2 ^ 56), out56 exact)

/-- A subtraction, carried out as addition of the complement plus one (R144). -/
def subAcc (a b : BitVec 56) (exact : Int) : BitVec 56 × Bool × Bool :=
  (a - b, decide (a.toNat + (~~~b).toNat + 1 ≥ 2 ^ 56), out56 exact)

/-- A parallel operation (Table 06-9): the new value of Ad, C and OG; `none` for NOP, which writes nothing. -/
def parOp (op : Nat) (im : Bool) (ad as : BitVec 56) (sx sy : Word24) : Option (BitVec 56 × Bool × Bool) :=
  match op with
  | 1 => let p := product im false sx sy; some (BitVec.ofInt 56 p, false, out56 p)
  | 2 => let p := product im false sx sy; some (addAcc ad (BitVec.ofInt 56 p) (ad.toInt + p))
  | 3 => let p := product im false sx sy; some (subAcc ad (BitVec.ofInt 56 p) (ad.toInt - p))
  | 4 => let p := -product im false sx sy; some (BitVec.ofInt 56 p, false, out56 p)
  | 5 => some (0, false, false)
  | 6 => some (addAcc ad (align im sx) (ad.toInt + (align im sx).toInt))
  | 7 => some (subAcc ad (align im sx) (ad.toInt - (align im sx).toInt))
  | 8 => some (align im sx, false, false)
  | 9 => some (as, false, false)
  | 10 => some (addAcc ad as (ad.toInt + as.toInt))
  | 11 => some (subAcc ad as (ad.toInt - as.toInt))
  | 12 => let e := if ad.toInt < 0 then -ad.toInt else ad.toInt; some (BitVec.ofInt 56 e, false, out56 e)
  | 13 => some (BitVec.ofInt 56 (-ad.toInt), false, out56 (-ad.toInt))
  | 14 => let p := product im true sx sy; some (addAcc ad (BitVec.ofInt 56 p) (ad.toInt + p))
  | _ => none

/-- N and Z of a 24-bit result (R160). -/
def aluFlags (r : Word24) (v c : Bool) : Nzvc := ⟨r.getLsbD 23, r == 0, v, c⟩

/-- Does an exact value lie outside the 24-bit range. -/
def out24 (i : Int) : Bool := decide (i < -(2 ^ 23 : Int)) || decide (i ≥ (2 ^ 23 : Int))

/-- Saturate to 24 bits. -/
def sat24 (i : Int) : Word24 :=
  if i ≥ (2 ^ 23 : Int) then 0x7FFFFF else if i < -(2 ^ 23 : Int) then 0x800000 else BitVec.ofInt 24 i

/-- The last bit an n-bit shift pushes out, for counts of at least 1 (R160): left, or right with fill `fill`. -/
def lastOut (left fill : Bool) (d : Word24) (n : Nat) : Bool :=
  if left then (decide (n ≤ 24) && d.getLsbD (24 - n)) else if n ≤ 24 then d.getLsbD (n - 1) else fill

/-- An ALU operation (R160): result, flags, and whether SAT is set.  `open0` stands for C of a shift by 0, where no bit is
shifted out and the spec states no value (log entry 11). -/
def aluOp (sub : Nat) (a b : Word24) (open0 : Bool) : Word24 × Nzvc × Bool :=
  let n := b.toNat % 32
  let sum := a.toInt + b.toInt
  let dif := a.toInt - b.toInt
  let cAdd := decide (a.toNat + b.toNat ≥ 2 ^ 24)
  let cSub := decide (b.toNat ≤ a.toNat)
  let sh := fun (left fill : Bool) => if n = 0 then open0 else lastOut left fill a n
  let flat := fun (r : Word24) => (r, aluFlags r false false, false)
  match sub with
  | 0 => (a + b, aluFlags (a + b) (out24 sum) cAdd, false)
  | 1 => (a - b, aluFlags (a - b) (out24 dif) cSub, false)
  | 2 => flat (a &&& b)
  | 3 => flat (a ||| b)
  | 4 => flat (a ^^^ b)
  | 5 => let r := if n ≥ 24 then 0 else a <<< n; (r, aluFlags r false (sh true false), false)
  | 6 => let r := BitVec.ofInt 24 (a.toInt / 2 ^ n); (r, aluFlags r false (sh false (a.getLsbD 23)), false)
  | 7 => let r := if n ≥ 24 then 0 else a >>> n; (r, aluFlags r false (sh false false), false)
  | 8 => (a - b, aluFlags (a - b) (out24 dif) cSub, false)
  | 9 => flat (if a.toInt ≤ b.toInt then a else b)
  | 10 => flat (if a.toInt ≥ b.toInt then a else b)
  | 11 => (sat24 sum, aluFlags (sat24 sum) (out24 sum) cAdd, out24 sum)
  | _ => (sat24 dif, aluFlags (sat24 dif) (out24 dif) cSub, out24 dif)

/-- Does the condition of BR hold (Table 06-13). -/
def brTaken (cond : Nat) (sr : BitVec 16) : Bool :=
  match cond with
  | 0 => true
  | 1 => srZ sr
  | 2 => !srZ sr
  | 3 => srN sr != srV sr
  | 4 => srN sr == srV sr
  | 5 => srZ sr || srN sr != srV sr
  | 6 => !srZ sr && srN sr == srV sr
  | 7 => srN sr
  | 8 => !srN sr
  | 9 => srV sr
  | 10 => !srV sr
  | 11 => srC sr
  | 12 => !srC sr
  | 13 => srSat sr
  | 14 => srOg sr
  | _ => false

end Sys2Proof.Machine
end

