-- ==== Sys2Proof/Machine/Operands.lean ====
section
/-! DEFINITION. Signal engine operands: banks and register codes, memories with check bits, pointers and modifiers
(R135, R139 to R142, R145, R147, R158). -/

namespace Sys2Proof.Machine

/-! ### Banks -/

/-- The active bank (R140). -/
def SeSt.bk (e : SeSt) : BankSt := if e.active then e.b1 else e.b0

/-- The shadow bank (R140). -/
def SeSt.sh (e : SeSt) : BankSt := if e.active then e.b0 else e.b1

/-- Replace the active bank. -/
def SeSt.setBk (e : SeSt) (b : BankSt) : SeSt := if e.active then { e with b1 := b } else { e with b0 := b }

/-- Replace the shadow bank. -/
def SeSt.setSh (e : SeSt) (b : BankSt) : SeSt := if e.active then { e with b0 := b } else { e with b1 := b }

/-- D register `i`. -/
def BankSt.dr (b : BankSt) (i : Nat) : Word24 := b.d.get (fun _ => 0) i

/-- Write D register `i`. -/
def BankSt.setD (b : BankSt) (i : Nat) (v : Word24) : BankSt := { b with d := b.d.set (fun _ => 0) i v }

/-- Accumulator `i`. -/
def BankSt.ar (b : BankSt) (i : Nat) : BitVec 56 := b.a.get (fun _ => 0) i

/-- Write accumulator `i`. -/
def BankSt.setA (b : BankSt) (i : Nat) (v : BitVec 56) : BankSt := { b with a := b.a.set (fun _ => 0) i v }

/-- Write the status register. -/
def BankSt.setSr (b : BankSt) (v : BitVec 16) : BankSt := { b with sr := v }

/-- Start of an instruction's addresses in a 12-bit space. -/
abbrev Addr12 := BitVec 12

/-! ### Register codes (Table 06-7) -/

/-- The value a register code gives as a source, and whether taking it clamped (R145). -/
def SeSt.srcVal (e : SeSt) (c : Nat) : Word24 × Bool :=
  let b := e.bk
  if c < 0x08 then (b.dr c, false)
  else if c < 0x0C then storeValue (srIm b.sr) (b.ar (c - 0x08))
  else if c < 0x18 then ((b.ap.get (fun _ => 0) (c - 0x10)).setWidth 24, false)
  else if c < 0x20 then ((b.am.get (fun _ => 0) (c - 0x18)).signExtend 24, false)
  else if c < 0x28 then ((e.ab.get (fun _ => 0) (c - 0x20)).setWidth 24, false)
  else if c < 0x30 then ((e.al.get (fun _ => 0) (c - 0x28)).setWidth 24, false)
  else if c < 0x32 then ((b.lc.get (fun _ => 0) (c - 0x30)).setWidth 24, false)
  else if c = 0x32 then (b.sr.setWidth 24, false)
  else (b.ra.setWidth 24, false)

/-- SR with its reserved bits 0 (Table 06-4). -/
def srMask (v : BitVec 16) : BitVec 16 := v &&& 0xEF0F

/-- Drop pending loop-counter commits of level `n`. -/
def dropLc (n : Nat) (l : List (Nat × BitVec 16)) : List (Nat × BitVec 16) := l.filter (fun p => p.1 != n)

/-- Execute writes pointer `n`: the private copy takes the value, and a change Decode made to it in the same cycle is lost
(R151). -/
def SeSt.moveAp (e : SeSt) (n : Nat) (v : Addr12) : SeSt :=
  let b := e.bk
  { e.setBk { b with ap := b.ap.set (fun _ => 0) n v } with
    pap := e.pap.set (fun _ => 0) n v
    ew := e.ew.map (fun w => { w with apUpd := w.apUpd.filter (fun p => p.1 != n) }) }

/-- Execute writes loop counter `n` (R151).  A change of the counter that a loop end already in Decode or Fetch would commit is
dropped, so the value moved stands (DESIGN CHOICE, log entry 140: R151 and R154 do not order the two). -/
def SeSt.moveLc (e : SeSt) (n : Nat) (v : BitVec 16) : SeSt :=
  let b := e.bk
  { e.setBk { b with lc := b.lc.set (fun _ => 0) n v } with
    plc := e.plc.set (fun _ => 0) n v
    ew := e.ew.map (fun w => { w with lcUpd := dropLc n w.lcUpd })
    fw := e.fw.map (fun w => { w with lcUpd := dropLc n w.lcUpd })
    wrap := e.wrap.map (fun w => { w with moved := n :: w.moved }) }

/-- Execute writes RA (R151). -/
def SeSt.moveRa (e : SeSt) (v : Addr12) : SeSt :=
  let b := e.bk
  { e.setBk { b with ra := v } with
    pra := v
    ew := e.ew.map (fun w => { w with raUpd := none }) }

/-- Write a register by code from a 24-bit value (Table 06-7). -/
def SeSt.wrCode (e : SeSt) (c : Nat) (v : Word24) : SeSt :=
  let b := e.bk
  if c < 0x08 then e.setBk (b.setD c v)
  else if c < 0x0C then e.setBk (b.setA (c - 0x08) (align (srIm b.sr) v))
  else if c < 0x18 then e.moveAp (c - 0x10) (v.setWidth 12)
  else if c < 0x20 then e.setBk { b with am := b.am.set (fun _ => 0) (c - 0x18) (v.setWidth 12) }
  else if c < 0x32 then e.moveLc (c - 0x30) (v.setWidth 16)
  else if c = 0x32 then e.setBk (b.setSr (srMask (v.setWidth 16)))
  else e.moveRa (v.setWidth 12)

/-! ### Memories (R135) -/

/-- Code bits of a word of P, X or Y: data and check bits (SEC-DED over 32 or 24 bits). -/
def seBits (m : Nat) : Nat := if m = 0 then 39 else 30

/-- The flipped code bits of a word. -/
def SeSt.flips (e : SeSt) (m a : Nat) : Nat := e.flip.get (fun _ => 0) (4096 * m + a)

/-- What the check bits of a word say (0 good, 1 single-bit, 2 uncorrectable). -/
def SeSt.mclass (e : SeSt) (m a : Nat) : Nat := eccClass (seBits m) (e.flips m a)

/-- The word a read of P delivers: corrected, or as stored when it cannot be corrected. -/
def SeSt.rdP (e : SeSt) (a : Nat) : Word :=
  let w := e.p.get (fun _ => 0) a
  if e.mclass 0 a = 2 then w ^^^ BitVec.ofNat 32 (e.flips 0 a) else w

/-- The word a read of X (`m` 1) or Y (`m` 2) delivers. -/
def SeSt.rdM (e : SeSt) (m a : Nat) : Word24 :=
  let w := if m = 1 then e.x.get (fun _ => 0) a else e.y.get (fun _ => 0) a
  if e.mclass m a = 2 then w ^^^ BitVec.ofNat 24 (e.flips m a) else w

/-- Write X or Y with new check bits. -/
def SeSt.wrM (e : SeSt) (m a : Nat) (v : Word24) : SeSt :=
  let e := { e with flip := e.flip.set (fun _ => 0) (4096 * m + a) 0 }
  if m = 1 then { e with x := e.x.set (fun _ => 0) a v } else { e with y := e.y.set (fun _ => 0) a v }

/-- Write P with new check bits. -/
def SeSt.wrP (e : SeSt) (a : Nat) (v : Word) : SeSt :=
  { e with flip := e.flip.set (fun _ => 0) a 0, p := e.p.set (fun _ => 0) a v }

/-- The physical address of an instruction's access to X (`m` 1) or Y (`m` 2): in a pooled engine, an address in the top
2W words has bit log2(W) replaced by the number of the active bank (R181). -/
def SeSt.mapA (e : SeSt) (m a : Nat) : Nat :=
  let w := if m = 1 then e.wx else e.wy
  if w = 0 || a < 4096 - 2 * w then a else putBit a w.log2 e.active

/-- Bits of words that have flipped since the last access: memory, address, mask. -/
def SeSt.upset (e : SeSt) (u : List (Nat × Nat × Nat)) : SeSt :=
  { e with flip := (u.filter (fun c => decide (c.1 < 3))).foldl (fun t c =>
      t.upd (fun _ => 0) (4096 * c.1 + c.2.1 % 4096) (fun f => eccFlip (seBits c.1) f c.2.2)) e.flip }

/-- The bits of the queue word under way that have flipped: the entries of memory 3. -/
def wordUpset (u : List (Nat × Nat × Nat)) : Nat := (u.filter (fun c => c.1 == 3)).foldl (fun x c => Nat.xor x c.2.2) 0

/-- One finding of a read: memory, address, and whether it was uncorrectable. -/
abbrev Finding := Nat × Nat × Bool

/-- The finding of reading a word, if any. -/
def SeSt.found (e : SeSt) (m a : Nat) : List Finding :=
  match e.mclass m a with
  | 0 => []
  | 1 => [(m, a, false)]
  | _ => [(m, a, true)]

/-! ### Pointers (R147) -/

/-- The new value of pointer `n` after step `k`. -/
def SeSt.stepAp (e : SeSt) (n : Nat) (ap : Addr12) (k : Int) : Addr12 :=
  let ab := (e.ab.get (fun _ => 0) n).toNat
  let al := (e.al.get (fun _ => 0) n).toNat
  let o := (ap.toNat + 4096 - ab) % 4096
  if al ≠ 0 && o < al then BitVec.ofInt 12 ((ab : Int) + ((o : Int) + k) % (al : Int))
  else BitVec.ofInt 12 ((ap.toNat : Int) + k)

/-- The step of a modifier of pointer `n`: none, +1, −1, +AMn (R147). -/
def SeSt.modStep (e : SeSt) (n md : Nat) : Int :=
  match md with
  | 0 => 0
  | 1 => 1
  | 2 => -1
  | _ => (e.bk.am.get (fun _ => 0) n).toInt

end Sys2Proof.Machine
end

