-- ==== Sys2Proof/Machine/SeCore.lean ====
section
/-! DEFINITION. The signal engine's pipeline, ports, bank swaps, halts and faults (R149 to R155, R164 to R175). -/

namespace Sys2Proof.Machine

/-! ### Starting, discarding, swapping -/

/-- Discard Fetch and Decode: the private copies are the active bank's again and fetch starts at its PC (R150, R167). -/
def SeSt.discard (e : SeSt) : SeSt :=
  let b := e.bk
  { e with
    fa := b.pc, fw := none, ew := none, wrap := none, pap := b.ap, pra := b.ra, plc := b.lc, pls := b.ls, ple := b.le,
    pact := b.act, lastBranch := false }

/-- R167: the banks exchange, and with them, in a pooled engine, what belongs to the two contexts. -/
def SeSt.swapBanks (e : SeSt) : SeSt := { e with active := !e.active, p3 := e.p3s, p3s := e.p3 }.discard

/-- R141: both banks at reset, with the entry addresses of a dedicated engine. -/
def SeSt.resetBanks (e : SeSt) (pooled : Bool) (entry0 entry1 : Nat) : SeSt :=
  let b := BankSt.reset
  { e with
    b0 := if pooled then b else { b with pc := BitVec.ofNat 12 entry0 }
    b1 := if pooled then b else { b with pc := BitVec.ofNat 12 entry1 }
    active := false, ran := false, evDue := false, brkSkip := none, haltReq := none, haltInsn := false,
    haltRecov := false, freezeReq := false, shadow := none }.discard

/-! ### Decode (R149, R151 to R155) -/

/-- The private pointer `n`. -/
def SeSt.papOf (e : SeSt) (n : Nat) : Addr12 := e.pap.get (fun _ => 0) n

/-- Decode with no operand. -/
def FetchSt.plain (f : FetchSt) : ExecSt where
  addr := f.addr
  word := f.word
  perr := f.perr
  slot := f.slot
  xv := 0
  yv := 0
  xerr := false
  yerr := false
  apUpd := []
  raUpd := none
  loopErr := false
  loopUpd := none
  actOn := []
  lcUpd := f.lcUpd
  actOff := f.actOff

/-- What Decode does in one cycle: the decoded instruction, the private copies, a branch target, the address fetch goes on
at behind a LOOP of count 0, and the findings of its reads. -/
structure DecodeOut where
  e : SeSt
  ew : ExecSt
  target : Option Addr12
  skip : Option Addr12
  found : List Finding

/-- Apply a modifier or ADDP step to private pointer `n` and remember it for the commit. -/
def DecodeOut.step (o : DecodeOut) (n : Nat) (k : Int) : DecodeOut :=
  let v := o.e.stepAp n (o.e.papOf n) k
  { o with e := { o.e with pap := o.e.pap.set (fun _ => 0) n v }, ew := { o.ew with apUpd := o.ew.apUpd ++ [(n, v)] } }

/-- Apply modifier `md` (none changes nothing). -/
def DecodeOut.modify (o : DecodeOut) (n md : Nat) : DecodeOut :=
  if md = 0 then o else o.step n (o.e.modStep n md)

/-- Read X (`m` 0) or Y (`m` 1) at an address. -/
def DecodeOut.read (o : DecodeOut) (m a0 : Nat) : DecodeOut :=
  let a := o.e.mapA (m + 1) a0
  let bad := o.e.mclass (m + 1) a == 2
  let o := { o with found := o.found ++ o.e.found (m + 1) a }
  if m = 0 then { o with ew := { o.ew with xv := o.e.rdM 1 a, xerr := bad } }
  else { o with ew := { o.ew with yv := o.e.rdM 2 a, yerr := bad } }

/-- One load of a parallel word. -/
def DecodeOut.load (o : DecodeOut) (m : Nat) (l : Option ParLoad) : DecodeOut :=
  match l with
  | none => o
  | some l => (o.read m (o.e.papOf l.ap).toNat).modify l.ap l.md

/-- Is a LOOP illegal (R155). -/
def SeSt.loopBad (e : SeSt) (addr : Addr12) (level last : Nat) : Bool :=
  decide (last < addr.toNat + 2) || e.pact.get (fun _ => false) level
  || (level == 0 && e.pact.get (fun _ => false) 1)
  || (level == 1 && e.pact.get (fun _ => false) 0 && decide ((e.ple.get (fun _ => 0) 0).toNat < last))

/-- LOOP in Decode (R153). -/
def DecodeOut.loop (o : DecodeOut) (level : Nat) (reg : Bool) (last count : Nat) : DecodeOut :=
  let a := o.ew.addr
  if o.e.loopBad a level last then { o with ew := { o.ew with loopErr := true } }
  else
    let c : BitVec 16 := if reg then (o.e.bk.dr count).setWidth 16 else BitVec.ofNat 16 count
    let e := { o.e with
      pls := o.e.pls.set (fun _ => 0) level (a + 1)
      ple := o.e.ple.set (fun _ => 0) level (BitVec.ofNat 12 last)
      plc := o.e.plc.set (fun _ => 0) level c
      pact := if c = 0 then o.e.pact else o.e.pact.set (fun _ => false) level true }
    { o with
      e := e
      skip := if c = 0 then some (BitVec.ofNat 12 (last + 1)) else none
      ew := { o.ew with
        loopUpd := some (level, a + 1, BitVec.ofNat 12 last), lcUpd := o.ew.lcUpd ++ [(level, c)],
        actOn := if c = 0 then [] else [level] } }

/-- Decode one fetched word.  It reads D registers, SR and memory as they stand at the start of the cycle. -/
def SeSt.decode (e : SeSt) (f : FetchSt) : DecodeOut :=
  let o : DecodeOut := ⟨e, f.plain, none, none, []⟩
  let b := e.bk
  match seDecode f.word.toNat with
  | some (.ld m ap md _) => (o.read m (e.papOf ap).toNat).modify ap md
  | some (.st m ap md _) =>
    -- a store reads nothing here: the operand places carry its address and memory to Execute
    let o := { o with ew := { o.ew with xv := (e.papOf ap).setWidth 24, yv := BitVec.ofNat 24 m } }
    o.modify ap md
  | some (.lda m a _) => o.read m a
  | some (.addp ap k) => o.step ap (sgn 12 k)
  | some (.par _ _ _ _ x y) => (o.load 0 x).load 1 y
  | some (.br c t) => if brTaken c b.sr then { o with target := some (BitVec.ofNat 12 t) } else o
  | some (.call t) =>
    { o with e := { e with pra := f.addr + 2 }, ew := { o.ew with raUpd := some (f.addr + 2) }, target := some (BitVec.ofNat 12 t) }
  | some .ret => { o with target := some e.pra }
  | some (.jmpd ds) => { o with target := some ((b.dr ds).setWidth 12) }
  | some (.loop level reg last count) => o.loop level reg last count
  | _ => o

/-! ### Fetch (R149, R154) -/

/-- Does fetch of `a` end an active loop. -/
def SeSt.atEnd (e : SeSt) (a : Addr12) : Bool :=
  (e.pact.get (fun _ => false) 1 && e.ple.get (fun _ => 0) 1 == a) || (e.pact.get (fun _ => false) 0 && e.ple.get (fun _ => 0) 0 == a)

/-- One cycle of Fetch and Decode; the decoded instruction takes Execute's place. -/
def SeSt.front (e : SeSt) : SeSt × List Finding :=
  let f0 : FetchSt :=
    { addr := e.fa, word := e.rdP e.fa.toNat, perr := e.mclass 0 e.fa.toNat == 2, slot := false, lcUpd := [], actOff := [] }
  let found := e.found 0 e.fa.toNat
  match e.fw with
  | none =>
    let e := { e with fw := some f0, ew := none }
    if e.atEnd f0.addr then
      ({ e with wrap := some ⟨f0.addr, e.plc, e.pact, e.pls, e.ple, [], []⟩ }, found)
    else ({ e with fa := f0.addr + 1 }, found)
  | some f =>
    let o := e.decode f
    let isBr := match seDecode f.word.toNat with
      | some i => i.branches
      | none => false
    let f0 := { f0 with slot := isBr }
    let e1 := { o.e with fw := some f0, ew := some o.ew }
    let found := found ++ o.found
    match o.target, o.skip with
    | some t, _ => ({ e1 with fa := t }, found)
    | none, some t => ({ e1 with fw := none, fa := t }, found)
    | none, none =>
      if e1.atEnd f0.addr then
        ({ e1 with wrap := some ⟨f0.addr, e1.plc, e1.pact, e1.pls, e1.ple, [], []⟩ }, found)
      else ({ e1 with fa := f0.addr + 1 }, found)

/-- Refill: cycles in which no instruction completes, until one is decoded or a loop wrap is to be chosen. -/
def SeSt.fill : Nat → SeSt → SeSt × List Finding
  | 0, e => (e, [])
  | n + 1, e =>
    if e.ew.isSome || e.wrap.isSome then (e, [])
    else
      let r := e.front
      let r2 := SeSt.fill n r.1
      (r2.1, r.2 ++ r2.2)

/-! ### The choice of the next fetch address at a loop end (R154) -/

/-- The test of one loop level: the next address and the new counter where the loop goes on, or the level ended. -/
inductive WrapTest where
  /-- Go on at the loop's start with the counter one less. -/
  | again (a : Addr12) (lc : BitVec 16)
  /-- The last pass: the counter becomes 0 and the level inactive. -/
  | last
  /-- Not this level's end, or its counter stands at 0. -/
  | no
deriving DecidableEq, Repr

/-- Test level `n`. -/
def WrapSt.test (w : WrapSt) (n : Nat) : WrapTest :=
  let lc := w.lc.get (fun _ => 0) n
  if w.act.get (fun _ => false) n && w.le.get (fun _ => 0) n == w.addr then
    if lc.toNat > 1 then .again (w.ls.get (fun _ => 0) n) (lc - 1) else if lc.toNat = 1 then .last else .no
  else .no

/-- Change loop counter `n` (unless an instruction completing in that cycle wrote it) and, at the last pass, its active
bit, both privately and for the commit of the end instruction. -/
def SeSt.wrapLevel (e : SeSt) (w : WrapSt) (n : Nat) (lc : BitVec 16) (off : Bool) : SeSt :=
  let e := if w.moved.contains n then e
    else { e with plc := e.plc.set (fun _ => 0) n lc, fw := e.fw.map (fun f => { f with lcUpd := f.lcUpd ++ [(n, lc)] }) }
  if off then
    { e with pact := e.pact.set (fun _ => false) n false, fw := e.fw.map (fun f => { f with actOff := f.actOff ++ [n] }) }
  else e

/-- R154, steps 2 to 4. -/
def SeSt.chooseWrap (e : SeSt) : SeSt :=
  match e.wrap with
  | none => e
  | some w =>
    let e := { e with wrap := none }
    match w.test 1 with
    | .again a lc => { e.wrapLevel w 1 lc false with fa := a }
    | t1 =>
      let e := if t1 = .last then e.wrapLevel w 1 0 true else e
      match w.test 0 with
      | .again a lc => { e.wrapLevel w 0 lc false with fa := a }
      | .last => { e.wrapLevel w 0 0 true with fa := w.addr + 1 }
      | .no => { e with fa := w.addr + 1 }

/-! ### Execute (R149, R160 to R164, R173) -/

/-- How an instruction leaves Execute. -/
inductive ExecEnd where
  | done
  /-- IN or OUT waits on a port (R164). -/
  | stall (out : Bool) (port : Nat)
  | halt
  | yield (code : Nat)
  | swap
  | fault (cause : Nat)
deriving DecidableEq, Repr

/-- The cause an instruction faults with, in R173's order. -/
def SeSt.faultCause (e : SeSt) (pooled : Bool) (w : ExecSt) : Option Nat :=
  let i := seDecode w.word.toNat
  let mode := match i with
    | some (.yield _) => !pooled
    | some .halt => pooled
    | some .swap => pooled || !e.active
    | _ => false
  if w.perr then some 2
  else if w.slot && transferWord w.word.toNat then some 7
  else if i.isNone then some 1
  else if w.loopErr then some 6
  else if mode then some 5
  else if w.xerr then some 3
  else if w.yerr then some 4
  else none

/-- Commit what Decode and Fetch did for this instruction to the active bank (R150). -/
def SeSt.commit (e : SeSt) (w : ExecSt) : SeSt :=
  let b := e.bk
  let ap := w.apUpd.foldl (fun t p => t.set (fun _ => 0) p.1 p.2) b.ap
  let lc := w.lcUpd.foldl (fun t p => t.set (fun _ => 0) p.1 p.2) b.lc
  let act := w.actOn.foldl (fun t n => t.set (fun _ => false) n true) (w.actOff.foldl (fun t n => t.set (fun _ => false) n false) b.act)
  let ls := match w.loopUpd with
    | some (n, s, _) => b.ls.set (fun _ => 0) n s
    | none => b.ls
  let le := match w.loopUpd with
    | some (n, _, l) => b.le.set (fun _ => 0) n l
    | none => b.le
  e.setBk { b with ap := ap, lc := lc, act := act, ls := ls, le := le, ra := w.raUpd.getD b.ra }

/-- Set SAT of the active bank's SR if `c`. -/
def SeSt.markSat (e : SeSt) (c : Bool) : SeSt := e.setBk (e.bk.setSr (srSetSat e.bk.sr c))

/-- Write an accumulator with flags, C and OG (R144). -/
def SeSt.putAcc (e : SeSt) (ad : Nat) (r : BitVec 56) (c og : Bool) : SeSt :=
  let b := e.bk
  e.setBk ((b.setA ad r).setSr (srSetOg (srFlags b.sr (accFlags (srIm b.sr) r c)) og))

/-- An accumulator operation (Table 06-10). -/
def SeSt.execAcc (e : SeSt) (sub ad as dd sh : Nat) : SeSt :=
  let b := e.bk
  let a := b.ar as
  let d := b.dr dd
  let shift := fun (k : Int) => let r := shiftAcc a k; e.putAcc ad r.1 false r.2
  match sub with
  | 0 => shift (sgn 6 sh)
  | 1 => shift (sgn 7 d.toNat)
  | 2 => e.setBk ((b.setD dd (BitVec.ofInt 24 (exponent a))).setSr (srSetZ b.sr (a == 0)))
  | 3 => let r := satAcc (srIm b.sr) a; (e.putAcc ad r.1 false false).markSat r.2
  | 4 => e.setBk (b.setD dd (a.setWidth 24))
  | 5 => e.setBk (b.setD dd (a.extractLsb' 24 24))
  | 6 => e.setBk (b.setD dd ((a.extractLsb' 48 8).signExtend 24))
  | 7 => e.setBk (b.setA ad (a.extractLsb' 24 32 ++ d))
  | 8 => e.setBk (b.setA ad (a.extractLsb' 48 8 ++ d ++ a.setWidth 24))
  | _ => e.setBk (b.setA ad (d.setWidth 8 ++ a.setWidth 48))

/-- A parallel word (R159): the operation reads at the start of Execute, the loads write at its end, Y over X. -/
def SeSt.execPar (e : SeSt) (w : ExecSt) (op ad sx sy : Nat) (x y : Option ParLoad) : SeSt :=
  let b := e.bk
  let e := match parOp op (srIm b.sr) (b.ar ad) (b.ar (sy % 4)) (b.dr sx) (b.dr sy) with
    | some (r, c, og) => e.putAcc ad r c og
    | none => e
  let e := match x with
    | some l => e.setBk (e.bk.setD l.dd w.xv)
    | none => e
  match y with
  | some l => e.setBk (e.bk.setD l.dd w.yv)
  | none => e

/-- An ALU word (R160). -/
def SeSt.execAlu (e : SeSt) (sub dd ds : Nat) (imm : Bool) (dt k : Nat) (open0 : Bool) : SeSt :=
  let b := e.bk
  let src := if imm then (BitVec.ofNat 12 k).signExtend 24 else b.dr dt
  let r := aluOp sub (b.dr ds) src open0
  let b := if sub = 8 then b else b.setD dd r.1
  e.setBk (b.setSr (srSetSat (srFlags b.sr r.2.1) r.2.2))

/-- ENDL in Execute: the level becomes inactive, and an activation Decode made in the same cycle is lost (R151, R153). -/
def SeSt.execEndl (e : SeSt) (n : Nat) : SeSt :=
  let b := e.bk
  { e.setBk { b with act := b.act.set (fun _ => false) n false } with
    pact := e.pact.set (fun _ => false) n false
    ew := e.ew.map (fun w => { w with actOn := w.actOn.filter (fun k => k != n) })
    wrap := e.wrap.map (fun w => { w with ended := n :: w.ended }) }

/-- IN in Execute (R164). -/
def SeSt.execIn (e : SeSt) (p dd : Nat) (nb : Bool) : SeSt × ExecEnd :=
  let b := e.bk
  if e.inFull.get (fun _ => false) p then
    let b := b.setD dd (e.inTok.get (fun _ => 0) p)
    ({ e.setBk (if nb then b.setSr (srSetC b.sr true) else b) with inFull := e.inFull.set (fun _ => false) p false }, .done)
  else if nb then (e.setBk (b.setSr (srSetC b.sr false)), .done)
  else (e, .stall false p)

/-- OUT in Execute (R164). -/
def SeSt.execOut (e : SeSt) (p ds : Nat) (nb : Bool) : SeSt × ExecEnd :=
  let b := e.bk
  if !e.outFull.get (fun _ => false) p then
    ({ e.setBk (if nb then b.setSr (srSetC b.sr true) else b) with
      outFull := e.outFull.set (fun _ => false) p true, outTok := e.outTok.set (fun _ => 0) p (b.dr ds) }, .done)
  else if nb then (e.setBk (b.setSr (srSetC b.sr false)), .done)
  else (e, .stall true p)

/-- What the instruction in Execute does to registers, memory and ports.  MOVE of an accumulator into SR: the store value's clamp
sets SAT first and the write of SR then stands, SAT among it (DESIGN CHOICE, log entry 139: R145 sets SAT and the write gives
all of SR; the spec does not order the two). -/
def SeSt.execute (e : SeSt) (w : ExecSt) (open0 : Bool) : SeSt × ExecEnd :=
  match seDecode w.word.toNat with
  | some .halt => (e, .halt)
  | some (.yield c) => (e, .yield c)
  | some .swap => (e, .swap)
  | some (.endl n) => (e.execEndl n, .done)
  | some (.ld m _ _ rc) => (e.wrCode rc (if m = 0 then w.xv else w.yv), .done)
  | some (.lda m _ rc) => (e.wrCode rc (if m = 0 then w.xv else w.yv), .done)
  | some (.st _ _ _ rc) =>
    let v := e.srcVal rc
    ((e.markSat v.2).wrM (w.yv.toNat + 1) (e.mapA (w.yv.toNat + 1) w.xv.toNat) v.1, .done)
  | some (.sta m a rc) =>
    let v := e.srcVal rc
    ((e.markSat v.2).wrM (m + 1) (e.mapA (m + 1) a) v.1, .done)
  | some (.move dst src) =>
    let v := e.srcVal src
    ((e.markSat v.2).wrCode dst v.1, .done)
  | some (.ldi dst imm) => (e.wrCode dst ((BitVec.ofNat 20 imm).signExtend 24), .done)
  | some (.ldih dd imm) =>
    let b := e.bk
    (e.setBk (b.setD dd (BitVec.ofNat 12 imm ++ (b.dr dd).setWidth 12)), .done)
  | some (.alu sub dd ds imm dt k) => (e.execAlu sub dd ds imm dt k open0, .done)
  | some (.acc sub ad as dd sh) => (e.execAcc sub ad as dd sh, .done)
  | some (.tokIn p dd nb) => e.execIn p dd nb
  | some (.tokOut p ds nb) => e.execOut p ds nb
  | some (.par op ad sx sy x y) => (e.execPar w op ad sx sy x y, .done)
  | _ => (e, .done)

/-- The address of the next instruction to execute (R139, R150). -/
def SeSt.nextPc (e : SeSt) : Addr12 :=
  match e.ew, e.fw with
  | some w, _ => w.addr
  | none, some f => f.addr
  | none, none => e.fa

/-- Does a shift of this word leave C open: its count is 0 (R160, log entry 11). -/
def SeSt.shiftsZero (e : SeSt) (w : ExecSt) : Bool :=
  match seDecode w.word.toNat with
  | some (.alu sub _ _ imm dt k) => decide (5 ≤ sub) && decide (sub ≤ 7) && decide ((if imm then k else (e.bk.dr dt).toNat) % 32 = 0)
  | _ => false

/-- One cycle in which the decoded instruction completes, stalls or faults.  A stall or a fault changes nothing of the
bank; otherwise Decode and Fetch advance, the instruction's private changes are committed, it acts, and PC moves on. -/
def SeSt.cycle (e : SeSt) (pooled open0 : Bool) : SeSt × ExecEnd × List Finding :=
  match e.ew with
  | none => (e, .done, [])
  | some w =>
    match e.faultCause pooled w with
    | some c => (e, .fault c, [])
    | none =>
      let fr := e.front
      let r := (fr.1.commit w).execute w open0
      match r.2 with
      | .stall o p => ({ e with mode := .stall, stallOut := o, stallPort := p }, .stall o p, [])
      | fin =>
        let br := match seDecode w.word.toNat with
          | some i => i.branches
          | none => false
        let e2 := r.1
        ({ e2.setBk { e2.bk with pc := e2.nextPc } with
            mode := .run, lastBranch := br, brkSkip := if e2.brkSkip = some w.addr then none else e2.brkSkip, ran := e2.ran || !e2.active }, fin, fr.2)

/-! ### Boundaries (R166 to R168, R174, R175) -/

/-- Is the engine at an eligible boundary. -/
def SeSt.boundary (e : SeSt) : Bool := (e.mode == .run && !e.lastBranch) || e.mode == .stall

/-- Is a port event pending (R168). -/
def SeSt.portPending (e : SeSt) (hnd : Bool) : Bool :=
  hnd && !e.active && e.ran && (List.range 4).any (fun p => e.inFull.get (fun _ => false) p && e.b0.sr.getLsbD (8 + p))

end Sys2Proof.Machine
end

