-- ==== Sys2Proof/Machine/Roster.lean ====
section
/-! DEFINITION. The Roster: contexts, their states and triggers, dispatch, runs and their ends, intake (R178 to R205). -/

namespace Sys2Proof.Machine

/-! ### Signal engines of a die -/

/-- Engine of region `r`. -/
def DieSt.eng (d : DieSt) (r : Nat) : SeSt := d.se.get (fun _ => SeSt.reset) r

/-- Replace the engine of region `r`. -/
def DieSt.setEng (d : DieSt) (r : Nat) (e : SeSt) : DieSt := { d with se := d.se.set (fun _ => SeSt.reset) r e }

/-- Is the engine pooled (R170). -/
def DieSt.pooled (d : DieSt) (r : Nat) : Bool := d.on (F.SE_CFG_POOLED r)

/-- The pooled engines of group `g`, in rising region index. -/
def DieSt.groupEngines (d : DieSt) (g : Nat) : List Nat :=
  d.regs.cells.filterMap (fun c =>
    if 0x40000000 ≤ c.1 && (c.1 - 0x40000000) % 0x10000 == 0 && decide (c.1 < 0x45800000) && bit c.2.toNat 31
        && bits c.2.toNat 29 24 == g then
      some ((c.1 - 0x40000000) / 0x10000)
    else none)

/-- May the Roster place a context on the engine: its region is RUNNING and its ring neither FREEZING nor FROZEN (R191). -/
def DieSt.engTakes (d : DieSt) (r : Nat) : Bool := d.rgState r == rgRunning && decide (d.ringState r < 2)

/-! ### Findings of an engine's memories (R135, R176) -/

/-- Count and raise what one read found; `src` 0 engine, 1 scrubber, 2 service port. -/
def DieSt.seFound (d : DieSt) (rg src : Nat) (f : Finding) : DieSt :=
  let data := f.1 * 2 ^ 22 + src * 2 ^ 20 + f.2.1 % 4096
  if f.2.2 then
    let d := d.bump (F.SE_MEM_CNT_UNCORR rg)
    let d := if d.on (F.SE_MEM_ERR_VALID rg) then d
      else d.wr (R.SE_MEM_ERR rg) (BitVec.ofNat 32 (2 ^ 31 + src * 2 ^ 29 + f.1 * 2 ^ 27 + f.2.1 % 4096))
    (d.finding rg).raiseIf (d.on (F.SE_EVT_EN_UNCORR rg)) rg 0x0603 data
  else (d.bump (F.SE_MEM_CNT_CORR rg)).raiseIf (d.on (F.SE_EVT_EN_CORR rg)) rg 0x0602 data

/-- Count the findings of a list of reads. -/
def DieSt.seFounds (d : DieSt) (rg src : Nat) (l : List Finding) : DieSt := l.foldl (fun d f => d.seFound rg src f) d

/-- The findings of reading `n` words of memory `m` from `a`. -/
def SeSt.foundRun (e : SeSt) (m a n : Nat) : List Finding := (List.range n).flatMap (fun k => e.found m (a + k))

/-! ### Descriptors (R179) -/

/-- A field of a descriptor word. -/
def cF (n w hi lo : Nat) : Fld := ⟨R.ROS_CTX n w, hi, lo⟩

/-- Context states (Table 07-2). -/
def cFree : Nat := 0
def cStopped : Nat := 1
def cWaiting : Nat := 2
def cReady : Nat := 3
def cLoaded : Nat := 4
def cRunning : Nat := 5
def cSaving : Nat := 6
def cError : Nat := 7
def cFaulted : Nat := 8
def cUnavailable : Nat := 9

/-- The state of context `n`. -/
def DieSt.cst (d : DieSt) (n : Nat) : Nat := d.f (cF n 0 31 28)

/-- Set the state of context `n`. -/
def DieSt.setCst (d : DieSt) (n v : Nat) : DieSt := d.put (cF n 0 31 28) v

/-- The Roster's own part of context `n`. -/
def DieSt.cx (d : DieSt) (n : Nat) : CtxSt := d.ros.ctx.get (fun _ => CtxSt.reset) n

/-- Replace it. -/
def DieSt.setCx (d : DieSt) (n : Nat) (c : CtxSt) : DieSt :=
  { d with ros := { d.ros with ctx := d.ros.ctx.set (fun _ => CtxSt.reset) n c } }

/-- The Roster's part of engine `r`. -/
def DieSt.re (d : DieSt) (r : Nat) : EngSt := d.ros.eng.get (fun _ => EngSt.reset) r

/-- Replace it. -/
def DieSt.setRe (d : DieSt) (r : Nat) (e : EngSt) : DieSt :=
  { d with ros := { d.ros with eng := d.ros.eng.set (fun _ => EngSt.reset) r e } }

/-- Descriptor fields. -/
def DieSt.cClass (d : DieSt) (n : Nat) : Nat := d.f (cF n 0 27 26)
def DieSt.cGroup (d : DieSt) (n : Nat) : Nat := d.f (cF n 0 25 20)
def DieSt.cResident (d : DieSt) (n : Nat) : Bool := d.on (cF n 0 19 19)
def DieSt.cAdmitted (d : DieSt) (n : Nat) : Bool := d.on (cF n 0 18 18)
def DieSt.cPolicy (d : DieSt) (n : Nat) : Nat := d.f (cF n 0 17 16)
def DieSt.cTrgQ (d : DieSt) (n : Nat) : Bool := d.on (cF n 0 15 15)
def DieSt.cTrgPeriod (d : DieSt) (n : Nat) : Bool := d.on (cF n 0 14 14)
def DieSt.cTrgWatch (d : DieSt) (n : Nat) : Bool := d.on (cF n 0 13 13)
def DieSt.cTrgEvent (d : DieSt) (n : Nat) : Bool := d.on (cF n 0 12 12)
def DieSt.cInbox (d : DieSt) (n : Nat) : Bool := d.on (cF n 1 31 31)
def DieSt.cQin (d : DieSt) (n : Nat) : Nat := d.f (cF n 1 29 24)
def DieSt.cThresh (d : DieSt) (n : Nat) : Nat := d.f (cF n 1 11 0)
def DieSt.cOutEn (d : DieSt) (n : Nat) : Bool := d.on (cF n 2 31 31)
def DieSt.cQout (d : DieSt) (n : Nat) : Nat := d.f (cF n 2 5 0)
def DieSt.cPeriod (d : DieSt) (n : Nat) : Nat := d.f (cF n 3 31 0)
def DieSt.cPhase (d : DieSt) (n : Nat) : Nat := d.f (cF n 4 31 0)
def DieSt.cDue (d : DieSt) (n : Nat) : Nat := d.f (cF n 5 31 0)
def DieSt.cWatch (d : DieSt) (n : Nat) : Nat := d.f (cF n 6 31 0)
def DieSt.cEventPort (d : DieSt) (n : Nat) : Nat := d.f (cF n 7 10 0)
def DieSt.cRunMax (d : DieSt) (n : Nat) : Nat := d.f (cF n 8 23 0)
def DieSt.cSlotAt (d : DieSt) (n : Nat) : Nat := d.f (cF n 9 31 16)
def DieSt.cEntry (d : DieSt) (n : Nat) : Nat := d.f (cF n 9 11 0)
def DieSt.cIlen (d : DieSt) (n : Nat) : Nat := d.f (cF n 11 7 0)

/-- The present dispatch deadline. -/
def DieSt.cDl (d : DieSt) (n : Nat) : Nat := d.rd64 (R.ROS_CTX n 12) (R.ROS_CTX n 13)

/-- Set the dispatch deadline. -/
def DieSt.setDl (d : DieSt) (n v : Nat) : DieSt := d.wr64 (R.ROS_CTX n 12) (R.ROS_CTX n 13) (v % 2 ^ 64)

/-- Contexts whose descriptors are in use, in rising number. -/
def DieSt.usedCtx (d : DieSt) : List Nat :=
  d.regs.cells.filterMap (fun c =>
    if 0x13400000 ≤ c.1 && decide (c.1 < 0x13400000 + 0x40 * 40960) && c.1 % 0x40 == 0 && bits c.2.toNat 31 28 != 0 then
      some ((c.1 - 0x13400000) / 0x40)
    else none)

/-- The window sizes of a code (R181); codes 6 and 7 are reserved. -/
def winSize (c : Nat) : Nat := nth 0 [0, 64, 128, 256, 512, 1024] c

/-- WX of a group. -/
def DieSt.grpWx (d : DieSt) (g : Nat) : Nat := winSize (d.f (F.ROS_GRP_CFG_WX g))

/-- WY of a group. -/
def DieSt.grpWy (d : DieSt) (g : Nat) : Nat := winSize (d.f (F.ROS_GRP_CFG_WY g))

/-- The size S of a context's state (R180). -/
def DieSt.ctxSize (d : DieSt) (n : Nat) : Nat :=
  (896 + 3 * (d.grpWx (d.cGroup n) + d.grpWy (d.cGroup n)) + 127) / 128 * 128

/-- Channel, base in bytes and size in bytes of a spill window. -/
def DieSt.spillWin (d : DieSt) (w : Nat) : Nat × Nat × Nat :=
  let r := if w = 0 then d.rd R.ROS_SPILL0 else d.rd R.ROS_SPILL1
  (bits r.toNat 31 30, bits r.toNat 23 12 * 2 ^ 24, bits r.toNat 11 0 * 2 ^ 24)

/-! ### Events (R204) -/

/-- Raise event `k` of Table 07-7. -/
def DieSt.rosEvt (d : DieSt) (k detail n : Nat) : DieSt :=
  d.raiseIf (bit (d.f F.ROS_EVT_EN_EN) k || (k == 0 && d.cAdmitted n)) 0x702 (0x0701 + k) (detail * 2 ^ 16 + n % 2 ^ 16)

/-! ### Context state in storage (R180, R182) -/

/-- Channel and byte address of a non-resident context's state. -/
def DieSt.ctxHome (d : DieSt) (n : Nat) : Nat × Nat :=
  let w := d.spillWin (d.f (cF n 10 31 31))
  (w.1, w.2.1 + d.f (cF n 10 30 0) * 128)

/-- Byte `k` of the stored state. -/
def DieSt.ctxByte (d : DieSt) (n k : Nat) : Nat :=
  if d.cResident n then d.ros.sram.get (fun _ => 0) (d.cSlotAt n * 128 + k)
  else d.dramByte (d.ctxHome n).1 ((d.ctxHome n).2 + k)

/-- Store a byte of the context SRAM; its word's check bits are formed anew. -/
def DieSt.sramPut (d : DieSt) (a v : Nat) : DieSt :=
  { d with ros := { d.ros with
      sram := d.ros.sram.set (fun _ => 0) a (v % 256), sramFlip := d.ros.sramFlip.set (fun _ => 0) (a / 8) 0 } }

/-- Store a run of bytes of the context SRAM. -/
def DieSt.sramPuts (d : DieSt) (a : Nat) : List Nat → DieSt
  | [] => d
  | b :: r => (d.sramPut a b).sramPuts (a + 1) r

/-- The Roster's DRAM port (Table 10-4). -/
def rosPort : Nat := 8

/-- Store a run of bytes of the state from byte `k`: in the context SRAM, or in DRAM through the Roster's port (R182). -/
def DieSt.ctxPuts (d : DieSt) (n k : Nat) (l : List Nat) : DieSt :=
  if d.cResident n then d.sramPuts (d.cSlotAt n * 128 + k) l else d.portPuts (d.ctxHome n).1 rosPort ((d.ctxHome n).2 + k) l

/-- Does the stored state hold an uncorrectable word or line. -/
def DieSt.ctxBad (d : DieSt) (n : Nat) : Bool :=
  if d.cResident n then
    (List.range (d.ctxSize n / 8)).any (fun k => eccClass 72 (d.ros.sramFlip.get (fun _ => 0) (d.cSlotAt n * 16 + k)) == 2)
  else (List.range (d.ctxSize n / 64)).any (fun k => d.dramBad (d.ctxHome n).1 ((d.ctxHome n).2 + 64 * k))

/-- Bits of the 64-bit words of a resident state that have flipped. -/
def DieSt.ctxUpset (d : DieSt) (n : Nat) (u : List (Nat × Nat)) : DieSt :=
  if d.cResident n then
    { d with ros := { d.ros with
        sramFlip := u.foldl (fun t c => t.upd (fun _ => 0) (d.cSlotAt n * 16 + c.1) (fun f => eccFlip 72 f c.2)) d.ros.sramFlip } }
  else d

/-! ### Register images and state images (Table 06-18, Table 07-3) -/

/-- The word of a bank's register image at byte offset `o`. -/
def BankSt.img (b : BankSt) (o : Nat) : Nat :=
  if o < 0x20 then (b.dr (o / 4)).toNat
  else if o < 0x40 then
    let a := (b.ar ((o - 0x20) / 8)).toNat
    if o % 8 = 0 then a % 2 ^ 32 else a / 2 ^ 32
  else if o < 0x60 then (b.ap.get (fun _ => 0) ((o - 0x40) / 4)).toNat
  else if o < 0x80 then (b.am.get (fun _ => 0) ((o - 0x60) / 4)).toNat
  else if o < 0x88 then (b.lc.get (fun _ => 0) ((o - 0x80) / 4)).toNat
  else if o = 0x88 then b.sr.toNat
  else if o = 0x8C then b.pc.toNat
  else if o = 0x90 then b.ra.toNat
  else if o = 0x94 then (b.ls.get (fun _ => 0) 0).toNat
  else if o = 0x98 then (b.le.get (fun _ => 0) 0).toNat
  else if o = 0x9C then (b.ls.get (fun _ => 0) 1).toNat
  else if o = 0xA0 then (b.le.get (fun _ => 0) 1).toNat
  else if o = 0xA4 then b2n (b.act.get (fun _ => false) 0) + 2 * b2n (b.act.get (fun _ => false) 1)
  else 0

/-- Write the word of a bank's register image at byte offset `o`. -/
def BankSt.putImg (b : BankSt) (o v : Nat) : BankSt :=
  let v12 : BitVec 12 := BitVec.ofNat 12 v
  if o < 0x20 then b.setD (o / 4) (BitVec.ofNat 24 v)
  else if o < 0x40 then
    let i := (o - 0x20) / 8
    let a := (b.ar i).toNat
    b.setA i (BitVec.ofNat 56 (if o % 8 = 0 then a / 2 ^ 32 * 2 ^ 32 + v % 2 ^ 32 else v % 2 ^ 24 * 2 ^ 32 + a % 2 ^ 32))
  else if o < 0x60 then { b with ap := b.ap.set (fun _ => 0) ((o - 0x40) / 4) v12 }
  else if o < 0x80 then { b with am := b.am.set (fun _ => 0) ((o - 0x60) / 4) v12 }
  else if o < 0x88 then { b with lc := b.lc.set (fun _ => 0) ((o - 0x80) / 4) (BitVec.ofNat 16 v) }
  else if o = 0x88 then { b with sr := srMask (BitVec.ofNat 16 v) }
  else if o = 0x8C then { b with pc := v12 }
  else if o = 0x90 then { b with ra := v12 }
  else if o = 0x94 then { b with ls := b.ls.set (fun _ => 0) 0 v12 }
  else if o = 0x98 then { b with le := b.le.set (fun _ => 0) 0 v12 }
  else if o = 0x9C then { b with ls := b.ls.set (fun _ => 0) 1 v12 }
  else if o = 0xA0 then { b with le := b.le.set (fun _ => 0) 1 v12 }
  else if o = 0xA4 then { b with act := (b.act.set (fun _ => false) 0 (bit v 0)).set (fun _ => false) 1 (bit v 1) }
  else b

/-- The 168 bytes of a bank's register image. -/
def BankSt.bytes (b : BankSt) : List Nat := (List.range 42).flatMap (fun k => wordBytes 4 (b.img (4 * k)))

/-- A bank from its register image. -/
def bankOf (l : List Nat) : BankSt :=
  (List.range 42).foldl (fun b k => b.putImg (4 * k) (ofBytes (slice l (4 * k) 4))) BankSt.reset

/-- Bytes 168 to 895 of a state: port-3 positions, staged words and their count.  How bytes 168 to 175 hold the positions
and the partial input word is the model's (DESIGN CHOICE, log entry 20). -/
def Port3.bytes (p : Port3) : List Nat :=
  [p.inPos] ++ wordBytes 5 (p.inData / 2 ^ 24) ++ [p.inTag + 64 * b2n p.inPoison, p.outPos] ++ wordBytes 2 (p.count % 128)
  ++ List.replicate 78 0 ++ (List.range 64).flatMap (fun k => wordBytes 8 (p.stage.get (fun _ => 0) k))
  ++ (List.range 64).map (fun k => p.tags.get (fun _ => 0) k) ++ List.replicate 64 0

/-- Port-3 state from bytes 168 to 895 (`l` starts at byte 168). -/
def port3Of (l : List Nat) : Port3 where
  inPos := nth 0 l 0 % 4
  inData := ofBytes (slice l 1 5) * 2 ^ 24
  inTag := nth 0 l 6 % 64
  inPoison := bit (nth 0 l 6) 6
  outPos := nth 0 l 7 % 4
  count := ofBytes (slice l 8 2) % 128
  stage := (List.range 64).foldl (fun t k => t.set (fun _ => 0) k (ofBytes (slice l (88 + 8 * k) 8))) Tab.empty
  tags := (List.range 64).foldl (fun t k => t.set (fun _ => 0) k (nth 0 l (600 + k) % 64)) Tab.empty

/-- The first physical address of the window half of a bank (R181). -/
def winBase (w : Nat) (bank1 : Bool) : Nat := 4096 - 2 * w + (if bank1 then w else 0)

/-- The bytes of a context's state as an engine holds it in one of its banks. -/
def SeSt.image (e : SeSt) (bank1 : Bool) (p : Port3) : List Nat :=
  (if bank1 then e.b1 else e.b0).bytes ++ p.bytes
  ++ (List.range e.wx).flatMap (fun k => wordBytes 3 (e.rdM 1 (winBase e.wx bank1 + k)).toNat)
  ++ (List.range e.wy).flatMap (fun k => wordBytes 3 (e.rdM 2 (winBase e.wy bank1 + k)).toNat)

/-- The findings of the window words that a save reads over the service port (R135, R137). -/
def SeSt.winFound (e : SeSt) (bank1 : Bool) : List Finding :=
  e.foundRun 1 (winBase e.wx bank1) e.wx ++ e.foundRun 2 (winBase e.wy bank1) e.wy

/-- Put window words from bytes. -/
def SeSt.putWin (e : SeSt) (m base : Nat) (l : List Nat) : Nat → SeSt
  | 0 => e
  | n + 1 => (e.putWin m base l n).wrM m (base + n) (BitVec.ofNat 24 (ofBytes (slice l (3 * n) 3)))

/-- Load a context's state into the shadow bank. -/
def SeSt.loadImage (e : SeSt) (l : List Nat) : SeSt :=
  let bank1 := !e.active
  let e := { e.setSh (bankOf (slice l 0 168)) with p3s := port3Of (l.drop 168) }
  let e := e.putWin 1 (winBase e.wx bank1) (l.drop 896) e.wx
  e.putWin 2 (winBase e.wy bank1) (l.drop (896 + 3 * e.wx)) e.wy

/-! ### Pending triggers and READY (R187 to R189) -/

/-- The context becomes READY with a deadline, for which no DUE_MISSED has been raised yet (R189, R204). -/
def DieSt.ctxReady (d : DieSt) (n : Nat) (c : CtxSt) (dl : Nat) : DieSt :=
  ((d.setCx n { c with dueDone := false }).setCst n cReady).setDl n dl

/-- Out of a run: READY when anything is pending, else WAITING. -/
def DieSt.ctxRest (d : DieSt) (n : Nat) : DieSt :=
  let c := d.cx n
  if c.pend % 64 ≠ 0 then d.ctxReady n c (c.pendMt + d.cDue n) else d.setCst n cWaiting

/-- A trigger of kind `k` fires (R187, R188). -/
def DieSt.fire (d : DieSt) (n k : Nat) : DieSt :=
  let st := d.cst n
  if st < cWaiting || cSaving < st then d
  else
    let c := d.cx n
    let c2 := if bit c.pend k then { c with pend := putBit c.pend 6 true }
      else { c with pend := putBit c.pend k true, pendMt := if c.pend % 64 = 0 then d.mt.toNat else min c.pendMt d.mt.toNat }
    if st = cWaiting && c2.wait3.isNone then d.ctxReady n c2 (c2.pendMt + d.cDue n) else d.setCx n c2

/-- Does context `n` hold the read end of its queue, bound to the Roster (R205). -/
def DieSt.ctxHasQin (d : DieSt) (n : Nat) : Bool :=
  d.f (F.Q_CFG_RSNK (d.cQin n)) == 2 && d.claim (0x640 + d.cQin n) == claimContext n

/-- Words of the input. -/
def DieSt.ctxInput (d : DieSt) (n : Nat) : List QWord :=
  if d.cInbox n then (d.cx n).inbox else if d.ctxHasQin n then (d.que (d.cQin n)).words else []

/-- The queue condition (R187). -/
def DieSt.ctxQueueCond (d : DieSt) (n : Nat) : Bool :=
  let l := d.ctxInput n
  decide (d.cThresh n ≤ countWords l) || (d.on (cF n 1 23 23) && l.any (fun w => w.eop))

/-! ### Uncorrectable descriptors (R179) -/

/-- The context that was to preempt no longer stands ready in the engine: no preemption of its running context is ordered any
more (R190, R193). -/
def EngSt.calm (q : EngSt) : EngSt := { q with orders := q.orders.filter (fun o => o != .preempt) }

/-- A shadow is discarded: the context is READY again (R185). -/
def DieSt.discardShadow (d : DieSt) (r : Nat) : DieSt :=
  let e := d.eng r
  match e.shadow with
  | none => d
  | some n => ((d.setEng r { e with shadow := none }).setRe r (d.re r).calm).setCst n cReady

/-- The engine whose shadow holds context `n`. -/
def DieSt.shadowOf (d : DieSt) (n : Nat) : Option Nat :=
  (d.se.cells.find? (fun c => c.2.shadow == some n)).map (fun c => c.1)

/-- The engine that runs context `n`. -/
def DieSt.engineOf (d : DieSt) (n : Nat) : Option Nat :=
  (d.se.cells.find? (fun c => c.2.ctx == some n)).map (fun c => c.1)

/-- A load under way of context `n` is given up. -/
def DieSt.dropLoad (d : DieSt) (n : Nat) : DieSt :=
  match d.ros.eng.cells.find? (fun c => c.2.loading == some n) with
  | none => d
  | some c => d.setRe c.1 { c.2.calm with loading := none }

/-- A STOP or a release that waited for context `n` ends: OK where it is STOPPED, STATE elsewhere (R186). -/
def DieSt.stopEnds (d : DieSt) (n : Nat) : DieSt :=
  let d := d.setCx n { d.cx n with stopping := false }
  if d.ros.stopCmd = some n then
    let d := { d with ros := { d.ros with stopCmd := none } }
    (d.put F.ROS_CMD_RES_BUSY 0).put F.ROS_CMD_RES_STATUS (if d.cst n = cStopped then 0 else 1)
  else d

/-- A context rests in state `v`. -/
def DieSt.ctxComesTo (d : DieSt) (n v : Nat) : DieSt :=
  let d := d.setCst n v
  if (d.cx n).stopping && v ≠ cWaiting && v ≠ cReady then d.stopEnds n else d

/-- The context becomes FAULTED with cause 8, a fault that FAULTS counts (R179, R200). -/
def DieSt.faultsBad (d : DieSt) (n : Nat) : DieSt := ((d.bump (cF n 15 31 24)).ctxComesTo n cFaulted).rosEvt 0 8 n

/-- An uncorrectable descriptor word of context `n` is found. -/
def DieSt.descFault (d : DieSt) (n : Nat) : DieSt :=
  let st := d.cst n
  if st = cRunning || st = cSaving then d.setCx n { d.cx n with descBad := true }
  else if st = cStopped || st = cWaiting || st = cReady || st = cLoaded then
    let d := match d.shadowOf n with
      | some r => d.discardShadow r
      | none => d.dropLoad n
    (d.setCx n { d.cx n with wait3 := none }).faultsBad n
  else d

/-- The context becomes UNAVAILABLE: its window `w` is lost (R184).  A descriptor error that waited for the end of the run acts
too: it counts and raises CTX_FAULT, and FAULTED gives way to UNAVAILABLE (R179, Table 07-2). -/
def DieSt.ctxGone (d : DieSt) (n w : Nat) : DieSt :=
  let d := if (d.cx n).descBad then (d.bump (cF n 15 31 24)).rosEvt 0 8 n else d
  ((d.setCx n { d.cx n with descBad := false, wait3 := none, cont := false, endedBy := none }).ctxComesTo n cUnavailable).rosEvt 4 w n

/-- The Roster reads the descriptor: a single-bit error is corrected; false when a word is uncorrectable. -/
def DieSt.descRead (d : DieSt) (n : Nat) : DieSt × Bool :=
  let cls := fun (w : Nat) => eccClass 39 (d.ros.descFlip.get (fun _ => 0) (16 * n + w))
  if (List.range 16).any (fun w => cls w == 2) then (d.descFault n, d.cst n == cFree)
  else
    ({ d with ros := { d.ros with
        descFlip := (List.range 16).foldl (fun t w => t.set (fun _ => 0) (16 * n + w) 0) d.ros.descFlip } }, true)

/-! ### Runs (R189, R191, R194) -/

/-- Show the running context in SE_CTX. -/
def DieSt.showCtx (d : DieSt) (r : Nat) : DieSt :=
  d.wr (R.SE_CTX r) (match (d.eng r).ctx with
    | some n => BitVec.ofNat 32 (2 ^ 31 + n)
    | none => 0)

/-- The shadow's context becomes the running one: the banks have been exchanged (R189). -/
def DieSt.startRun (d : DieSt) (r n : Nat) : DieSt :=
  let c := d.cx n
  let e := { d.eng r with ctx := some n, shadow := none, mode := .run }
  let d := d.setCst n cRunning
  let d :=
    if c.cont then (d.setEng r e).setCx n { c with cont := false, since := d.now, endedBy := none }
    else
      let e := if d.on (cF n 0 11 11) then { e.setBk (e.bk.setD 7 (BitVec.ofNat 24 c.pend)) with ctx := some n } else e
      ((d.setEng r e).setCx n { c with
        pend := 0, ran := 0, since := d.now, watchFrom := d.now, watchDone := false, endedBy := none }).bump
        (cF n 15 23 0)
  d.showCtx r

/-- Registers after a reset by policy (R200, R141), the staged partial packet discarded. -/
def SeSt.policyReset (e : SeSt) (entry : Nat) : SeSt :=
  { e.setBk { BankSt.reset with pc := BitVec.ofNat 12 entry } with p3 := { e.p3 with count := 0, outPos := 0 } }

/-- What the descriptor and the pending bits take from the end of a run (R194, R200). -/
def DieSt.countEnd (d : DieSt) (n : Nat) (why : RunEnd) : DieSt :=
  let c := d.cx n
  let bad := fun (d : DieSt) => d.bump (cF n 15 31 24)
  let reset := fun (d : DieSt) => d.setCx n { d.cx n with pend := putBit (d.cx n).pend 7 true }
  match why with
  | .done => d.put (cF n 15 31 24) 0
  | .again => (d.put (cF n 15 31 24) 0).setCx n { c with pend := putBit c.pend 5 true, pendMt := d.mt.toNat }
  | .error => d.rosEvt 2 0 n
  | .fault k => (if d.cPolicy n = 0 then bad d else reset (bad d)).rosEvt 0 k n
  | .overrun => (if d.cPolicy n = 1 then reset (bad d) else bad d).rosEvt 1 0 n
  | _ => d.setCx n { c with cont := true, ran := c.ran + (d.now - c.since) }

/-- Does the run's end reset the registers.  POLICY 2 on a fault: Table 07-4 says as RESET, the rule's last point that the state is
written as it stood; the model follows the table (DESIGN CHOICE, log entry 178). -/
def DieSt.endResets (d : DieSt) (n : Nat) (why : RunEnd) : Bool :=
  match why with
  | .fault _ => d.cPolicy n == 1 || d.cPolicy n == 2
  | .overrun => d.cPolicy n == 1
  | _ => false

/-- The run of the engine's context ends at an eligible boundary: its state is to be saved, and the loaded context takes
over or the engine becomes IDLE (R194). -/
def DieSt.runEnd (d : DieSt) (r : Nat) (why : RunEnd) : DieSt :=
  match (d.eng r).ctx with
  | none => d
  | some n =>
    let d := d.countEnd n why
    let d := d.setCx n { d.cx n with endedBy := some why }
    let e := (d.eng r).discard
    let e := if d.endResets n why then (e.policyReset (d.cEntry n)).discard else e
    let q := d.re r
    let d := d.setRe r { q with orders := [], saving := if (d.cx n).lost.isSome then q.saving else q.saving ++ [(n, e.active)] }
    let d := match (d.cx n).lost with
      | some w => d.ctxGone n w
      | none => d.setCst n cSaving
    match (if d.playing then e.shadow else none) with
    | some m => (d.setEng r { e.swapBanks with ctx := none }).startRun r m
    | none => (d.setEng r { e with mode := .idle, ctx := none }).showCtx r

/-- What the Roster has ordered of an engine happens at an eligible boundary: an overrun ends the run as one, else a STOP
does, else a preemption.  A preemption waits for the load of the context that preempts (R198), and falls away where that
context has left the engine. -/
def DieSt.rosBoundary (d : DieSt) (r : Nat) : DieSt :=
  let e := d.eng r
  let q := d.re r
  if !e.boundary then d
  else if q.orders.contains .overrun then d.runEnd r .overrun
  else if q.orders.contains .stop then d.runEnd r .preempt
  else if q.orders.contains .preempt then
    if e.shadow.isSome then d.runEnd r .preempt
    else if q.loading.isSome then d
    else d.setRe r { q with orders := [] }
  else d

/-- A stalled engine is at an eligible boundary now; any other reaches its next one when an instruction completes (R166). -/
def DieSt.rosNow (d : DieSt) (r : Nat) : DieSt := if (d.eng r).mode == .stall then d.rosBoundary r else d

/-- Order a swap at the engine's next eligible boundary. -/
def DieSt.order (d : DieSt) (r : Nat) (o : SwapOrder) : DieSt :=
  (d.setRe r { d.re r with orders := o :: (d.re r).orders.filter (fun k => k != o) }).rosNow r

/-- An IDLE engine whose shadow holds a context and which saves nothing swaps it in. -/
def DieSt.idleSwap (d : DieSt) (r : Nat) : DieSt :=
  let e := d.eng r
  match e.shadow with
  | some m => if e.mode == .idle && (d.re r).saving.isEmpty then (d.setEng r e.swapBanks).startRun r m else d
  | none => d

/-! ### Moves (R192) -/

/-- Is the context FAULTED at the end of this run: by policy or by its FAULT_LIMIT (R200, Table 07-4). -/
def DieSt.endFaults (d : DieSt) (n : Nat) (why : Option RunEnd) : Bool :=
  let lim := d.f (cF n 8 31 24)
  let ovr := decide (lim ≠ 0) && decide (lim ≤ d.f (cF n 15 31 24))
  match why with
  | some (.fault _) => d.cPolicy n == 0 || ovr
  | some .overrun => d.cPolicy n == 0 || ovr
  | _ => false

/-- Where a context whose save has ended rests (Tables 07-4 and 07-4a). -/
def DieSt.savedRest (d : DieSt) (n : Nat) (c : CtxSt) : DieSt :=
  let why := c.endedBy
  if c.descBad then (d.setCx n { d.cx n with descBad := false }).faultsBad n
  else if d.endFaults n why then d.ctxComesTo n cFaulted
  else if why = some .error then d.ctxComesTo n cError
  else if c.stopping then (d.setCx n { d.cx n with cont := false, wait3 := none }).ctxComesTo n cStopped
  else
    match why with
    | some .preempt => d.setCst n cReady
    | some .waitIn => (d.setCx n { d.cx n with wait3 := some .waitIn }).setCst n cWaiting
    | some .waitOut => (d.setCx n { d.cx n with wait3 := some .waitOut }).setCst n cWaiting
    | some .again => d.ctxReady n (d.cx n) ((d.cx n).pendMt + d.cDue n)
    | _ => d.ctxRest n

/-- The save of a context has ended.  A window lost meanwhile makes it UNAVAILABLE wherever it would have rested (R184). -/
def DieSt.saved (d : DieSt) (n : Nat) : DieSt :=
  let c := d.cx n
  let d := d.setCx n { c with endedBy := none }
  match c.lost with
  | some w => d.ctxGone n w
  | none => d.savedRest n c

/-- The crossings between the Roster and an engine (Table 09-3): bank path, service port, port 3; `out` from the engine. -/
def rosX (r path : Nat) (out : Bool) : XRef := ⟨1, r, path, out⟩

/-- The last value that a move passes over the bank path and the service port (R137, R192). -/
def DieSt.moveX (d : DieSt) (r : Nat) (l : List Nat) (out : Bool) : DieSt :=
  let d := d.xPass (rosX r 0 out) (ofBytes (slice l 160 8))
  if 896 < l.length then d.xPass (rosX r 1 out) (ofBytes (slice l (l.length - 3) 3)) else d

/-- A save ends: the state of the engine's bank is written to storage, the window words read over the service port. -/
def DieSt.saveEnd (d : DieSt) (r n : Nat) (bank1 : Bool) : DieSt :=
  let e := d.eng r
  let l := e.image bank1 (if bank1 == e.active then e.p3 else e.p3s)
  let d := (d.seFounds r 2 (e.winFound bank1)).moveX r l true
  let d := d.ctxPuts n 0 l
  let d := d.setRe r { d.re r with saving := (d.re r).saving.drop 1 }
  let r1 := d.descRead n
  (r1.1.saved n).idleSwap r

/-- The Roster reads `len` bytes of a context's state from byte `k`: lines of DRAM count as any read of its port does
(R182, R264). -/
def DieSt.ctxFound (d : DieSt) (n k len : Nat) : DieSt :=
  if d.cResident n then d else d.bytesFound (d.ctxHome n).1 rosPort ((d.ctxHome n).2 + k) len

/-- A load ends: the context stands in the shadow bank, or becomes FAULTED when its state cannot be corrected (R185). -/
def DieSt.loadEnd (d : DieSt) (r n : Nat) : DieSt :=
  let bad := d.ctxBad n
  let d := (d.setRe r { d.re r with loading := none }).ctxFound n 0 (d.ctxSize n)
  if bad then (d.setRe r (d.re r).calm).faultsBad n
  else
    let g := d.cGroup n
    let e := { d.eng r with wx := d.grpWx g, wy := d.grpWy g }
    let l := (List.range (d.ctxSize n)).map (fun k => d.ctxByte n k)
    let d := ((d.setEng r { e.loadImage l with shadow := some n }).moveX r l false).setCst n cLoaded
    if e.mode == .idle then d.idleSwap r else d.rosNow r

/-- CONTEXT_MOVE_END. -/
def DieSt.moveEnd (d : DieSt) (n : Nat) (u : List (Nat × Nat)) : DieSt :=
  if !d.rosOn then d
  else
    let d := d.ctxUpset n u
    match d.ros.eng.cells.find? (fun c => (c.2.saving.head?.map (fun x => x.1)) == some n) with
    | some c =>
      match c.2.saving with
      | x :: _ => d.saveEnd c.1 n x.2
      | [] => d
    | none =>
      match d.ros.eng.cells.find? (fun c => c.2.loading == some n && c.2.saving.isEmpty) with
      | some c => if d.xRegionReset c.1 then d.dropLoad n else d.loadEnd c.1 n
      | none => d

/-! ### An engine that is reset under its contexts (R141, R185) -/

/-- What the Roster makes of an engine reset, which `e` is the engine after: every banked register 0 and bank 0 active (R141).  A
LOADED context is READY again and a load is given up; a RUNNING context keeps its engine (R191) and runs on in bank 0 from
address 0; one whose state still lay in the other bank is saved from there (DESIGN CHOICE, log entry 141: the spec does not say
what becomes of them). -/
def DieSt.rosReset (d : DieSt) (r : Nat) (e : SeSt) : DieSt :=
  let old := d.eng r
  let d := d.discardShadow r
  let q := d.re r
  let calm := fun (p : Port3) => { p with count := 0, outPos := 0 }
  let e := { e.discard with
    p3 := calm old.p3, p3s := calm old.p3s, shadow := none, wx := old.wx, wy := old.wy
    ctx := old.ctx, mode := if old.ctx.isSome then .run else e.mode }
  ((d.setEng r e).setRe r { q.calm with loading := none, saving := q.saving.map (fun x => (x.1, x.2 != old.active)) }).showCtx r

/-- What a pooled engine holds of its contexts goes with the personality to engine `dst`: the engine's own part of
Table 04-8 apart, the banks are the state bus's to move. -/
def DieSt.moveEngine (d : DieSt) (src dst : Nat) : DieSt :=
  if src = dst then d
  else
    let a := d.eng src
    let d := d.setEng dst { d.eng dst with ctx := a.ctx, shadow := a.shadow, active := a.active, p3 := a.p3, p3s := a.p3s, wx := a.wx, wy := a.wy }
    let d := (d.setRe dst (d.re src)).setRe src EngSt.reset
    (d.setEng src { d.eng src with ctx := none, shadow := none }).showCtx src

/-- The engine of a region that loses what it holds: a LOADED context is READY again, and one that ran or was being saved
rests as a reset by policy leaves it (log entry 141). -/
def DieSt.rosWipe (d : DieSt) (r : Nat) : DieSt :=
  let e := d.eng r
  let d := d.discardShadow r
  let l := (e.ctx.toList) ++ (d.re r).saving.map (fun x => x.1)
  l.foldl (fun (d : DieSt) n =>
    let d := d.ctxPuts n 0 ((SeSt.reset.policyReset (d.cEntry n)).image false SeSt.reset.p3)
    let d := d.setCx n { d.cx n with pend := putBit (d.cx n).pend 7 true, cont := false, endedBy := none }
    (d.setCst n cSaving).saved n) (d.setRe r EngSt.reset)

/-! ### Dispatch (R190, R191, R193, R198) -/

/-- Does context `a` stand before `b` in the order of R190. -/
def DieSt.before (d : DieSt) (a b : Nat) : Bool :=
  if d.cClass a ≠ d.cClass b then decide (d.cClass a < d.cClass b)
  else if d.cDl a ≠ d.cDl b then decide (d.cDl a < d.cDl b)
  else decide (a < b)

/-- The first of a list in the order of R190. -/
def DieSt.firstOf (d : DieSt) : List Nat → Option Nat
  | [] => none
  | a :: r =>
    match d.firstOf r with
    | none => some a
    | some b => if d.before b a then some b else some a

/-- Of engines with a context each, the one whose context stands latest in the order; among equals the first listed. -/
def DieSt.latest (d : DieSt) : List (Nat × Nat) → Option (Nat × Nat)
  | [] => none
  | x :: r =>
    match d.latest r with
    | none => some x
    | some y => if d.before x.2 y.2 then some y else some x

/-- The engines of a group with the contexts they run. -/
def DieSt.runners (d : DieSt) (l : List Nat) : List (Nat × Nat) :=
  l.filterMap (fun r => ((d.eng r).ctx).map (fun n => (r, n)))

/-- Is the shadow bank empty and no load on its way. -/
def DieSt.shadowFree (d : DieSt) (r : Nat) : Bool :=
  (d.eng r).shadow.isNone && (d.re r).loading.isNone && (d.re r).saving.isEmpty

/-- Is the engine IDLE with no context on its way into it: R191 may place one there. -/
def DieSt.engFree (d : DieSt) (r : Nat) : Bool :=
  (d.eng r).mode == .idle && (d.eng r).shadow.isNone && (d.re r).loading.isNone

/-- Start loading a context into an engine's shadow bank. -/
def DieSt.startLoad (d : DieSt) (r n : Nat) : DieSt := d.setRe r { d.re r with loading := some n }

/-- Is a context of class 0. -/
def DieSt.isExpress (d : DieSt) : Option Nat → Bool
  | some m => d.cClass m == 0
  | none => false

/-- The engines that a class-0 context may preempt, with their contexts: neither running nor holding class 0 (R198). -/
def DieSt.expressCands (d : DieSt) (engs : List Nat) : List (Nat × Nat) :=
  (d.runners engs).filter (fun x =>
    !d.isExpress (some x.2) && !d.isExpress (d.eng x.1).shadow && !d.isExpress (d.re x.1).loading)

/-- ROSTER_DISPATCH: the first ready context of the group is placed (R191).  A class-0 context with no IDLE engine is left
to its preemption where one can be preempted (R198). -/
def DieSt.dispatch (d : DieSt) (g : Nat) : DieSt :=
  let engs := (d.groupEngines g).filter (fun r => d.engTakes r)
  let ready := d.usedCtx.filter (fun n =>
    d.cst n == cReady && d.cGroup n == g && !d.ros.eng.cells.any (fun c => c.2.loading == some n))
  match d.rosOn && d.playing, d.firstOf ready with
  | true, some n =>
    let r1 := d.descRead n
    let d := r1.1
    if !r1.2 then d
    else
      match engs.find? (fun r => d.engFree r) with
      | some r => d.startLoad r n
      | none =>
        if d.cClass n = 0 && !(d.expressCands engs).isEmpty then d
        else
          match d.latest ((d.runners engs).filter (fun x => d.shadowFree x.1)) with
          | some x => d.startLoad x.1 n
          | none =>
            let held := engs.filterMap (fun r => ((d.eng r).shadow).map (fun m => (r, m)))
            match d.latest (held.filter (fun x => d.before n x.2)) with
            | some x => (d.discardShadow x.1).startLoad x.1 n
            | none => d
  | _, _ => d

/-- QUANTUM_PREEMPT (R193). -/
def DieSt.quantum (d : DieSt) (r : Nat) : DieSt :=
  let e := d.eng r
  match e.ctx, e.shadow with
  | some n, some m =>
    let q := d.f (F.ROS_GRP_CFG_QUANTUM (d.cGroup n))
    if d.rosOn && d.playing && decide (d.cClass n ≠ 0) && decide (q ≠ 0) && decide (q * 1000 ≤ d.now - (d.cx n).since)
        && decide (d.cClass m ≤ d.cClass n) then d.order r .preempt
    else d
  | _, _ => d

/-- EXPRESS_PREEMPT (R198). -/
def DieSt.expressPreempt (d : DieSt) (n : Nat) : DieSt :=
  let r1 := d.descRead n
  let d := r1.1
  let engs := (d.groupEngines (d.cGroup n)).filter (fun r => d.engTakes r)
  if !d.rosOn || !d.playing || !r1.2 || d.cst n != cReady || d.cClass n != 0 || engs.any (fun r => d.engFree r)
      || d.ros.eng.cells.any (fun c => c.2.loading == some n) then d
  else
    match d.latest (d.expressCands engs) with
    | none => d
    | some x =>
      let r := x.1
      let d := (d.discardShadow r).startLoad r n
      d.setRe r { d.re r with orders := .preempt :: (d.re r).orders.filter (fun k => k != .preempt) }

/-- RUN_OVERRUN (R200). -/
def DieSt.overrunTest (d : DieSt) (n : Nat) : DieSt :=
  let c := d.cx n
  match d.engineOf n with
  | some r =>
    if d.rosOn && d.cst n == cRunning && decide (d.cRunMax n ≠ 0) && decide (d.cRunMax n < c.ran + (d.now - c.since)) then
      d.order r .overrun
    else d
  | none => d

/-- Has context `n` a run that is due and has not ended: a port-3 wait and the save of a run that goes on are part of it. -/
def DieSt.runOpen (d : DieSt) (n : Nat) : Bool :=
  let st := d.cst n
  (decide (cReady ≤ st) && decide (st ≤ cRunning)) || (st == cWaiting && (d.cx n).wait3.isSome) || (st == cSaving && (d.cx n).cont)

/-- DUE_MISSED (R204). -/
def DieSt.dueMissed (d : DieSt) (n : Nat) : DieSt :=
  let c := d.cx n
  if d.rosOn && d.runOpen n && decide (d.cDue n ≠ 0) && decide (d.cDl n ≤ d.mt.toNat) && !c.dueDone then
    (d.setCx n { c with dueDone := true }).rosEvt 3 0 n
  else d

/-! ### Port 3 (R172, R195, R196) -/

/-- Channel and byte address of word `k` of the inbox ring. -/
def DieSt.inboxAt (d : DieSt) (n k : Nat) : Nat × Nat :=
  let w := d.spillWin (d.f (cF n 11 31 31))
  (w.1, w.2.1 + d.f (cF n 11 30 8) * 256 + 8 * k)

/-- Is a word of the input readable. -/
def DieSt.inReadable (d : DieSt) (n : Nat) : Bool :=
  if d.cInbox n then !(d.cx n).inbox.isEmpty else d.ctxHasQin n && !d.qEmpty (d.cQin n)

/-- Take the next word of the input; `u` are the bits of a queue word that have flipped.  A word of the inbox is read through
a class-2 port (R195, R264). -/
def DieSt.inTake (d : DieSt) (n u : Nat) : DieSt × Option QOut :=
  if d.cInbox n then
    let c := d.cx n
    match c.inbox with
    | [] => (d, none)
    | w :: r =>
      let k := d.f (cF n 14 28 16)
      let a := d.inboxAt n k
      let data := ofBytes ((List.range 8).map (fun i => d.dramByte a.1 (a.2 + i)))
      let o : QOut := { data := BitVec.ofNat 64 data, tag := w.tag, poison := d.dramBad a.1 a.2 }
      (((d.bytesFound a.1 rosPort a.2 8).setCx n { c with inbox := r }).put (cF n 14 28 16) (if 32 * d.cIlen n ≤ k + 1 then 0 else k + 1), some o)
  else if d.ctxHasQin n then d.qRead (d.cQin n) u
  else (d, none)

/-- Room in the output queue for the staged packet with one more word (R211). -/
def DieSt.outRoom (d : DieSt) (n words : Nat) : Bool := d.qWriter (d.cQout n) == some .roster && d.qRoom (d.cQout n) words

/-- The input token IN3 would take now. -/
def DieSt.inToken (d : DieSt) (r n u : Nat) : Option Word24 :=
  let p := (d.eng r).p3
  if p.inPos = 0 then
    if d.inReadable n then
      (d.inTake n u).2.map (fun o => o.data.setWidth 24)
    else none
  else if p.inPos = 1 then some (BitVec.ofNat 24 (p.inData / 2 ^ 24))
  else some (BitVec.ofNat 24 (b2n p.inPoison * 2 ^ 22 + p.inTag * 2 ^ 16 + p.inData / 2 ^ 48))

/-- IN3 has taken its token. -/
def DieSt.inDone (d : DieSt) (r n u : Nat) : DieSt :=
  let e := d.eng r
  let p := e.p3
  if p.inPos = 0 then
    let t := d.inTake n u
    let e := t.1.eng r
    match t.2 with
    | some o => t.1.setEng r { e with p3 := { p with inPos := 1, inData := o.data.toNat, inTag := o.tag, inPoison := o.poison } }
    | none => t.1
  else if p.inPos = 1 then d.setEng r { e with p3 := { p with inPos := 2 } }
  else d.setEng r { e with p3 := { p with inPos := 0, inData := 0, inTag := 0, inPoison := false } }

/-- Does OUT3 fault: OUT_EN is 0, or the stage holds 64 words (R196); a loaded count above 64 faults any instruction. -/
def DieSt.outFaults (d : DieSt) (r n : Nat) : Bool := !d.cOutEn n || decide (64 ≤ (d.eng r).p3.count)

/-- May OUT3 take the token `v`: only the token that completes an end-of-packet word waits for room. -/
def DieSt.outMay (d : DieSt) (r n : Nat) (v : Word24) : Bool :=
  let p := (d.eng r).p3
  decide (p.outPos ≠ 2) || !bit v.toNat 21 || d.outRoom n (p.count + 1)

/-- OUT3 has given the token `v`. -/
def DieSt.outDone (d : DieSt) (r n : Nat) (v : Word24) : DieSt :=
  let e := d.eng r
  let p := e.p3
  let old := p.stage.get (fun _ => 0) p.count
  if p.outPos = 0 then d.setEng r { e with p3 := { p with outPos := 1, stage := p.stage.set (fun _ => 0) p.count v.toNat } }
  else if p.outPos = 1 then
    d.setEng r { e with p3 := { p with outPos := 2, stage := p.stage.set (fun _ => 0) p.count (old % 2 ^ 24 + v.toNat * 2 ^ 24) } }
  else
    let tag := bits v.toNat 21 16
    let p := { p with
      outPos := 0, stage := p.stage.set (fun _ => 0) p.count (old % 2 ^ 48 + v.toNat % 2 ^ 16 * 2 ^ 48)
      tags := p.tags.set (fun _ => 0) p.count tag, count := p.count + 1 }
    if bit tag 5 then
      let item := (List.range p.count).map (fun k => (p.stage.get (fun _ => 0) k, p.tags.get (fun _ => 0) k))
      (d.setEng r { e with p3 := { p with count := 0 } }).qAppend (d.cQout n) item
    else d.setEng r { e with p3 := p }

/-- PORT3_WAIT_END (R194). -/
def DieSt.waitEnd (d : DieSt) (n : Nat) : DieSt :=
  let c := d.cx n
  let words := ofBytes [d.ctxByte n 176, d.ctxByte n 177] % 128 + 1
  if !d.rosOn || d.cst n != cWaiting then d
  else
    match c.wait3 with
    | some .waitIn => if d.inReadable n then (d.setCx n { c with wait3 := none }).setCst n cReady else d
    | some .waitOut => if d.outRoom n words then (d.setCx n { c with wait3 := none }).setCst n cReady else d
    | _ => d

/-! ### Commands (R183, R186, R205) -/

/-- The status of R183, apart from OVERLAP and CLASS: 2 RANGE, 9 ABSENT, 0.  A reserved WX or WY code of the group gives RANGE
(DESIGN CHOICE, log entry 179: the spec gives such a group no window size). -/
def DieSt.ctxRange (d : DieSt) (n : Nat) : Nat :=
  let g := d.cGroup n
  let s := d.ctxSize n
  let w := d.spillWin (d.f (cF n 10 31 31))
  let iw := d.spillWin (d.f (cF n 11 31 31))
  if decide (4096 < s) || decide (6 ≤ d.f (F.ROS_GRP_CFG_WX g)) || decide (6 ≤ d.f (F.ROS_GRP_CFG_WY g)) || d.cPolicy n == 3
      || (d.cTrgQ n && d.cThresh n == 0)
      || (d.cTrgPeriod n && (decide (d.cPeriod n < 1000) || decide (d.cPeriod n ≤ d.cPhase n)))
      || (d.cTrgWatch n && decide (d.cWatch n < 1000))
      || (d.cResident n && decide (65536 < d.cSlotAt n + s / 128))
      || (!d.cResident n && decide (w.2.2 < d.f (cF n 10 30 0) * 128 + s))
      || (d.cInbox n && (d.cIlen n == 0 || decide (iw.2.2 < (d.f (cF n 11 30 8) + d.cIlen n) * 256))) then 2
  else if (!d.cResident n && decide (d.idn.ddr ≤ w.1)) || (d.cInbox n && decide (d.idn.ddr ≤ iw.1)) then 9
  else 0

/-- Do the granules of a resident context overlap those of one that is neither FREE nor STOPPED (R183). -/
def DieSt.ctxOverlap (d : DieSt) (n : Nat) : Bool :=
  d.cResident n && d.usedCtx.any (fun m =>
    m != n && decide (cWaiting ≤ d.cst m) && d.cResident m
    && decide (d.cSlotAt n < d.cSlotAt m + d.ctxSize m / 128) && decide (d.cSlotAt m < d.cSlotAt n + d.ctxSize n / 128))

/-- The checks of R183 that an admission shares with ARM. -/
def DieSt.ctxChecks (d : DieSt) (n : Nat) : Nat :=
  if d.ctxRange n ≠ 0 then d.ctxRange n else if d.ctxOverlap n then 3 else 0

/-- The first period trigger of a context armed now. -/
def DieSt.firstK (d : DieSt) (n : Nat) : Nat :=
  if d.cPeriod n = 0 || decide (d.mt.toNat < d.cPhase n) then 0 else (d.mt.toNat - d.cPhase n) / d.cPeriod n + 1

/-- ARM takes effect: the queue's read end is claimed (R205); 4 CLAIMED.  A trigger kept pending when the context was taken out of
service is not lost: it makes the context READY and starts its next run (R188, R189).  While the Referee restarts no new claim is
taken (R38); STATE ends the command (DESIGN CHOICE, log entry 180: the rule gives no status). -/
def DieSt.ctxArm (d : DieSt) (n : Nat) : DieSt × Nat :=
  let r := 0x640 + d.cQin n
  if !d.cInbox n && d.claim r ≠ 0 && d.claim r ≠ claimContext n then (d, 4)
  else if !d.cInbox n && d.claim r ≠ claimContext n && d.restarting then (d, 1)
  else
    let d := if d.cInbox n then d else d.setClaim r (claimContext n)
    ((d.setCx n { d.cx n with
        wait3 := none, cont := false, endedBy := none, lost := none, descBad := false, watchFrom := d.now, watchDone := false
        perK := d.firstK n }).ctxRest n, 0)

/-- ROS_CMD ARM. -/
def DieSt.rosArm (d : DieSt) (n : Nat) : DieSt × Nat :=
  if d.cst n ≠ cStopped then (d, 1)
  else if d.cClass n = 0 && !d.cAdmitted n then (d, 8)
  else if d.ctxChecks n ≠ 0 then (d, d.ctxChecks n)
  else d.ctxArm n

/-- STOP begins (R186).  R186 names WAITING, READY, LOADED and RUNNING; in SAVING it is accepted as in RUNNING and acts when the save
ends (DESIGN CHOICE, log entry 181). -/
def DieSt.stopBegin (d : DieSt) (n : Nat) : DieSt :=
  let st := d.cst n
  let calm := fun (d : DieSt) => d.setCx n { d.cx n with cont := false, wait3 := none, stopping := true }
  if st = cWaiting then (calm d).ctxComesTo n cStopped
  else if st = cReady then (calm (d.dropLoad n)).ctxComesTo n cStopped
  else if st = cLoaded then
    match d.shadowOf n with
    | some r => (calm (d.discardShadow r)).ctxComesTo n cStopped
    | none => (calm d).ctxComesTo n cStopped
  else if st = cRunning then
    let d := d.setCx n { d.cx n with stopping := true }
    match d.engineOf n with
    | some r => d.order r .stop
    | none => d
  else d.setCx n { d.cx n with stopping := true }

/-- The effect of a ROS_CMD: refused with an error while a command runs; `g` gives the status, and `none` where the
command goes on (STOP). -/
def DieSt.rosDo (d : DieSt) (n : Nat) (g : DieSt → DieSt × Option Nat) : DieSt × Bool :=
  if d.on F.ROS_CMD_RES_BUSY then (d, true)
  else
    let d := d.put F.ROS_CMD_RES_CTX n
    if 40960 ≤ n then (d.put F.ROS_CMD_RES_STATUS 2, false)
    else
      let r := g (d.descRead n).1
      match r.2 with
      | some st => (r.1.put F.ROS_CMD_RES_STATUS st, false)
      | none => (r.1, false)

/-- A write of ROS_CMD. -/
def DieSt.rosCmd (d : DieSt) (m : Master) (n : Nat) (g : DieSt → DieSt × Option Nat) : DieSt :=
  d.busDo m R.ROS_CMD (fun d => d.rosDo n g)

/-- ROS_CMD STOP. -/
def DieSt.rosStop (d : DieSt) (n : Nat) : DieSt × Option Nat :=
  let st := d.cst n
  if d.cAdmitted n then (d, some 8)
  else if st < cWaiting || cSaving < st then (d, some 1)
  else (({ d.put F.ROS_CMD_RES_BUSY 1 with ros := { d.ros with stopCmd := some n } } : DieSt).stopBegin n, none)

/-- Release every claim held by a context (R426). -/
def DieSt.ctxUnclaim (d : DieSt) (n : Nat) : DieSt :=
  { d with claims := ⟨d.claims.cells.filter (fun c => c.2 != claimContext n)⟩ }

/-- ROS_CMD FREE (R205): nothing of the context is left, and its inbox holds no word. -/
def DieSt.rosFree (d : DieSt) (n : Nat) : DieSt × Nat :=
  if d.cAdmitted n then (d, 8)
  else if d.cst n ≠ cStopped then (d, 1)
  else (((((d.ctxUnclaim n).setCx n CtxSt.reset).put (cF n 14 28 16) 0).put (cF n 14 12 0) 0).setCst n cFree, 0)

/-- ROS_CMD TRIGGER (R205). -/
def DieSt.rosTrigger (d : DieSt) (n : Nat) : DieSt × Nat :=
  if d.cst n < cWaiting || cSaving < d.cst n then (d, 1) else (d.fire n 4, 0)

/-- Is the storage of an UNAVAILABLE context readable again. -/
def DieSt.ctxReadable (d : DieSt) (n : Nat) : Bool :=
  (d.cResident n || d.chReady (d.ctxHome n).1) && (!d.cInbox n || d.chReady (d.inboxAt n 0).1)

/-- ROS_CMD RESUME (Table 07-2). -/
def DieSt.rosResume (d : DieSt) (n : Nat) : DieSt × Nat :=
  let st := d.cst n
  if d.cAdmitted n then (d, 8)
  else if st = cError || st = cFaulted || (st = cUnavailable && d.ctxReadable n) then
    ((d.setCx n { d.cx n with lost := none, descBad := false, cont := false }).setCst n cStopped, 0)
  else (d, 1)

/-- The context that holds a key of a profile. -/
def DieSt.keyHolder (d : DieSt) (key prof : Nat) : Option Nat :=
  (d.ros.ctx.cells.find? (fun c => c.2.key == some (key, prof))).map (fun c => c.1)

/-- ROS_CMD INSTALL (R202).  A key for a context that already holds one takes the place of its entry, since the table has one entry
per context (DESIGN CHOICE, log entry 182: the spec does not say it in words).  Which two buckets a key may lie in is the device's own: whether they are full is a free choice
once any key is installed (log entry 21). -/
def DieSt.rosInstall (d : DieSt) (n : Nat) : DieSt × Nat :=
  let key := d.rd64 R.ROS_KEY_LO R.ROS_KEY_HI
  let prof := d.f F.ROS_KEY_CFG_PROFILE
  match d.keyHolder key prof with
  | some _ => (d, 5)
  | none =>
    let others := d.ros.ctx.cells.any (fun c => c.2.key.isSome)
    if others && Config.choice d.free then ({ d with free := d.free + 1 }, 6)
    else
      let d := if others then { d with free := d.free + 1 } else d
      (d.setCx n { d.cx n with key := some (key, prof) }, 0)

/-- ROS_CMD REMOVE: 7 NOT_FOUND. -/
def DieSt.rosRemove (d : DieSt) (n : Nat) : DieSt × Nat :=
  if (d.cx n).key.isSome then (d.setCx n { d.cx n with key := none }, 0) else (d, 7)

/-- A command that ends at once. -/
def doneAt (r : DieSt × Nat) : DieSt × Option Nat := (r.1, some r.2)

/-- The RW fields of descriptor word `w` (Table 07-1); reserved bits read 0 (R6). -/
def descMask (w : Nat) : Word :=
  match w with
  | 0 => 0x0FFBF800
  | 1 => 0xBF800FFF
  | 2 => 0x8000003F
  | 7 => 0x000007FF
  | 9 => 0xFFFF0FFF
  | _ => if w < 12 then 0xFFFFFFFF else 0

/-- A descriptor word after a write: its other bits keep what they hold. -/
def descMerge (w : Nat) (old v : Word) : Word := (old &&& ~~~(descMask w)) ||| (v &&& descMask w)

/-- A write of a descriptor word (R179). -/
def DieSt.descWrite (d : DieSt) (n w : Nat) (v : Word) : DieSt × Bool :=
  let st := d.cst n
  if (st ≠ cFree && st ≠ cStopped) || d.cAdmitted n || (w == 0 && bits v.toNat 27 26 == 0) then (d, true)
  else
    let d := d.wr (R.ROS_CTX n w) (descMerge w (d.rd (R.ROS_CTX n w)) v)
    let d := { d with ros := { d.ros with descFlip := d.ros.descFlip.set (fun _ => 0) (16 * n + w) 0 } }
    (if w = 0 && st = cFree then d.setCst n cStopped else d, false)

/-! ### Lost spill windows (R184) -/

/-- Does the context keep state or an inbox on channel `c`; the window it loses. -/
def DieSt.ctxLoses (d : DieSt) (n c : Nat) : Option Nat :=
  if !d.cResident n && (d.ctxHome n).1 == c then some (d.f (cF n 10 31 31))
  else if d.cInbox n && (d.inboxAt n 0).1 == c then some (d.f (cF n 11 31 31))
  else none

/-- One context loses its window. -/
def DieSt.ctxLost (d : DieSt) (n win : Nat) : DieSt :=
  let st := d.cst n
  if st = cRunning || st = cSaving then d.setCx n { d.cx n with lost := some ((d.cx n).lost.getD win) }
  else if st < cWaiting || st = cUnavailable then d
  else
    let d := match d.shadowOf n with
      | some r => d.discardShadow r
      | none => d.dropLoad n
    d.ctxGone n win

/-- The DRAM channel of spill windows fails. -/
def DieSt.rosSpillFail (d : DieSt) (c : Nat) : DieSt :=
  d.usedCtx.foldl (fun d n =>
    match d.ctxLoses n c with
    | some w => d.ctxLost n w
    | none => d) d

/-! ### Intake (R201 to R203) -/

/-- A byte of a frame. -/
def byteAt (l : List Nat) (k : Nat) : Nat := nth 0 l k % 256

/-- Does an Ethernet frame carry one customer tag directly after the source address (R201). -/
def tagged (l : List Nat) : Bool := byteAt l 12 == 0x81 && byteAt l 13 == 0x00

/-- An offset as a profile with VLAN sees it. -/
def DieSt.profOff (d : DieSt) (i p : Nat) (l : List Nat) (o : Nat) : Nat :=
  if p < 4 && d.on (F.ROS_PROF_SEL_VLAN i) && tagged l && decide (12 ≤ o) then o + 4 else o

/-- Does a frame at port `p` match profile `i` (R201). -/
def DieSt.profMatch (d : DieSt) (i p : Nat) (l : List Nat) : Bool :=
  let e := d.f (F.ROS_PROF_SEL_ETYPE i)
  let o := d.profOff i p l 12
  d.on (F.ROS_PROF_SEL_EN i) && bit (d.f (F.ROS_PROF_SEL_PORTS i)) p
  && (decide (4 ≤ p) || e == 0 || e == byteAt l o * 256 + byteAt l (o + 1))

/-- Bytes of an extract. -/
def extLen (c : Nat) : Nat := if c = 3 then 4 else c

/-- An extract in network byte order. -/
def extract (l : List Nat) (o n : Nat) : Nat := (List.range n).foldl (fun v k => v * 256 + byteAt l (o + k)) 0

/-- The key of a frame under profile `i` (R201). -/
def DieSt.frameKey (d : DieSt) (i p : Nat) (l : List Nat) : Nat :=
  let n0 := extLen (d.f (F.ROS_PROF_EXT_LEN0 i))
  let n1 := extLen (d.f (F.ROS_PROF_EXT_LEN1 i))
  extract l (d.profOff i p l (d.f (F.ROS_PROF_EXT_OFF0 i))) n0
    + extract l (d.profOff i p l (d.f (F.ROS_PROF_EXT_OFF1 i))) n1 * 2 ^ (8 * n0)

/-- Pack payload bytes into words, the last zero-padded. -/
def packWords : Nat → List Nat → List Nat
  | 0, _ => []
  | _ + 1, [] => []
  | n + 1, l => ofBytes (l.take 8) :: packWords n (l.drop 8)

/-- The words a frame is appended as, with their tags (R203). -/
def DieSt.intakeItem (d : DieSt) (i p : Nat) (ts : Word64) (l : List Nat) : List (Nat × Nat) :=
  let pay := l.drop (d.profOff i p l (d.f (F.ROS_PROF_PAY_PAY_OFF i)))
  let hdr := if d.on (F.ROS_PROF_PAY_HDR i) then
      [(ts.toNat, 1), (p * 2 ^ 56 + i * 2 ^ 48 + pay.length % 2 ^ 16 * 2 ^ 16, 1)]
    else []
  let all := hdr ++ (packWords pay.length pay).map (fun w => (w, 0))
  match all.getLast? with
  | some w => all.dropLast ++ [(w.1, w.2 + 32)]
  | none => []

/-- Append words to an inbox ring. -/
def DieSt.inboxAppend (d : DieSt) (n : Nat) (item : List (Nat × Nat)) : DieSt :=
  item.foldl (fun d w =>
    let k := d.f (cF n 14 12 0)
    let a := d.inboxAt n k
    let d := d.portPuts a.1 rosPort a.2 (wordBytes 8 w.1)
    let c := d.cx n
    let word : QWord := { data := BitVec.ofNat 64 w.1, tag := w.2, par := 0, closing := false, place := 1, err := false, slot := none }
    (d.setCx n { c with inbox := c.inbox ++ [word] }).put (cF n 14 12 0) (if 32 * d.cIlen n ≤ k + 1 then 0 else k + 1)) d

/-- Room in the input of context `n` for `k` words. -/
def DieSt.intakeRoom (d : DieSt) (n k : Nat) : Bool :=
  if d.cInbox n then decide ((d.cx n).inbox.length + k ≤ 32 * d.cIlen n) && d.chReady (d.inboxAt n 0).1
  else d.qWriter (d.cQin n) == some .roster && d.qRoom (d.cQin n) k

/-- A frame is dropped under profile `i`, at most one INTAKE_DROP a millisecond. -/
def DieSt.intakeDrop (d : DieSt) (i why who : Nat) : DieSt :=
  (d.bump (F.ROS_PROF_CNT_DROP i)).raiseLim (bit (d.f F.ROS_EVT_EN_EN) 5) (0x0706 * 2 ^ 20 + i) 1000000 0x702 0x0706
    (why * 2 ^ 16 + who)

/-- The classifier takes a frame (R201 to R203).  A frame for MISS_Q that finds no room has no context: bits [15:0] of its
INTAKE_DROP give the profile (DESIGN CHOICE, log entry 183). -/
def DieSt.intake (d : DieSt) (p : Nat) (ts : Word64) (l : List Nat) : DieSt :=
  if !d.rosOn || !d.hubOn || !d.on F.ROS_CTL_CLS_EN || decide (8 ≤ p) then d
  else
    match (List.range 8).find? (fun i => d.profMatch i p l) with
    | none => d
    | some i =>
      let item := d.intakeItem i p ts l
      let ok := fun (d : DieSt) => d.bump (F.ROS_PROF_CNT_MATCH i)
      match d.keyHolder (d.frameKey i p l) i with
      | some n =>
        if d.cst n = cFree then d.intakeDrop i 3 n
        else if !d.intakeRoom n item.length then d.intakeDrop i 2 n
        else if d.cInbox n then ok (d.inboxAppend n item)
        else ok (d.qAppend (d.cQin n) item)
      | none =>
        let q := d.f (F.ROS_PROF_PAY_MISS_Q i)
        if d.on (F.ROS_PROF_PAY_MISS_EN i) then
          if d.qWriter q == some .roster && d.qRoom q item.length then ok (d.qAppend q item) else d.intakeDrop i 2 i
        else d.intakeDrop i 1 i

/-! ### Triggers by command -/

/-- QUEUE_TRIGGER: a level condition that holds on after it has made the context pending fires no second trigger (log entry 120). -/
def DieSt.queueTrigger (d : DieSt) (n : Nat) : DieSt :=
  let r := d.descRead n
  let d := r.1
  if d.rosOn && r.2 && d.cst n == cWaiting && d.cTrgQ n && d.ctxQueueCond n && !bit (d.cx n).pend 0 then d.fire n 0 else d

/-- PERIOD_TRIGGER: MT has reached k × PERIOD + PHASE; several values passed at once fire once, with MERGED (R187). -/
def DieSt.periodTrigger (d : DieSt) (n : Nat) : DieSt :=
  let r := d.descRead n
  let d := r.1
  let k := d.firstK n
  let c := d.cx n
  if d.rosOn && r.2 && decide (cWaiting ≤ d.cst n) && d.cTrgPeriod n && decide (c.perK < k) then
    let many := decide (c.perK + 1 < k)
    let d := (d.setCx n { c with perK := k }).fire n 1
    if many then d.setCx n { d.cx n with pend := putBit (d.cx n).pend 6 true } else d
  else d

/-- WATCH_TRIGGER. -/
def DieSt.watchTrigger (d : DieSt) (n : Nat) : DieSt :=
  let r := d.descRead n
  let d := r.1
  let c := d.cx n
  if d.rosOn && r.2 && d.cst n == cWaiting && d.cTrgWatch n && !c.watchDone && decide (d.cWatch n ≤ d.now - c.watchFrom) then
    (d.setCx n { c with watchDone := true }).fire n 2
  else d

/-- EVENT_TRIGGER. -/
def DieSt.eventTrigger (d : DieSt) (p : Nat) : DieSt :=
  if !d.rosOn then d
  else d.usedCtx.foldl (fun d n =>
    if d.cTrgEvent n && d.cEventPort n == p then
      let r := d.descRead n
      if r.2 then r.1.fire n 3 else r.1
    else d) d

/-! ### The commands -/

/-- ROS_DESCRIPTOR_WRITE (R179). -/
def execRosDescriptorWrite (x : Die) (m : Master) (n w : Nat) (v : Word) (s : State) : Out :=
  act x s (fun d => if n < 40960 && w < 16 then d.busDo m (R.ROS_CTX n w) (fun d => d.descWrite n w v) else d.answer m 0 true)

/-- ROS_ARM (R183). -/
def execRosArm (x : Die) (m : Master) (n : Nat) (s : State) : Out :=
  act x s (fun d => d.rosCmd m n (fun d => doneAt (d.rosArm n)))

/-- ROS_STOP (R186). -/
def execRosStop (x : Die) (m : Master) (n : Nat) (s : State) : Out := act x s (fun d => d.rosCmd m n (fun d => d.rosStop n))

/-- ROS_FREE (R205). -/
def execRosFree (x : Die) (m : Master) (n : Nat) (s : State) : Out :=
  act x s (fun d => d.rosCmd m n (fun d => doneAt (d.rosFree n)))

/-- ROS_TRIGGER (R205). -/
def execRosTrigger (x : Die) (m : Master) (n : Nat) (s : State) : Out :=
  act x s (fun d => d.rosCmd m n (fun d => doneAt (d.rosTrigger n)))

/-- ROS_RESUME (R185). -/
def execRosResume (x : Die) (m : Master) (n : Nat) (s : State) : Out :=
  act x s (fun d => d.rosCmd m n (fun d => doneAt (d.rosResume n)))

/-- ROS_INSTALL (R202). -/
def execRosInstall (x : Die) (m : Master) (n : Nat) (s : State) : Out :=
  act x s (fun d => d.rosCmd m n (fun d => doneAt (d.rosInstall n)))

/-- ROS_REMOVE (R205). -/
def execRosRemove (x : Die) (m : Master) (n : Nat) (s : State) : Out :=
  act x s (fun d => d.rosCmd m n (fun d => doneAt (d.rosRemove n)))

/-- ROS_CMD SELECT. -/
def DieSt.rosSelect (d : DieSt) (n : Nat) : DieSt × Nat := ({ d with ros := { d.ros with selected := some n } }, 0)

/-- ROS_SELECT (R205). -/
def execRosSelect (x : Die) (m : Master) (n : Nat) (s : State) : Out :=
  act x s (fun d => d.rosCmd m n (fun d => doneAt (d.rosSelect n)))

/-- ROS_CTL.CNT_CLR. -/
def DieSt.rosCntClr (d : DieSt) : DieSt := (List.range 8).foldl (fun d i => d.wr (R.ROS_PROF_CNT i) 0) d

/-- ROS_CNT_CLR (R205). -/
def execRosCntClr (x : Die) (m : Master) (s : State) : Out := act x s (fun d => d.busAct m R.ROS_CTL (fun d => d.rosCntClr))

/-- An access to the state window: the selected context must be STOPPED, ERROR or FAULTED.  The words beyond the context's size S
read 0 and take no write (DESIGN CHOICE, log entry 184: the spec is silent on them). -/
def DieSt.stateWindow (d : DieSt) (m : Master) (off : Nat) (wr : Bool) (v : Word) : DieSt :=
  let who := if wr then mayWrite m .team else true
  match d.ros.selected with
  | none => d.answer m 0 true
  | some n =>
    let st := d.cst n
    if !d.busUp m || !d.rosOn || !who || decide (off % 4 ≠ 0) || decide (4096 ≤ off)
        || !(st == cStopped || st == cError || st == cFaulted) then d.answer m 0 true
    else if wr then (if off < d.ctxSize n then d.ctxPuts n off (wordBytes 4 v.toNat) else d).answer m 0 false
    else if off < d.ctxSize n then
      (d.ctxFound n off 4).answer m (BitVec.ofNat 32 (ofBytes ((List.range 4).map (fun k => d.ctxByte n (off + k))))) false
    else d.answer m 0 false

/-- ROS_STATE_WINDOW_ACCESS (R205). -/
def execRosStateWindowAccess (x : Die) (m : Master) (off : Nat) (wr : Bool) (v : Word) (s : State) : Out :=
  act x s (fun d => d.stateWindow m off wr v)

/-- QUEUE_TRIGGER (R187). -/
def execQueueTrigger (x : Die) (n : Nat) (s : State) : Out := act x s (fun d => d.queueTrigger n)

/-- PERIOD_TRIGGER (R187). -/
def execPeriodTrigger (x : Die) (n : Nat) (s : State) : Out := act x s (fun d => d.periodTrigger n)

/-- WATCH_TRIGGER (R187). -/
def execWatchTrigger (x : Die) (n : Nat) (s : State) : Out := act x s (fun d => d.watchTrigger n)

/-- EVENT_TRIGGER (R187). -/
def execEventTrigger (x : Die) (p : Nat) (s : State) : Out := act x s (fun d => d.eventTrigger p)

/-- ROSTER_DISPATCH (R191). -/
def execRosterDispatch (x : Die) (g : Nat) (s : State) : Out := act x s (fun d => d.dispatch g)

/-- QUANTUM_PREEMPT (R193). -/
def execQuantumPreempt (x : Die) (rg : Nat) (s : State) : Out := act x s (fun d => d.quantum rg)

/-- EXPRESS_PREEMPT (R198). -/
def execExpressPreempt (x : Die) (n : Nat) (s : State) : Out := act x s (fun d => d.expressPreempt n)

/-- RUN_OVERRUN (R200). -/
def execRunOverrun (x : Die) (n : Nat) (s : State) : Out := act x s (fun d => d.overrunTest n)

/-- PORT3_WAIT_END (R194). -/
def execPort3WaitEnd (x : Die) (n : Nat) (s : State) : Out := act x s (fun d => d.waitEnd n)

/-- DUE_MISSED (R204). -/
def execDueMissed (x : Die) (n : Nat) (s : State) : Out := act x s (fun d => d.dueMissed n)

/-- The background pass reads descriptor `n` (R179). -/
def DieSt.descriptorScan (d : DieSt) (n : Nat) (upset : List (Nat × Nat)) : DieSt :=
  let d := { d with ros := { d.ros with
    descFlip := upset.foldl (fun t c => t.upd (fun _ => 0) (16 * n + c.1 % 16) (fun f => eccFlip 39 f c.2)) d.ros.descFlip } }
  if d.rosOn && decide (n < 40960) && decide (d.cst n ≠ cFree) then (d.descRead n).1 else d

/-- INTAKE_FRAME (R203). -/
def execIntakeFrame (x : Die) (p : Nat) (ts : Word64) (bytes : List Nat) (s : State) : Out :=
  act x s (fun d => d.intake p ts bytes)

end Sys2Proof.Machine
end

