-- ==== Sys2Proof/Machine/Slk.lean ====
section
/-! DEFINITION. The event collector and the Sunislink messages: sending, routing, dropping and local delivery (R273 to
R288, R300). -/

namespace Sys2Proof.Machine

/-! ### The ports -/

/-- Port `p` beside its registers. -/
def DieSt.prt (d : DieSt) (p : Nat) : PortSt := d.port.get (fun _ => PortSt.reset) p

/-- What a port keeps when its domain goes off: held in HOLD after SLK_DUP_ID until COLD (R281). -/
def PortSt.lost (s : PortSt) : PortSt := { PortSt.reset with dup := s.dup }

/-- Replace port `p`. -/
def DieSt.setPrt (d : DieSt) (p : Nat) (v : PortSt) : DieSt := { d with port := d.port.set (fun _ => PortSt.reset) p v }

/-- Port states of Table 11-1. -/
def slkDown : Nat := 0
def slkTraining : Nat := 1
def slkHold : Nat := 2
def slkUp : Nat := 3
def slkDegraded : Nat := 4

/-- The state of port `p`. -/
def DieSt.portState (d : DieSt) (p : Nat) : Nat := d.f (F.SLK_PORT_STAT_STATE p)

/-- Is port `p` bonded with every quad of its lanes 5p to 5p + 4 powered (R272, R334). -/
def DieSt.portLive (d : DieSt) (p : Nat) : Bool :=
  decide (p < d.idn.slk) && (List.range 5).all (fun i => d.quadOn ((5 * p + i) / 4))

/-- Does port `p` carry messages of every kind. -/
def DieSt.portUp (d : DieSt) (p : Nat) : Bool :=
  d.portLive p && (d.portState p == slkUp || d.portState p == slkDegraded)

/-- Raise event `k` of 0x0B01 to 0x0B05 for port `p` as SLK_EVT_EN enables it (R302). -/
def DieSt.slkEvt (d : DieSt) (p k data : Nat) : DieSt :=
  d.raiseIf (bit (d.f F.SLK_EVT_EN_EN) k) (0x5E0 + 5 * p) (0x0B01 + k) data

/-- Move port `p` to a state and raise SLK_LINK. -/
def DieSt.portGo (d : DieSt) (p st : Nat) : DieSt :=
  if d.portState p = st then d
  else
    let s := d.prt p
    ((d.setPrt p { s with downAt := if st = slkDown then d.now + 1 else 0 }).put (F.SLK_PORT_STAT_STATE p) st).slkEvt p 0 (st * 2 ^ 21 + d.f (F.SLK_PORT_STAT_FAILED p) * 2 ^ 16)

/-- The lanes of port `p` with a quarantine record, which count as failed from training onward (R404). -/
def DieSt.lanesOut (d : DieSt) (p : Nat) : Nat :=
  (List.range 5).foldl (fun n i => putBit n i (d.quarHas 3 (5 * p + i))) 0

/-- Working lanes of port `p`. -/
def DieSt.lanesUp (d : DieSt) (p : Nat) : Nat := 5 - popcount 5 (d.f (F.SLK_PORT_STAT_FAILED p))

/-- The state a trained port holds with the lanes it has: HOLD before LINE-UP or after SLK_DUP_ID (R273, R274, R281). -/
def DieSt.portTrained (d : DieSt) (p : Nat) : Nat :=
  if d.lanesUp p < 3 then slkDown
  else if d.dev < 3 || d.dev == 8 || (d.prt p).dup then slkHold
  else if d.lanesUp p = 3 then slkDegraded else slkUp

/-- A message is dropped at port `p` with a reason of Table 11-6; reason 4 is HOLD (R275, R282, R302).  An absent port counts and
raises nothing (R16). -/
def DieSt.slkDrop (d : DieSt) (p reason : Nat) : DieSt :=
  if d.idn.slk ≤ p then d
  else
  let d := d.bump (if reason = 4 then F.SLK_PORT_DROP_HOLDS p else F.SLK_PORT_DROP_DROPS p)
  let s := d.prt p
  let n := satInc 20 s.drops
  let key := 0x0B04 * 2 ^ 20 + p
  if bit (d.f F.SLK_EVT_EN_EN) 3 && d.due key 1000000 then
    (d.setPrt p { s with drops := 0 }).raiseLim true key 1000000 (0x5E0 + 5 * p) 0x0B04 (reason * 2 ^ 20 + n)
  else d.setPrt p { s with drops := n }

/-! ### The event collector (R300) -/

/-- A record enters the collector, or is lost: uncounted while domain 74 is off. -/
def DieSt.collect (d : DieSt) (r : EvRec) : DieSt :=
  if !d.domOn 74 then d
  else if 256 ≤ d.coll.length then (d.bump F.SYS_EVT_STAT_LOST).put F.SYS_EVT_STAT_OVF 1
  else { d with coll := d.coll ++ [r] }

/-- Record bits [63:0] (R298). -/
def EvRec.low (r : EvRec) : Nat := r.src % 2 ^ 24 * 2 ^ 40 + r.code % 2 ^ 16 * 2 ^ 24 + r.data % 2 ^ 24

/-- The bytes of an EVENT message's payload. -/
def EvRec.bytes (r : EvRec) : List Nat := wordBytes 8 r.low ++ wordBytes 8 r.mt.toNat

/-- The record an EVENT message's payload carries. -/
def EvRec.ofPayload (l : List Nat) : EvRec :=
  let lo := ofBytes (l.take 8)
  ⟨BitVec.ofNat 64 (ofBytes ((l.drop 8).take 8)), bits lo 63 40, bits lo 39 24, bits lo 23 0, true, false⟩

/-! ### Messages -/

/-- A well-formed message of this device (Table 11-2). -/
def slkMsg (dest kind cls chan : Nat) (payload : List Nat) : SlkMsg :=
  { dest := dest, src := 0, kind := kind, cls := cls, hops := 16, len := payload.length, chan := chan, mt0 := 0, payload := payload }

/-- The header of a message, as a number of 128 bits (Table 11-2). -/
def slkHeader (m : SlkMsg) : Nat :=
  m.dest % 2 ^ 12 * 2 ^ 116 + m.src % 2 ^ 12 * 2 ^ 104 + m.kind % 16 * 2 ^ 100 + m.cls % 4 * 2 ^ 98 + m.hops % 32 * 2 ^ 93
    + m.len % 512 * 2 ^ 84 + m.chan % 2 ^ 16 * 2 ^ 68 + m.mt0 % 2 ^ 64

/-- The CRC of a message, over its header and payload (R276).  The header goes in as sixteen bytes, low first (DESIGN CHOICE, log entry
189). -/
def slkCrc (m : SlkMsg) : Nat := crc32 (wordBytes 16 (slkHeader m) ++ m.payload)

/-- A message on the lanes: header, payload and CRC, padded to a multiple of 8 bytes (R276). -/
def slkWire (m : SlkMsg) : List Nat :=
  let b := wordBytes 16 (slkHeader m) ++ m.payload ++ wordBytes 4 (slkCrc m)
  b ++ List.replicate ((8 - b.length % 8) % 8) 0

/-- A message waits to leave by port `p`. -/
def DieSt.portPush (d : DieSt) (p : Nat) (m : SlkMsg) : DieSt :=
  let s := d.prt p
  d.setPrt p { s with out := s.out ++ [m] }

/-- The primary and alternate port of a device ID; its own reads 4 (R282, SLK_ROUTE). -/
def DieSt.route (d : DieSt) (dest : Nat) : Nat × Nat :=
  if d.on F.SLK_ID_VALID && dest == d.f F.SLK_ID_ID then (4, 4)
  else
    let b := ((d.rd (R.SLK_ROUTE (dest / 4))).toNat >>> (8 * (dest % 4))) % 256
    (bits b 2 0, bits b 5 3)

/-- Is this device a member of a group address, or is it broadcast (R280). -/
def DieSt.slkMember (d : DieSt) (dest : Nat) : Bool :=
  let g := dest - 0x800
  if dest = 0xFFF then true
  else if dest < 0x800 then false
  else if g < 128 then d.on F.SLK_ID_VALID && d.f F.SLK_ID_PREFIX == g
  else bit (d.rd (R.SLK_GROUP (g / 32))).toNat (g % 32)

/-- May a message leave by port `p`: the port is UP or DEGRADED (R282), or in HOLD and the message is
configuration traffic, which HOLD carries too (R275; DEDUCED, log entry 45). -/
def DieSt.slkLeaves (d : DieSt) (p : Nat) (m : SlkMsg) : Bool :=
  d.portUp p || (decide (m.kind < 2) && d.portLive p && d.portState p == slkHold)

/-- Send a unicast message by its route; without one it is dropped with NOROUTE, counted at the primary port (at port 0
where the route names none: DESIGN CHOICE, log entry 40). -/
def DieSt.slkUnicast (d : DieSt) (m : SlkMsg) : DieSt :=
  let r := d.route m.dest
  if r.1 < 4 && d.slkLeaves r.1 m then d.portPush r.1 m
  else if r.2 < 4 && d.slkLeaves r.2 m then d.portPush r.2 m
  else d.slkDrop (if r.1 < d.idn.slk then r.1 else 0) 1

/-- Forward a group or broadcast message on every multicast port but the one it came by (R283). -/
def DieSt.slkCast (d : DieSt) (m : SlkMsg) (from' : Option Nat) : DieSt :=
  (List.range 4).foldl (fun d p =>
    if d.portLive p && d.on (F.SLK_PORT_CTL_MCAST p) && 2 ≤ d.portState p && decide (from' ≠ some p) then d.portPush p m else d) d

/-- The crossing at which a QUEUE message that came by port `p` waits: of kind 7, on the second lane of the port (log entry
125). -/
def slkItemX (p : Nat) : XRef := ⟨7, 5 * p + 1, 0, false⟩

/-- The crossing at which user token channel `c` delivers, whatever port its tokens came by, so that they keep their order (R288):
of kind 7, counted as on lane 0 (log entry 125). -/
def slkChanX (c : Nat) : XRef := ⟨7, 0, c, false⟩

/-- A QUEUE message that came by port `p`: to the classifier (R287), but in RECOVERY, and behind one that waits, it waits at
its crossing with the MT of its arrival (R344).  The crossing's token is that MT; the message's bytes lie beside it. -/
def DieSt.slkItemIn (d : DieSt) (p : Nat) (l : List Nat) : DieSt :=
  let c := d.xr (slkItemX p)
  let busy := c.full || c.flight || !c.wait.isEmpty
  if d.dev == 6 || busy then
    let held := if busy then d.slkHeld.get (fun _ => []) p else []
    let d := d.xOffer (slkItemX p) d.mt.toNat
    { d with slkHeld := d.slkHeld.set (fun _ => []) p (held ++ [(d.mt, l)]) }
  else d.intake (4 + p) d.mt l

/-- A QUEUE message leaves its crossing for the classifier. -/
def DieSt.slkItemOut (d : DieSt) (p : Nat) : DieSt :=
  match d.slkHeld.get (fun _ => []) p with
  | x :: r => ({ d with slkHeld := d.slkHeld.set (fun _ => []) p r } : DieSt).intake (4 + p) x.1 x.2
  | [] => d

/-- The PLAY instant is known. -/
def DieSt.setPlay (d : DieSt) (t : Nat) : DieSt :=
  { d.wr64 R.CFG_PLAY_LO R.CFG_PLAY_HI t with mtm := { d.mtm with playAt := some t } }

/-- KICKOFF_MESSAGE. -/
def DieSt.kickMsg (d : DieSt) (p : Nat) (m : KickMsg) : DieSt :=
  if !d.portLive p || d.portState p < 2 then d
  else
    match m with
    | .ready => d.setPrt p { d.prt p with ready := true }
    | .play t =>
      if d.dev ≠ 3 then d
      else if t < d.mt.toNat then d.raiseIf (d.on F.MT_EVT_EN_KICKOFF) 0x70A 0x0B06 0
      else d.setPlay t

/-- Deliver a message to this device; it came by port `p` (Table 11-3). -/
def DieSt.slkDeliver (d : DieSt) (p : Nat) (m : SlkMsg) : DieSt :=
  match m.kind with
  | 1 => d.kickMsg p (if m.payload.isEmpty then .ready else .play (ofBytes (m.payload.take 8)))
  | 2 => { d with mgmtIn := d.mgmtIn ++ [m] }
  | 3 => d.slkItemIn p m.payload
  | 4 =>
    let c := m.chan % 256
    if d.on (F.SLK_CHAN_CFG_EN c) && d.on (F.SLK_CHAN_CFG_DIR c) then
      d.xOffer (slkChanX c) (ofBytes (m.payload.take 8) + nth 0 m.payload 8 % 64 * 2 ^ 64)
    else d
  | 5 =>
    let c := m.chan % 256
    if d.on (F.SLK_CHAN_CFG_EN c) && !d.on (F.SLK_CHAN_CFG_DIR c) && !d.on (F.SLK_CHAN_CFG_STALL c)
        && decide (d.f (F.SLK_CHAN_CFG_CREDITS c) < 8) then
      { d.put (F.SLK_CHAN_CFG_CREDITS c) (d.f (F.SLK_CHAN_CFG_CREDITS c) + 1) with
        chanZero := d.chanZero.set (fun _ => 0) c 0 }
    else d
  | 6 => if d.on F.SYS_EVT_CFG_RX_EN then d.collect (EvRec.ofPayload m.payload) else d
  | _ => d

/-- Send a message of this device: its own ID goes in, and it takes its route (R276, R279, R282, R283); MT0 is the MT at which it
leaves.  Before PREFIX is known a device sends nothing of its own. -/
def DieSt.slkSend (d : DieSt) (m : SlkMsg) : DieSt :=
  let m := { m with src := d.f F.SLK_ID_ID, hops := 16 }
  if !d.on F.SLK_ID_VALID then d
  else if m.dest < 0x800 then
    if m.dest = d.f F.SLK_ID_ID then d.slkDeliver 0 m else d.slkUnicast m
  else
    let d := d.slkCast m none
    if d.slkMember m.dest then d.slkDeliver 0 m else d

/-! ### User token channels (R288) -/

/-- The tokens of class-0 channel `c` that went in the last microsecond. -/
def DieSt.chanRecent (d : DieSt) (c : Nat) : List Nat :=
  (d.chanSent.get (fun _ => []) c).filter (fun t => decide (d.now < t + 1000))

/-- Does a channel's admission hold its next token back: one of class 0 sends at most RATE tokens in any microsecond (R278, R288;
DEDUCED, log entry 161). -/
def DieSt.chanPaced (d : DieSt) (c : Nat) : Bool :=
  d.f (F.SLK_CHAN_CFG_CLASS c) == 0 && decide (d.f (F.SLK_CHAN_RATE_RATE c) ≤ (d.chanRecent c).length)

/-- A transmit channel with credit sends a token; an unroutable one is dropped and its credit is lost. -/
def DieSt.tokenSend (d : DieSt) (c data tag : Nat) : DieSt :=
  let n := d.f (F.SLK_CHAN_CFG_CREDITS c)
  if decide (256 ≤ c) || !d.on (F.SLK_CHAN_CFG_EN c) || d.on (F.SLK_CHAN_CFG_DIR c) || n == 0 || d.chanPaced c then d
  else
    let d := d.put (F.SLK_CHAN_CFG_CREDITS c) (n - 1)
    let d := if d.f (F.SLK_CHAN_CFG_CLASS c) = 0 then
        { d with chanSent := d.chanSent.set (fun _ => []) c (d.chanRecent c ++ [d.now]) } else d
    let d := if n = 1 then { d with chanZero := d.chanZero.set (fun _ => 0) c (d.now + 1) } else d
    d.slkSend (slkMsg (d.f (F.SLK_CHAN_CFG_DEST c)) 4 (d.f (F.SLK_CHAN_CFG_CLASS c)) (d.f (F.SLK_CHAN_CFG_RCH c))
      (wordBytes 8 data ++ [tag % 64]))

/-- The fabric has taken a token of a receive channel: its credit goes back. -/
def DieSt.tokenTaken (d : DieSt) (c : Nat) : DieSt :=
  if d.on (F.SLK_CHAN_CFG_EN c) && d.on (F.SLK_CHAN_CFG_DIR c) then
    d.slkSend (slkMsg (d.f (F.SLK_CHAN_CFG_DEST c)) 5 (d.f (F.SLK_CHAN_CFG_CLASS c)) (d.f (F.SLK_CHAN_CFG_RCH c)) [])
  else d

end Sys2Proof.Machine
end

