-- ==== Sys2Proof/Machine/Mbx.lean ====
section
/-! DEFINITION. The mailbox: how a Referee call is taken, checked and ended, and the claim table (R18, R311, R422 to
R426). -/

namespace Sys2Proof.Machine

/-! ### Call status codes (Table 16-2) -/

def csOk : Nat := 0
def csState : Nat := 1
def csRange : Nat := 2
def csOverlap : Nat := 3
def csClaimed : Nat := 4
def csDuplicate : Nat := 5
def csFull : Nat := 6
def csNotFound : Nat := 7
def csClass : Nat := 8
def csAbsent : Nat := 9
def csBusy : Nat := 10
def csSealed : Nat := 11
def csDenied : Nat := 12
def csAuth : Nat := 13
def csNoReadback : Nat := 14
def csHold : Nat := 15
def csTimeout : Nat := 16
def csFailed : Nat := 17
def csFixed : Nat := 18
def csLatched : Nat := 19
def csUnknown : Nat := 20

/-- The codes of Table 16-3. -/
def callCodes : List Nat :=
  [0x00, 0x01, 0x02, 0x03, 0x04, 0x10, 0x11, 0x12, 0x20, 0x21, 0x22, 0x30, 0x31, 0x32, 0x33, 0x34, 0x35, 0x40, 0x41,
   0x42, 0x43, 0x44, 0x50, 0x51, 0x52, 0x53, 0x54, 0x55, 0x60, 0x61, 0x62, 0x63, 0x64, 0x65, 0x70, 0x71, 0x72, 0x80,
   0x81, 0x82, 0x83, 0x90]

/-- Slot states of MBX_RES. -/
def slotIdle : Nat := 0
def slotPending : Nat := 1
def slotBusy : Nat := 2
def slotDone : Nat := 3

/-! ### Ending a call -/

/-- A remote call's answer goes back as a MGMT message whose CHAN is 256 plus the remote code: status and three return
words of four bytes each (DESIGN CHOICE, log entry 51: the spec gives the request's form and not the answer's). -/
def mgmtAnswer (src code status : Nat) (rets : List Nat) : SlkMsg :=
  slkMsg src 2 1 (256 + code) (wordBytes 4 status ++ (List.range 3).flatMap (fun k => wordBytes 4 (nth 0 rets k)))

/-- CALL_DENIED (Table 16-8). -/
def DieSt.callDenied (d : DieSt) (code status : Nat) (isRemote : Bool) : DieSt :=
  d.raiseIf (status == csDenied || status == csAuth) 0x705 0x1002 (code * 2 ^ 16 + status * 2 ^ 8 + b2n isRemote)

/-- A call ends with a status and its return words. -/
def DieSt.callOver (d : DieSt) (w : Caller) (status : Nat) (rets : List Nat) : DieSt :=
  let d : DieSt := { d with ref := { d.ref with holds := d.ref.holds.filter (fun h => h.1 != w), fwd := d.ref.fwd.filter (fun c => c != w) } }
  match w with
  | .slot s =>
    let code := d.f (F.MBX_CALL_CODE s)
    let d := ((d.put (F.MBX_RES_STATE s) slotDone).put (F.MBX_RES_TAG s) (d.f (F.MBX_CALL_TAG s))).put (F.MBX_RES_STATUS s) status
    let d := (List.range 4).foldl (fun d k => d.wr (R.MBX_RET s k) (BitVec.ofNat 32 (nth 0 rets k))) d
    let d := d.put F.MBX_IRQ_DONE (putBit (d.f F.MBX_IRQ_DONE) (s % 8) true)
    let d : DieSt := { d with ref := { d.ref with order := d.ref.order.filter (fun t => t != s) } }
    d.callDenied code status false
  | .remote k =>
    match d.ref.remotes.find? (fun r => r.key == k) with
    | some r =>
      let d : DieSt := { d with ref := { d.ref with
        remotes := d.ref.remotes.filter (fun r => r.key != k)
        answers := d.ref.answers ++ [(r.src, status, rets)] } }
      (d.slkSend (mgmtAnswer r.src r.code status rets)).callDenied r.code status true
    | none => d

/-- End a call; while the Referee restarts, a BUSY call waits for the end of the restart, which completes it from its
hardware result (R428, step 5 of Table 16-7). -/
def DieSt.callEnd (d : DieSt) (w : Caller) (status : Nat) (rets : List Nat) : DieSt :=
  if d.f F.REF_STAT_STATE = 2 then { d with ref := { d.ref with late := d.ref.late ++ [(w, status, rets)] } }
  else d.callOver w status rets

/-! ### Taking a call -/

/-- Does the Referee serve. -/
def DieSt.serving (d : DieSt) : Bool := d.domOn 76 && d.f F.REF_STAT_STATE == 1

/-- End the calls at the front of the order whose code is not listed (UNKNOWN). -/
def DieSt.dropUnknown : Nat → DieSt → DieSt
  | 0, d => d
  | n + 1, d =>
    match d.ref.order with
    | s :: _ =>
      if d.serving && !callCodes.contains (d.f (F.MBX_CALL_CODE s)) then (d.callEnd (.slot s) csUnknown []).dropUnknown n else d
    | [] => d

/-- Is the call next: the first slot in the order of GO, with this code; or the first remote call not yet taken. -/
def DieSt.callNext (d : DieSt) (w : Caller) (code : Nat) : Bool :=
  d.serving &&
  match w with
  | .slot s =>
    d.ref.order.head? == some s && d.f (F.MBX_RES_STATE s) == slotPending && d.f (F.MBX_CALL_CODE s) == code
  | .remote k =>
    match d.ref.remotes.find? (fun r => !r.busy) with
    | some r => r.key == k && r.code == code
    | none => false

/-- Is it a call that die 1's Referee has taken, and that waits for die 0's to serve (R429). -/
def DieSt.callWaits (d : DieSt) (w : Caller) (code : Nat) : Bool :=
  d.ref.fwd.contains w &&
  match w with
  | .slot s => d.f (F.MBX_CALL_CODE s) == code
  | .remote _ => false

/-- Mark a call BUSY. -/
def DieSt.callTake (d : DieSt) (w : Caller) : DieSt :=
  match w with
  | .slot s =>
    let d := d.put (F.MBX_RES_STATE s) slotBusy
    { d with ref := { d.ref with order := d.ref.order.filter (fun t => t != s) } }
  | .remote k =>
    { d with ref := { d.ref with remotes := d.ref.remotes.map (fun r => if r.key = k then { r with busy := true } else r) } }

/-- Argument `i` of a call. -/
def DieSt.arg (d : DieSt) (w : Caller) (i : Nat) : Nat :=
  match w with
  | .slot s => (d.rd (R.MBX_ARG s i)).toNat
  | .remote k => nth 0 ((d.ref.remotes.find? (fun r => r.key == k)).elim [] (fun r => r.args)) i

/-- The codes no remote call may carry (R425). -/
def neverRemote (code : Nat) : Bool :=
  (0x60 ≤ code && code ≤ 0x65) || (0x70 ≤ code && code ≤ 0x72) || code == 0x82 || code == 0x83 || code == 0x90

/-- Does the policy mask, or the remote mask, of the running Team image allow the code (R423, R425). -/
def DieSt.policyAllows (d : DieSt) (w : Caller) (code : Nat) : Bool :=
  match d.ref.team, w with
  | some t, .slot _ => bit t.policy code
  | some t, .remote _ => bit t.remote code && !neverRemote code
  | none, _ => false

/-- Take a call and carry it out: `g` gives the die after it, the status and the return words; no status while hardware
still works on it.  A status that is not OK changes nothing but what FAILED and LATCHED name. -/
def DieSt.call (d : DieSt) (w : Caller) (code : Nat) (g : DieSt → DieSt × Option (Nat × List Nat)) : DieSt :=
  if !d.callNext w code then d
  else
    let d := d.callTake w
    let d :=
      if !d.policyAllows w code then d.callEnd w csDenied []
      else
        let r := g d
        match r.2 with
        | some (st, rets) => (if st = csOk || st = csFailed || st = csLatched then r.1 else d).callEnd w st rets
        | none => r.1
    d.dropUnknown 8

/-- The first status of a list of checks that fails; OK when none does. -/
def firstFail : List (Bool × Nat) → Nat
  | [] => csOk
  | c :: r => if c.1 then c.2 else firstFail r

/-- A call whose checks are `l`; when none fails, `g`. -/
def DieSt.checked (d : DieSt) (l : List (Bool × Nat)) (g : DieSt → DieSt × Option (Nat × List Nat)) :
    DieSt × Option (Nat × List Nat) :=
  let st := firstFail l
  if st = csOk then g d else (d, some (st, []))

/-- A call with one immediate effect. -/
def done (d : DieSt) (rets : List Nat) : DieSt × Option (Nat × List Nat) := (d, some (csOk, rets))

/-- Does a BUSY call hold a resource (R423). -/
def DieSt.held (d : DieSt) (r : Nat) : Bool := d.ref.holds.any (fun h => h.2 == r)

/-- A BUSY call holds a resource until it ends. -/
def DieSt.hold (d : DieSt) (w : Caller) (r : Nat) : DieSt := { d with ref := { d.ref with holds := d.ref.holds ++ [(w, r)] } }

/-! ### The claim table (R426) -/

/-- Is a number a resource of Table 16-4. -/
def isResource (r : Nat) : Bool :=
  r < 0x3C0 || (0x400 ≤ r && r ≤ 0x40B) || (0x500 ≤ r && r ≤ 0x54F) || (0x600 ≤ r && r ≤ 0x68F) || (0x700 ≤ r && r ≤ 0x75F)
  || (0x800 ≤ r && r ≤ 0x8FF)

/-- Is a resource present on this die (R18). -/
def DieSt.hasResource (d : DieSt) (r : Nat) : Bool :=
  if r < 0x3C0 then r / 48 < d.idn.banks
  else if 0x500 ≤ r && r ≤ 0x54F then (r - 0x500) / 4 < d.idn.banks
  else if 0x740 ≤ r && r ≤ 0x75F then (r - 0x740) / 8 < d.idn.ddr
  else true

/-! ### Queries and plain claims -/

/-- CLAIM_QUERY. -/
def DieSt.callClaimQuery (d : DieSt) (w : Caller) : DieSt :=
  d.call w 0x02 (fun d =>
    let r := d.arg w 0
    d.checked [(!isResource r, csRange), (!d.hasResource r, csAbsent)] (fun d => done d [d.claim r]))

/-- CLAIM (R311): the claimant is Team. -/
def DieSt.callClaim (d : DieSt) (w : Caller) : DieSt :=
  d.call w 0x03 (fun d =>
    let r := d.arg w 0
    d.checked [(!isResource r, csRange), (!d.hasResource r, csAbsent), (d.claim r != 0, csClaimed), (d.held r, csBusy)]
      (fun d => done (d.setClaim r claimTeam) []))

/-- RELEASE: Team's own claims only. -/
def DieSt.callRelease (d : DieSt) (w : Caller) : DieSt :=
  d.call w 0x04 (fun d =>
    let r := d.arg w 0
    d.checked [(!isResource r, csRange), (!d.hasResource r, csAbsent), (d.claim r != claimTeam, csClaimed), (d.held r, csBusy)]
      (fun d => done (d.setClaim r 0) []))

/-- NOP. -/
def DieSt.callNop (d : DieSt) (w : Caller) : DieSt := d.call w 0x00 (fun d => done d [])

/-- VERSION: the Referee's VERSION, Team's VERSION, REF_STAT. -/
def DieSt.callVersion (d : DieSt) (w : Caller) : DieSt :=
  d.call w 0x01 (fun d =>
    done d [d.f F.REF_FW_VERSION, d.ref.team.elim 0 (fun t => t.version), (d.rd R.REF_STAT).toNat])

/-- A write of MBX_CALL by Team: refused while the slot is PENDING or BUSY; GO makes the call (R422). -/
def DieSt.mbxCallWrite (d : DieSt) (s : Nat) (v : Word) : DieSt × Bool :=
  let st := d.f (F.MBX_RES_STATE s)
  if st = slotPending || st = slotBusy then (d, true)
  else
    let d := d.wr (R.MBX_CALL s) (v &&& 0x00FF00FF)
    if bit v.toNat 31 then
      let d := ((d.wr (R.MBX_RES s) 0).put (F.MBX_RES_STATE s) slotPending).put (F.MBX_RES_TAG s) (bits v.toNat 23 16)
      ({ d with ref := { d.ref with order := d.ref.order ++ [s] } }.dropUnknown 8, false)
    else (d, false)

/-- A write of an MBX_ARG word. -/
def DieSt.mbxArgWrite (d : DieSt) (s k : Nat) (v : Word) : DieSt × Bool :=
  let st := d.f (F.MBX_RES_STATE s)
  if st = slotPending || st = slotBusy then (d, true) else (d.wr (R.MBX_ARG s k) v, false)

/-! ### Team (R416, R418) -/

/-- Is a Team image valid: its key digest is that of an unrevoked slot and its signature verifies. -/
def DieSt.teamValid (d : DieSt) (t : TeamImg) : Bool :=
  t.sigOk && (List.range 4).any (fun k =>
    bit (d.f F.REF_KEYS_PROG) k && !bit (d.f F.REF_KEYS_REVOKED) k && d.fuse.sigKey.get (fun _ => none) k == some t.keyDigest)

/-- The image in an NVM slot, if it is valid. -/
def DieSt.slotImage (d : DieSt) (k : Nat) : Option TeamImg := (d.ref.slotImg.get (fun _ => none) k).filter (fun t => d.teamValid t)

/-- TEAM_FALLBACK, as MBX_CTL enables it. -/
def DieSt.teamFallback (d : DieSt) (slot : Nat) : DieSt := d.raiseIf (d.on F.MBX_CTL_EV_FB) 0x706 0x1011 (slot % 2 * 2 ^ 23)

/-- TEAM_RESTART, as MBX_CTL enables it. -/
def DieSt.teamRestarted (d : DieSt) (why : Nat) : DieSt := d.raiseIf (d.on F.MBX_CTL_EV_RST) 0x706 0x1012 (why * 2 ^ 20)

/-- The copy of a streamed image in DRAM is what the stream brought: every byte reads back, and none of its lines is bad (R421). -/
def DieSt.teamCopyOk (d : DieSt) (t : TeamImg) : Bool :=
  d.chReady t.chan && (List.range t.length).all (fun k =>
    !d.dramBad t.chan (t.addr + k) && d.dramByte t.chan (t.addr + k) == nth 0 t.bytes k % 256)

/-- Run Team from an image; `alt`: from a slot that TEAM_SEL does not name, or in place of a streamed image (R431).  An image of a slot
that is longer than 2 MiB goes into DRAM, at the address in its header (R418). -/
def DieSt.teamRun (d : DieSt) (t : TeamImg) (slot : Option Nat) (alt : Bool) : DieSt :=
  let d := if slot.isSome && decide (2097152 < t.length) && d.chReady t.chan then d.portPuts t.chan 12 t.addr t.bytes else d
  let d := d.put F.REF_STAT_TEAM_ALT (b2n alt)
  { d with ref := { d.ref with team := some t, teamSlot := slot } }

/-- Start Team from the NVM slots: the slot TEAM_SEL names, then the other (R418). -/
def DieSt.teamStartNvm (d : DieSt) (late : Bool) : DieSt :=
  let k := d.sel.slot % 2
  match d.slotImage k, d.slotImage (1 - k) with
  | some t, _ => (if late then d.teamFallback k else d).teamRun t (some k) late
  | none, some t => (d.teamFallback (1 - k)).teamRun t (some (1 - k)) true
  | none, none => { d with ref := { d.ref with team := none, teamSlot := none } }

/-- Start Team at the PLAY instant: from the streamed image where there is one and its copy in DRAM is whole, else from the slots
(R418, R421). -/
def DieSt.teamStart (d : DieSt) : DieSt :=
  match d.load.team with
  | some t => if d.teamValid t && d.teamCopyOk t then d.teamRun t none false else d.teamStartNvm true
  | none => d.teamStartNvm false

/-- Team goes into reset. -/
def DieSt.teamStop (d : DieSt) : DieSt := { d with ref := { d.ref with team := none, teamSlot := none, trialEnd := none } }

/-! ### The commands -/

/-- CALL_NOP (R424). -/
def execCallNop (x : Die) (w : Caller) (s : State) : Out := act x s (fun d => d.callNop w)

/-- VERSION (R424). -/
def execVersion (x : Die) (w : Caller) (s : State) : Out := act x s (fun d => d.callVersion w)

/-- CLAIM_QUERY (R426). -/
def execClaimQuery (x : Die) (w : Caller) (s : State) : Out := act x s (fun d => d.callClaimQuery w)

/-- CLAIM (R311). -/
def execClaim (x : Die) (w : Caller) (s : State) : Out := act x s (fun d => d.callClaim w)

/-- RELEASE (R426). -/
def execRelease (x : Die) (w : Caller) (s : State) : Out := act x s (fun d => d.callRelease w)

end Sys2Proof.Machine
end

