-- ==== Sys2Proof/Machine/Pace.lean ====
section
/-! DEFINITION. Pace: calibrators, monitors, the voltage governor and its PMBus (R116 to R133). -/

namespace Sys2Proof.Machine

/-! ### Calibrators (R116 to R122) -/

/-- Latest canaries of a cluster. -/
def DieSt.canaries (d : DieSt) (rg cl : Nat) : List Nat := d.pace.canary.get (fun _ => []) (64 * rg + cl)

/-- A leader's required delay in 64ths of a tap: its recipe on the latest canaries (R117). -/
def required (recipe q : List Nat) : Nat :=
  (List.range 4).foldl (fun n i => n + nth 0 recipe i * nth 0 q i) 0

/-- A margin in steps of 0.25 %, rounded down; a negative margin reads 0 and a leader with nothing required the most. -/
def marginSteps (setting req : Nat) : Nat :=
  if req = 0 then 0xFF else min 0xFF ((setting * 64 * 400 / req) - 400)

/-- Is a margin outside the band of 24 % to 32 % (R118). -/
def outOfBand (setting req : Nat) : Bool :=
  decide (setting * 64 * 100 < req * 124) || decide (setting * 64 * 100 > req * 132)

/-- The setting at a margin of 28 %, rounded up to a whole tap (R118). -/
def setting28 (req : Nat) : Nat := (req * 128 + 6399) / 6400

/-- The leaders of a cluster. -/
def DieSt.leaders (d : DieSt) (rg cl : Nat) : List StageCfg :=
  (d.design rg).stages.filter (fun s => s.leader / 16 == cl)

/-- R122: MARGIN_LOW, at most once per cluster per millisecond. -/
def DieSt.raiseMarginLow (d : DieSt) (rg cl ms : Nat) : DieSt :=
  let key := 0x0501 * 2 ^ 20 + 64 * rg + cl
  if d.due key 1000000 then
    let d := (d.raiseLim true key 1000000 0x703 0x0501 (rg * 2 ^ 13 + cl * 2 ^ 7 + min 127 ms)).put F.PACE_ERR_MARGIN_LOW 1
    { d with pace := { d.pace with marginLow := true } }
  else d

/-- One step of at most 16 taps toward a setting (R118). -/
def stepToward (cur t : Nat) : Nat := if cur < t then min t (cur + 16) else max t (cur - 16)

/-- The calibrator computes a new setting for a leader; a step that waits follows it, so that no step toward an earlier
setting is ever applied (R118 to R120). -/
def DieSt.aim (d : DieSt) (k v : Nat) : DieSt :=
  let next := match d.fab.delayNext.get (fun _ => none) k with
    | none => none
    | some _ => if v = d.delayOf k then none else some (stepToward (d.delayOf k) v)
  { d with
    pace := { d.pace with target := d.pace.target.set (fun _ => none) k (some v) }
    fab := { d.fab with delayNext := d.fab.delayNext.set (fun _ => none) k next } }

/-- Is a leader on its way to a setting: a step waits, or the setting is not reached. -/
def DieSt.moving (d : DieSt) (k : Nat) : Bool :=
  (d.fab.delayNext.get (fun _ => none) k).isSome || (d.pace.target.get (fun _ => none) k).elim false (fun t => t != d.delayOf k)

/-- One leader after a measurement (R118, R122).  A leader on its way to a setting takes the one computed from the latest
measurement (DEDUCED from R120, log entry 133).  One that needs more than 1,023 taps is held at 1,023. -/
def DieSt.measureLeader (d : DieSt) (rg cl : Nat) (q : List Nat) (st : StageCfg) : DieSt :=
  let k := 1024 * rg + st.leader
  let req := required st.recipe q
  let cur := d.delayOf k
  let ms := marginSteps cur req
  let d := if ms < d.f F.PACE_MARGIN_MIN then
      ((d.put F.PACE_MARGIN_MIN ms).put F.PACE_MARGIN_REGION rg).put F.PACE_MARGIN_CLUSTER cl
    else d
  let need := setting28 req
  let d := if outOfBand cur req || decide (need > 1023) || d.moving k then d.aim k (min 1023 need) else d
  if decide (cur * 64 * 100 < req * 118) || decide (need > 1023) then d.raiseMarginLow rg cl ms else d

/-- R117: the measurement of a cluster's canaries. -/
def DieSt.measure (d : DieSt) (rg cl : Nat) (q : List Nat) : DieSt :=
  if d.regionOn rg && decide (cl < 64) then
    let d := { d with pace := { d.pace with canary := d.pace.canary.set (fun _ => []) (64 * rg + cl) (q.take 4) } }
    (d.leaders rg cl).foldl (fun d st => d.measureLeader rg cl (q.take 4) st) d
  else d

/-- R118: one step of at most 16 taps toward the computed setting; it waits for an idle channel. -/
def DieSt.calibStep (d : DieSt) (rg u : Nat) : DieSt :=
  let k := 1024 * rg + u
  match d.pace.target.get (fun _ => none) k, d.fab.delayNext.get (fun _ => none) k with
  | some t, none =>
    let cur := d.delayOf k
    if !d.regionOn rg then d
    else if t = cur then { d with pace := { d.pace with target := d.pace.target.set (fun _ => none) k none } }
    else
      { d with fab := { d.fab with delayNext := d.fab.delayNext.set (fun _ => none) k (some (stepToward cur t)) } }
  | _, _ => d

/-- A leader holds a setting that is right by the latest measurement, of which there is one, and is not pending: its margin is in
the band, or it has the very setting R118 computes, at most 1,023 taps (R119, R120). -/
def DieSt.leaderDone (d : DieSt) (rg : Nat) (st : StageCfg) : Bool :=
  let k := 1024 * rg + st.leader
  let q := d.canaries rg (st.leader / 16)
  let req := required st.recipe q
  q != [] && !d.moving k && (!outOfBand (d.delayOf k) req || d.delayOf k == min 1023 (setting28 req))

/-- A cluster is converged (R120). -/
def DieSt.clusterConverged (d : DieSt) (rg cl : Nat) : Bool := (d.leaders rg cl).all (d.leaderDone rg)

/-- Every cluster of a region is converged (R121). -/
def DieSt.regionConverged (d : DieSt) (rg : Nat) : Bool := (List.range 64).all (d.clusterConverged rg)

/-- Every cluster of every RUNNING region is converged (R125). -/
def DieSt.converged (d : DieSt) : Bool :=
  d.fab.design.cells.all (fun c => d.rgState c.1 != rgRunning || d.regionConverged c.1)

/-- Every calibrator of every loaded region has converged (R121). -/
def DieSt.loadedConverged (d : DieSt) : Bool :=
  d.fab.design.cells.all (fun c => !(d.rgState c.1 == rgReady || d.rgState c.1 == rgRunning) || d.regionConverged c.1)

/-- A leader comes to a setting at once. -/
def DieSt.settleAt (d : DieSt) (k v : Nat) : DieSt :=
  { d with
    fab := { d.fab with delay := d.fab.delay.set (fun _ => 0) k v, delayNext := d.fab.delayNext.set (fun _ => none) k none }
    pace := { d.pace with target := d.pace.target.set (fun _ => none) k none } }

/-- While a region's ring is ISOLATE or FROZEN its calibrators take delay steps one after another with no wait: a leader whose
canaries have been measured comes to the setting R118 computes from them (R393). -/
def DieSt.convergeNow (d : DieSt) (rg : Nat) : DieSt :=
  (d.design rg).stages.foldl (fun (d : DieSt) st =>
    let k := 1024 * rg + st.leader
    let q := d.canaries rg (st.leader / 16)
    let req := required st.recipe q
    let need := setting28 req
    if q.isEmpty then d
    else if outOfBand (d.delayOf k) req || decide (need > 1023) || d.moving k then
      d.settleAt k (min 1023 need)
    else d.settleAt k (d.delayOf k)) d

/-- Leaders parked with a change pending (R118). -/
def DieSt.parked (d : DieSt) : Nat :=
  (d.fab.delayNext.cells.filter (fun c => c.2.isSome && (d.stage c.1).req)).length

/-- No ring of the die is FREEZING or FROZEN (R125). -/
def DieSt.ringsQuiet (d : DieSt) : Bool :=
  d.regs.cells.all (fun c =>
    decide (c.1 < 0x11000000) || decide (c.1 > 0x11057FFF) || decide (c.1 % 0x100 ≠ 0) || decide (bits c.2.toNat 27 26 < 2))

/-! ### Monitors (R123, R124) -/

/-- Is the monitor's last window below target × (100 + hr) %. -/
def DieSt.monBelow (d : DieSt) (i hr : Nat) : Bool :=
  let w := d.pace.window.get (fun _ => (0, 0)) i
  d.on (F.PACE_MON_TGT_EN i) && d.on (F.PACE_MON_CAP_VALID i)
  && decide (w.1 * 10000 * 100 < d.f (F.PACE_MON_TGT_TARGET i) * (100 + hr) * (10000 - w.2))

/-- The lowest monitor the image designates. -/
def DieSt.firstMon (d : DieSt) : Option Nat := (List.range 16).find? (fun i => d.on (F.PACE_MON_TGT_EN i))

/-- R126: what has come of the wait after a step.  That every cluster is converged, once SETTLE has ended, is kept (DEDUCED, log
entry 175); with that, or its 20 µs, and READ_VOUT done, the monitor windows that start from now on count. -/
def DieSt.noteStep (d : DieSt) : DieSt :=
  if d.pace.stepping && d.pace.settled then
    let ok := d.pace.convOk || d.converged
    let ready := d.pace.voutOk && (ok || d.pace.convTimedOut)
    { d with pace := { d.pace with convOk := ok, readyAt := if ready then some (d.pace.readyAt.getD d.now) else d.pace.readyAt } }
  else d

/-- R123: does a monitor yield void windows for its region, which is FREEZING, FROZEN or not RUNNING, or for want of one: a
designated monitor that is placed nowhere on this die. -/
def DieSt.monVoid (d : DieSt) (i : Nat) : Bool :=
  match d.pace.monRegion.get (fun _ => none) i with
  | some rg => d.rgState rg != rgRunning || decide (2 ≤ d.ringState rg)
  | none => true

/-- R123: a monitor's window of 10 µs ends, and the next one starts.  Its region's state is taken at the window's end; of a region
that was FREEZING, FROZEN or not RUNNING for only part of the window the spec does not speak (DESIGN CHOICE, log entry 171).
Of a void window, which yields no capacity, CAP keeps what it held and BELOW reads 0, as a void monitor is at or above both
thresholds (DESIGN CHOICE, log entry 134). -/
def DieSt.windowEnd (d : DieSt) (i : Nat) : DieSt :=
  if d.on (F.PACE_MON_TGT_EN i) && decide (i < 16) && decide (d.pace.monAt.get (fun _ => 0) i + 10000 ≤ d.now) then
    let w := d.pace.count.get (fun _ => (0, 0)) i
    let void := decide (w.1 < 16) || d.monVoid i
    let began := d.pace.monAt.get (fun _ => 0) i
    let d := { d with pace := { d.pace with
      count := d.pace.count.set (fun _ => (0, 0)) i (0, 0), monAt := d.pace.monAt.set (fun _ => 0) i d.now } }
    let d := if void then (d.put (F.PACE_MON_CAP_VALID i) 0).put (F.PACE_MON_CAP_BELOW i) 0
      else
        let cap := if w.2 ≥ 10000 then 0xFFFF else min 0xFFFF (w.1 * 10000 / (10000 - w.2))
        let d := { d with pace := { d.pace with window := d.pace.window.set (fun _ => (0, 0)) i (w.1, min 10000 w.2) } }
        let d := (d.put (F.PACE_MON_CAP_VALID i) 1).put (F.PACE_MON_CAP_CAP i) cap
        d.put (F.PACE_MON_CAP_BELOW i) (b2n (d.monBelow i (d.f F.PACE_HR_HR_UP)))
    let d := d.noteStep
    if d.firstMon == some i && d.pace.readyAt.any (fun t => decide (t ≤ began)) then
      { d with pace := { d.pace with windowed := true } }
    else d
  else d

/-! ### PMBus (R130, R131) -/

/-- The governor's state (Table 05-2: 0 OFF, 1 START, 2 RUN, 3 HOLD, 4 FULL-TIME, 5 FAULT). -/
def DieSt.gov (d : DieSt) : Nat := d.f F.PACE_STAT_STATE

/-- A VOUT_COMMAND starts: VSET shows it, and outside START it is one step up or down (R133). -/
def DieSt.commanded (d : DieSt) (mv : Nat) : DieSt :=
  let v := d.f F.PACE_STAT_VSET
  let d := if d.gov = 1 then d else if v < mv then d.bump F.PACE_CNT_UP else if mv < v then d.bump F.PACE_CNT_DOWN else d
  d.put F.PACE_STAT_VSET mv

/-- Take the next waiting transaction to the bus; in OFF there is no PMBus traffic and all of them wait (R128, R129). -/
def DieSt.pmbPump (d : DieSt) : DieSt :=
  if d.gov = 0 then d
  else
    match d.pace.pmb, d.pace.pmbNext with
    | none, op :: r =>
      let d := { d with pace := { d.pace with pmb := some (op, 0), pmbNext := r } }
      match op with
      | .voutCommand mv => d.commanded mv
      | _ => d
    | _, _ => d

/-- Queue transactions behind those that wait. -/
def DieSt.pmbAdd (d : DieSt) (ops : List PmbOp) : DieSt :=
  ({ d with pace := { d.pace with pmbNext := d.pace.pmbNext ++ ops } } : DieSt).pmbPump

/-- No step is under way. -/
def PaceSt.calm (p : PaceSt) : PaceSt :=
  { p with stepping := false, settled := false, voutOk := false, convTimedOut := false, convOk := false, readyAt := none, windowed := false }

/-- Is a transaction a VCORE command. -/
def PmbOp.isVout (o : PmbOp) : Bool := match o with | .voutCommand _ => true | _ => false

/-- No VCORE command that waits is issued any more, and no step is under way but one whose command is on the bus or done
(Table 05-2, HOLD). -/
def DieSt.noVcore (d : DieSt) : DieSt :=
  let gone := d.pace.pmbNext.any PmbOp.isVout
  let p := if gone then d.pace.calm else d.pace
  { d with pace := { p with pmbNext := p.pmbNext.filter (fun o => !o.isVout) } }

/-- 750 mV, or the limit of VMIN to VMAX nearest to it: the governor never commands VCORE outside them (R127; DEDUCED, log
entry 135). -/
def DieSt.v750 (d : DieSt) : Nat := max (d.f F.PACE_LIMIT_VMIN) (min (d.f F.PACE_LIMIT_VMAX) 750)

/-- The governor changes its state; outside RUN VCORE is not held at VMAX or VMIN, so CEILING and FLOOR read 0 (R133). -/
def DieSt.govTo (d : DieSt) (st : Nat) : DieSt :=
  ((d.put F.PACE_STAT_STATE st).put F.PACE_STAT_CEILING 0).put F.PACE_STAT_FLOOR 0

/-- R130: enter FAULT; the governor sends no VCORE command in it. -/
def DieSt.govFault (d : DieSt) (reason : Nat) : DieSt :=
  let keep := d.pace.pmbNext.filter (fun o => match o with | .telemetry _ => true | _ => false)
  let d := { d with pace := { d.pace.calm with pmb := none, pmbNext := keep, pollAt := d.now } }
  let d := (d.govTo 5).put F.PACE_ERR_FAULT 1
  (d.raise 0x703 0x0504 (reason * 2 ^ 16 + d.f F.PACE_VREAD_STATUS)).pmbPump

/-- Enter START (Table 05-2). -/
def DieSt.govStart (d : DieSt) : DieSt :=
  (d.put F.PACE_STAT_STATE 1).pmbAdd [.voutMode, .statusWord, .voutCommand d.v750]

/-- Command a new VCORE (R125, R126). -/
def DieSt.govStep (d : DieSt) (mv : Nat) : DieSt :=
  ({ d with pace := { d.pace.calm with stepping := true, stepAt := d.now } } : DieSt).pmbAdd [.voutCommand mv]

/-- The code of a voltage in mV: the nearest (R130).  With an exponent of −12 to −8 no voltage lies midway between two. -/
def voutCode (vexp mv : Nat) : Nat := (mv * 2 ^ vexp * 2 + 1000) / 2000

/-- Fault bits of STATUS_WORD that stop the governor: VOUT, IOUT/POUT, INPUT, TEMPERATURE, CML.  Their places are the PMBus
specification's (PRESUMED, log entry 8). -/
def statusFault (w : Nat) : Bool := bit w 15 || bit w 14 || bit w 13 || bit w 2 || bit w 1

/-- Is VOUT_MODE ULINEAR16 with an exponent of −12 to −8 (R130). -/
def voutModeOk (w : Nat) : Bool := w % 256 / 32 == 0 && decide (20 ≤ w % 32) && decide (w % 32 ≤ 24)

/-- RESUME from FAULT found no fault bit (Table 05-2).  To RUN it clears PACE_CTL.HOLD too, as RESUME from HOLD does; the spec
says so of that alone (DESIGN CHOICE, log entry 136). -/
def DieSt.govResumed (d : DieSt) : DieSt :=
  if d.dev < 4 then d.govStart
  else if d.dev = 4 then (d.put F.PACE_STAT_STATE 2).put F.PACE_CTL_HOLD 0
  else if d.dev = 6 then d.put F.PACE_STAT_STATE 3
  else d

/-- STATUS_VOUT is read after STATUS_WORD shows VOUT (Table 05-3). -/
def DieSt.pmbVout (d : DieSt) (data : Nat) : DieSt := if bit data 15 then d.pmbAdd [.statusVout] else d

/-- PACE_VREAD.VOUT shows a READ_VOUT in mV; of one above 1,023 mV, which its ten bits cannot hold, the spec does not say what they
show: a free value (log entry 173). -/
def DieSt.showVout (d : DieSt) (mv : Nat) : DieSt :=
  if mv ≤ 1023 then d.put F.PACE_VREAD_VOUT mv
  else ({ d with free := d.free + 1 } : DieSt).put F.PACE_VREAD_VOUT (Config.freeNat d.free % 1024)

/-- A transaction that succeeded. -/
def DieSt.pmbDone (d : DieSt) (op : PmbOp) (data : Nat) : DieSt :=
  match op with
  | .clearFaults => d
  | .voutMode => if voutModeOk data then { d with pace := { d.pace with vexp := 32 - data % 32 } } else d.govFault 5
  | .voutCommand mv =>
    let at' := if d.pace.stepping then d.pace.stepAt else d.now
    { d.put F.PACE_STAT_VSET mv with pace := { d.pace.calm with stepping := true, stepAt := at', wroteAt := d.now } }
  | .statusWord => (d.put F.PACE_VREAD_STATUS data).pmbVout data
  | .statusAlert =>
    let d := d.put F.PACE_VREAD_STATUS data
    (if statusFault data && d.gov != 5 then d.govFault 4 else d).pmbVout data
  | .statusResume =>
    let d := d.put F.PACE_VREAD_STATUS data
    if d.gov == 5 && !statusFault data then d.govResumed else d.pmbVout data
  | .statusVout => d
  | .readVout =>
    let p := 2 ^ d.pace.vexp
    let d := d.showVout (data * 1000 / p)
    let code := voutCode d.pace.vexp (d.f F.PACE_STAT_VSET)
    if data * 1000 > code * 1000 + 20 * p || (data * 1000 + 20 * p < code * 1000) then (d.put F.PACE_ERR_MISMATCH 1).govFault 3
    else ({ d with pace := { d.pace with voutOk := true } } : DieSt).noteStep
  | .telemetry _ => ((d.put F.PACE_PMB_DATA_DATA data).put F.PACE_PMB_CMD_BUSY 0).put F.PACE_PMB_CMD_ERR 0

/-- R130: a transaction that ended with a NACK or a PEC mismatch: at most three attempts, then FAULT.  In FAULT, which is
not entered again, the transaction is given up. -/
def DieSt.pmbFail (d : DieSt) (op : PmbOp) (tries reason : Nat) (bitErr : Fld) : DieSt :=
  let d := d.put bitErr 1
  if tries < 2 then { d.bump F.PACE_ERR_RETRIES with pace := { d.pace with pmb := some (op, tries + 1) } }
  else
    let d := match op with
      | .telemetry _ => (d.put F.PACE_PMB_CMD_BUSY 0).put F.PACE_PMB_CMD_ERR 1
      | _ => d
    if d.gov = 5 then ({ d with pace := { d.pace with pmb := none } } : DieSt).pmbPump else d.govFault reason

/-- R130: the transaction on the bus ends.  Without packet error checking (PACE_CFG.PEC 0) none is found to mismatch. -/
def DieSt.pmbEnd (d : DieSt) (res : PmbRes) (data : Nat) : DieSt :=
  match d.pace.pmb with
  | none => d
  | some (op, tries) =>
    if d.gov = 0 then d
    else
      match (if res = .pec && !d.on F.PACE_CFG_PEC then PmbRes.ok else res) with
      | .ok => (({ d with pace := { d.pace with pmb := none } } : DieSt).pmbDone op data).pmbPump
      | .nack => d.pmbFail op tries 1 F.PACE_ERR_NACK
      | .pec => d.pmbFail op tries 2 F.PACE_ERR_PEC

/-! ### Decisions (R125 to R127) -/

/-- Does a write of VOUT_COMMAND wait or stand on the bus. -/
def PaceSt.writing (p : PaceSt) : Bool :=
  (p.pmb.toList.map (fun o => o.1) ++ p.pmbNext).any PmbOp.isVout

/-- R126: nothing is left to wait for. -/
def DieSt.mayDecide (d : DieSt) : Bool :=
  !d.pace.writing
  && (!d.pace.stepping
    || (decide (d.pace.stepAt + 10000 * d.f F.PACE_CFG_INTERVAL ≤ d.now)
        && d.noteStep.pace.readyAt.isSome && (d.firstMon.isNone || d.pace.windowed)))

/-- R127: TARGET_MISSED once for each monitor that stays below at VMAX. -/
def DieSt.ceiling (d : DieSt) : DieSt :=
  let up := d.f F.PACE_HR_HR_UP
  (List.range 16).foldl (fun (d : DieSt) i =>
    if d.monBelow i up && !d.pace.missed.contains i then
      let d := { d with pace := { d.pace with missed := d.pace.missed ++ [i] } }
      (d.put F.PACE_ERR_TARGET_MISSED 1).raise 0x703 0x0503 (i * 2 ^ 20 + d.f F.PACE_STAT_VSET)
    else d) (d.put F.PACE_STAT_CEILING 1)

/-- Where no VCORE has been commanded yet (a fault in START, or FULL-TIME from it), PACE_STAT.VSET is 0 and there is nothing to
step from: the governor first commands 750 mV, as START does (DESIGN CHOICE, log entry 172). -/
def DieSt.govFirst (d : DieSt) : DieSt :=
  (({ d with pace := d.pace.calm } : DieSt).put F.PACE_STAT_CEILING 0 |>.put F.PACE_STAT_FLOOR 0).govStep d.v750

/-- R125: the decision in RUN.  VMAX or VMIN nearer than one step of 10 mV counts as reached: there is no shorter step
(DESIGN CHOICE, log entry 137). -/
def DieSt.govRun (d : DieSt) : DieSt :=
  let v := d.f F.PACE_STAT_VSET
  let up := d.f F.PACE_HR_HR_UP
  let dn := d.f F.PACE_HR_HR_DN
  let below := (List.range 16).any (fun i => d.monBelow i up)
  let low := d.pace.marginLow
  let above := (List.range 16).all (fun i => !d.monBelow i dn)
  let d := (d.put F.PACE_STAT_CEILING 0).put F.PACE_STAT_FLOOR 0
  let d := { d with pace := { d.pace.calm with marginLow := false, missed := d.pace.missed.filter (fun i => d.monBelow i up) } }
  if below || low then
    if v + 10 ≤ d.f F.PACE_LIMIT_VMAX then d.govStep (v + 10)
    else if below then d.ceiling
    else d
  else if above && decide (v < d.f F.PACE_LIMIT_VMIN + 10) then d.put F.PACE_STAT_FLOOR 1
  else if above && d.converged && d.ringsQuiet then d.govStep (v - 10)
  else d

/-- Table 05-2, FULL-TIME: steps to 0.75 V, at most 10 mV at a time, then holds. -/
def DieSt.govFullTime (d : DieSt) : DieSt :=
  let v := d.f F.PACE_STAT_VSET
  let d := { d with pace := d.pace.calm }
  let w := d.v750
  if v < w then d.govStep (min w (v + 10)) else if v > w then d.govStep (max w (v - 10)) else d

/-- A decision of the governor. -/
def DieSt.govDecide (d : DieSt) : DieSt :=
  if !d.mayDecide then d
  else if (d.gov = 2 || d.gov = 4) && d.f F.PACE_STAT_VSET = 0 then d.govFirst
  else if d.gov = 2 then d.govRun
  else if d.gov = 4 then d.govFullTime
  else d

/-! ### The commands -/

/-- CANARY_MEASURE (R117).  A MARGIN_LOW raised between decisions brings the next one forward (R125). -/
def execCanaryMeasure (x : Die) (rg cl : Nat) (q : List Nat) (s : State) : Out :=
  act x s (fun d =>
    let e := (({ d with pace := { d.pace with marginLow := false } } : DieSt).measure rg cl q).noteStep
    let f : DieSt := { e with pace := { e.pace with marginLow := e.pace.marginLow || d.pace.marginLow } }
    if e.pace.marginLow && d.gov == 2 then f.govDecide else f)

/-- DELAY_CHANGE_APPLY (R62). -/
def execDelayChangeApply (x : Die) (rg u env : Nat) (meets : Bool) (s : State) : Out :=
  act x s (fun d => (d.delayApply rg u (s.fabEnv x env) meets).noteStep)

/-- CALIBRATOR_STEP (R118). -/
def execCalibratorStep (x : Die) (rg u : Nat) (s : State) : Out := act x s (fun d => (d.calibStep rg u).noteStep)

/-- MONITOR_WINDOW_END (R123). -/
def execMonitorWindowEnd (x : Die) (i : Nat) (s : State) : Out := act x s (fun d => d.windowEnd i)

/-- GOVERNOR_DECISION (R125). -/
def execGovernorDecision (x : Die) (s : State) : Out := act x s (fun d => d.govDecide)

/-- SETTLE_END (R126): the settle time runs from the end of the write of VOUT_COMMAND. -/
def execSettleEnd (x : Die) (s : State) : Out :=
  act x s (fun d =>
    if d.pace.stepping && !d.pace.settled && !d.pace.writing && decide (d.pace.wroteAt + 1000 * d.f F.PACE_CFG_SETTLE ≤ d.now) then
      (({ d with pace := { d.pace with settled := true, settledAt := d.now } } : DieSt).noteStep).pmbAdd [.readVout]
    else d)

/-- CONV_TIMEOUT (R126). -/
def execConvTimeout (x : Die) (s : State) : Out :=
  act x s (fun d =>
    if d.pace.stepping && d.pace.settled && !d.pace.convTimedOut && !d.noteStep.pace.convOk && decide (d.pace.settledAt + 20000 ≤ d.now) then
      let d := ({ d with pace := { d.pace with convTimedOut := true } } : DieSt).noteStep
      (d.put F.PACE_ERR_CONV_TO 1).raise 0x703 0x0502 (d.f F.PACE_STAT_VSET)
    else d.noteStep)

/-- PMBUS_TRANSACTION_END (R130). -/
def execPmbusTransactionEnd (x : Die) (res : PmbRes) (data : Nat) (s : State) : Out :=
  act x s (fun d => d.pmbEnd res data)

/-- PMB_ALERT (R130). -/
def execPmbAlert (x : Die) (s : State) : Out :=
  act x s (fun d =>
    if !d.domOn 76 then d
    else
      let d := d.put F.PACE_ERR_ALERT 1
      if d.gov = 0 then d else d.pmbAdd [.statusAlert])

/-- FAULT_STATUS_POLL (R128): every 10 ms. -/
def execFaultStatusPoll (x : Die) (s : State) : Out :=
  act x s (fun d =>
    if d.gov = 5 && decide (d.pace.pollAt + 10000000 ≤ d.now) then
      ({ d with pace := { d.pace with pollAt := d.now } } : DieSt).pmbAdd [.statusWord]
    else d)

/-- PACE_CTL.CNT_CLR (R133). -/
def DieSt.paceCntClr (d : DieSt) : DieSt := (d.wr R.PACE_CNT 0).wr R.PACE_MARGIN (rowReset R.PACE_MARGIN)

/-- PACE_CTL.RESUME (Table 05-2). -/
def DieSt.paceResume (d : DieSt) : DieSt :=
  if d.gov = 3 && d.dev == 4 then (d.put F.PACE_CTL_HOLD 0).put F.PACE_STAT_STATE 2
  else if d.gov = 5 then d.pmbAdd [.clearFaults, .statusResume]
  else d

/-- A write of PACE_CTL.HOLD (Table 05-2). -/
def DieSt.paceHold (d : DieSt) (v : Bool) : DieSt :=
  let d := d.put F.PACE_CTL_HOLD (b2n v)
  if v && d.gov == 2 then (d.govTo 3).noVcore
  else if !v && d.gov == 3 && d.dev == 4 then d.put F.PACE_STAT_STATE 2
  else d

/-- A write of PACE_HR; out of range it has no effect and ends with an error (R124). -/
def DieSt.paceHr (d : DieSt) (up dn : Nat) : DieSt × Bool :=
  if up ≤ 25 && up + 5 ≤ dn && dn ≤ 50 then ((d.put F.PACE_HR_HR_UP up).put F.PACE_HR_HR_DN dn, false) else (d, true)

/-- A write of PACE_PMB_CMD with GO (R131).  In OFF the request is accepted and BUSY stands until START, when there is
traffic again (DESIGN CHOICE, log entry 138). -/
def DieSt.pmbGo (d : DieSt) (code : Nat) : DieSt :=
  if d.on F.PACE_PMB_CMD_BUSY then d
  else
    let d := d.put F.PACE_PMB_CMD_CMD code
    if code == 0x8C || code == 0x8D || code == 0x96 then
      let d := (d.put F.PACE_PMB_CMD_BUSY 1).put F.PACE_PMB_CMD_ERR 0
      ({ d with pace := { d.pace with pmbNext := .telemetry code :: d.pace.pmbNext } } : DieSt).pmbPump
    else d.put F.PACE_PMB_CMD_ERR 1

/-- PACE_CNT_CLR (R133). -/
def execPaceCntClr (x : Die) (m : Master) (s : State) : Out := act x s (fun d => d.busAct m R.PACE_CTL (fun d => d.paceCntClr))

/-- PACE_RESUME (R128). -/
def execPaceResume (x : Die) (m : Master) (s : State) : Out := act x s (fun d => d.busAct m R.PACE_CTL (fun d => d.paceResume))

/-- PACE_HOLD (R128). -/
def execPaceHold (x : Die) (m : Master) (v : Bool) (s : State) : Out :=
  act x s (fun d => d.busAct m R.PACE_CTL (fun d => d.paceHold v))

/-- PACE_HR_WRITE (R124). -/
def execPaceHrWrite (x : Die) (m : Master) (up dn : Nat) (s : State) : Out :=
  act x s (fun d => d.busDo m R.PACE_HR (fun d => d.paceHr up dn))

/-- PMB_TELEMETRY_READ (R131). -/
def execPmbTelemetryRead (x : Die) (m : Master) (code : Nat) (s : State) : Out :=
  act x s (fun d => d.busAct m R.PACE_PMB_CMD (fun d => d.pmbGo code))

end Sys2Proof.Machine
end

