-- ==== Sys2Proof/Machine/Se.lean ====
section
/-! DEFINITION. Signal engine commands: one row for each instruction, ports, port events, halts, the scrubber and the
register window (R134 to R177). -/

namespace Sys2Proof.Machine

/-! ### Counts (R177) -/

/-- One more instruction has completed. -/
def DieSt.seCount (d : DieSt) (rg : Nat) : DieSt :=
  d.wr64 (R.SE_INSN_LO rg) (R.SE_INSN_HI rg) ((d.rd64 (R.SE_INSN_LO rg) (R.SE_INSN_HI rg) + 1) % 2 ^ 64)

/-- Is an engine's region running.  A freeze of the ring stops the engine only at its own boundary (R175). -/
def DieSt.seLive (d : DieSt) (rg : Nat) : Bool := d.regionOn rg && d.rgState rg == rgRunning

/-! ### Halts, freezes and port events at a boundary (R166, R168, R174, R175) -/

/-- SE_STAT.ACTIVE and PC for SE_HALTED. -/
def DieSt.seHalted (d : DieSt) (rg reason : Nat) : DieSt :=
  let e := d.eng rg
  d.raiseIf (d.on (F.SE_EVT_EN_HALTED rg)) rg 0x0604 (reason * 2 ^ 22 + b2n e.active * 2 ^ 12 + e.bk.pc.toNat)

/-- The engine enters HALT. -/
def DieSt.seHalt (d : DieSt) (rg reason : Nat) : DieSt :=
  let e := d.eng rg
  (d.setEng rg { e.discard with mode := .halt, haltReq := none, haltInsn := reason == 0, evDue := false }).seHalted rg reason

/-- The engine stops for the freeze of its ring and remembers what to resume. -/
def SeSt.freezeNow (e : SeSt) (now : Nat) : SeSt :=
  { e.discard with
    before := if e.mode = .stall then .run else e.mode, mode := .frozen, frozenAt := now, freezeReq := false, evDue := false }

/-- A freeze that is due is made at an eligible boundary, and at once in an engine that runs nothing (R166, R175). -/
def DieSt.seFreezeDue (d : DieSt) (rg : Nat) : DieSt :=
  let e := d.eng rg
  if e.freezeReq && (e.boundary || e.mode != .run) then d.setEng rg (e.freezeNow d.now) else d

/-- A port event that is due at an eligible boundary is taken before the next instruction (R168). -/
def DieSt.seEventDue (d : DieSt) (rg : Nat) : DieSt :=
  let e := d.eng rg
  if !d.pooled rg && e.boundary && e.portPending (d.on (F.SE_CFG_HND rg)) then d.setEng rg { e with evDue := true } else d

/-- What is due at an eligible boundary: a halt first, then a freeze, then a port event. -/
def DieSt.seBoundary (d : DieSt) (rg : Nat) : DieSt :=
  let d := if d.pooled rg then d.rosBoundary rg
    else
      match (d.eng rg).haltReq with
      | some k => if (d.eng rg).boundary then d.seHalt rg k else d
      | none => d
  (d.seFreezeDue rg).seEventDue rg

/-- A substitution freezes the region (R175): a running engine stops at its next boundary, any other at once. -/
def DieSt.seFreeze (d : DieSt) (rg : Nat) : DieSt :=
  let e := d.eng rg
  if e.mode = .frozen then d
  else if e.mode = .run then d.setEng rg { e with freezeReq := true }
  else d.setEng rg (e.freezeNow d.now)

/-- The timers of the port crossings of a region's engine go on where they stood `dt` ns ago (R240). -/
def DieSt.shiftPorts (d : DieSt) (rg dt : Nat) : DieSt :=
  { d with xing := d.xing.cells.foldl (fun (t : Tab XSt) c =>
      if (xOfKey c.1).kind = 0 && decide ((xOfKey c.1).inst / 8 = rg) then
        t.set (fun _ => XSt.reset) c.1 { c.2 with since := c.2.since + dt }
      else t) d.xing }

/-- The ring is released: the engine resumes in the state it stopped in (R175). -/
def DieSt.seRelease (d : DieSt) (rg : Nat) : DieSt :=
  let e := d.eng rg
  if e.mode = .frozen then
    let d := (d.setEng rg { e.discard with mode := e.before, freezeReq := false }).shiftPorts rg (d.now - e.frozenAt)
    if d.pooled rg then d.idleSwap rg else d
  else d.setEng rg { e with freezeReq := false }

/-- A region reset puts the engine back under R141; the Roster does what R185 asks for a pooled engine's contexts, and both sides
of the engine's port crossings leave reset together (R239). -/
def DieSt.seReset (d : DieSt) (rg : Nat) : DieSt :=
  let p := d.pooled rg
  let e := (d.eng rg).resetBanks p (d.f (F.SE_CFG_ENTRY0 rg)) (d.f (F.SE_CFG_ENTRY1 rg))
  let e := { e with
    inFull := Tab.empty, inTok := Tab.empty, outFull := Tab.empty, outTok := Tab.empty, ctx := none
    mode := if p then .idle else .run }
  let d := d.xClearPorts rg
  if p then d.rosReset rg e else (d.setEng rg e).showCtx rg

/-! ### Faults (R173) -/

/-- An engine fault: SE_FAULT holds the first one until it is cleared. -/
def DieSt.seFault (d : DieSt) (rg cause : Nat) : DieSt :=
  let e := d.eng rg
  let a := e.nextPc.toNat
  let d := d.finding rg
  let d := if d.on (F.SE_FAULT_VALID rg) then d
    else d.wr (R.SE_FAULT rg) (BitVec.ofNat 32 (2 ^ 31 + cause * 2 ^ 24 + b2n e.active * 2 ^ 23 + a))
  if d.pooled rg then d.runEnd rg (.fault cause)
  else (d.setEng rg { e.discard with mode := .fault }).raise rg 0x0601 (cause * 2 ^ 20 + b2n e.active * 2 ^ 19 + a)

/-! ### One instruction (R149, R164, R172) -/

/-- Port 3 of a pooled engine stands ready as the Roster's queue path is (R172).  Toward a Roster in reset OUT3 fills the crossing's
holding register, and the next waits; from it nothing comes (R238). -/
def DieSt.port3Ready (d : DieSt) (rg n u : Nat) (e : SeSt) : SeSt :=
  match e.ew.bind (fun w => seDecode w.word.toNat) with
  | some (.tokIn 3 _ _) =>
    match (if d.rosOn then d.inToken rg n u else none) with
    | some v => { e with inFull := e.inFull.set (fun _ => false) 3 true, inTok := e.inTok.set (fun _ => 0) 3 v }
    | none => { e with inFull := e.inFull.set (fun _ => false) 3 false }
  | some (.tokOut 3 ds _) =>
    let held := (d.xr (rosX rg 2 true)).full
    { e with outFull := e.outFull.set (fun _ => false) 3 (held || (d.rosOn && !d.outMay rg n (e.bk.dr ds))) }
  | _ => e

/-- What an IN3 or OUT3 that completed has done on the Roster's queue path. -/
def DieSt.port3Done (d : DieSt) (rg n u : Nat) (e0 e1 : SeSt) : DieSt :=
  match e0.ew.bind (fun w => seDecode w.word.toNat) with
  | some (.tokIn 3 _ _) =>
    if e0.inFull.get (fun _ => false) 3 then (d.inDone rg n u).xPass (rosX rg 2 false) (e0.inTok.get (fun _ => 0) 3).toNat else d
  | some (.tokOut 3 _ _) =>
    if !e0.outFull.get (fun _ => false) 3 && e1.outFull.get (fun _ => false) 3 then
      (if d.rosOn then d.outDone rg n (e1.outTok.get (fun _ => 0) 3) else d).xPass (rosX rg 2 true) (e1.outTok.get (fun _ => 0) 3).toNat
    else d
  | _ => d

/-- A token of OUT3 that waited for the Roster reaches it. -/
def DieSt.port3Out (d : DieSt) (rg : Nat) (v : Word24) : DieSt :=
  match (d.eng rg).ctx with
  | some n => if d.outFaults rg n then d else d.outDone rg n v
  | none => d

/-- Port 3 holds nothing in the engine between instructions. -/
def SeSt.clearPort3 (e : SeSt) : SeSt :=
  { e with inFull := e.inFull.set (fun _ => false) 3 false, outFull := e.outFull.set (fun _ => false) 3 false }

/-- A fault of the Roster for the next instruction: a staged count above 64, or OUT3 that may not be (R180, R196). -/
def DieSt.rosFault (d : DieSt) (rg n : Nat) (e : SeSt) : Bool :=
  decide (64 < e.p3.count)
  || match e.ew.bind (fun w => seDecode w.word.toNat) with
    | some (.tokOut 3 _ _) => d.outFaults rg n
    | _ => false

/-- How the instruction in Execute left it. -/
def DieSt.seEnded (d : DieSt) (rg : Nat) (fin : ExecEnd) : DieSt :=
  let e := d.eng rg
  match fin with
  | .done => (d.seCount rg).seBoundary rg
  | .stall out p =>
    if d.pooled rg && p == 3 && d.rosOn then (d.runEnd rg (if out then .waitOut else .waitIn)).seFreezeDue rg else d.seBoundary rg
  | .halt => ((d.seCount rg).seHalt rg 0).seFreezeDue rg
  | .yield c => ((d.seCount rg).runEnd rg (if c = 0 then .done else if c = 1 then .again else .error)).seFreezeDue rg
  | .swap => ((d.seCount rg).setEng rg { e.swapBanks with ran := false }).seBoundary rg
  | .fault c => (d.seFault rg c).seFreezeDue rg

/-- The instruction in Execute completes, stalls or faults; `u` are the bits that its reads find flipped. -/
def DieSt.seCycle (d : DieSt) (rg : Nat) (e : SeSt) (w : ExecSt) (u : Nat) : DieSt :=
  let pool := d.pooled rg
  let n := e.ctx.getD 0
  if pool && (e.faultCause pool w).isNone && d.rosFault rg n e then ((d.setEng rg e).runEnd rg (.fault 9)).seFreezeDue rg
  else
    let e0 := if pool then d.port3Ready rg n u e else e
    let opens := e0.shiftsZero w
    let r := e0.cycle pool (Config.choice d.free)
    let d := if opens then { d with free := d.free + 1 } else d
    let e1 := r.1
    let d := (d.setEng rg (if pool then e1.clearPort3 else e1)).seFounds rg 0 r.2.2
    let d := if pool && r.2.1 == .done then d.port3Done rg n u e0 e1 else d
    d.seEnded rg r.2.1

/-- Does the breakpoint stop the engine before the next instruction (R174).  After its halt the instruction at ADDR completes
first, and the breakpoint acts again only the next time ADDR comes up after that (`brkSkip`). -/
def DieSt.seBreaks (d : DieSt) (rg : Nat) (e : SeSt) : Bool :=
  !d.pooled rg && d.on (F.SE_BRK_EN rg) && e.brkSkip != some e.nextPc && !e.lastBranch && d.f (F.SE_BRK_ADDR rg) == e.nextPc.toNat

/-- The engine's pipeline filled up to the instruction that Execute takes next. -/
def DieSt.seFill (d : DieSt) (rg : Nat) (u : List (Nat × Nat × Nat)) : SeSt × List Finding :=
  let e := (d.eng rg).upset u
  let g := d.f (F.SE_CFG_GROUP rg)
  let e := if d.pooled rg then { e with wx := d.grpWx g, wy := d.grpWy g } else { e with wx := 0, wy := 0 }
  e.fill 4

/-- A row of an instruction: it acts when the engine runs and the instruction Execute takes next is of that kind. -/
def DieSt.seRow (d : DieSt) (rg : Nat) (k : SeKind) (u : List (Nat × Nat × Nat)) (cyc : Nat) : DieSt :=
  let r := d.seFill rg u
  let e := r.1
  match e.ew with
  | none => d
  | some w =>
    if d.seLive rg && (e.mode == .run || e.mode == .stall) && e.wrap.isNone && !e.evDue && !d.seBreaks rg e
        && SeInsn.kind (seDecode w.word.toNat) == k then
      let d := d.seFounds rg 0 r.2
      let d := d.bumpBy (F.SE_STALL_CNT rg) cyc
      d.seCycle rg e w (wordUpset u)
    else d

/-! ### The instruction rows -/

/-- SE_NOP (R163). -/
def execSeNop (x : Die) (rg : Nat) (u : List (Nat × Nat × Nat)) (s : State) : Out :=
  act x s (fun d => d.seRow rg .nop u 0)

/-- HALT (R174). -/
def execHalt (x : Die) (rg : Nat) (u : List (Nat × Nat × Nat)) (s : State) : Out :=
  act x s (fun d => d.seRow rg .halt u 0)

/-- YIELD_DONE (R194). -/
def execYieldDone (x : Die) (rg : Nat) (u : List (Nat × Nat × Nat)) (s : State) : Out :=
  act x s (fun d => d.seRow rg .yieldDone u 0)

/-- YIELD_AGAIN (R194). -/
def execYieldAgain (x : Die) (rg : Nat) (u : List (Nat × Nat × Nat)) (s : State) : Out :=
  act x s (fun d => d.seRow rg .yieldAgain u 0)

/-- YIELD_ERROR (R194). -/
def execYieldError (x : Die) (rg : Nat) (u : List (Nat × Nat × Nat)) (s : State) : Out :=
  act x s (fun d => d.seRow rg .yieldError u 0)

/-- SWAP (R169). -/
def execSwap (x : Die) (rg : Nat) (u : List (Nat × Nat × Nat)) (s : State) : Out :=
  act x s (fun d => d.seRow rg .swap u 0)

/-- RET (R163). -/
def execRet (x : Die) (rg : Nat) (u : List (Nat × Nat × Nat)) (s : State) : Out :=
  act x s (fun d => d.seRow rg .ret u 0)

/-- JMPD (R163). -/
def execJmpd (x : Die) (rg : Nat) (u : List (Nat × Nat × Nat)) (s : State) : Out :=
  act x s (fun d => d.seRow rg .jmpd u 0)

/-- ENDL (R163). -/
def execEndl (x : Die) (rg : Nat) (u : List (Nat × Nat × Nat)) (s : State) : Out :=
  act x s (fun d => d.seRow rg .endl u 0)

/-- LD (R162). -/
def execLd (x : Die) (rg : Nat) (u : List (Nat × Nat × Nat)) (s : State) : Out :=
  act x s (fun d => d.seRow rg .ld u 0)

/-- ST (R162). -/
def execSt (x : Die) (rg : Nat) (u : List (Nat × Nat × Nat)) (s : State) : Out :=
  act x s (fun d => d.seRow rg .st u 0)

/-- LDA (R162). -/
def execLda (x : Die) (rg : Nat) (u : List (Nat × Nat × Nat)) (s : State) : Out :=
  act x s (fun d => d.seRow rg .lda u 0)

/-- STA (R162). -/
def execSta (x : Die) (rg : Nat) (u : List (Nat × Nat × Nat)) (s : State) : Out :=
  act x s (fun d => d.seRow rg .sta u 0)

/-- MOVE (R158). -/
def execMoveReg (x : Die) (rg : Nat) (u : List (Nat × Nat × Nat)) (s : State) : Out :=
  act x s (fun d => d.seRow rg .move u 0)

/-- LDI (R162). -/
def execLdi (x : Die) (rg : Nat) (u : List (Nat × Nat × Nat)) (s : State) : Out :=
  act x s (fun d => d.seRow rg .ldi u 0)

/-- LDIH (R162). -/
def execLdih (x : Die) (rg : Nat) (u : List (Nat × Nat × Nat)) (s : State) : Out :=
  act x s (fun d => d.seRow rg .ldih u 0)

/-- BR (R152). -/
def execBr (x : Die) (rg : Nat) (u : List (Nat × Nat × Nat)) (s : State) : Out :=
  act x s (fun d => d.seRow rg .br u 0)

/-- CALL (R152). -/
def execCall (x : Die) (rg : Nat) (u : List (Nat × Nat × Nat)) (s : State) : Out :=
  act x s (fun d => d.seRow rg .call u 0)

/-- LOOP (R153). -/
def execLoop (x : Die) (rg : Nat) (u : List (Nat × Nat × Nat)) (s : State) : Out :=
  act x s (fun d => d.seRow rg .loop u 0)

/-- IN (R164). -/
def execTokIn (x : Die) (rg : Nat) (u : List (Nat × Nat × Nat)) (cyc : Nat) (s : State) : Out :=
  act x s (fun d => d.seRow rg .tokIn u cyc)

/-- OUT (R164). -/
def execTokOut (x : Die) (rg : Nat) (u : List (Nat × Nat × Nat)) (cyc : Nat) (s : State) : Out :=
  act x s (fun d => d.seRow rg .tokOut u cyc)

/-- ADDP (R147). -/
def execAddp (x : Die) (rg : Nat) (u : List (Nat × Nat × Nat)) (s : State) : Out :=
  act x s (fun d => d.seRow rg .addp u 0)

/-- ALU_ADD (R160). -/
def execAluAdd (x : Die) (rg : Nat) (u : List (Nat × Nat × Nat)) (s : State) : Out :=
  act x s (fun d => d.seRow rg (.alu 0) u 0)

/-- ALU_SUB (R160). -/
def execAluSub (x : Die) (rg : Nat) (u : List (Nat × Nat × Nat)) (s : State) : Out :=
  act x s (fun d => d.seRow rg (.alu 1) u 0)

/-- ALU_AND (R160). -/
def execAluAnd (x : Die) (rg : Nat) (u : List (Nat × Nat × Nat)) (s : State) : Out :=
  act x s (fun d => d.seRow rg (.alu 2) u 0)

/-- ALU_OR (R160). -/
def execAluOr (x : Die) (rg : Nat) (u : List (Nat × Nat × Nat)) (s : State) : Out :=
  act x s (fun d => d.seRow rg (.alu 3) u 0)

/-- ALU_XOR (R160). -/
def execAluXor (x : Die) (rg : Nat) (u : List (Nat × Nat × Nat)) (s : State) : Out :=
  act x s (fun d => d.seRow rg (.alu 4) u 0)

/-- ALU_ASL (R160). -/
def execAluAsl (x : Die) (rg : Nat) (u : List (Nat × Nat × Nat)) (s : State) : Out :=
  act x s (fun d => d.seRow rg (.alu 5) u 0)

/-- ALU_ASR (R160). -/
def execAluAsr (x : Die) (rg : Nat) (u : List (Nat × Nat × Nat)) (s : State) : Out :=
  act x s (fun d => d.seRow rg (.alu 6) u 0)

/-- ALU_LSR (R160). -/
def execAluLsr (x : Die) (rg : Nat) (u : List (Nat × Nat × Nat)) (s : State) : Out :=
  act x s (fun d => d.seRow rg (.alu 7) u 0)

/-- ALU_CMP (R160). -/
def execAluCmp (x : Die) (rg : Nat) (u : List (Nat × Nat × Nat)) (s : State) : Out :=
  act x s (fun d => d.seRow rg (.alu 8) u 0)

/-- ALU_MIN (R160). -/
def execAluMin (x : Die) (rg : Nat) (u : List (Nat × Nat × Nat)) (s : State) : Out :=
  act x s (fun d => d.seRow rg (.alu 9) u 0)

/-- ALU_MAX (R160). -/
def execAluMax (x : Die) (rg : Nat) (u : List (Nat × Nat × Nat)) (s : State) : Out :=
  act x s (fun d => d.seRow rg (.alu 10) u 0)

/-- ALU_ADDS (R160). -/
def execAluAdds (x : Die) (rg : Nat) (u : List (Nat × Nat × Nat)) (s : State) : Out :=
  act x s (fun d => d.seRow rg (.alu 11) u 0)

/-- ALU_SUBS (R160). -/
def execAluSubs (x : Die) (rg : Nat) (u : List (Nat × Nat × Nat)) (s : State) : Out :=
  act x s (fun d => d.seRow rg (.alu 12) u 0)

/-- SHA (R161). -/
def execSha (x : Die) (rg : Nat) (u : List (Nat × Nat × Nat)) (s : State) : Out :=
  act x s (fun d => d.seRow rg (.acc 0) u 0)

/-- SHAR (R161). -/
def execShar (x : Die) (rg : Nat) (u : List (Nat × Nat × Nat)) (s : State) : Out :=
  act x s (fun d => d.seRow rg (.acc 1) u 0)

/-- EXP (R146). -/
def execExpo (x : Die) (rg : Nat) (u : List (Nat × Nat × Nat)) (s : State) : Out :=
  act x s (fun d => d.seRow rg (.acc 2) u 0)

/-- SAT (R161). -/
def execSat (x : Die) (rg : Nat) (u : List (Nat × Nat × Nat)) (s : State) : Out :=
  act x s (fun d => d.seRow rg (.acc 3) u 0)

/-- EXTL (R161). -/
def execExtl (x : Die) (rg : Nat) (u : List (Nat × Nat × Nat)) (s : State) : Out :=
  act x s (fun d => d.seRow rg (.acc 4) u 0)

/-- EXTH (R161). -/
def execExth (x : Die) (rg : Nat) (u : List (Nat × Nat × Nat)) (s : State) : Out :=
  act x s (fun d => d.seRow rg (.acc 5) u 0)

/-- EXTG (R161). -/
def execExtg (x : Die) (rg : Nat) (u : List (Nat × Nat × Nat)) (s : State) : Out :=
  act x s (fun d => d.seRow rg (.acc 6) u 0)

/-- INSL (R161). -/
def execInsl (x : Die) (rg : Nat) (u : List (Nat × Nat × Nat)) (s : State) : Out :=
  act x s (fun d => d.seRow rg (.acc 7) u 0)

/-- INSH (R161). -/
def execInsh (x : Die) (rg : Nat) (u : List (Nat × Nat × Nat)) (s : State) : Out :=
  act x s (fun d => d.seRow rg (.acc 8) u 0)

/-- INSG (R161). -/
def execInsg (x : Die) (rg : Nat) (u : List (Nat × Nat × Nat)) (s : State) : Out :=
  act x s (fun d => d.seRow rg (.acc 9) u 0)

/-- PAR_NOP (R159). -/
def execParNop (x : Die) (rg : Nat) (u : List (Nat × Nat × Nat)) (s : State) : Out :=
  act x s (fun d => d.seRow rg (.par 0) u 0)

/-- MPY (R143). -/
def execMpy (x : Die) (rg : Nat) (u : List (Nat × Nat × Nat)) (s : State) : Out :=
  act x s (fun d => d.seRow rg (.par 1) u 0)

/-- MAC (R143). -/
def execMac (x : Die) (rg : Nat) (u : List (Nat × Nat × Nat)) (s : State) : Out :=
  act x s (fun d => d.seRow rg (.par 2) u 0)

/-- MSU (R143). -/
def execMsu (x : Die) (rg : Nat) (u : List (Nat × Nat × Nat)) (s : State) : Out :=
  act x s (fun d => d.seRow rg (.par 3) u 0)

/-- MPYN (R143). -/
def execMpyn (x : Die) (rg : Nat) (u : List (Nat × Nat × Nat)) (s : State) : Out :=
  act x s (fun d => d.seRow rg (.par 4) u 0)

/-- CLR (R159). -/
def execClr (x : Die) (rg : Nat) (u : List (Nat × Nat × Nat)) (s : State) : Out :=
  act x s (fun d => d.seRow rg (.par 5) u 0)

/-- PAR_ADD (R142). -/
def execParAdd (x : Die) (rg : Nat) (u : List (Nat × Nat × Nat)) (s : State) : Out :=
  act x s (fun d => d.seRow rg (.par 6) u 0)

/-- PAR_SUB (R142). -/
def execParSub (x : Die) (rg : Nat) (u : List (Nat × Nat × Nat)) (s : State) : Out :=
  act x s (fun d => d.seRow rg (.par 7) u 0)

/-- PAR_LDA (R142). -/
def execParLda (x : Die) (rg : Nat) (u : List (Nat × Nat × Nat)) (s : State) : Out :=
  act x s (fun d => d.seRow rg (.par 8) u 0)

/-- TFR (R159). -/
def execTfr (x : Die) (rg : Nat) (u : List (Nat × Nat × Nat)) (s : State) : Out :=
  act x s (fun d => d.seRow rg (.par 9) u 0)

/-- ADDA (R144). -/
def execAdda (x : Die) (rg : Nat) (u : List (Nat × Nat × Nat)) (s : State) : Out :=
  act x s (fun d => d.seRow rg (.par 10) u 0)

/-- SUBA (R144). -/
def execSuba (x : Die) (rg : Nat) (u : List (Nat × Nat × Nat)) (s : State) : Out :=
  act x s (fun d => d.seRow rg (.par 11) u 0)

/-- ABS (R144). -/
def execAbs (x : Die) (rg : Nat) (u : List (Nat × Nat × Nat)) (s : State) : Out :=
  act x s (fun d => d.seRow rg (.par 12) u 0)

/-- NEG (R144). -/
def execNeg (x : Die) (rg : Nat) (u : List (Nat × Nat × Nat)) (s : State) : Out :=
  act x s (fun d => d.seRow rg (.par 13) u 0)

/-- MACSU (R143). -/
def execMacsu (x : Die) (rg : Nat) (u : List (Nat × Nat × Nat)) (s : State) : Out :=
  act x s (fun d => d.seRow rg (.par 14) u 0)

/-! ### Loop wraps, ports, port events, breakpoints -/

/-- LOOP_WRAP (R154). -/
def execLoopWrap (x : Die) (rg : Nat) (s : State) : Out :=
  act x s (fun d =>
    let r := d.seFill rg []
    if d.seLive rg && (r.1.mode == .run) && r.1.wrap.isSome then (d.seFounds rg 0 r.2).setEng rg r.1.chooseWrap else d)

/-- Can input port `p` of an engine take a token: port 3 of a pooled engine is the Roster's, and a frozen engine's ports stand
still (R165, R172, R240). -/
def DieSt.seTakes (d : DieSt) (rg p : Nat) : Bool :=
  let e := d.eng rg
  d.seLive rg && decide (p < 4) && !(d.pooled rg && p == 3) && !e.inFull.get (fun _ => false) p && e.mode != .off && e.mode != .frozen

/-- A token reaches an input holding register (R165).  A port event that it makes due in a stall is taken at once (R166). -/
def DieSt.seToken (d : DieSt) (rg p : Nat) (v : Word24) : DieSt :=
  let e := d.eng rg
  if !d.seTakes rg p then d
  else
    let d := d.setEng rg { e with inFull := e.inFull.set (fun _ => false) p true, inTok := e.inTok.set (fun _ => 0) p v }
    if e.mode == .stall then d.seEventDue rg else d

/-- SE_INPUT_TOKEN (R165). -/
def execSeInputToken (x : Die) (rg p : Nat) (v : Word24) (s : State) : Out := act x s (fun d => d.seToken rg p v)

/-- The crossing whose holding register is output register `p` of an engine (R164, Table 09-3). -/
def outX (rg p : Nat) : XRef := ⟨0, 8 * rg + 4 + p, 0, false⟩

/-- Can the fabric take a token from output port `p` (R165, R172, R240). -/
def DieSt.seOffers (d : DieSt) (rg p : Nat) : Bool :=
  let e := d.eng rg
  d.seLive rg && decide (p < 4) && !(d.pooled rg && p == 3) && e.outFull.get (fun _ => false) p && e.mode != .frozen

/-- The fabric has the token of output port `p`; the register stays full until the return flag is seen (R231). -/
def DieSt.seGives (d : DieSt) (rg p : Nat) : DieSt :=
  let e := d.eng rg
  if d.seOffers rg p then d.setEng rg { e with taken := e.taken.set (fun _ => 0) p (e.outTok.get (fun _ => 0) p) } else d

/-- The output register that is the holding register of crossing `r` is empty (R231, R242). -/
def DieSt.seEmpties (d : DieSt) (r : XRef) : DieSt :=
  if r.kind = 0 && decide (4 ≤ r.inst % 8) then
    let e := d.eng (r.inst / 8)
    d.setEng (r.inst / 8) { e with outFull := e.outFull.set (fun _ => false) (r.inst % 8 - 4) false }
  else d

/-- The fabric takes an output token and the register empties: the four steps of R231 as one (R165).  A token that is in flight at
the port's crossing passes there. -/
def DieSt.seTaken (d : DieSt) (rg p : Nat) : DieSt :=
  if d.seOffers rg p && !(d.xr (outX rg p)).flight then (d.seGives rg p).seEmpties (outX rg p) else d

/-- SE_OUTPUT_TAKEN (R165). -/
def execSeOutputTaken (x : Die) (rg p : Nat) (s : State) : Out := act x s (fun d => d.seTaken rg p)

/-- A port event swaps to the event bank: at a boundary, in a stall, or in a halt made by HALT with EVM not 0.  A breakpoint's
halt at the same boundary comes first (R168, R174). -/
def DieSt.portEvent (d : DieSt) (rg : Nat) : DieSt :=
  let e := d.eng rg
  let hnd := d.on (F.SE_CFG_HND rg)
  let halted := e.mode == .halt && e.haltInsn
  if d.seLive rg && !d.pooled rg && e.portPending hnd
      && ((((e.mode == .run && e.evDue) || e.mode == .stall) && !d.seBreaks rg e) || halted) then
    d.setEng rg { e.swapBanks with mode := .run, evDue := false, haltInsn := false }
  else d

/-- PORT_EVENT (R168). -/
def execPortEvent (x : Die) (rg : Nat) (s : State) : Out := act x s (fun d => d.portEvent rg)

/-- The breakpoint halts the engine before the instruction at its address would complete (R174). -/
def DieSt.seBreak (d : DieSt) (rg : Nat) : DieSt :=
  let r := d.seFill rg []
  if d.seLive rg && (r.1.mode == .run || r.1.mode == .stall) && r.1.wrap.isNone && d.seBreaks rg r.1 then
    (((d.seFounds rg 0 r.2).setEng rg { r.1 with brkSkip := some r.1.nextPc }).seHalt rg 1).seFreezeDue rg
  else d

/-- SE_BREAKPOINT (R174). -/
def execSeBreakpoint (x : Die) (rg : Nat) (s : State) : Out := act x s (fun d => d.seBreak rg)

/-! ### The scrubber and the register window (R136, R138) -/

/-- One word of the scrubber. -/
def DieSt.seScrub (d : DieSt) (rg mem upset : Nat) : DieSt :=
  let m := mem % 3
  let e := d.eng rg
  let a := e.scrub.get (fun _ => 0) m
  if d.regionOn rg && d.rgState rg == rgRunning && decide (d.ringState rg < 2) then
    let e : SeSt := { e.upset [(m, a, upset)] with scrub := e.scrub.set (fun _ => 0) m ((a + 1) % 4096) }
    let found := e.found m a
    let e : SeSt := if e.mclass m a = 1 then { e with flip := e.flip.set (fun _ => 0) (4096 * m + a) 0 } else e
    (d.setEng rg e).seFounds rg 1 found
  else d

/-- SE_SCRUB_STEP (R136). -/
def execSeScrubStep (x : Die) (rg mem upset : Nat) (s : State) : Out := act x s (fun d => d.seScrub rg mem upset)

/-- Read the low word of a 64-bit value: the high word goes to the master's latch (R8). -/
def DieSt.latchLow (d : DieSt) (m : Master) (a : Nat) (hi : Word) : DieSt :=
  { d with rdLatch := d.rdLatch.set (fun _ => none) (masterKey m) (some (a, hi)) }

/-- The high word a master reads: the latched one after a low-word read of the same value, else the live one (R8). -/
def DieSt.takeHigh (d : DieSt) (m : Master) (a : Nat) (live : Word) : DieSt × Word :=
  match d.rdLatch.get (fun _ => none) (masterKey m) with
  | some (b, w) => if b = a then ({ d with rdLatch := d.rdLatch.set (fun _ => none) (masterKey m) none }, w) else (d, live)
  | none => (d, live)

/-- The low word a high-word write takes from the master's latch (R8). -/
def DieSt.takeLow (d : DieSt) (m : Master) (a : Nat) (live : Word) : DieSt × Word :=
  match d.wrLatch.get (fun _ => none) (masterKey m) with
  | some (b, w) => if b = a then ({ d with wrLatch := d.wrLatch.set (fun _ => none) (masterKey m) none }, w) else (d, live)
  | none => (d, live)

/-- A window read that R138 allows: P, X, Y through the service port (with its findings), a bank, AB or AL. -/
def DieSt.winRead (d : DieSt) (m : Master) (rg off : Nat) : DieSt × Word :=
  let e := d.eng rg
  let abs := R.SE_CFG rg + off
  if 0x4000 ≤ off && off < 0x8000 then
    let a := (off - 0x4000) / 4
    (d.seFounds rg 2 (e.found 0 a), e.rdP a)
  else if 0x8000 ≤ off then
    let mem := if off < 0xC000 then 1 else 2
    let a := (off % 0x4000) / 4
    (d.seFounds rg 2 (e.found mem a), (e.rdM mem a).setWidth 32)
  else if 0x100 ≤ off && off < 0x300 then
    let b := if off < 0x200 then e.b0 else e.b1
    let o := off % 0x100
    if 0xA8 ≤ o then (d, 0)
    else if 0x20 ≤ o && o < 0x40 then
      if o % 8 = 0 then (d.latchLow m abs (BitVec.ofNat 32 (b.img (o + 4))), BitVec.ofNat 32 (b.img o))
      else d.takeHigh m (abs - 4) (BitVec.ofNat 32 (b.img o))
    else (d, BitVec.ofNat 32 (b.img o))
  else if 0x300 ≤ off && off < 0x320 then (d, (e.ab.get (fun _ => 0) ((off - 0x300) / 4)).setWidth 32)
  else if 0x320 ≤ off && off < 0x340 then (d, (e.al.get (fun _ => 0) ((off - 0x320) / 4)).setWidth 32)
  else (d, 0)

/-- Replace bank `b1`, keeping the pipeline in step with the active bank. -/
def SeSt.putBank (e : SeSt) (bank1 : Bool) (b : BankSt) : SeSt := (if bank1 then { e with b1 := b } else { e with b0 := b }).discard

/-- A window write that R138 allows; AB and AL are read-only. -/
def DieSt.winWrite (d : DieSt) (m : Master) (rg off : Nat) (v : Word) : DieSt :=
  let e := d.eng rg
  let abs := R.SE_CFG rg + off
  if 0x4000 ≤ off && off < 0x8000 then d.setEng rg (e.wrP ((off - 0x4000) / 4) v)
  else if 0x8000 ≤ off then d.setEng rg (e.wrM (if off < 0xC000 then 1 else 2) ((off % 0x4000) / 4) (v.setWidth 24))
  else if 0x100 ≤ off && off < 0x300 && off % 0x100 < 0xA8 then
    let bank1 := decide (0x200 ≤ off)
    let b := if bank1 then e.b1 else e.b0
    let o := off % 0x100
    if 0x20 ≤ o && o < 0x40 then
      if o % 8 = 0 then { d with wrLatch := d.wrLatch.set (fun _ => none) (masterKey m) (some (abs, v)) }
      else
        let r := d.takeLow m (abs - 4) (BitVec.ofNat 32 (b.img (o - 4)))
        r.1.setEng rg (e.putBank bank1 ((b.putImg (o - 4) r.2.toNat).putImg o v.toNat))
    else d.setEng rg (e.putBank bank1 (b.putImg o v.toNat))
  else d

/-- SE_WINDOW_ACCESS: a dedicated engine in HALT or FAULT, or a read of a pooled engine that is IDLE (R138). -/
def DieSt.seWindow (d : DieSt) (m : Master) (rg off : Nat) (wr : Bool) (v : Word) : DieSt :=
  let e := d.eng rg
  let okState := if d.pooled rg then !wr && e.mode == .idle else e.mode == .halt || e.mode == .fault
  let hidden := !wr && d.noRb && decide (0x4000 ≤ off) && decide (off < 0x8000) && m != .referee
  if !d.busUp m || !d.hasRegion rg || !d.liveAt .bSE (R.SE_CFG rg) || decide (off % 4 ≠ 0) || decide (0x10000 ≤ off)
      || (wr && !mayWrite m .team) || !okState || hidden then
    if !wr && d.busUp m && decide (off % 4 = 0) && !d.hasRegion rg then d.answer m 0 false else d.answer m 0 true
  else if wr then
    if 0x300 ≤ off && off < 0x340 then d.answer m 0 (m != .referee) else (d.winWrite m rg off v).answer m 0 false
  else
    let r := d.winRead m rg off
    r.1.answer m r.2 false

/-- SE_WINDOW_ACCESS (R138). -/
def execSeWindowAccess (x : Die) (m : Master) (rg off : Nat) (wr : Bool) (v : Word) (s : State) : Out :=
  act x s (fun d => d.seWindow m rg off wr v)

/-! ### SE_CTL and SE_CNT_CLR (R174, R177) -/

/-- SE_CTL and SE_BRK: refused for a pooled engine. -/
def DieSt.seDo (d : DieSt) (rg : Nat) (g : DieSt → DieSt) : DieSt × Bool := if d.pooled rg then (d, true) else (g d, false)

/-- A write of SE_CTL. -/
def DieSt.seCtl (d : DieSt) (m : Master) (rg : Nat) (g : DieSt → DieSt) : DieSt :=
  d.busDo m (R.SE_CTL rg) (fun d => d.seDo rg g)

/-- RESTART: from HALT or FAULT, both banks are reset and the engine runs. -/
def DieSt.seRestart (d : DieSt) (rg : Nat) : DieSt :=
  let e := d.eng rg
  if e.mode = .halt || e.mode = .fault then
    d.setEng rg { e.resetBanks false (d.f (F.SE_CFG_ENTRY0 rg)) (d.f (F.SE_CFG_ENTRY1 rg)) with mode := .run }
  else d

/-- STEP: from HALT, to the next eligible boundary. -/
def DieSt.seStep (d : DieSt) (rg : Nat) : DieSt :=
  let e := d.eng rg
  if e.mode = .halt then
    d.setEng rg { e.discard with mode := .run, haltReq := some 2, haltInsn := false, haltRecov := false }
  else d

/-- RUN: leaves HALT. -/
def DieSt.seRun (d : DieSt) (rg : Nat) : DieSt :=
  let e := d.eng rg
  if e.mode = .halt then
    d.setEng rg { e.discard with mode := .run, haltReq := none, haltInsn := false, haltRecov := false }
  else d

/-- HALT_REQ: at the next eligible boundary, at once in a stall; in a frozen engine that will run on, after its release. -/
def DieSt.seHaltReq (d : DieSt) (rg : Nat) : DieSt :=
  let e := d.eng rg
  if e.mode = .run then d.setEng rg { e with haltReq := some 3 }
  else if e.mode = .stall then d.seHalt rg 3
  else if e.mode = .frozen && e.before = .run then d.setEng rg { e with haltReq := some 3 }
  else d

/-- SE_RESTART (R174). -/
def execSeRestart (x : Die) (m : Master) (rg : Nat) (s : State) : Out := act x s (fun d => d.seCtl m rg (fun d => d.seRestart rg))

/-- SE_STEP (R174). -/
def execSeStep (x : Die) (m : Master) (rg : Nat) (s : State) : Out := act x s (fun d => d.seCtl m rg (fun d => d.seStep rg))

/-- SE_RUN (R174). -/
def execSeRun (x : Die) (m : Master) (rg : Nat) (s : State) : Out := act x s (fun d => d.seCtl m rg (fun d => d.seRun rg))

/-- SE_HALT_REQ (R174). -/
def execSeHaltReq (x : Die) (m : Master) (rg : Nat) (s : State) : Out := act x s (fun d => d.seCtl m rg (fun d => d.seHaltReq rg))

/-- SE_CNT_CLR.INSN. -/
def DieSt.seInsnClr (d : DieSt) (rg : Nat) : DieSt := (d.wr (R.SE_INSN_LO rg) 0).wr (R.SE_INSN_HI rg) 0

/-- SE_CNT_CLR_STALL (R177). -/
def execSeCntClrStall (x : Die) (m : Master) (rg : Nat) (s : State) : Out :=
  act x s (fun d => d.busAct m (R.SE_CNT_CLR rg) (fun d => d.wr (R.SE_STALL rg) 0))

/-- SE_CNT_CLR_INSN (R177). -/
def execSeCntClrInsn (x : Die) (m : Master) (rg : Nat) (s : State) : Out :=
  act x s (fun d => d.busAct m (R.SE_CNT_CLR rg) (fun d => d.seInsnClr rg))

/-- SE_CNT_CLR_MEM (R177). -/
def execSeCntClrMem (x : Die) (m : Master) (rg : Nat) (s : State) : Out :=
  act x s (fun d => d.busAct m (R.SE_CNT_CLR rg) (fun d => d.wr (R.SE_MEM_CNT rg) 0))

end Sys2Proof.Machine
end

