-- ==== Sys2Proof/Machine/Xing.lean ====
section
/-! DEFINITION. Crossings between the fabric and the islands: takes, returns, timeouts, resets and the XING registers
(R231 to R249). -/

namespace Sys2Proof.Machine

/-- The local source number of Table 09-3. -/
def DieSt.xSource (d : DieSt) (r : XRef) : Nat :=
  match r.kind with
  | 0 => r.inst / 8
  | 1 => 0x702
  | 2 => 0x580 + r.inst / 4
  | 3 => d.tapAt.get (fun _ => 0) r.inst
  | 4 => 0x800 + r.inst
  | 5 => r.inst * 44
  | 6 => 0x5D0 + r.inst
  | 7 => 0x5E0 + r.inst
  | 8 => 0x70A
  | 9 => 0x708
  | 10 => 0x707
  | _ => 0x600 + 4 * (r.inst / 32)

/-- Latch XING_ERR if it holds nothing (R249). -/
def DieSt.xErr (d : DieSt) (r : XRef) (cause : Nat) : DieSt :=
  if d.on F.XING_ERR_VALID then d
  else (((d.put F.XING_ERR_VALID 1).put F.XING_ERR_CAUSE cause).put F.XING_ERR_KIND r.kind).put F.XING_ERR_INSTANCE r.inst

/-- Raise event `code` of Table 09-5, at most once a millisecond for each kind and code (R248). -/
def DieSt.xEvt (d : DieSt) (r : XRef) (en : Bool) (code : Nat) : DieSt :=
  d.raiseLim en (code * 2 ^ 20 + r.kind) 1000000 (d.xSource r) code (r.kind * 2 ^ 20 + r.inst % 2 ^ 16)

/-- A timeout is counted and raised (R242, R248). -/
def DieSt.xTimedOut (d : DieSt) (r : XRef) : DieSt :=
  (((d.bump (F.XING_CNT_A_TIMEOUTS r.kind)).put (F.XING_STAT_TIMEOUT r.kind) 1).xErr r 1).xEvt r (d.on F.XING_EVT_EN_TIMEOUT) 0x0901

/-- A void token or pulse is seen at the destination: counted and latched, no event (R242, R248). -/
def DieSt.xLate (d : DieSt) (r : XRef) : DieSt :=
  ((d.bump (F.XING_CNT_A_LATE r.kind)).put (F.XING_STAT_LATE r.kind) 1).xErr r 2

/-- A pulse event was not counted at 15 (R236). -/
def DieSt.xLost (d : DieSt) (r : XRef) : DieSt :=
  (((d.bump (F.XING_CNT_B_LOST r.kind)).put (F.XING_STAT_LOST r.kind) 1).xErr r 3).xEvt r (d.on F.XING_EVT_EN_LOST) 0x0902

/-- A peer's reset was seen (R238). -/
def DieSt.xPeer (d : DieSt) (r : XRef) : DieSt :=
  (((d.bump (F.XING_CNT_B_PEER_RESET r.kind)).put (F.XING_STAT_PEER_RESET r.kind) 1).xErr r 4).xEvt r
    (d.on F.XING_EVT_EN_PEER_RESET) 0x0903

/-- What the destination does with the value (R165, R210, R224, R187, R253).  The fabric takes what an island sends it as it
stands in `XSt.out`: a queue's flags and read words, a DRAM port's answers, METROLOGY tokens, user tokens.  What passes a
ROSTER, BUS, TIME or UMPIRE crossing acts where it is used: the moves of R192 and port 3, the register accesses of a fabric
port, the MT of every island, and the Umpire's events. -/
def DieSt.xDeliver (d : DieSt) (r : XRef) (v : Nat) : DieSt :=
  match r.kind with
  | 0 =>
    if r.inst % 8 < 4 then d.seToken (r.inst / 8) (r.inst % 8) (BitVec.ofNat 24 v) else d.seGives (r.inst / 8) (r.inst % 8 - 4)
  | 2 =>
    let q := r.inst / 4
    let src := if r.sub = 0 then QSrc.writeEnd else QSrc.readEnd
    if r.inst % 4 = 0 then d.qWordWrite q (.fabric (r.sub / 2) (r.sub % 2 == 1)) (v % 2 ^ 64) (v / 2 ^ 64)
    else if r.inst % 4 = 2 then
      match v % 8 with
      | 1 => d.qCommand q src true (fun d => d.qFlush q)
      | 2 => d.qCommand q src false (fun d => d.qMark q)
      | 3 => d.qCommand q src false (fun d => d.qRewind q)
      | 4 => d.qCommand q src false (fun d => d.qClearMark q)
      | _ => d
    else d
  | 1 => if r.srcFabric && r.sub = 2 then d.port3Out r.inst (BitVec.ofNat 24 v) else d
  | 3 => d.crcWord 7 r.inst (v % 2 ^ 64) (32 * (v / 2 ^ 64 % 2))
  | 4 => d.eventTrigger r.inst
  | 6 => if r.srcFabric then d.dramToken (r.inst / 4) r.sub v else d
  | 7 =>
    if r.srcFabric then d.tokenSend r.sub (v % 2 ^ 64) (v / 2 ^ 64)
    else if r.inst % 5 = 1 && r.sub = 0 then d.slkItemOut (r.inst / 5)
    else d.tokenTaken r.sub
  | 5 => d
  | 8 => d
  | 9 => d
  | 10 => d
  | _ => d

/-- Does the destination hold back its take.  An engine's port takes a token only into an empty register, and gives one only
from a full one (R165); a DRAM port takes what its offer buffer has room for (R253); a token channel without credit, or
which has sent its rate, holds the fabric's offer (R288); in RECOVERY the deliveries of Sunislink wait at their crossings (R344). -/
def DieSt.xHeld (d : DieSt) (r : XRef) (v : Nat) : Bool :=
  match r.kind with
  | 0 =>
    if r.inst % 8 < 4 then !d.seTakes (r.inst / 8) (r.inst % 8)
    else !(d.eng (r.inst / 8)).outFull.get (fun _ => false) (r.inst % 8 - 4)
  | 1 => r.srcFabric && r.sub == 2 && (d.eng r.inst).ctx.any (fun n => !d.outMay r.inst n (BitVec.ofNat 24 v))
  | 6 => r.srcFabric && !d.dramTakes (r.inst / 4) r.sub v
  | 7 => if r.srcFabric then d.f (F.SLK_CHAN_CFG_CREDITS r.sub) == 0 || d.chanPaced r.sub else d.dev == 6
  | _ => false

/-- Does the destination see nothing of what is in flight: it is in reset, it has been and the source has not seen that yet, it
has yet to see a reset of the source, or the crossing stands still with its region (R237, R238, R240). -/
def DieSt.xBlind (d : DieSt) (r : XRef) : Bool :=
  let s := d.xr r
  d.xReset r false || s.dstHit || s.srcHit || s.srcRst || d.xStill r

/-- Step 3 of R231: the destination sees the change, takes the value or counts it LATE, and toggles the return flag. -/
def DieSt.xTake (d : DieSt) (r : XRef) : DieSt :=
  let s := d.xr r
  if !d.xHas r || !s.flight || s.done || d.xBlind r then d
  else if s.void then (d.setXr r { s with done := true }).xLate r
  else if d.xHeld r s.flying then d
  else (d.setXr r { s with done := true, out := some s.flying }).xDeliver r s.flying

/-- Step 4 of R231: the return flag is seen; the register, an engine's output register among them, is empty unless a later value
already loaded it (R242), and the next value or pending pulse goes (R236). -/
def DieSt.xReturn (d : DieSt) (r : XRef) : DieSt :=
  let s := d.xr r
  if !d.xHas r || !s.flight || !s.done || s.dstHit || d.xStill r then d
  else
    let s1 := { s with flight := false, done := false, void := false, full := s.full && s.void }
    let s2 :=
      if s1.next then { s1 with next := false }.launch d.now
      else if s1.pend ≠ 0 then { s1 with pend := s1.pend - 1 }.launch d.now
      else s1.push d.now
    let d := if s.void then d else d.seEmpties r
    if r.kind = 9 && r.inst = 0 then (d.setXr r s2).metOffer else d.setXr r s2

/-- One event reaches the source side of a pulse crossing (R236). -/
def DieSt.xPulse (d : DieSt) (r : XRef) : DieSt :=
  let s := d.xr r
  if !d.xHas r || !xPulseKind r || d.xReset r true || d.xStill r then d
  else if !s.flight then d.setXr r (s.launch d.now)
  else if s.pend < 15 then d.setXr r { s with pend := s.pend + 1 }
  else d.xLost r

/-- The interval of a kind's timer in ns (Table of XING_CFG); 0 off. -/
def xInterval (v : Word) : Nat :=
  (v.toNat % 2 ^ 16) * (match bits v.toNat 17 16 with | 0 => 10 | 1 => 1000 | 2 => 100000 | _ => 10000000)

/-- May the timer of `r` have expired: it is on, runs, and the interval has passed (R241). -/
def DieSt.xDue (d : DieSt) (r : XRef) : Bool :=
  let s := d.xr r
  let i := xInterval (d.rd (R.XING_CFG r.kind))
  d.xHas r && decide (i ≠ 0) && s.flight && !s.done && !s.void && !d.xStill r && decide (s.since + i ≤ d.now)

/-- R242.  An engine's output register is the crossing's holding register: the void empties it, and the token is refused. -/
def DieSt.xExpire (d : DieSt) (r : XRef) : DieSt :=
  let s := d.xr r
  let s1 := { s with
    void := true, full := false, next := decide (s.pend ≠ 0), pend := s.pend - 1
    status := s.status ++ d.xStatus r 1 }
  ((d.seEmpties r).setXr r (s1.push d.now)).xTimedOut r

/-- Has the side named a reset of its peer to see: the peer is in reset and this side has not seen it, or was since it last
looked (R237). -/
def DieSt.xSees (d : DieSt) (r : XRef) (source : Bool) : Bool :=
  let s := d.xr r
  if source then s.dstHit || (d.xReset r false && !s.dstRst) else s.srcHit || (d.xReset r true && !s.srcRst)

/-- A side sees its peer enter reset (R238, R239).  The source side discards what is in flight, with the pending counter; a
value that waits in the register, or for it, stays offered.  A side that is itself in reset sets no PEER_RESET. -/
def DieSt.xPeerReset (d : DieSt) (r : XRef) (source : Bool) : DieSt :=
  if !d.xHas r || !d.xSees r source then d
  else
    let d := d.xMark
    let s := d.xr r
    let self := d.xReset r source
    let peer := d.xReset r (!source)
    let counts := !self && r.kind != 0
    let s1 :=
      if source then
        { s with
          full := s.full && (s.void || !s.flight), flight := false, done := false, void := false, pend := 0, next := false
          dstHit := false, dstRst := peer && !self, status := s.status ++ (if counts then d.xStatus r 2 else []) }
      else { s with srcHit := false, srcRst := peer && !self }
    let d := d.setXr r (s1.push d.now)
    if counts then d.xPeer r else d

/-- A side sees its peer leave reset; an offer still held goes across whole (R238). -/
def DieSt.xPeerEnd (d : DieSt) (r : XRef) (source : Bool) : DieSt :=
  let s := d.xr r
  if !d.xHas r || d.xReset r (!source) then d
  else d.setXr r ((if source then { s with dstRst := false } else { s with srcRst := false }).push d.now)

/-- The value that an island source offers of its own: an engine's output register, or MT.  Queues, DRAM channels, the Roster
and the Zinen island offer theirs as they make them. -/
def DieSt.xOwn (d : DieSt) (r : XRef) (v : Nat) : Option Nat :=
  match r.kind with
  | 0 =>
    let e := d.eng (r.inst / 8)
    let p := r.inst % 8 - 4
    if r.inst % 8 < 4 then some v
    else if e.outFull.get (fun _ => false) p && !(d.xr r).full then some (e.outTok.get (fun _ => 0) p).toNat
    else none
  | 1 => none
  | 2 => if r.srcFabric then some v else none
  | 6 => if r.srcFabric then some v else none
  | 8 => some d.mt.toNat
  | _ => some v

/-- The bank reset primitive (R247): the personality asserts it with 1 and releases it with 0, and the bank's crossings come
into reset with it. -/
def DieSt.bankReset (d : DieSt) (b v : Nat) : DieSt :=
  ({ d with bankRst := d.bankRst.set (fun _ => false) b (v % 2 == 1) } : DieSt).xMark

/-- CROSSING_OFFER. -/
def DieSt.xOffers (d : DieSt) (r : XRef) (v : Nat) : DieSt :=
  if r.kind = 11 && r.inst % 32 = 16 then
    if d.xHas r && r.srcFabric && !d.xEndReset r then d.bankReset (r.inst / 32) v else d
  else if r.kind = 9 && r.inst = 0 then d.metOffer
  else
    match d.xOwn r v with
    | some v => d.xOffer r v
    | none => d

/-- Does a class-0 admission stand on the die (R245). -/
def DieSt.classZero (d : DieSt) : Bool :=
  d.usedCtx.any (fun n => d.cAdmitted n)
  || (List.range 4).any (fun c => (List.range 8).any (fun p => d.on (F.DMC_PORT_CFG_EN c p) && d.f (F.DMC_PORT_CFG_CLASS c p) == 0))
  || (List.range 256).any (fun c => d.on (F.SLK_CHAN_CFG_EN c) && d.f (F.SLK_CHAN_CFG_CLASS c) == 0)
  || decide (d.slkAdm.cells ≠ [])

/-- Kinds that carry class-0 paths (R245). -/
def xClass0Kind (k : Nat) : Bool := k == 1 || k == 2 || k == 6 || k == 7

/-- Is the timer of a kind that carries class-0 paths set below 10 µs: no class-0 work is admitted then (R245). -/
def DieSt.xShort (d : DieSt) : Bool :=
  [1, 2, 6, 7].any (fun k => xInterval (d.rd (R.XING_CFG k)) != 0 && decide (xInterval (d.rd (R.XING_CFG k)) < 10000))

/-- A write of XING_CFG of kind `k` (R245); kind 9 ignores writes (R249). -/
def DieSt.xCfgWrite (d : DieSt) (k : Nat) (v : Word) : DieSt × Bool :=
  let i := xInterval v
  if k = 9 then (d, false)
  else if xClass0Kind k && decide (i ≠ 0) && decide (i < 10000) && d.classZero then (d, true)
  else (d.wr (R.XING_CFG k) (v &&& 0x3FFFF), false)

/-- CROSSING_OFFER (R231). -/
def execCrossingOffer (x : Die) (r : XRef) (v : Nat) (s : State) : Out := act x s (fun d => d.xOffers r v)

/-- CROSSING_TAKE (R231, R243). -/
def execCrossingTake (x : Die) (r : XRef) (s : State) : Out := act x s (fun d => d.xTake r)

/-- CROSSING_RETURN (R231). -/
def execCrossingReturn (x : Die) (r : XRef) (s : State) : Out := act x s (fun d => d.xReturn r)

/-- PULSE_ARRIVE (R236): at an island source an event that meets the decrease is counted after it; at a fabric source the
order is free. -/
def execPulseArrive (x : Die) (r : XRef) (meets : Bool) (s : State) : Out :=
  act x s (fun d =>
    if !meets then d.xPulse r
    else if !r.srcFabric then (d.xReturn r).xPulse r
    else
      let c := d.choose
      if c.1 then (c.2.xPulse r).xReturn r else (c.2.xReturn r).xPulse r)

/-- PULSE_DELIVER (R236). -/
def execPulseDeliver (x : Die) (r : XRef) (s : State) : Out := act x s (fun d => (d.xTake r).xReturn r)

/-- PEER_RESET_SEEN (R238). -/
def execPeerResetSeen (x : Die) (r : XRef) (source : Bool) (s : State) : Out :=
  act x s (fun d => d.xPeerReset r source)

/-- CROSSING_TIMEOUT (R242, R243): where expiry meets the take, one element decides, and the outcome is free. -/
def execCrossingTimeout (x : Die) (r : XRef) (meets : Bool) (s : State) : Out :=
  act x s (fun d =>
    if !d.xDue r then d
    else if meets && !d.xBlind r && !d.xHeld r (d.xr r).flying then
      let c := d.choose
      if c.1 then c.2.xTake r else c.2.xExpire r
    else d.xExpire r)

/-- XING_CNT_CLR.ALL. -/
def DieSt.xCntClr (d : DieSt) (v : Word) : DieSt :=
  if bit v.toNat 0 then (List.range 12).foldl (fun d k => (d.wr (R.XING_CNT_A k) 0).wr (R.XING_CNT_B k) 0) d else d

/-- XING_CNT_CLR (R249). -/
def execXingCntClr (x : Die) (m : Master) (v : Word) (s : State) : Out :=
  act x s (fun d => d.busAct m R.XING_CNT_CLR (fun d => d.xCntClr v))

/-- XING_CFG_WRITE (R245). -/
def execXingCfgWrite (x : Die) (m : Master) (k : Nat) (v : Word) (s : State) : Out :=
  act x s (fun d => if k < 12 then d.busDo m (R.XING_CFG k) (fun d => d.xCfgWrite k v) else d.answer m 0 true)

/-- PEER_RESET_END (R237, R238). -/
def execPeerResetEnd (x : Die) (r : XRef) (source : Bool) (s : State) : Out := act x s (fun d => d.xPeerEnd r source)

end Sys2Proof.Machine
end

