-- ==== Sys2Proof/Machine/PinCore.lean ====
section
/-! DEFINITION. Pins: which functions Table 12-1 allows, the peripheral input signals, and the levels the pads show (R306
to R318). -/

namespace Sys2Proof.Machine

/-- Pin `n` beside its registers. -/
def DieSt.pinS (d : DieSt) (n : Nat) : PinSt := d.pin.get (fun _ => PinSt.reset) n

/-- Replace pin `n`. -/
def DieSt.setPin (d : DieSt) (n : Nat) (v : PinSt) : DieSt := { d with pin := d.pin.set (fun _ => PinSt.reset) n v }

/-- Number of pins. -/
def DieSt.pins (d : DieSt) : Nat := 48 * d.idn.banks

/-- Pins do as their settings say: from the PLAY instant on, factory test apart, and not in a FULL-TIME or HALF-TIME that came before
any PLAY (R312). -/
def DieSt.pinsLive (d : DieSt) : Bool := decide (4 ≤ d.dev ∧ d.dev ≤ 7) && !d.pwr.unplayed

/-- The pull of pin `n` (R312, R322, R325): what a hold keeps, the bank's pre-configuration pull before PLAY, none with function 15,
else PIN_ELEC.PULL. -/
def DieSt.pull (d : DieSt) (n : Nat) : Nat :=
  match (d.pinS n).pull with
  | some p => p
  | none =>
    if !d.pinsLive then d.f (F.PIN_BANK_STAT_PREPULL (n / 48))
    else if d.f (F.PIN_CFG_FUNC n) = 15 then 0
    else d.f (F.PIN_ELEC_PULL n)

/-- The owner, function and signal of a PIN_CFG word. -/
def cfgOwner (v : Word) : Nat := bits v.toNat 31 30
def cfgFunc (v : Word) : Nat := bits v.toNat 27 24
def cfgSig (v : Word) : Nat := bits v.toNat 15 8

/-- Table 12-1: may pin `n` take this owner, function and SIG.  A function of an absent resource is refused as well (R309). -/
def DieSt.pinRule (d : DieSt) (n : Nat) (v : Word) : Bool :=
  let o := cfgOwner v
  let g := cfgSig v
  match cfgFunc v with
  | 0 => o == 2 && g == 0
  | 1 => decide (o ≤ 1) && g == 0
  | 2 => o == 0 && g == 0 && n / 48 == 1
  | 3 => o == 3 && decide (g < 16) && decide (80 ≤ n) && decide (n < 96) && d.idn.die == 0 && d.idn.met
  | 4 => o == 1 && decide (g < 16)
  | 5 => o == 1 && decide (g < 16) && g % 8 != 7
  | 6 => o == 1 && decide (g < 16) && g % 4 != 3
  | 7 => o == 0 && decide (g < 2)
  | 8 => decide (o ≤ 1) && decide (g < 2)
  | 9 => decide (o ≤ 1) && decide (g % 128 < 4 * d.idn.banks)
  | _ => g == 0

/-- The hard peripheral, matcher or capture input a PIN_CFG word uses (R311, Table 16-4). -/
def pinUses (v : Word) : Option Nat :=
  let g := cfgSig v
  match cfgFunc v with
  | 4 => some (0x400 + g / 4 % 4)
  | 5 => some (0x404 + g / 8 % 2)
  | 6 => some (0x406 + g / 4 % 4)
  | 7 => some 0x40A
  | 9 => some (0x500 + g % 128)
  | 8 => if g % 2 = 1 then some 0x40B else none
  | _ => none

/-- Does a PIN_CFG word name a function of an absent resource (R309). -/
def DieSt.pinAbsent (d : DieSt) (v : Word) : Bool :=
  (cfgFunc v == 9 && decide (4 * d.idn.banks ≤ cfgSig v % 128) && decide (cfgSig v % 128 < 80)) || (cfgFunc v == 3 && !d.idn.met)

/-- The input signal of Table 12-2 that a PIN_CFG word names. -/
def inSignal (v : Word) : Option Nat :=
  let g := cfgSig v
  if bit v.toNat 21 then none
  else
    match cfgFunc v with
    | 4 => if g % 4 = 1 then some (2 * (g / 4)) else if g % 4 = 3 then some (2 * (g / 4) + 1) else none
    | 5 => if g % 8 = 2 then some (8 + g / 8) else none
    | 6 => some (10 + 3 * (g / 4) + g % 4)
    | 7 => if g % 2 = 1 then some 22 else none
    | 8 => if g % 2 = 1 then some 23 else none
    | _ => none

/-- The pins whose PIN_CFG has been written since COLD: a pin not listed has FUNC 1 and OWNER 0. -/
def DieSt.listedPins (d : DieSt) : List Nat :=
  d.regs.cells.filterMap (fun c =>
    if R.PIN_CFG 0 ≤ c.1 ∧ c.1 < R.PIN_CFG d.pins ∧ (c.1 - R.PIN_CFG 0) % 16 = 0 then some ((c.1 - R.PIN_CFG 0) / 16) else none)

/-- Does pin `n` carry signal `g`: from the end of its guard to the start of the next (R316).  Before PLAY only a pin a latch holds
does, by the settings it had: the input path of a held pin keeps working (R312, R325). -/
def DieSt.carries (d : DieSt) (n g : Nat) : Bool :=
  (d.pinsLive || (d.on (F.PIN_CFG_HELD n) && !(d.pinS n).stored)) && !d.on (F.PIN_CFG_SWITCHING n) && inSignal (d.rd (R.PIN_CFG n)) == some g

/-- The pins that carry a signal. -/
def DieSt.carriers (d : DieSt) (g : Nat) : List Nat := d.listedPins.filter (fun n => d.carries n g)

/-- The level of pin `n` as GPIO_IN shows it: pins of function 15 read 0 (R318). -/
def DieSt.pinIn (d : DieSt) (n : Nat) : Bool :=
  bit (d.pinLevel.get (fun _ => 0) (n / 48)) (n % 48) && d.f (F.PIN_CFG_FUNC n) != 15

/-- The level of a peripheral input signal (R316, Table 12-2). -/
def DieSt.signalIn (d : DieSt) (g : Nat) : Bool :=
  match d.carriers g with
  | [n] => d.pinIn n
  | _ => g != 8 && g != 9 && g != 23

/-- Levels of a bank as its matchers and GPIO_IN see them. -/
def DieSt.bankIn (d : DieSt) (b : Nat) : Nat :=
  let analog := d.listedPins.filter (fun n => n / 48 == b && d.f (F.PIN_CFG_FUNC n) == 15)
  analog.foldl (fun v n => putBit v (n % 48) false) (d.pinLevel.get (fun _ => 0) b)

/-- The levels of a GPIO lane (R318). -/
def DieSt.gpioIn (d : DieSt) (l : Nat) : Nat := d.bankIn (l / 3) / 2 ^ (16 * (l % 3)) % 2 ^ 16

end Sys2Proof.Machine
end

