-- ==== Sys2Proof/Machine/Links.lean ====
section
/-! DEFINITION. Sunislink ports, Ethernet, Match Time and the event collector: the commands (R272 to R305). -/

namespace Sys2Proof.Machine

/-! ### Lanes and ports (R273, R274, R279, R281) -/

/-- LANE_FAIL: the traffic of an active lane moves to the spare, while it works and is free; each switch raises SLK_SPARE
and is a lane retrain of the Career log. -/
def DieSt.laneFail (d : DieSt) (lane : Nat) : DieSt :=
  let p := lane / 5
  let i := lane % 5
  let failed := d.f (F.SLK_PORT_STAT_FAILED p)
  if !d.portLive p || d.portState p < 2 || bit failed i then d
  else
    let s := d.prt p
    let d := d.put (F.SLK_PORT_STAT_FAILED p) (putBit failed i true)
    let d :=
      if i < 4 && s.spare.isNone && !bit failed 4 then
        ((d.setPrt p { s with spare := some i }).slkEvt p 1 (i * 2 ^ 21)).car (368 + 2 * lane) 2 1
      else d
    d.portGo p (d.portTrained p)

/-- SIGNAL_DETECT: a DOWN port trains, from WARM-UP with the PLLs locked; failed lanes are tried again, but not those in the
quarantine map. -/
def DieSt.signalDetect (d : DieSt) (p : Nat) : DieSt :=
  if d.portLive p && d.portState p == slkDown && d.on (F.SLK_PORT_CTL_EN p) && d.pwr.pll then
    ((d.put (F.SLK_PORT_STAT_FAILED p) (d.lanesOut p)).setPrt p { d.prt p with spare := none }).portGo p slkTraining
  else d

/-- The device's own ID has been seen in a peer: the port stays in HOLD until the next start from COLD (R281). -/
def DieSt.dupId (d : DieSt) (p id : Nat) : DieSt :=
  let d := (d.setPrt p { d.prt p with dup := true }).slkEvt p 2 (id * 2 ^ 12)
  if 2 < d.portState p then d.portGo p slkHold else d

/-- The IDs that the peers of the trained ports have given are compared with this device's, once it is known (R281). -/
def DieSt.dupCheck (d : DieSt) : DieSt :=
  (List.range 4).foldl (fun d p =>
    if d.portLive p && decide (2 ≤ d.portState p) && d.on (F.SLK_PORT_STAT_PEER_VALID p) && d.on F.SLK_ID_VALID
        && d.f (F.SLK_PORT_STAT_PEER_ID p) == d.f F.SLK_ID_ID && !(d.prt p).dup then d.dupId p (d.f F.SLK_ID_ID)
    else d) d

/-- The prefix becomes known: the device ID follows from it and the straps (R279). -/
def DieSt.setPrefix (d : DieSt) (v : Nat) : DieSt :=
  (((d.put F.SLK_ID_PREFIX v).put F.SLK_ID_ID (v % 128 * 16 + d.f F.CFG_STAT_DEVID)).put F.SLK_ID_VALID 1).dupCheck

/-- What link control says of the peer of port `p` (R281, R285, R294, SLK_PORT_STAT). -/
def DieSt.peerShow (d : DieSt) (p : Nat) (id : Option Nat) (hold follows : Bool) : DieSt :=
  let d := (d.put (F.SLK_PORT_STAT_PEER_HOLD p) (b2n hold)).setPrt p { d.prt p with follows := follows }
  match id with
  | some v => (d.put (F.SLK_PORT_STAT_PEER_ID p) v).put (F.SLK_PORT_STAT_PEER_VALID p) 1
  | none => (d.put (F.SLK_PORT_STAT_PEER_ID p) 0).put (F.SLK_PORT_STAT_PEER_VALID p) 0

/-- A port that reaches HOLD after a lead has begun its streams gets each of them again from CHAN 0, on that port only (R369). -/
def DieSt.streamAgain (d : DieSt) (p : Nat) : DieSt :=
  if d.pwr.mode = 5 && d.dev = 2 && d.on (F.SLK_PORT_CTL_MCAST p) then d.load.sentMsgs.flatten.foldl (fun d m => d.portPush p m) d else d

/-- PORT_TRAINING_END: the two ends agree on the numbers of their messages, so that a receiver that has kept its count goes on with it
and one that has not takes what the sender still holds (R277; DESIGN CHOICE, log entry 189); lanes that training finds failed and lanes in the quarantine map count as failed; the spare takes the
place of the first active one (R273, R404).  In CFG_MODE 4 the prefix is that of the lowest-numbered port whose peer offers
one: an offer of a lower port that trains later in WARM-UP takes the place of a higher port's (R279; DEDUCED, log entry 162). -/
def DieSt.trainingEnd (d : DieSt) (p : Nat) (peer : SlkPeer) : DieSt :=
  let failed := Nat.lor (peer.failed % 32) (d.lanesOut p)
  if !d.portLive p || d.portState p != slkTraining then d
  else if !peer.ok || 2 < popcount 5 failed then d.portGo p slkDown
  else
    let d := (d.put (F.SLK_PORT_STAT_FAILED p) failed).peerShow p peer.id peer.hold peer.follows
    let spare := if bit failed 4 then none else (List.range 4).find? (fun i => bit failed i)
    let rx := (d.prt p).rxNum
    let d := d.setPrt p { d.prt p with
      spare := spare, rxNum := if decide (peer.first ≤ rx) && decide (rx ≤ peer.next) then rx else peer.first }
    let d := match peer.offer with
      | some v =>
        if d.f F.CFG_STAT_MODE == 4 && d.idn.die == 0 && (!d.on F.SLK_ID_VALID || d.dev == 1 && decide (p < d.f F.MT_CFG_UP_PORT)) then (d.setPrefix v).put F.MT_CFG_UP_PORT p else d
      | none => d
    let d := ((d.portGo p slkHold).dupCheck).streamAgain p
    d.portGo p (d.portTrained p)

/-- LINK_CONTROL_FAIL. -/
def DieSt.linkFail (d : DieSt) (p : Nat) : DieSt := if d.portLive p then d.portGo p slkDown else d

/-- At this device's LINE-UP its ports in HOLD go UP, or DEGRADED with three lanes (R274). -/
def DieSt.slkLineUp (d : DieSt) : DieSt :=
  (List.range 4).foldl (fun d p => if d.portLive p && d.portState p == slkHold then d.portGo p (d.portTrained p) else d) d

/-! ### Messages (R275 to R283) -/

/-- Is a CONFIG message the next of its stream, and the sequence table after it (R283, R369). -/
def DieSt.cfgNext (d : DieSt) (m : SlkMsg) : Option (List (Nat × Nat)) :=
  match d.cfgSeq.find? (fun e => e.1 == m.dest) with
  | some e => if e.2 = m.chan then some (d.cfgSeq.map (fun x => if x.1 = m.dest then (x.1, (m.chan + 1) % 65536) else x)) else none
  | none => if m.chan = 0 && d.cfgSeq.length < 16 then some (d.cfgSeq ++ [(m.dest, 1)]) else none

/-- A message that every check has passed goes on: delivered, forwarded, or dropped (R282, R283). -/
def DieSt.slkAccept (d : DieSt) (p : Nat) (m : SlkMsg) : DieSt :=
  if m.dest < 0x800 then
    if d.on F.SLK_ID_VALID && m.dest == d.f F.SLK_ID_ID then d.slkDeliver p m
    else if m.hops = 0 then d.slkDrop p 2
    else d.slkUnicast { m with hops := m.hops - 1 }
  else
    let mine := d.slkMember m.dest
    let d :=
      if m.hops = 0 then (if mine then d else d.slkDrop p 2) else d.slkCast { m with hops := m.hops - 1 } (some p)
    if mine then d.slkDeliver p m else d

/-- A unicast message refused in HOLD is answered by a HOLD indication to its origin; a group or broadcast message by nothing
(R275). -/
def DieSt.slkTold (d : DieSt) (p : Nat) (m : SlkMsg) : DieSt :=
  if m.dest < 0x800 then d.setPrt p { d.prt p with told := some m.src } else d

/-- The receiver asks for a replay from the number it expects (R277). -/
def DieSt.slkAsk (d : DieSt) (p : Nat) : DieSt := d.setPrt p { d.prt p with ask := some (d.prt p).rxNum }

/-- A CONFIG message for this device brings the next bytes of its stream; the first of a destination begins one (R369). -/
def DieSt.cfgTake (d : DieSt) (m : SlkMsg) : DieSt :=
  let n := if (d.cfgSeq.find? (fun e => e.1 == m.dest)).isSome then d.load.cfgBytes else 0
  let mine := d.pwr.mode == 4 && (d.slkMember m.dest && decide (m.dest < 0x880 ∨ m.dest = 0xFFF) || d.on F.SLK_ID_VALID && m.dest == d.f F.SLK_ID_ID)
  let d : DieSt := { d with cfgSeq := (d.cfgNext m).getD d.cfgSeq }
  if mine then { d with load := { d.load with cfgBytes := n + m.payload.length } } else d

/-- A message that the link has taken in its order.  The checks: KIND and LEN (R276), the sequence of a CONFIG message (R283), the
origin's ID (R281), HOLD (R275).  It crosses from its lanes to the link logic, which XING counts (Table 09-3). -/
def DieSt.slkTaken (d : DieSt) (p : Nat) (m : SlkMsg) : DieSt :=
  if 7 ≤ m.kind || 256 < m.len then d.slkDrop p 3
  else
    let d := (d.crcPacket 5 p m.payload).xPass ⟨7, 5 * p + 2, 0, false⟩ (ofBytes (m.payload.take 8))
    let early := d.dev < 3 || d.dev == 8
    if m.kind = 0 && early && (d.cfgNext m).isNone then d
    else if d.on F.SLK_ID_VALID && m.src == d.f F.SLK_ID_ID then (d.slkDrop p 6).dupId p m.src
    else if d.portState p = slkHold && 2 ≤ m.kind then (d.slkTold p m).slkDrop p 4
    else (if m.kind = 0 && early then d.cfgTake m else d).slkAccept p m

/-- SLK_MESSAGE_RECEIVE; `num` is the message's number on the link and `crc` the CRC it carries.  A message that fails its CRC, or
comes behind one that is missing, is discarded and a replay asked for; one already taken is discarded (R277). -/
def DieSt.slkReceive (d : DieSt) (p : Nat) (m : SlkMsg) (num crc : Nat) : DieSt :=
  if !d.portLive p || d.portState p < 2 then d
  else if crc ≠ slkCrc m then (d.bump (F.SLK_PORT_CNT_CRC p)).slkAsk p
  else if num < (d.prt p).rxNum then d
  else if (d.prt p).rxNum < num then d.slkAsk p
  else (d.setPrt p { d.prt p with rxNum := num + 1, ask := none }).slkTaken p m

/-- SLK_REPLAY: the messages not acknowledged go again in their order, with their numbers (R277). -/
def DieSt.slkReplay (d : DieSt) (p acked : Nat) : DieSt :=
  let s := d.prt p
  let l := s.unacked.drop acked
  if d.portLive p && 2 ≤ d.portState p then
    (d.setPrt p { s with
      unacked := l, lane := match l.getLast? with | some m => some m | none => s.lane
      lanes := ((List.range l.length).map (fun i => s.txNum - l.length + i)).zip l }).bump (F.SLK_PORT_CNT_REPLAYS p)
  else d

/-- The index of the message that goes next: a class that is due its share first, else the lowest class, and of one class
the oldest (R278). -/
def nextOut (l : List SlkMsg) (owed : Option Nat) : Option Nat :=
  let ix := fun (c : Nat) => l.findIdx? (fun m => m.cls == c)
  let low := [0, 1, 2, 3].findSome? ix
  match owed with
  | some c => if 1 ≤ c ∧ c ≤ 3 then (ix c).orElse (fun _ => low) else low
  | none => low

/-- The replay buffer holds 32 KiB of headers, payloads and CRCs (R276, R277). -/
def replayBytes (l : List SlkMsg) : Nat := l.foldl (fun n m => n + 8 * ((16 + m.payload.length + 4 + 7) / 8)) 0

/-- SLK_MESSAGE_TRANSMIT: a message of this device leaves with the MT of this moment (R276). -/
def DieSt.slkTransmit (d : DieSt) (p acked : Nat) (owed : Option Nat) : DieSt :=
  let s := { d.prt p with unacked := (d.prt p).unacked.drop acked }
  if !d.portLive p || d.portState p < 2 then d
  else
    match (nextOut s.out owed).bind (fun k => (s.out[k]?).map (fun m => (k, m))) with
    | none => d.setPrt p s
    | some (k, m) =>
      let m := if m.src = d.f F.SLK_ID_ID then { m with mt0 := d.mt.toNat } else m
      if 32768 < replayBytes (s.unacked ++ [m]) then d.setPrt p s
      else
        (d.setPrt p { s with
          out := s.out.eraseIdx k, unacked := s.unacked ++ [m], lane := some m, lanes := [(s.txNum, m)], txNum := s.txNum + 1
          }).crcPacket 6 p m.payload |>.xPass ⟨7, 5 * p + 3, 0, false⟩ (ofBytes (m.payload.take 8))

/-! ### Kickoff (R285) -/

/-- The port this device follows: none at a root or before it is known (R294, R295).  Die 1 of a T4096 follows die 0 and no
port of its own (R35). -/
def DieSt.mtPort (d : DieSt) : Option Nat :=
  if d.on F.MT_CFG_ROOT || d.idn.die = 1 then none
  else if d.on F.MT_STAT_ON_ALT then some (d.f F.MT_CFG_ALT_PORT)
  else if d.hdrOk || (d.f F.CFG_STAT_MODE == 4 && d.on F.SLK_ID_VALID) then some (d.f F.MT_CFG_UP_PORT)
  else none

/-- Every port of a die for which this device is the upstream device has reported READY. -/
def DieSt.portsReady (d : DieSt) : Bool := (List.range 4).all (fun p => !(d.prt p).follows || (d.prt p).ready)

/-- KICKOFF_N has risen, and the device is at LINE-UP in a kickoff system with its ID known; its own ports have reported READY. -/
def DieSt.kickReady (d : DieSt) : Bool :=
  d.dev == 3 && d.on F.CFG_KICK_RISEN && d.on F.CFG_KICK_KSYS && !d.mtm.readySent && d.on F.SLK_ID_VALID && d.portsReady

/-- KICKOFF_READY_SEND: a device sends READY by its upstream port; the kickoff root broadcasts the PLAY instant.  READY
has no payload, the instant is eight bytes, low first (DESIGN CHOICE, log entry 41). -/
def DieSt.kickSend (d : DieSt) : DieSt :=
  if !d.kickReady then d
  else if d.on F.SLK_CFG_KROOT then
    let t := d.mt.toNat + 1000 * d.f F.SLK_CFG_KLEAD
    let d := d.slkSend (slkMsg 0xFFF 1 0 0 (wordBytes 8 t))
    let d := d.setPlay t
    { d with mtm := { d.mtm with readySent := true } }
  else
    match d.mtPort with
    | some p =>
      let m := slkMsg (d.f (F.SLK_PORT_STAT_PEER_ID p)) 1 0 0 []
      if d.portLive p && 2 ≤ d.portState p then
        { d.portPush p { m with src := d.f F.SLK_ID_ID } with mtm := { d.mtm with readySent := true } }
      else d
    | none => d

/-- KICKOFF_READY_SEND: die 0 sends for the package, once every port of both dies has reported READY (R35, R285). -/
def State.kickSend (s : State) (x : Die) : State :=
  if x = .die1 || (!s.d1.idn.absent && !s.d1.portsReady) then s else onDie .die0 s (fun d => d.kickSend)

/-- The PLAY instant that a port of either die has brought holds for both dies of a package (R35, R285). -/
def State.kickPair (s : State) : State :=
  if !s.d0.idn.twin || s.d1.idn.absent then s
  else
    match s.d0.mtm.playAt, s.d1.mtm.playAt with
    | none, some t => { s with d0 := s.d0.setPlay t }
    | some t, _ => if s.d1.mtm.playAt = some t then s else { s with d1 := s.d1.setPlay t }
    | none, none => s

/-- The stream bytes that CONFIG messages bring to either die are the package's (R370). -/
def State.cfgPair (s : State) : State :=
  if !s.d0.idn.twin || s.d1.idn.absent then s
  else
    let n := max s.d0.load.cfgBytes s.d1.load.cfgBytes
    { s with d0 := { s.d0 with load := { s.d0.load with cfgBytes := n } }, d1 := { s.d1 with load := { s.d1.load with cfgBytes := n } } }

/-! ### Queue items (R287, R290) -/

/-- Read what is readable of the item at the front of queue `q`; the whole item once its end has come.  `us` are the bits of its
words that have flipped (R207). -/
def DieSt.takeItem (d : DieSt) (q : Nat) (us : List Nat) : DieSt × Option (List QOut) :=
  let r := d.qReadItem q ((d.que q).words.length + 1) us
  let l := d.linkIn.get (fun _ => []) q ++ r.2
  if (l.getLast?).any (fun o => bit o.tag 5) then
    ({ r.1 with linkIn := r.1.linkIn.set (fun _ => []) q [] }, some l)
  else ({ r.1 with linkIn := r.1.linkIn.set (fun _ => []) q l }, none)

/-- The first `n` payload bytes of the words after the descriptor; `none` if there are too few words. -/
def itemBytes (l : List QOut) (n : Nat) : Option (List Nat) :=
  let w := l.drop 1
  if w.length < (n + 7) / 8 then none else some ((w.flatMap (fun o => wordBytes 8 o.data.toNat)).take n)

/-- SLK_QUEUE_ITEM_SEND. -/
def DieSt.slkItem (d : DieSt) (q : Nat) (us : List Nat) : DieSt :=
  match (if d.hubOn && decide (q < 64) then d.qReader q else none) with
  | some (.slkPort p) =>
    if !d.portUp p then d
    else
      match d.takeItem q us with
      | (d, some (w :: r)) =>
        let v := w.data.toNat
        let len := bits v 24 16
        let reserved := v / 2 ^ 25 ≠ 0 || bits v 15 14 ≠ 0
        let c0 := d.slkAdm.get (fun _ => 0) q ≠ 0 && d.on (F.Q_CFG_PINNED q)
        let cls := if bits v 13 12 = 0 && !c0 then 1 else bits v 13 12
        match itemBytes (w :: r) len with
        | some b =>
          if reserved || len = 0 || 256 < len then d.slkDrop p 5 else d.slkSend (slkMsg (bits v 11 0) 3 cls q b)
        | none => d.slkDrop p 5
      | (d, _) => d
  | _ => d

/-! ### Token channels (R288, R303) -/

/-- SLK_CHAN_STALL. -/
def DieSt.chanStall (d : DieSt) (c : Nat) : DieSt :=
  let z := d.chanZero.get (fun _ => 0) c
  if decide (c < 256) && d.f (F.SLK_CHAN_CFG_CREDITS c) == 0 && z != 0 && decide (z + 1000000 ≤ d.now + 1)
      && !d.on (F.SLK_CHAN_CFG_STALL c) then
    let r := d.route (d.f (F.SLK_CHAN_CFG_DEST c))
    (d.put (F.SLK_CHAN_CFG_STALL c) 1).slkEvt (if r.1 < d.idn.slk then r.1 else 0) 4 c
  else d

/-- SLK_CHAN_RST. -/
def DieSt.chanRst (d : DieSt) (c : Nat) : DieSt :=
  { (d.put (F.SLK_CHAN_CFG_CREDITS c) 8).put (F.SLK_CHAN_CFG_STALL c) 0 with chanZero := d.chanZero.set (fun _ => 0) c 0 }

/-! ### Ethernet (R289 to R291) -/

/-- ETH_CFG as the port uses it since the PLAY instant. -/
def DieSt.ethC (d : DieSt) (e : Nat) : Nat := (d.ethCfg.get (fun _ => 0) e).toNat

/-- Is Ethernet port `e` in use: bonded, powered, not held idle, and its lane not in the quarantine map (R404). -/
def DieSt.ethLive (d : DieSt) (e : Nat) : Bool :=
  decide (e < d.idn.eth) && d.hubOn && d.quadOn 5 && bit (d.ethC e) 31 && !d.on (F.ETH_STAT_IDLE e) && !d.quarHas 3 (20 + e)

/-- An MT with a signed adjustment in ps added, in whole ns. -/
def adjusted (mt : Word64) (adj : Nat) : Word64 := BitVec.ofInt 64 (((mt.toNat : Int) * 1000 + sgn 16 adj) / 1000)

/-- ETH_FRAME_RECEIVE: the counts of R290, then the classifier. -/
def DieSt.ethReceive (d : DieSt) (e : Nat) (fr : List Nat) (fcsOk : Bool) : DieSt :=
  if !d.ethLive e then d
  else
    let d := (d.crcPacket 3 e fr).xPass ⟨7, 20 + e, 0, false⟩ (ofBytes (fr.take 8))
    if !fcsOk || fr.length < 64 || d.ethC e % 2 ^ 14 < fr.length then d.bump ⟨R.ETH_ERR_CNT e, 31, 16⟩
    else if nth 0 fr 12 = 0x88 && nth 0 fr 13 = 0x08 then d.bump ⟨R.ETH_ERR_CNT e, 15, 8⟩
    else (d.wrapBy (F.ETH_RX_CNT_FRAMES e) 1).intake e (adjusted d.mt (d.f (F.ETH_TS_ADJ_RX e))) fr

/-- A frame as it leaves: padded to 60 bytes, with its FCS. -/
def ethFrame (b : List Nat) : List Nat :=
  let b := b ++ List.replicate (60 - b.length) 0
  b ++ wordBytes 4 (crc32 b)

/-- The transmit timestamp registers show the oldest entry (R304). -/
def DieSt.txtsShow (d : DieSt) (e : Nat) : DieSt :=
  let l := d.txts.get (fun _ => []) e
  let d := (d.put (F.ETH_TXTS_STAT_LEVEL e) l.length).put (F.ETH_TXTS_STAT_VALID e) (if l.isEmpty then 0 else 1)
  match l with
  | [] => (d.wr (R.ETH_TXTS_TAG e) 0).wr64 (R.ETH_TXTS_LO e) (R.ETH_TXTS_HI e) 0
  | t :: _ => (d.wr (R.ETH_TXTS_TAG e) (BitVec.ofNat 32 t.1)).wr64 (R.ETH_TXTS_LO e) (R.ETH_TXTS_HI e) t.2.toNat

/-- A transmit timestamp enters the FIFO of 16, or is discarded. -/
def DieSt.txtsPush (d : DieSt) (e tag : Nat) : DieSt :=
  let l := d.txts.get (fun _ => []) e
  if 16 ≤ l.length then
    (d.put (F.ETH_TXTS_STAT_OVF e) 1).raiseIf (d.on (F.ETH_EVT_EN_OVF e)) (0x5E0 + 20 + e) 0x0B12 0
  else
    { d with txts := d.txts.set (fun _ => []) e (l ++ [(tag, adjusted d.mt (d.f (F.ETH_TS_ADJ_TX e)))]) }.txtsShow e

/-- ETH_FRAME_TRANSMIT: in RECOVERY no queue with an Ethernet read side is read (R344). -/
def DieSt.ethTransmit (d : DieSt) (q : Nat) (us : List Nat) : DieSt :=
  match (if d.hubOn && decide (q < 64) then d.qReader q else none) with
  | some (.ethernet e) =>
    if !d.ethLive e || d.dev == 6 then d
    else
      match d.takeItem q us with
      | (d, some (w :: r)) =>
        let v := w.data.toNat
        let len := bits v 13 0
        let reserved := v / 2 ^ 32 ≠ 0 || bits v 23 17 ≠ 0 || bits v 15 14 ≠ 0
        match itemBytes (w :: r) len with
        | some b =>
          if reserved || d.ethC e % 2 ^ 14 < len + 4 then d.bump ⟨R.ETH_ERR_CNT e, 7, 0⟩
          else
            let f := ethFrame b
            let d : DieSt := { d.wrapBy (F.ETH_TX_CNT_FRAMES e) 1 with ethOut := d.ethOut.set (fun _ => []) e f }
            let d := (d.crcPacket 4 e f).xPass ⟨7, 20 + e, 1, false⟩ (ofBytes (f.take 8))
            if bit v 16 then d.txtsPush e (bits v 31 24) else d
        | none => d.bump ⟨R.ETH_ERR_CNT e, 7, 0⟩
      | (d, _) => d
  | _ => d

/-- A read of ETH_TXTS_HI: the high word (R8), and the oldest entry goes. -/
def DieSt.txtsPop (d : DieSt) (m : Master) (e : Nat) : DieSt :=
  let a := R.ETH_TXTS_HI e
  match d.readCheck m a 4 with
  | .err => d.answer m 0 true
  | .void => d.answer m 0 false
  | .ok =>
    let r := d.takeHigh m (R.ETH_TXTS_LO e) (d.rd a)
    let d := r.1
    { d with txts := d.txts.upd (fun _ => []) e (fun l => l.drop 1) }.txtsShow e |>.answer m r.2 false

/-- ETH_LINK_CHANGE. -/
def DieSt.ethLink (d : DieSt) (e : Nat) (up : Bool) : DieSt :=
  if d.ethLive e && d.on (F.ETH_STAT_LINK e) != up then
    (d.put (F.ETH_STAT_LINK e) (b2n up)).raiseIf (d.on (F.ETH_EVT_EN_LINK e)) (0x5E0 + 20 + e) 0x0B11 (b2n up * 2 ^ 23)
  else d

/-! ### Match Time (R292 to R297) -/

/-- Raise MT_LOCK. -/
def DieSt.mtLockEvt (d : DieSt) : DieSt :=
  d.raiseIf (d.on F.MT_EVT_EN_LOCK) 0x70A 0x0B21
    (d.f F.MT_STAT_LOCKED * 2 ^ 23 + d.f F.MT_STAT_HOLDOVER * 2 ^ 22 + (d.mtPort.getD 0) * 2 ^ 20)

/-- One nanosecond of MT: 1 plus the carry of the rate correction out of the 32-bit fraction (R292). -/
def DieSt.mtNs (d : DieSt) : DieSt :=
  let t : Int := (d.mtm.frac : Int) + sgn 21 (d.f F.MT_RATE_NOW_RATE) + 2 ^ 32
  { d with mt := d.mt + BitVec.ofNat 64 (t / 2 ^ 32).toNat, mtm := { d.mtm with frac := (t % 2 ^ 32).toNat } }

/-- The applied rate of a root moves toward MT_RATE by one unit of 2^-32 each 23,284 ns, which is at most 1 ppm per 100 ms
(R296). -/
def DieSt.mtSlew (d : DieSt) : DieSt :=
  let now := sgn 21 (d.f F.MT_RATE_NOW_RATE)
  let want := sgn 21 (d.f F.MT_RATE_TARGET)
  if !d.on F.MT_CFG_ROOT || d.now % 23284 ≠ 0 || now = want then d
  else d.put F.MT_RATE_NOW_RATE (uns 21 (if now < want then now + 1 else now - 1))

/-- One nanosecond of a die's time. -/
def DieSt.tick (d : DieSt) : DieSt :=
  let d := { d with now := d.now + 1 }.monTick
  if d.mtm.on then d.mtSlew.mtNs else d

/-- An offset as MT_STAT.OFFSET shows it: saturated to 24 bits. -/
def offSat (i : Int) : Nat := uns 24 (max (-8388608) (min 8388607 i))

/-- MT + MT_EPOCH in multiples of PERIOD. -/
def DieSt.ppsCount (d : DieSt) : Nat :=
  (d.mt + BitVec.ofNat 64 (d.rd64 R.MT_EPOCH_LO R.MT_EPOCH_HI)).toNat / (1000000 * max 1 (d.f F.MT_PPS_CFG_PERIOD))

/-- A write that changes the pulse output's period or epoch: the multiples reached so far are past (R297). -/
def DieSt.ppsFrom (d : DieSt) : DieSt := { d with mtm := { d.mtm with pps := d.ppsCount } }

/-- The root's epoch reaches a follower; the multiples its pulse output has reached so far are past (R296, R297). -/
def DieSt.epochCarried (d : DieSt) (v : Word64) : DieSt :=
  if d.rd64 R.MT_EPOCH_LO R.MT_EPOCH_HI = v.toNat then d else (d.wr64 R.MT_EPOCH_LO R.MT_EPOCH_HI v.toNat).ppsFrom

/-- A follower's exchange: before the first PLAY instant since COLD an offset above 1 µs sets MT outright; else the rate is steered, to a value the spec
does not give within ±200 ppm (a free value); 16 successive offsets below 1 ns lock (R292, R294). -/
def DieSt.mtFollow (d : DieSt) (off : Int) : DieSt :=
  let small := decide (off.natAbs < 1000)
  let good := if small then min 16 (d.mtm.good + 1) else 0
  let d := { d.put F.MT_STAT_OFFSET (offSat off) with mtm := { d.mtm with good := good, miss := 0 } }
  let d :=
    if d.dev < 4 && !d.mtm.played && decide (1000000 < off.natAbs) then { d with mt := d.mt - BitVec.ofInt 64 (off / 1000) }
    else
      let r := d.freeBelow 1717987
      r.2.put F.MT_RATE_NOW_RATE (uns 21 ((r.1 : Int) - 858993))
  if good = 16 && !d.on F.MT_STAT_LOCKED then ((d.put F.MT_STAT_LOCKED 1).put F.MT_STAT_HOLDOVER 0).mtLockEvt else d

/-- Half of ASYM, the board path's transmit delay less its receive delay, in ps: a message to this device takes that much less than
half the round trip, and one from it that much more (R294; DEDUCED, log entry 190). -/
def DieSt.halfAsym (d : DieSt) (p : Nat) : Int := sgn 16 (d.f (F.SLK_PORT_CTL_ASYM p)) / 2

/-- The one-way delay toward this device in 1/16 ns, as SLK_PORT_DLY shows it. -/
def DieSt.oneWay (d : DieSt) (p delay : Nat) : Nat := (max 0 (min 65535 ((delay : Int) - d.halfAsym p * 16 / 1000))).toNat

/-- MT_TIMING_EXCHANGE.  The followed port brings the root's epoch too (R296), and every exchange what the peer is (R285, R303).  An
exchange with a port that is not trained is missed (R295). -/
def DieSt.mtExchange (d : DieSt) (p : Nat) (ok : Bool) (delay : Nat) (off : Int) (epoch : Word64) (peer : PeerNow) : DieSt :=
  if !d.mtm.on || d.idn.slk ≤ p then d
  else if !ok || !d.portLive p || d.portState p < 2 then
    if d.mtPort = some p then { d with mtm := { d.mtm with miss := d.mtm.miss + 1, good := 0 } } else d
  else
    let d := ((d.put (F.SLK_PORT_DLY_DELAY p) (d.oneWay p delay)).peerShow p peer.id peer.hold peer.follows).dupCheck
    if d.mtPort = some p then (d.epochCarried epoch).mtFollow (off + d.halfAsym p) else d

/-- MT_HOLDOVER: the upstream port has left UP and DEGRADED, or eight exchanges are missed. -/
def DieSt.mtHoldover (d : DieSt) : DieSt :=
  match d.mtPort with
  | some p =>
    if !d.on F.MT_STAT_HOLDOVER && d.mtm.on && (!d.portUp p && decide (3 ≤ d.dev) || decide (8 ≤ d.mtm.miss)) then
      let d := ((d.put F.MT_STAT_LOCKED 0).put F.MT_STAT_HOLDOVER 1).mtLockEvt
      { d with mtm := { d.mtm with good := 0, holdAt := d.now } }
    else d
  | none => d

/-- MT_ALT_SWITCH. -/
def DieSt.mtAlt (d : DieSt) (peerLocked : Bool) : DieSt :=
  if d.on F.MT_STAT_HOLDOVER && d.on F.MT_CFG_ALT_EN && peerLocked && !d.on F.MT_STAT_ON_ALT
      && decide (d.mtm.holdAt + 1000000 ≤ d.now) then
    { d.put F.MT_STAT_ON_ALT 1 with mtm := { d.mtm with miss := 0, good := 0 } }
  else d

/-- The Match Time of die 1 is that of die 0, with the rate that carries it on and the epoch (R35, R296; DESIGN CHOICE, log entry 149: the spec allows
it to be up to 1 ns apart). -/
def State.mtPair (s : State) : State :=
  if s.d0.idn.twin && s.d0.mtm.on && s.d1.mtm.on then
    let e := (s.d1.put F.MT_RATE_NOW_RATE (s.d0.f F.MT_RATE_NOW_RATE)).epochCarried
      (BitVec.ofNat 64 (s.d0.rd64 R.MT_EPOCH_LO R.MT_EPOCH_HI))
    { s with d1 := { e with mt := s.d0.mt, mtm := { e.mtm with frac := s.d0.mtm.frac } } }
  else s

/-- A T4096 has one device ID: what die 0 has learnt in training, die 1 has too (R35, R279). -/
def State.idPair (s : State) : State :=
  if s.d0.idn.twin && !s.d1.idn.absent && s.d0.on F.SLK_ID_VALID && s.d0.f F.CFG_STAT_MODE == 4 then
    { s with d1 := (((s.d1.put F.SLK_ID_PREFIX (s.d0.f F.SLK_ID_PREFIX)).put F.SLK_ID_ID (s.d0.f F.SLK_ID_ID)).put F.SLK_ID_VALID 1).dupCheck }
  else s

/-- What acts on one die, and the two dies' Match Time after it. -/
def actMt (x : Die) (s : State) (g : DieSt → DieSt) : Out := .next (onDie x s g).mtPair

/-- A write of MT_RATE (R305); die 1 of a T4096 is no root (R35). -/
def DieSt.mtRate (d : DieSt) (v : Word) : DieSt × Bool :=
  if !d.on F.MT_CFG_ROOT || d.idn.die == 1 || decide (858993 < (sgn 21 v.toNat).natAbs) then (d, true)
  else (d.put F.MT_RATE_TARGET v.toNat, false)

/-- MT_PULSE_OUT: the pulse is high for half the period or 1 ms, whichever is shorter (R297). -/
def DieSt.mtPulseOut (d : DieSt) : DieSt :=
  if d.on F.MT_PPS_CFG_OUT_EN && d.mtm.on && decide (d.mtm.pps < d.ppsCount) then
    { d with mtm := { d.mtm with
        pps := d.ppsCount
        ppsEnd := d.mt.toNat + min 1000000 (500000 * max 1 (d.f F.MT_PPS_CFG_PERIOD)) } }
  else d

/-- The level of the pulse output. -/
def DieSt.ppsLevel (d : DieSt) : Bool := d.on F.MT_PPS_CFG_OUT_EN && decide (d.mt.toNat < d.mtm.ppsEnd)

/-- MT_PULSE_CAPTURE, at the one pin that carries the MT pulse input (R297, R316). -/
def DieSt.mtCapture (d : DieSt) (n : Nat) : DieSt :=
  if !d.on F.MT_PPS_CFG_IN_EN || d.carriers 23 != [n] || !d.mtm.on then d
  else if d.on F.MT_CAP_STAT_VALID then d.put F.MT_CAP_STAT_MISSED 1
  else (d.wr64 R.MT_CAP_LO R.MT_CAP_HI d.mt.toNat).put F.MT_CAP_STAT_VALID 1

/-! ### The event collector (R300) -/

/-- Is the event queue in effect. -/
def DieSt.evQueue (d : DieSt) : Bool := d.on F.SYS_EVT_CFG_EN && d.qWriter (d.f F.SYS_EVT_CFG_Q) == some .collector

/-- Forward each record raised here that has not gone yet. -/
def DieSt.evForward (d : DieSt) : DieSt :=
  if !d.on F.SYS_EVT_CFG_FWD_EN then d
  else
    let d := (d.coll.filter (fun r => !r.remote && !r.sent)).foldl (fun d r =>
      d.slkSend (slkMsg (d.f F.SYS_EVT_CFG_FWD_DEST) 6 3 0 r.bytes)) d
    let l := d.coll.map (fun r => if r.remote then r else { r with sent := true })
    { d with coll := if d.evQueue then l else l.filter (fun r => r.remote) }

/-- EVENT_RECORD_COLLECT: the oldest record of the source `src` (R300). -/
def DieSt.evCollect (d : DieSt) (src : Nat) : DieSt :=
  match d.raised.findIdx? (fun r => r.src == src) with
  | none => d
  | some k =>
    match d.raised[k]? with
    | none => d
    | some r => (({ d with raised := d.raised.eraseIdx k } : DieSt).collect r).evForward

/-- EVENT_RECORD_APPEND: the oldest record goes to the event queue once the queue has room for both words. -/
def DieSt.evAppend (d : DieSt) : DieSt :=
  let d := d.evForward
  let q := d.f F.SYS_EVT_CFG_Q
  match d.coll with
  | [] => d
  | r :: l =>
    if d.evQueue && d.hubOn && d.qRoom q 2 then
      let u := if r.remote then 3 else 2
      ({ d with coll := l } : DieSt).qAppend q [(r.mt.toNat, u), (r.low, u + 32)]
    else d

/-! ### The commands -/

/-- LANE_FAIL (R273). -/
def execLaneFail (x : Die) (lane : Nat) (s : State) : Out := act x s (fun d => d.laneFail lane)

/-- SIGNAL_DETECT (R274). -/
def execSignalDetect (x : Die) (p : Nat) (s : State) : Out := act x s (fun d => d.signalDetect p)

/-- PORT_TRAINING_END (R274). -/
def execPortTrainingEnd (x : Die) (p : Nat) (peer : SlkPeer) (s : State) : Out :=
  .next (onDie x s (fun d => d.trainingEnd p peer)).idPair

/-- LINK_CONTROL_FAIL (R274). -/
def execLinkControlFail (x : Die) (p : Nat) (s : State) : Out := act x s (fun d => d.linkFail p)

/-- SLK_MESSAGE_RECEIVE (R282). -/
def execSlkMessageReceive (x : Die) (p : Nat) (msg : SlkMsg) (num crc : Nat) (s : State) : Out :=
  .next (onDie x s (fun d => d.slkReceive p msg num crc)).kickPair.cfgPair

/-- SLK_REPLAY (R277). -/
def execSlkReplay (x : Die) (p acked : Nat) (s : State) : Out := act x s (fun d => d.slkReplay p acked)

/-- SLK_MESSAGE_TRANSMIT (R278). -/
def execSlkMessageTransmit (x : Die) (p acked : Nat) (owed : Option Nat) (s : State) : Out :=
  act x s (fun d => d.slkTransmit p acked owed)

/-- KICKOFF_READY_SEND (R285). -/
def execKickoffReadySend (x : Die) (s : State) : Out := .next (s.kickSend x).kickPair

/-- KICKOFF_MESSAGE (R285). -/
def execKickoffMessage (x : Die) (p : Nat) (msg : KickMsg) (s : State) : Out := .next (onDie x s (fun d => d.kickMsg p msg)).kickPair

/-- SLK_QUEUE_ITEM_SEND (R287). -/
def execSlkQueueItemSend (x : Die) (q : Nat) (us : List Nat) (s : State) : Out := act x s (fun d => d.slkItem q us)

/-- TOKEN_CHANNEL_SEND (R288). -/
def execTokenChannelSend (x : Die) (c : Nat) (data : Word64) (tag : Nat) (s : State) : Out :=
  act x s (fun d => d.tokenSend c data.toNat tag)

/-- SLK_CHAN_STALL (R288). -/
def execSlkChanStall (x : Die) (c : Nat) (s : State) : Out := act x s (fun d => d.chanStall c)

/-- SLK_CHAN_RST (R303). -/
def execSlkChanRst (x : Die) (m : Master) (c : Nat) (s : State) : Out :=
  act x s (fun d => d.busAct m R.SLK_CHAN_RST (fun d => d.chanRst (c % 256)))

/-- ETH_FRAME_RECEIVE (R290). -/
def execEthFrameReceive (x : Die) (e : Nat) (frame : List Nat) (fcsOk : Bool) (s : State) : Out :=
  act x s (fun d => d.ethReceive e frame fcsOk)

/-- ETH_FRAME_TRANSMIT (R290). -/
def execEthFrameTransmit (x : Die) (q : Nat) (us : List Nat) (s : State) : Out := act x s (fun d => d.ethTransmit q us)

/-- ETH_TXTS_POP (R304). -/
def execEthTxtsPop (x : Die) (m : Master) (e : Nat) (s : State) : Out := act x s (fun d => d.txtsPop m (e % 4))

/-- ETH_LINK_CHANGE (R302). -/
def execEthLinkChange (x : Die) (e : Nat) (up : Bool) (s : State) : Out := act x s (fun d => d.ethLink e up)

/-- MT_TIMING_EXCHANGE (R294). -/
def execMtTimingExchange (x : Die) (p : Nat) (ok : Bool) (delay : Nat) (offset : Int) (epoch : Word64) (peer : PeerNow)
    (s : State) : Out :=
  actMt x s (fun d => d.mtExchange p ok delay offset epoch peer)

/-- MT_HOLDOVER (R295). -/
def execMtHoldover (x : Die) (s : State) : Out := act x s (fun d => d.mtHoldover)

/-- MT_ALT_SWITCH (R295). -/
def execMtAltSwitch (x : Die) (peerLocked : Bool) (s : State) : Out := act x s (fun d => d.mtAlt peerLocked)

/-- MT_RATE_WRITE (R296, R305). -/
def execMtRateWrite (x : Die) (m : Master) (v : Word) (s : State) : Out :=
  act x s (fun d => d.busDo m R.MT_RATE (fun d => d.mtRate v))

/-- MT_PULSE_OUT (R297). -/
def execMtPulseOut (x : Die) (s : State) : Out := act x s (fun d => d.mtPulseOut)

/-- MT_PULSE_CAPTURE (R297). -/
def execMtPulseCapture (x : Die) (n : Nat) (s : State) : Out := act x s (fun d => d.mtCapture n)

/-- EVENT_RECORD_COLLECT (R300). -/
def execEventRecordCollect (x : Die) (src : Nat) (s : State) : Out := act x s (fun d => d.evCollect src)

/-- EVENT_RECORD_APPEND (R300). -/
def execEventRecordAppend (x : Die) (s : State) : Out := act x s (fun d => d.evAppend)

end Sys2Proof.Machine
end

