-- ==== Sys2Proof/Machine/Pins.lean ====
section
/-! DEFINITION. Pins: switching, pad-latch holds, GPIO, pattern matchers, debounce filters and bank PLLs (R306 to R328). -/

namespace Sys2Proof.Machine

/-! ### What a pin drives -/

/-- Is the PIN action of Umpire rule `r` active: latched with LATCH 1, else as the output (Table 18-2). -/
def DieSt.ruleActive (d : DieSt) (r : Nat) : Bool :=
  if d.on (F.UMP_RULE_W1_LATCH r) then (d.ump.rule.get (fun _ => RuleSt.reset) r).latched
  else bit (d.rd64 R.UMP_OUT_LO R.UMP_OUT_HI) r

/-- What the Umpire puts on a function-2 pin: the level of the rule whose OPIN it is; without one it is an input (R460). -/
def DieSt.rulePin (d : DieSt) (n : Nat) : Bool × Bool :=
  match (List.range 64).find? (fun r =>
    d.on (F.UMP_RULE_W0_EN r) && d.on (F.UMP_RULE_W1_PIN r) && d.f (F.UMP_RULE_W1_OPIN r) == n % 48) with
  | some r => (d.on (F.UMP_RULE_W1_OLVL r) == d.ruleActive r, true)
  | none => (false, false)

/-- The level and drive enable of pin `n`'s function, where the device's own state gives them (R308, R317, R320, R445, R462).  An
input signal of Table 12-1 never drives its pin. -/
def DieSt.pinOwn (d : DieSt) (n : Nat) : Option (Bool × Bool) :=
  let v := d.rd (R.PIN_CFG n)
  let g := cfgSig v
  if bit v.toNat 21 then some (false, false)
  else
    match cfgFunc v with
    | 1 => some (bit (d.f (F.GPIO_OUT_DATA (n / 16))) (n % 16), bit (d.f (F.GPIO_OE_DATA (n / 16))) (n % 16))
    | 2 => some (d.rulePin n)
    | 3 => some ((d.met.pulse.get (fun _ => PulseSt.reset) g).phase == 1, true)
    | 4 => if g % 2 = 1 then some (false, false) else none
    | 5 => if g % 8 = 2 then some (false, false) else none
    | 7 => if g % 2 = 1 then some (false, false) else none
    | 8 => if g % 2 = 0 then some (d.ppsLevel, true) else some (false, false)
    | 9 => some (xor (d.on (F.PIN_PM_STAT_HIT (g % 128 / 4) (g % 4))) (bit g 7), true)
    | 15 => some (false, false)
    | _ => none

/-- A pin whose function takes its level `a` and drive enable `b` from outside the model: a fabric cell gives both, an output of a
UART or SPI host drives its level (DEDUCED, log entry 186), and an I²C signal or ALERT_N drives low only (R308). -/
def DieSt.pinFree (d : DieSt) (n : Nat) (a b : Bool) : Bool × Bool :=
  match cfgFunc (d.rd (R.PIN_CFG n)) with
  | 4 => (a, true)
  | 5 => (a, true)
  | 6 => (false, b)
  | 7 => (a, true)
  | _ => (a, b)

/-- As `pinOwn`; the level and drive enable of a fabric cell or a serial peripheral at an instant are free values. -/
def DieSt.pinDrive (d : DieSt) (n : Nat) : (Bool × Bool) × DieSt :=
  match d.pinOwn n with
  | some v => (v, d)
  | none =>
    let a := d.choose
    let b := a.2.choose
    (d.pinFree n a.1 b.1, b.2)

/-- EXTEST drives the pins: in WARM-UP and in factory test only (R477). -/
def DieSt.extest (d : DieSt) : Bool := d.jtag.ir == 0 && (d.dev == 1 || d.dev == 8)

/-- The pins of PSP that the device drives in CFG_MODE 3 before LINE-UP: data in a status read, and WAIT_N (R312, R367). -/
def DieSt.pspPin (d : DieSt) (n : Nat) : Bool :=
  d.pwr.mode == 3 && (d.dev == 1 || d.dev == 2) && (decide (n < 16) || n == 24)

/-- What pin `n` puts on its pad: nothing while its bank has no VCCIO, the boundary register under EXTEST, nothing before PLAY but on
PSP, the latch while one holds, else its function (R312, R314, R325, R329, R477).  `none` where the level or the enable comes from
outside the model. -/
def DieSt.pad (d : DieSt) (n : Nat) : Option (Bool × Bool) :=
  if !d.on (F.PIN_BANK_STAT_VCCIO_OK (n / 48)) then some (false, false)
  else if d.extest then some (d.jtag.preload.get (fun _ => false) n, d.jtag.preload.get (fun _ => false) (4096 + n))
  else if !d.pinsLive && (d.pinS n).latch.isNone then (if d.pspPin n then none else some (false, false))
  else match (d.pinS n).latch with
    | some l => some l
    | none => d.pinOwn n

/-! ### Conflicts of input signals (R316) -/

/-- Set or clear the live bit of signal `g` by the pins that carry it; a new conflict is latched and raised with the pin
whose guard ended last. -/
def DieSt.conflict (d : DieSt) (n g : Nat) : DieSt :=
  let many := decide (2 ≤ (d.carriers g).length)
  let was := bit (d.f F.PIN_CONFLICT_LIVE_SIG) g
  let d := d.put F.PIN_CONFLICT_LIVE_SIG (putBit (d.f F.PIN_CONFLICT_LIVE_SIG) g many)
  if many && !was then
    (d.put F.PIN_CONFLICT_SIG (putBit (d.f F.PIN_CONFLICT_SIG) g true)).raiseIf (bit (d.f F.PIN_EVT_EN_EN) 2)
      (0x600 + 4 * (n / 48)) 0x0C03 (g * 2 ^ 19 + n)
  else d

/-- The signal of a PIN_CFG word is looked at again. -/
def DieSt.conflictOf (d : DieSt) (n : Nat) (v : Word) : DieSt :=
  match inSignal v with
  | some g => d.conflict n g
  | none => d

/-! ### Settings -/

/-- Does the seal forbid a change from PIN_CFG word `old` to `new` (R310). -/
def DieSt.pinSealed (d : DieSt) (old new : Word) : Bool := d.on F.MET_STAT_SEALED && (cfgOwner old == 3 || cfgOwner new == 3)

/-- PIN_ELEC as it reads back: a DRIVE of 5 to 7 reads 4. -/
def elecNorm (v : Word) : Word :=
  let v := v &&& 0x0F9FE000
  if 4 < bits v.toNat 15 13 then (v &&& 0x0F9F0000) ||| 0x8000 else v

/-- The PIN_CFG word a write leaves, without SWITCHING and HELD: FUNC 10 to 14 read back 0 with DIS set (R309). -/
def cfgNorm (v : Word) : Word :=
  if 10 ≤ cfgFunc v ∧ cfgFunc v ≤ 14 then (v &&& 0xC0000000) ||| 0x00200000 else v &&& 0xCF00FF00

/-- The Referee call that asked for a setting returns OK once the setting is in effect, or stored before PLAY (R314, R315). -/
def DieSt.pinCalled (d : DieSt) (w : Option Caller) : DieSt :=
  match w with
  | some c => d.callEnd c csOk []
  | none => d

/-- An allowed write takes effect: stored before PLAY (R312), else with a guard where FUNC, SIG or OWNER changes (R314).  `w` is
the Referee call that made it. -/
def DieSt.pinApply (d : DieSt) (n : Nat) (v : Word) (elec : Option Word) (w : Option Caller) : DieSt :=
  let old := d.rd (R.PIN_CFG n)
  let new := cfgNorm v
  let s := d.pinS n
  let setElec := fun (d : DieSt) => match elec with
    | some e => d.wr (R.PIN_ELEC n) (elecNorm e)
    | none => d
  if !d.pinsLive then
    ((setElec ((d.wr (R.PIN_CFG n) (new ||| (old &&& 0x00400000))).setPin n { s with stored := true })).conflictOf n old).pinCalled w
  else if old &&& 0xCF20FF00 = new then (setElec d).pinCalled w
  else
    let p := d.pinDrive n
    let d := p.2.setPin n { s with latch := s.latch.orElse (fun _ => some p.1), elecNext := elec, caller := w }
    (d.wr (R.PIN_CFG n) (new ||| (old &&& 0x00400000) ||| 0x00800000)).conflictOf n old

/-- A write of PIN_CFG, with the PIN_ELEC value written with it if any; the second value says that it is refused.  A write
to a switching pin is held on the bus (R314).  No write makes or changes a pin of owner 2 (R310), and none changes an owner
while the Referee restarts (R38; log entry 192). -/
def DieSt.pinWrite (d : DieSt) (n : Nat) (v : Word) (elec : Option Word) (w : Option Caller) : DieSt × Bool :=
  let old := d.rd (R.PIN_CFG n)
  if !d.pinRule n v || d.pinSealed old v || cfgOwner v == 2 || cfgOwner old == 2 || (d.restarting && cfgOwner v != cfgOwner old) then (d, true)
  else if d.on (F.PIN_CFG_SWITCHING n) then
    let s := d.pinS n
    (d.setPin n { s with waiting := s.waiting ++ [(v, elec, w)] }, false)
  else (d.pinApply n v elec w, false)

/-- The writes held on the bus take effect in their order, up to the first that starts a guard of its own (R314). -/
def DieSt.pinNext (d : DieSt) (n : Nat) : List (Word × Option Word × Option Caller) → DieSt
  | [] => d
  | (v, e, w) :: r =>
    let d := (d.setPin n { d.pinS n with waiting := r }).pinApply n v e w
    if d.on (F.PIN_CFG_SWITCHING n) then d else d.pinNext n r

/-- The guard of pin `n` ends, or the 64 ns after its last hold (R314, R325). -/
def DieSt.guardEnd (d : DieSt) (n : Nat) : DieSt :=
  let s := d.pinS n
  if d.on (F.PIN_CFG_SWITCHING n) then
    let d := d.put (F.PIN_CFG_SWITCHING n) 0
    let d := match s.elecNext with
      | some e => d.wr (R.PIN_ELEC n) (elecNorm e)
      | none => d
    let d := d.setPin n { s with elecNext := none, caller := none, latch := if s.holds = 0 then none else s.latch }
    ((d.conflictOf n (d.rd (R.PIN_CFG n))).pinCalled s.caller).pinNext n s.waiting
  else if s.ending then
    (d.setPin n { s with ending := false, holds := 0, latch := none, pull := none }).put (F.PIN_CFG_HELD n) 0
  else d

/-! ### Holds (Table 12-5) -/

/-- Hold `k` begins at pin `n`: its level, drive enable and pull stay as they are.  A pin drives nothing before PLAY.  A hold that
begins in the 64 ns after the last one takes its place. -/
def DieSt.pinHold (d : DieSt) (k n : Nat) : DieSt :=
  let p := if (d.pinS n).latch.isSome || !d.pinsLive then ((false, false), d) else d.pinDrive n
  let pull := d.pull n
  let d := p.2
  let s := d.pinS n
  (d.setPin n { s with
    latch := s.latch.orElse (fun _ => some p.1), pull := some pull, holds := putBit (if s.ending then 0 else s.holds) k true
    ending := false }).put (F.PIN_CFG_HELD n) 1

/-- Hold `k` of pin `n` ends; the last one to end starts the 64 ns. -/
def DieSt.pinUnhold (d : DieSt) (k n : Nat) : DieSt :=
  let s := d.pinS n
  if !bit s.holds k then d
  else if putBit s.holds k false = 0 then d.setPin n { s with ending := true }
  else d.setPin n { s with holds := putBit s.holds k false }

/-- The function-0 pins whose home is region `rg`. -/
def DieSt.homePins (d : DieSt) (rg : Nat) : List Nat :=
  d.listedPins.filter (fun n => d.f (F.PIN_CFG_FUNC n) == 0 && !d.on (F.PIN_CFG_DIS n) && d.f (F.PIN_FAB_HOME n) == rg)

/-- Every function-0 pin. -/
def DieSt.fabricPins (d : DieSt) : List Nat :=
  d.listedPins.filter (fun n => d.f (F.PIN_CFG_FUNC n) == 0 && !d.on (F.PIN_CFG_DIS n))

/-- The registered and double-rate function-0 pins of bank `b`. -/
def DieSt.clockedPins (d : DieSt) (b : Nat) : List Nat :=
  d.fabricPins.filter (fun n => n / 48 == b
    && (d.f (F.PIN_FAB_IMODE n) == 1 || d.f (F.PIN_FAB_IMODE n) == 2 || d.f (F.PIN_FAB_OMODE n) == 1
      || d.f (F.PIN_FAB_OMODE n) == 2 || d.on (F.PIN_FAB_OEREG n)))

/-- Hold `k` begins at every pin of a list. -/
def DieSt.holdAll (d : DieSt) (k : Nat) (l : List Nat) : DieSt := l.foldl (fun d n => d.pinHold k n) d

/-- Hold `k` ends at every pin of a list. -/
def DieSt.unholdAll (d : DieSt) (k : Nat) (l : List Nat) : DieSt := l.foldl (fun d n => d.pinUnhold k n) d

/-- The pins HALF-TIME holds: all but those of function 2 and of owner 3. -/
def DieSt.halfTimePins (d : DieSt) : List Nat :=
  (List.range d.pins).filter (fun n => d.f (F.PIN_CFG_FUNC n) != 2 && d.f (F.PIN_CFG_OWNER n) != 3)

/-- Is the PLL of bank `b` in use. -/
def DieSt.pllUsed (d : DieSt) (b : Nat) : Bool := decide (b < d.idn.banks) && d.on (F.PIN_BANK_PLL_EN b) && decide (2 ≤ d.dev)

/-- Signals that too few pins still carry are in conflict no more (R316). -/
def DieSt.conflictsOver (d : DieSt) : DieSt :=
  let live := d.f F.PIN_CONFLICT_LIVE_SIG
  d.put F.PIN_CONFLICT_LIVE_SIG
    ((List.range 24).foldl (fun v g => if bit v g && decide ((d.carriers g).length < 2) then putBit v g false else v) live)

/-- The PLAY instant: every pin of the pin plan and every pin with stored settings switches (R313); the plan's PIN_ELEC settings take
effect at the end of the guard (R314).  The clocked pins of a bank whose PLL is unlocked are held (R324). -/
def DieSt.pinsPlay (d : DieSt) : DieSt :=
  let d := d.plan.foldl (fun (d : DieSt) p =>
    ((d.wr (R.PIN_FAB p.pin) p.fab).setPin p.pin { d.pinS p.pin with elecNext := some p.elec }).wr (R.PIN_CFG p.pin)
      (cfgNorm p.cfg ||| (d.rd (R.PIN_CFG p.pin) &&& 0x00400000))) d
  let l := d.pin.cells.filterMap (fun c => if c.2.stored then some c.1 else none) ++ d.plan.map (fun p => p.pin)
  let d := l.foldl (fun (d : DieSt) n =>
    let s := d.pinS n
    (d.setPin n { s with stored := false, latch := s.latch.orElse (fun _ => some (false, false)) }).put
      (F.PIN_CFG_SWITCHING n) 1) d
  let d := ({ d with plan := [] } : DieSt).conflictsOver
  (List.range d.idn.banks).foldl (fun (d : DieSt) b =>
    if d.pllUsed b && !d.on (F.PIN_BANK_STAT_LOCK b) then d.holdAll 4 (d.clockedPins b) else d) d

/-! ### Register writes -/

/-- PIN_ELEC (R310, R315). -/
def DieSt.elecWrite (d : DieSt) (n : Nat) (v : Word) : DieSt × Bool :=
  let cfg := d.rd (R.PIN_CFG n)
  if d.pinSealed cfg cfg || cfgOwner cfg == 2 then (d, true) else (d.wr (R.PIN_ELEC n) (elecNorm v), false)

/-- PIN_FAB: the delays of a function-0 pin (R323, R328). -/
def DieSt.fabWrite (d : DieSt) (n : Nat) (v : Word) : DieSt × Bool :=
  if d.f (F.PIN_CFG_FUNC n) ≠ 0 || d.on (F.PIN_CFG_DIS n) then (d, true)
  else ((d.put (F.PIN_FAB_IDLY n) (bits v.toNat 14 8)).put (F.PIN_FAB_ODLY n) (bits v.toNat 6 0), false)

/-- The mask bits of a masked write that count for master `m`: Team's only on pins it owns (R317). -/
def DieSt.gpioMask (d : DieSt) (m : Master) (l : Nat) (v : Word) : Nat :=
  let w := bits v.toNat 31 16
  match m with
  | .team => (List.range 16).foldl (fun r i => if d.f (F.PIN_CFG_OWNER (16 * l + i)) = 1 then r else putBit r i false) w
  | _ => w

/-- A masked write of a 16-bit field. -/
def maskedWrite (old w mask : Nat) : Nat := Nat.lor (old - Nat.land old mask) (Nat.land w mask)

/-- GPIO_OUT or GPIO_OE (R317). -/
def DieSt.gpioWrite (d : DieSt) (m : Master) (l : Nat) (x : Fld) (v : Word) : DieSt :=
  d.put x (maskedWrite (d.f x) (v.toNat % 2 ^ 16) (d.gpioMask m l v))

/-- PIN_PM_CFG: a window start of 5 to 7 is refused (R328). -/
def DieSt.pmCfgWrite (d : DieSt) (b m : Nat) (v : Word) : DieSt × Bool :=
  if 4 < bits v.toNat 29 27 then (d, true) else (d.wr (R.PIN_PM_CFG b m) (v &&& 0xF8000000), false)

/-! ### Pattern matchers (R319, R320) -/

/-- Does matcher `m` of bank `b` hit at a sample: `now` and `was` are the bank's levels. -/
def DieSt.pmHit (d : DieSt) (b m now : Nat) (was : Option Nat) : Bool :=
  let win := fun (l : Nat) => l / 2 ^ (8 * d.f (F.PIN_PM_CFG_WIN b m)) % 2 ^ 16
  let mask := d.f (F.PIN_PM_MV_MASK b m)
  let val := d.f (F.PIN_PM_MV_VALUE b m)
  let meets := fun (l : Nat) => Nat.land (win l) mask == Nat.land val mask
  match d.f (F.PIN_PM_CFG_MODE b m), was with
  | 1, none => meets now
  | 1, some w => meets now && !meets w
  | 2, some w => Nat.land (Nat.land mask (Nat.xor (win now) (win w))) (2 ^ 16 - 1 - Nat.xor (win now) val) != 0
  | 3, some w => Nat.land mask (Nat.xor (win now) (win w)) != 0
  | _, _ => false

/-- What a hit does. -/
def DieSt.pmHitDo (d : DieSt) (b m now : Nat) : DieSt :=
  let lv := now / 2 ^ (8 * d.f (F.PIN_PM_CFG_WIN b m)) % 2 ^ 16
  let k := 4 * b + m
  let d := ((d.put (F.PIN_PM_STAT_HIT b m) 1).put (F.PIN_PM_STAT_LEVELS b m) lv).bump (F.PIN_PM_STAT_COUNT b m)
  let n := satInc 8 (d.pmHits.get (fun _ => 0) k)
  let key := 0x0C01 * 2 ^ 20 + k
  if bit (d.f F.PIN_EVT_EN_EN) 0 && d.due key 1000 then
    ({ d with pmHits := d.pmHits.set (fun _ => 0) k 0 } : DieSt).raiseLim true key 1000 (0x600 + k) 0x0C01 (n * 2 ^ 16 + lv)
  else { d with pmHits := d.pmHits.set (fun _ => 0) k n }

/-- PM_SAMPLE. -/
def DieSt.pmSample (d : DieSt) (b lv : Nat) : DieSt :=
  if decide (d.idn.banks ≤ b) || d.dev != 4 then d
  else
    let d := { d with pinLevel := d.pinLevel.set (fun _ => 0) b (lv % 2 ^ 48) }
    let now := d.bankIn b
    let was := d.pmPrev.get (fun _ => none) b
    let d := (List.range 4).foldl (fun d m => if d.pmHit b m now was then d.pmHitDo b m now else d) d
    { d with pmPrev := d.pmPrev.set (fun _ => none) b (some now) }

/-! ### Debounce (R321) -/

/-- The states of Table 12-3 that use the debounce filters. -/
def DieSt.debounceState (d : DieSt) : Bool := [1, 2, 3, 6, 7, 8].contains d.dev

/-- One filter at one tick. -/
def DieSt.debouncePin (d : DieSt) (n : Nat) : DieSt :=
  let l := d.pinIn n
  if !d.on (F.PIN_ELEC_DIRQ n) then { d with deb := d.deb.set (fun _ => none) n none }
  else
    match d.deb.get (fun _ => none) n with
    | none => { d with deb := d.deb.set (fun _ => none) n (some (l, 0)) }
    | some (v, c) =>
      if l = v then { d with deb := d.deb.set (fun _ => none) n (some (v, 0)) }
      else if c + 1 < 2 ^ d.f (F.PIN_ELEC_DEB n) then { d with deb := d.deb.set (fun _ => none) n (some (v, c + 1)) }
      else
        ({ d with deb := d.deb.set (fun _ => none) n (some (l, 0)) } : DieSt).raiseIf (bit (d.f F.PIN_EVT_EN_EN) 1)
          (0x600 + 4 * (n / 48)) 0x0C02 (b2n l * 2 ^ 23 + n % 48)

/-- DEBOUNCE_TICK. -/
def DieSt.debounceTick (d : DieSt) (b lv : Nat) : DieSt :=
  if decide (d.idn.banks ≤ b) || !d.debounceState then d
  else
    let d := { d with pinLevel := d.pinLevel.set (fun _ => 0) b (lv % 2 ^ 48) }
    (List.range 48).foldl (fun d i => d.debouncePin (48 * b + i)) d

/-- A change of state hands over between the mechanisms of Table 12-3, each starting from the levels of that moment. -/
def DieSt.pinHandOver (d : DieSt) : DieSt := { d with pmPrev := Tab.empty, deb := Tab.empty }

/-! ### Bank PLLs (R324) -/

/-- Raise PIN_PLL. -/
def DieSt.pllEvt (d : DieSt) (b : Nat) (locked : Bool) : DieSt :=
  d.raiseIf (bit (d.f F.PIN_EVT_EN_EN) 3) (0x600 + 4 * b) 0x0C04 (b2n locked * 2 ^ 23)

/-- BANK_PLL_LOCK: a lock after a loss of lock is raised (R324); the held pins hand over. -/
def DieSt.pllLock (d : DieSt) (b : Nat) : DieSt :=
  if d.pllUsed b && !d.on (F.PIN_BANK_STAT_LOCK b) then
    let d := d.put (F.PIN_BANK_STAT_LOCK b) 1
    let d := if d.pllLost.get (fun _ => false) b then d.pllEvt b true else d
    let d := { d with pllLost := d.pllLost.set (fun _ => false) b false }
    d.unholdAll 4 (d.clockedPins b)
  else d

/-- BANK_PLL_UNLOCK. -/
def DieSt.pllUnlock (d : DieSt) (b : Nat) : DieSt :=
  if d.pllUsed b && d.on (F.PIN_BANK_STAT_LOCK b) then
    let d := (d.put (F.PIN_BANK_STAT_LOCK b) 0).pllEvt b false
    let d := { d with pllLost := d.pllLost.set (fun _ => false) b true }
    (d.holdAll 4 (d.clockedPins b)).xMark
  else d

/-! ### The commands -/

/-- PIN_CFG_WRITE (R309, R310, R312, R314). -/
def execPinCfgWrite (x : Die) (m : Master) (n : Nat) (v : Word) (s : State) : Out :=
  act x s (fun d => d.busDo m (R.PIN_CFG n) (fun d => d.pinWrite n v none none))

/-- PIN_GUARD_END (R314). -/
def execPinGuardEnd (x : Die) (n : Nat) (s : State) : Out := act x s (fun d => d.guardEnd n)

/-- PIN_ELEC_WRITE (R315). -/
def execPinElecWrite (x : Die) (m : Master) (n : Nat) (v : Word) (s : State) : Out :=
  act x s (fun d => d.busDo m (R.PIN_ELEC n) (fun d => d.elecWrite n v))

/-- PIN_FAB_WRITE (R323). -/
def execPinFabWrite (x : Die) (m : Master) (n : Nat) (v : Word) (s : State) : Out :=
  act x s (fun d => d.busDo m (R.PIN_FAB n) (fun d => d.fabWrite n v))

/-- GPIO_OUT_WRITE (R317). -/
def execGpioOutWrite (x : Die) (m : Master) (l : Nat) (v : Word) (s : State) : Out :=
  act x s (fun d => d.busAct m (R.GPIO_OUT l) (fun d => d.gpioWrite m l (F.GPIO_OUT_DATA l) v))

/-- GPIO_OE_WRITE (R317). -/
def execGpioOeWrite (x : Die) (m : Master) (l : Nat) (v : Word) (s : State) : Out :=
  act x s (fun d => d.busAct m (R.GPIO_OE l) (fun d => d.gpioWrite m l (F.GPIO_OE_DATA l) v))

/-- PM_SAMPLE (R320). -/
def execPmSample (x : Die) (b lv : Nat) (s : State) : Out := act x s (fun d => d.pmSample b lv)

/-- DEBOUNCE_TICK (R321). -/
def execDebounceTick (x : Die) (b lv : Nat) (s : State) : Out := act x s (fun d => d.debounceTick b lv)

/-- BANK_PLL_LOCK (R324). -/
def execBankPllLock (x : Die) (b : Nat) (s : State) : Out := act x s (fun d => d.pllLock b)

/-- BANK_PLL_UNLOCK (R324). -/
def execBankPllUnlock (x : Die) (b : Nat) (s : State) : Out := act x s (fun d => d.pllUnlock b)

end Sys2Proof.Machine
end

