-- ==== Sys2Proof/Machine/Power.lean ====
section
/-! DEFINITION. Supplies, power domains and device states: what each state change does to a die, and the state
controller's choice among triggers (R329 to R354). -/

namespace Sys2Proof.Machine

/-! ### Channels that fail (R269, Table 02-4) -/

/-- A DRAM channel fails: its requests end, and every spill window on it is lost (R214, R184). -/
def DieSt.chFail (d : DieSt) (c cause : Nat) : DieSt :=
  if d.f (F.DMC_STAT_STATE c) = chFailed || d.f (F.DMC_STAT_STATE c) = chOff || 4 ≤ c then d
  else ((List.range 64).foldl (fun d q => d.spillFail q c) (d.dramEnd c cause)).rosSpillFail c

/-- Training of a channel ends (R268, R269). -/
def DieSt.chTrained (d : DieSt) (c : Nat) (res : TrainRes) : DieSt :=
  if !d.dmcOn c || d.f (F.DMC_STAT_STATE c) ≠ chTraining then d
  else if !d.dramConfigOk c then d.chFail c 2
  else match res with
    | .ok hppr =>
      let d := d.setCh c { d.ch c with hppr := hppr }
      (d.put (F.DMC_STAT_STATE c) Machine.chReady).put (F.DMC_CAP_SIZE c) ((d.nominalLines c - d.rowStride c) / 1024)
    | .fail => d.chFail c 1
    | .config => d.chFail c 2

/-! ### Regions and domains (Table 13-2, R105 to R108, R335) -/

/-- Regions whose RGN_STAT differs from OFF, that satisfy `p`. -/
def DieSt.regionsIn (d : DieSt) (p : Nat → Bool) : List Nat :=
  (d.regs.cells.filterMap (fun c =>
    if 0x11000000 ≤ c.1 && decide (c.1 < 0x11058000) && c.1 % 0x100 == 0 then some ((c.1 - 0x11000000) / 0x100) else none)).filter p

/-- Set the on bits of domains 0 to 78 from a mask. -/
def DieSt.setDoms (d : DieSt) (mask : Nat) : DieSt :=
  (List.range 3).foldl (fun d w => d.wr (R.PWR_DOM_ON w) (BitVec.ofNat 32 (mask / 2 ^ (32 * w)))) d

/-- The on bits as a mask. -/
def DieSt.domMask (d : DieSt) : Nat :=
  (d.rd (R.PWR_DOM_ON 0)).toNat + (d.rd (R.PWR_DOM_ON 1)).toNat * 2 ^ 32 + (d.rd (R.PWR_DOM_ON 2)).toNat * 2 ^ 64

/-- Is domain `k` there (R334). -/
def DieSt.hasDom (d : DieSt) (k : Nat) : Bool :=
  if k < 64 then k / 2 < d.idn.rows
  else if k < 68 then k - 64 < d.idn.ddr
  else if k < 74 then d.idn.quad (k - 68)
  else if k = 79 then d.idn.met
  else k < 79

/-- The mask of the domains present. -/
def DieSt.presentMask (d : DieSt) : Nat := (List.range 80).foldl (fun n k => n + b2n (d.hasDom k) * 2 ^ k) 0

/-- The bonded quads, as a domain mask. -/
def DieSt.quadMask (d : DieSt) : Nat := (List.range 6).foldl (fun n q => n + b2n (d.idn.quad q) * 2 ^ (68 + q)) 0

/-- The domain a register's block lies in, where switching it off resets the register (Table 13-2). -/
def regDom (a : Nat) : Option Nat :=
  match findBlk a with
  | some (.bSE, _) => some (halfRow ((a - 0x40000000) / 0x10000))
  | some (.bROS, _) => some 75
  | some (.bQ, _) => some 74
  | some (.bCRC, _) => some 74
  | some (.bETH, _) => some 74
  | some (.bDMC, _) => some (64 + (a - 0x15000000) / 0x1000)
  | _ => none

/-- The region wiped: its logic, memories and engine (R335).  Its canaries measure on as long as it is powered (R121). -/
def DieSt.wipeRegion (d : DieSt) (rg : Nat) : DieSt :=
  let d := d.rosWipe rg
  let fb := d.fab
  let out := fun n k => decide (k / n ≠ rg)
  { d with
    se := d.se.keep (fun k => k != rg)
    fab := { fb with
      design := fb.design.keep (fun k => k != rg), gate := fb.gate.keep (fun k => k != rg)
      stages := fb.stages.keep (out 1024), regs := fb.regs.keep (out 2048), rails := fb.rails.keep (out 1024)
      merges := fb.merges.keep (out 544), arbs := fb.arbs.keep (out 128), ring := fb.ring.keep (out 1536)
      iso := fb.iso.keep (out 1536), freezeAt := fb.freezeAt.keep (fun k => k != rg)
      forcedNow := fb.forcedNow.keep (fun k => k != rg), bm := fb.bm.keep (out 2048), bmFlip := fb.bmFlip.keep (out 2048)
      bmResp := fb.bmResp.keep (out 8), bmScrub := fb.bmScrub.keep (out 4), frames := fb.frames.keep (out 1024)
      delay := fb.delay.keep (out 1024), delayNext := fb.delayNext.keep (out 1024) }
    pace := { d.pace with
      target := d.pace.target.keep (out 1024)
      monRegion := (d.pace.monRegion.cells.filter (fun c => c.2 == some rg)).foldl (fun t c => t.set (fun _ => none) c.1 none) d.pace.monRegion }
    rel := { d.rel with flip := d.rel.flip.keep (out 1024), next := d.rel.next.keep (fun k => k != rg) } }

/-- Every register of reset domain REGION of region `rg` returns to its reset value (Table 13-4). -/
def DieSt.regionRegs (d : DieSt) (rg : Nat) : DieSt :=
  let d := { d with regs := d.regs.keep (fun a =>
    !(decide (0x40000000 + 0x10000 * rg ≤ a) && decide (a < 0x40000000 + 0x10000 * (rg + 1))
      && (findRow a).elim true (fun r => decide (r.dom = Dom.region)))) }
  (((d.wr (R.RGN_PID rg) 0).wr (R.RGN_RSIG_LO rg) 0).wr (R.RGN_RSIG_HI rg) 0).wr (R.RGN_BM_MODE rg) 0

/-- A region with nothing in it, its ring in ISOLATE. -/
def DieSt.blankRegion (d : DieSt) (rg : Nat) : DieSt :=
  let d := (d.wipeRegion rg).regionRegs rg
  ((((d.put (F.RGN_STAT_STATE rg) rgBlank).put (F.RGN_STAT_RING rg) 0).put (F.RGN_STAT_HOME rg) 63).put (F.RGN_STAT_PAIRED rg) 0).xMark

/-- A region of a half-row that goes off: nothing in it, and no personality loaded or running there any more (R107, R114). -/
def DieSt.regionOff (d : DieSt) (r : Nat) : DieSt :=
  let home := d.homeOf r
  let there := d.nowAt home == r
  let d := (d.blankRegion r).put (F.RGN_STAT_STATE r) rgOff
  let d : DieSt := { d with pace := { d.pace with canary := d.pace.canary.keep (fun k => decide (k / 64 ≠ r)) } }
  if there then d.put (F.RGN_STAT_AT home) 63 else d

/-- What a domain that goes off loses (R335). -/
def DieSt.domLose (d : DieSt) (k : Nat) : DieSt :=
  let d := d.setDom k false
  let d := { d with regs := d.regs.keep (fun a => decide (regDom a ≠ some k)) }
  DieSt.xMark <|
  if k < 64 then ((d.regionsIn (fun r => halfRow r == k)).foldl DieSt.regionOff d).loseRowFrames k
  else if k < 68 then { d with dmc := d.dmc.keep (fun c => c != k - 64) }
  else if k < 74 then
    (List.range 4).foldl (fun d p =>
      if p < d.idn.slk && (List.range 5).any (fun i => (5 * p + i) / 4 == k - 68) then (d.put (F.SLK_PORT_STAT_STATE p) slkDown).setPrt p (d.prt p).lost
      else d) d
  else if k = 74 then
    { d with q := Tab.empty, crc := Tab.empty, raised := [], coll := [], txts := Tab.empty, ethCfg := Tab.empty,
             ethOut := Tab.empty, linkIn := Tab.empty }
  else if k = 75 then { d with ros := RosSt.reset }
  else d

/-- The image store gives the frames of a home or a row: it is written, and its channel is READY (R373, R400). -/
def DieSt.storeUp (d : DieSt) : Bool := d.on F.CFG_STAT_STORE_OK && d.chReady (d.f F.SUB_STORE_CH)

/-- A domain that comes on: the regions of a half-row start BLANK with their rings in ISOLATE, and the Referee rewrites its
row-level frames from the image store (R108).  A region with a quarantine record comes up QUARANTINED instead, as at a start
(R371; DESIGN CHOICE, log entry 151). -/
def DieSt.domGain (d : DieSt) (k : Nat) : DieSt :=
  let d := d.setDom k true
  let d := if k < 64 && d.storeUp then d.rewriteRowFrames k d.load.store else d
  if k < 64 then
    (List.range 22).foldl (fun d i =>
      let r := k / 2 * 44 + k % 2 * 22 + i
      (d.put (F.RGN_STAT_STATE r) (if d.quarHas 1 r then rgQuarantined else rgBlank)).put (F.RGN_STAT_RING r) 0) d
  else d

/-- Switching domain `k` off is refused with BUSY (Table 13-2, R106). -/
def DieSt.domBusy (d : DieSt) (k : Nat) : Bool :=
  if k < 64 then
    let row := k / 2
    let set := (d.rd (R.SUB_DETOUR row)).toNat
    let rf := (d.fab.rowFrames.cells.filter (fun c => c.1 / 1024 == row)).map (fun c => (c.1 % 1024, (vote c.2)))
    !(d.regionsIn (fun r => halfRow r == k && [rgLoading, rgRunning, rgFrozen].contains (d.rgState r))).isEmpty
    || (List.range 2).any (fun i => (set >>> (8 * (2 * (k % 2) + i))) % 64 != 63)
    || (rf.any (fun f => f.2 != 0) && Config.rowPath rf (k % 2))
  else if k < 68 then
    let c := k - 64
    d.chReady c &&
    ((d.f F.SUB_STORE_SIZE != 0 && d.f F.SUB_STORE_CH == c)
      || (d.f F.PWR_SAVE_SIZE != 0 && d.f F.PWR_SAVE_CH == c)
      || (List.range 64).any (fun q => d.f (F.Q_SPILL_SIZE_SIZE q) != 0 && d.f (F.Q_SPILL_BASE_CH q) == c)
      || (d.f F.ROS_SPILL0_SIZE != 0 && d.f F.ROS_SPILL0_CH == c)
      || (d.f F.ROS_SPILL1_SIZE != 0 && d.f F.ROS_SPILL1_CH == c)
      || (List.range 8).any (fun p => d.on (F.DMC_PORT_CFG_EN c p)))
  else if k < 74 then
    (List.range 4).any (fun p => p < d.idn.slk && (List.range 5).any (fun i => (5 * p + i) / 4 == k - 68) && d.portState p != slkDown)
    || (k == 73 && (List.range 4).any (fun e => d.on (F.ETH_CFG_EN e)))
  else if k = 74 then
    (List.range 64).any (fun q => d.on (F.Q_CFG_EN q)) || (List.range 16).any (fun u => d.on (F.CRC_CTL_EN u))
    || (List.range 4).any (fun e => d.on (F.ETH_CFG_EN e))
  else if k = 75 then !d.usedCtx.isEmpty
  else true

/-- DOMAIN (Table 13-10). -/
def DieSt.domEvt (d : DieSt) (k : Nat) (up : Bool) : DieSt :=
  d.raiseIf (bit (d.f F.PWR_EVT_EN_EN) 0) 0x707 0x0D02 (b2n up * 2 ^ 23 + k * 2 ^ 16)

/-- The status of a domain command before it acts: ABSENT 3, FIXED 4, STATE 2 (R334, PWR_DOM_RES). -/
def DieSt.domCheck (d : DieSt) (k : Nat) : Nat :=
  if k = 79 && !d.idn.met then 3
  else if 76 ≤ k && k < 80 then 4
  else if !d.hasDom k then 3
  else if d.dev < 2 || d.dev = 5 || d.dev = 8 then 2
  else 0

/-- Write PWR_DOM_RES. -/
def DieSt.domRes (d : DieSt) (k st : Nat) (busy : Bool) : DieSt :=
  ((d.put F.PWR_DOM_RES_DOMAIN k).put F.PWR_DOM_RES_STATUS st).put F.PWR_DOM_RES_BUSY (b2n busy)

/-- PWR_DOM_CMD on. A command while a switch runs is refused with BUSY. -/
def DieSt.domainOn (d : DieSt) (k : Nat) : DieSt × Nat :=
  let st := d.domCheck k
  if st ≠ 0 then (d.domRes k st false, st)
  else if d.pwr.domGoing.isSome then (d, 1)
  else if d.domOn k then (d.domRes k 0 false, 0)
  else ({ d.domRes k 0 true with pwr := { d.pwr with domGoing := some k } }, 0)

/-- PWR_DOM_CMD off. -/
def DieSt.domainOff (d : DieSt) (k : Nat) : DieSt × Nat :=
  let st := d.domCheck k
  if st ≠ 0 then (d.domRes k st false, st)
  else if d.pwr.domGoing.isSome then (d, 1)
  else if !d.domOn k then (d.domRes k 0 false, 0)
  else if d.domBusy k then (d.domRes k 1 false, 1)
  else (((d.domLose k).domEvt k false).domRes k 0 false, 0)

/-- DOMAIN_READY. -/
def DieSt.domainReady (d : DieSt) : DieSt :=
  match d.pwr.domGoing with
  | some k =>
    let w := d.pwr.domCaller
    let d := ((({ d with pwr := { d.pwr with domGoing := none, domCaller := none } } : DieSt).domGain k).domEvt k true).domRes k 0 false
    match w with
    | some w => d.callEnd w csOk []
    | none => d
  | none => d

/-! ### State changes (Table 13-3, Table 13-6) -/

/-- PWR_STATE takes a new state and cause; STATE_CHANGE is raised (R339, R353). -/
def DieSt.setState (d : DieSt) (new cause : Nat) : DieSt :=
  let old := d.dev
  let d := (((d.put F.PWR_STATE_STATE new).put F.PWR_STATE_PREV old).put F.PWR_STATE_CAUSE cause).put F.PWR_STATE_TRANSIT 0
  ((d.raise 0x707 0x0D01 (new % 16 * 2 ^ 20 + old % 16 * 2 ^ 16 + cause * 2 ^ 8)).pinHandOver).xMark

/-- Does a register keep its word at COLD: reset domains AON and none, and the supply monitors (R336). -/
def keptAtCold (a : Nat) : Bool :=
  match findRow a with
  | some r => decide (r.dom = .aon) || decide (r.dom = .none)
  | none => false

/-- What a die holds after entry to COLD: domains 78 and 79, and what lies outside the die (Table 13-5). -/
def DieSt.wipe (d : DieSt) : DieSt :=
  let c : DieSt := { DieSt.reset with
    idn := d.idn, regs := d.regs.keep keptAtCold, free := d.free, now := d.now, evLast := d.evLast
    noRb := d.noRb, nvm := d.nvm, fuse := d.fuse, met := { d.met with pinsOn := false }, jtag := d.jtag
    pwr := { d.pwr with stopping := false, pll := false, going := none, latched := [], domGoing := none, kept := none, hdr := none, unplayed := false, storeKey := none }
    pinLevel := d.pinLevel, rel := { RelSt.reset with fttRan := d.rel.fttRan, fttBad := d.rel.fttBad } }
  (List.range 20).foldl (fun e b => e.put (F.PIN_BANK_STAT_VCCIO_OK b) (d.f (F.PIN_BANK_STAT_VCCIO_OK b))) (c.setDoms (2 ^ 78))

/-- Enter COLD; `skip`: the stop ran no Full-Time Test (R339). -/
def DieSt.toCold (d : DieSt) (cause : Nat) (skip : Bool) : DieSt :=
  let d := if skip then d.put F.PWR_STATE_FTT_SKIPPED 1 else d
  (((d.setState 0 cause).put F.PWR_STATE_RESUMED 0).put F.PWR_STATE_SAVE_OK 0).wipe

/-- A start from COLD gives every pin the pull that its bank's strap asks for; die 1 of T4096 has banks of its own, whose straps
follow those of die 0 (R312, Table 19-10).  After HALF-TIME the kept PIN_ELEC stands (R326). -/
def DieSt.strapPulls (d : DieSt) : DieSt :=
  if d.on F.PWR_STATE_RESUMED then d
  else
    (List.range d.idn.banks).foldl (fun d b =>
      let p := d.pwr.pulls / 4 ^ (d.idn.die * d.idn.banks + b) % 4
      (List.range 48).foldl (fun d i => if p = 0 then d else d.put (F.PIN_ELEC_PULL (48 * b + i)) p) (d.put (F.PIN_BANK_STAT_PREPULL b) p)) d

/-- What straps, fuses and bonding show once the domains of WARM-UP are on (R279, R312, R363, R412, R417, R431, R485). -/
def DieSt.strapped (d : DieSt) : DieSt :=
  let d := ((d.put F.CFG_STAT_MODE d.pwr.mode).put F.CFG_STAT_DEVID d.pwr.devid).put F.SLK_ID_ID d.pwr.devid
  let d := (d.put F.PWR_SAVE_NEED_SIZE (if d.idn.rows = 32 then 5 else if d.idn.rows = 24 then 4 else 3)).put F.SUB_STORE_NEED
    (if d.idn.rows = 32 then 9 else if d.idn.rows = 24 then 7 else 5)
  let d := (d.put F.REF_STAT_LEADER (1 - d.idn.die % 2)).put F.REF_FW_MIN d.fuse.fwMin
  (d.put F.CFG_STAT_NO_READBACK (b2n d.noRb)).strapPulls

/-- Pulse outputs' pins, as the sealed parameter PINS names them: output numbers by pin 32 to 47, 0xFF none (R446). -/
def DieSt.pulsePins (d : DieSt) : List (Nat × Nat) :=
  ((List.range 16).zip (d.met.param.get (fun _ => []) 6)).filterMap (fun p => if p.2 < 16 then some (80 + p.1, p.2) else none)

/-- The island switches its pulse pins to OWNER 3, FUNC 3 and the SIG of their output under R314; a pin of owner 3 that
PINS names no more goes back to its reset setting (R446, R448). -/
def DieSt.metSwitch (d : DieSt) : DieSt :=
  let l := d.pulsePins
  let gone := ((List.range 16).map (fun k => 80 + k)).filter (fun n => d.f (F.PIN_CFG_OWNER n) == 3 && !l.any (fun p => p.1 == n))
  let d := gone.foldl (fun (d : DieSt) n => d.pinApply n (rowReset (R.PIN_CFG n)) none none) d
  let d := l.foldl (fun (d : DieSt) p => d.pinApply p.1 (BitVec.ofNat 32 (0xC3000000 + 256 * p.2)) none none) d
  { d with met := { d.met with pinsOn := true, pinsDue := false } }

/-- At the PLAY instant the pulse pins switch, the first time since COLD or after a change of PINS (R446, R448). -/
def DieSt.metPins (d : DieSt) : DieSt := if !d.idn.met || (d.met.pinsOn && !d.met.pinsDue) then d else d.metSwitch

/-- From WARM-UP the island claims its pulse pins (R446); a start from COLD lets retired modulators calibrate again (R444). -/
def DieSt.metWarm (d : DieSt) (resumed : Bool) : DieSt :=
  if !d.idn.met then d
  else
    let d := d.pulsePins.foldl (fun (d : DieSt) p => d.setClaim p.1 claimMet) d
    let ret := (List.range 18).filter (fun m => bit (d.f F.MET_MOD_STAT_RETIRED) m)
    if resumed || ret.isEmpty then d
    else { ((d.put F.MET_MOD_STAT_RETIRED 0).put F.MET_STAT_SPARES 2).put F.MET_STAT_DEGRADED 0 with
      met := { d.met with calib := d.met.calib ++ ret } }

/-- Enter WARM-UP (Table 13-3). -/
def DieSt.toWarm (d : DieSt) (cause : Nat) (resumed : Bool) : DieSt :=
  let d := (d.setState 1 cause).put F.PWR_STATE_RESUMED (b2n resumed)
  let d := { d with load := LoadSt.reset, hdrOk := false, pwr := { d.pwr with pll := false, cold := !resumed } }
  ((d.setDoms (2 ^ 76 + 2 ^ 77 + 2 ^ 78 + d.quadMask)).strapped).metWarm resumed

/-- COLD, then WARM-UP again (causes 19 and 20). -/
def DieSt.again (d : DieSt) (cause : Nat) : DieSt :=
  let d := d.toCold cause true
  if d.pwr.good then d.toWarm cause false else d

/-! ### RECOVERY (R344, R345) -/

/-- User work stops: gates close, dedicated engines halt, the Roster stops and swaps its contexts out. -/
def DieSt.stopUser (d : DieSt) : DieSt :=
  let d : DieSt := { d with fab := { d.fab with gate := Tab.empty }, pwr := { d.pwr with stopping := true } }
  (d.se.cells.map (fun c => c.1)).foldl (fun d r =>
    let e := d.eng r
    if d.pooled r then (if e.ctx.isSome then d.order r .stop else d)
    else if e.mode = .run || e.mode = .stall then
      (d.setEng r { e with haltRecov := true }).seHaltReq r
    else d) d

/-- Enter RECOVERY. -/
def DieSt.toRecovery (d : DieSt) (cause : Nat) : DieSt :=
  let d := (d.setState 6 cause).stopUser
  let d := if d.gov = 2 then (d.govTo 3).noVcore else d
  { d with pwr := { d.pwr with recovAt := d.now } }

/-- The gates of every RUNNING region open. -/
def DieSt.openGates (d : DieSt) : DieSt :=
  { d with fab := { d.fab with
    gate := (d.regionsIn (fun r => d.rgState r == rgRunning)).foldl (fun t r => t.set (fun _ => false) r true) d.fab.gate } }

/-- Engines that the entry to RECOVERY halted, or was to halt, run; loaded contexts take over (R345). -/
def DieSt.restartUser (d : DieSt) : DieSt :=
  let d : DieSt := { d with pwr := { d.pwr with stopping := false } }
  (d.se.cells.map (fun c => c.1)).foldl (fun d r =>
    let e := d.eng r
    if d.pooled r then d.idleSwap r
    else if e.haltRecov then
      (d.setEng r { e with haltRecov := false, haltReq := if e.mode = .run then none else e.haltReq }).seRun r
    else d) d.openGates

/-! ### Freezing (R93, R175, Table 13-7, Table 15-10) -/

/-- Is a region still, as far as a freeze asks: its ring FROZEN and its engine stopped. -/
def DieSt.stillNow (d : DieSt) (rg : Nat) : Bool :=
  d.rgState rg != rgRunning || (d.ringState rg == 3 && (d.eng rg).mode == .frozen)

/-- Every RUNNING region of the die. -/
def DieSt.running (d : DieSt) : List Nat := d.regionsIn (fun r => d.rgState r == rgRunning)

/-- Is every region of the die still. -/
def DieSt.allStill (d : DieSt) : Bool := d.running.all d.stillNow

/-- Every ring in PASS begins to freeze, its engine with it. -/
def DieSt.freezeRings (d : DieSt) : DieSt :=
  (d.running.filter (fun r => d.ringState r == 1)).foldl (fun d r => (d.freezeBegin r).seFreeze r) d

/-! ### FULL-TIME (R346, R405, R406) -/

/-- The duration of the test so far (R413). -/
def DieSt.fttTime (d : DieSt) : DieSt := d.wr R.FTT_TIME (BitVec.ofNat 32 ((d.now - d.pwr.ftAt) / 1000000))

/-- FTT_END is also written to the map's last slot, where that is free (FTT_EVT_EN.COPY): the record's 16 bytes go by a page program
to slot 4,093 of the copy in force.  Copy and layout are the model's (DESIGN CHOICE, log entry 193). -/
def DieSt.fttCopy (d : DieSt) : DieSt :=
  if d.on F.FTT_EVT_EN_COPY && decide (d.quar.recs.length < 4094) then
    let v := (d.f F.FTT_STAT_RESULT * 2 ^ 21 + d.f F.FTT_STAT_REASON * 2 ^ 16 + d.f F.FTT_STAT_FAILS, d.mt.toNat)
    let off := d.recordArea + (if d.quarNext then 0 else 65536) + 32 + 16 * 4093
    let d := d.onNvmBus (d.nvmCmds [] off (wordBytes 8 (d.source 0x709 * 2 ^ 40 + 0x0F31 * 2 ^ 24 + v.1) ++ wordBytes 8 v.2))
    { d with nvm := { d.nvm with fttCopy := some v } }
  else d

/-- A Full-Time Test that does not run, or stops, with its reasons (R405). -/
def DieSt.fttStop (d : DieSt) (result reasons : Nat) : DieSt :=
  let d := (d.put F.FTT_STAT_RESULT result).put F.FTT_STAT_REASON (Nat.lor (d.f F.FTT_STAT_REASON) reasons)
  let d := (d.put F.PWR_STATE_FTT_SKIPPED 1).car 40 4 1
  ((d.raise 0x709 0x0F31 (result * 2 ^ 21 + d.f F.FTT_STAT_REASON * 2 ^ 16 + d.f F.FTT_STAT_FAILS)).fttTime).fttCopy

/-- Enter FULL-TIME.  From LOAD or LINE-UP the PLAY instant is still to come: the pins do nothing yet (R312). -/
def DieSt.toFullTime (d : DieSt) (cause : Nat) (half : Bool) : DieSt :=
  let d : DieSt := { d with pwr := { d.pwr with unplayed := d.dev == 2 || d.dev == 3, kept := none } }
  let d := (d.setState 7 cause).stopUser
  let d := (if d.gov = 0 || d.gov = 5 then d else d.govTo 4).holdAll 3 d.fabricPins
  let d := (d.wr R.FTT_STAT 0).put F.FTT_STAT_STEP 1
  let d : DieSt := { d with pwr := { d.pwr with ftHalf := half, ftAt := d.now }, rel := { d.rel with fttRan := false } }
  let d := (d.put F.PWR_STATE_FTT_SKIPPED 0).freezeRings
  if d.on F.FTT_CFG_EN then d else d.fttStop 3 8

/-- Has the test of this die ended or been skipped. -/
def DieSt.fttOver (d : DieSt) : Bool := d.dev == 7 && d.f F.FTT_STAT_RESULT != 0

/-! ### HALF-TIME (R347 to R350) -/

/-- The call status of a CFG_CMD_RES status (Table 16-2). -/
def cfgCallStatus (st : Nat) : Nat :=
  nth csFailed [csOk, csBusy, csState, csNoReadback, csRange, csFailed] st

/-- A CFG command ends with a status; the call it was made for ends with it. -/
def DieSt.cfgEnd (d : DieSt) (st : Nat) : DieSt :=
  let d := (d.put F.CFG_CMD_RES_STATUS st).put F.CFG_CMD_RES_BUSY 0
  match d.load.caller with
  | some w =>
    { d with load := { d.load with caller := none } }.callEnd w (cfgCallStatus st) [if st = 5 then d.f F.CFG_ERR_CODE else 0]
  | none => d

/-- The Referee ends every PENDING call with STATE, without acting on it (R348).  A COMMIT that still waits for the substitution
engine ends with STATE as well, since it cannot finish any more (DESIGN CHOICE, log entry 81). -/
def DieSt.callsOver (d : DieSt) : DieSt :=
  let d := d.ref.order.foldl (fun d s => d.callEnd (.slot s) csState []) d
  let d := (d.ref.remotes.filter (fun r => !r.busy)).foldl (fun d r => d.callEnd (.remote r.key) csState []) d
  if d.load.commit.isSome && d.f F.SUB_STAT_STEP = 0 then ({ d with load := { d.load with commit := none } } : DieSt).cfgEnd 2 else d

/-- Is a Referee call BUSY. -/
def DieSt.callsBusy (d : DieSt) : Bool :=
  (List.range 8).any (fun s => d.f (F.MBX_RES_STATE s) == slotBusy) || d.ref.remotes.any (fun r => r.busy)

/-- Step 1 of Table 13-7: pad latches hold, dispatch stops, Ethernet is idle, and PENDING calls end. -/
def DieSt.halfStop (d : DieSt) : DieSt :=
  let d := d.holdAll 0 d.halfTimePins
  let d := ((List.range 4).foldl (fun d e => d.put (F.ETH_STAT_IDLE e) 1) d).callsOver
  { d.put F.PWR_STATE_TRANSIT 1 with pwr := { d.pwr with stopping := true } }

/-- Entry to HALF-TIME once no substitution is in progress: step 1 where it has not been made, and every ring begins to freeze
(Table 13-7). -/
def DieSt.halfBegin (d : DieSt) (cause : Nat) : DieSt :=
  { d.halfStop with pwr := { d.halfStop.pwr with going := some (.half cause) } }.freezeRings

/-- Registers HALF-TIME leaves where they are: those of domain 78 and of the metrology domain, and the spare entries of DRAM
channels, which persist across it (R267). -/
def keptAtHalf (a : Nat) : Bool :=
  keptAtCold a ||
  match findBlk a with
  | some (.bDMC, _) => decide (0x200 ≤ a % 0x1000)
  | some (.bPWR, _) => true
  | some (.bUMP, _) => true
  | some (.bMT, _) => true
  | some (.bPIN, _) => true
  | some (.bMET, _) => true
  | _ => false

/-- Registers the save area keeps: every COLD or REGION register of the switched-off domains but those of MBX (R348). -/
def savedAtHalf (a : Nat) : Bool :=
  !keptAtHalf a &&
  match findBlk a with
  | some (.bMBX, _) => false
  | _ => true

/-- What the save area holds. -/
def DieSt.save (d : DieSt) : KeptSt where
  regs := d.regs.keep (fun a => savedAtHalf a || (decide (0x10010014 ≤ a) && decide (a < 0x10010020)))
  fab := d.fab
  pace := d.pace
  se := d.se
  q := d.q
  crc := d.crc
  claims := d.claims
  ros := d.ros
  tapAt := d.tapAt
  portAt := d.portAt
  chanAt := d.chanAt
  xing := d.xing.keep (fun k => (xOfKey k).kind == 0)
  slkAdm := d.slkAdm
  ethCfg := d.ethCfg
  userX := d.userX
  rel := d.rel
  load := d.load

/-- The words of X and Y that a region's engine holds with flipped bits, as memory and address. -/
def DieSt.flippedXY (d : DieSt) (rg : Nat) : List (Nat × Nat) :=
  (d.eng rg).flip.cells.filterMap (fun c => if 4096 ≤ c.1 && decide (c.1 < 12288) then some (c.1 / 4096, c.1 % 4096) else none)

/-- The X and Y words of an engine are read for a save: each flipped word counts as found, and what is delivered is corrected where it
can be (R135). -/
def DieSt.seClean (d : DieSt) (rg : Nat) : DieSt :=
  let e := d.eng rg
  let l := d.flippedXY rg
  let n := l.foldl (fun (t : SeSt) x => t.wrM x.1 x.2 (e.rdM x.1 x.2)) e
  (d.seFounds rg 2 (l.flatMap (fun x => e.found x.1 x.2))).setEng rg { n with flip := n.flip.keep (fun k => decide (k < 4096) || decide (12288 ≤ k)) }

/-- The save is written to the save area, every engine's memories read for it (R135, R348). -/
def DieSt.keepSave (d : DieSt) : DieSt :=
  let d := (d.se.cells.map (fun c => c.1)).foldl DieSt.seClean d
  { d with pwr := { d.pwr with kept := some d.save } }

/-- Step 3 of Table 15-10: with destination HALF-TIME the save is written once, with every ring FROZEN, before the test goes on or ends
(R349). -/
def DieSt.ftKeep (d : DieSt) : DieSt :=
  if d.dev == 7 && d.pwr.ftHalf && d.allStill && d.pwr.kept.isNone then d.keepSave else d

/-- Does the save area lie clear of the image store (R348). -/
def DieSt.saveClear (d : DieSt) : Bool :=
  d.f F.PWR_SAVE_CH != d.f F.SUB_STORE_CH || decide (d.f F.PWR_SAVE_BASE + d.f F.PWR_SAVE_SIZE ≤ d.f F.SUB_STORE_BASE)
    || decide (d.f F.SUB_STORE_BASE + d.f F.SUB_STORE_SIZE ≤ d.f F.PWR_SAVE_BASE)

/-- A channel in self-refresh keeps its contents, and how far the copies of its spare entries have come, since the entries persist
(R267); nothing else. -/
def DmcSt.asleep (h : DmcSt) : DmcSt := { DmcSt.reset with mem := h.mem, flip := h.flip, copied := h.copied, cands := h.cands }

/-- HALF-TIME is reached (Table 13-7, steps 4 to 6). -/
def DieSt.toHalf (d : DieSt) (cause : Nat) (saveOk : Bool) : DieSt :=
  let d := if d.pwr.kept.isSome then d else d.keepSave
  let ok := saveOk && decide (d.f F.PWR_SAVE_SIZE ≠ 0) && decide (d.f F.PWR_SAVE_NEED_SIZE ≤ d.f F.PWR_SAVE_SIZE)
    && d.saveClear && d.chReady (d.f F.PWR_SAVE_CH) && d.storeUp
  let k := if ok then d.pwr.kept else none
  let d := (d.setState 5 cause).put F.PWR_STATE_SAVE_OK (b2n ok)
  let e : DieSt := { DieSt.reset with
    idn := d.idn, regs := d.regs.keep keptAtHalf, free := d.free, now := d.now, evLast := d.evLast
    mt := d.mt, mtm := { d.mtm with playAt := none, readySent := false }, noRb := d.noRb, nvm := d.nvm, fuse := d.fuse
    met := d.met, ump := { d.ump with refBeat := 0, swpBeat := 0, ordered := 0, fails := 0, swpRun := 0 }, jtag := d.jtag
    pin := d.pin, pinLevel := d.pinLevel, deb := d.deb, rel := { RelSt.reset with fttRan := d.rel.fttRan, fttBad := d.rel.fttBad }
    port := (List.range 4).foldl (fun t p => t.set (fun _ => PortSt.reset) p (d.prt p).lost) Tab.empty
    dmc := (List.range 4).foldl (fun (t : Tab DmcSt) c =>
      if d.chReady c then t.set (fun _ => DmcSt.reset) c (d.ch c).asleep else t) Tab.empty
    pwr := { d.pwr with stopping := false, pll := false, going := none, kept := k } }
  let e := (List.range 4).foldl (fun (e : DieSt) c =>
    if d.chReady c then e.put (F.DMC_STAT_SELFREF c) 1
    else if d.f (F.DMC_STAT_STATE c) = chFailed then
      (e.put (F.DMC_STAT_STATE c) chFailed).put (F.DMC_STAT_CAUSE c) (d.f (F.DMC_STAT_CAUSE c))
    else e) e
  ((e.put F.UMP_HB_REF_WATCH 0).put F.UMP_HB_SWP_WATCH 0).setDoms (2 ^ 78)

/-- The bits of a register that a restore brings back (R348): all of a COLD register but for those that show a live link, channel,
governor or loader. -/
def restoreMask (a : Nat) : Word :=
  match findBlk a with
  | some (.bSLK, _) =>
    if 0x16002000 ≤ a then (if a % 8 = 0 then 0xF0FFF0FF else 0xFF)
    else if a = R.SLK_ID then 0x807F07FF
    else if (0x16000100 ≤ a && (a % 0x20 = 4 || a % 0x20 = 0x10)) then rowMask a
    else 0xFFFFFFFF
  | some (.bDMC, _) =>
    if a % 0x1000 = 4 || a % 0x1000 = 8 then 0 else if a % 0x1000 = 0x10 then 0xFFFF0000 else 0xFFFFFFFF
  | some (.bCFG, _) =>
    if a = R.CFG_STAT then 0x01600000 else if a = R.CFG_CMD_RES then 0x7FFFFFFF else 0xFFFFFFFF
  | some (.bREF, _) => if a = R.REF_STAT then 0x1800FFFF else if a = R.REF_CAUSE then 0xF0000000 else rowMask a
  | some (.bCAR, _) => 0
  | some (.bSWP, _) => if a = R.SWP_STAT then 0 else 0xFFFFFFFF
  | some (.bPACE, _) =>
    if a = R.PACE_LIMIT || a = R.PACE_STAT || a = R.PACE_VREAD || a = R.PACE_PMB_CMD then rowMask a else 0xFFFFFFFF
  | some (.bSYS, _) => if a = R.SYS_EVT_STAT then 0x8000FFFF else rowMask a
  | _ => 0xFFFFFFFF
where
  /-- The RW bits of a register. -/
  rowMask (a : Nat) : Word := match findRow a with
    | some r => BitVec.ofNat 32 r.rw
    | none => 0

/-- An engine as a warm resume finds it: its saved state, with P as the image store gives it (R138). -/
def DieSt.resumedEngine (d : DieSt) (r : Nat) (e : SeSt) : SeSt :=
  { e with p := d.imageP r, flip := e.flip.keep (fun k => decide (4096 ≤ k)) }

/-- The saved contents are restored in place of initial values; logic frames and P come from the image store, and the
calibrators converge again (R138, R348, R350, Table 13-8). -/
def DieSt.restore (d : DieSt) : DieSt :=
  match d.pwr.kept with
  | none => d
  | some k =>
    let d := k.regs.cells.foldl (fun (d : DieSt) c =>
      let m := restoreMask c.1
      d.wr c.1 ((d.rd c.1 &&& ~~~m) ||| (c.2 &&& m))) d
    let d : DieSt := { d with
      fab := { k.fab with delay := Tab.empty, delayNext := Tab.empty, gate := Tab.empty }
      pace := { d.pace with monRegion := k.pace.monRegion, monUnit := k.pace.monUnit, canary := d.pace.canary }
      q := k.q, crc := k.crc, claims := k.claims, ros := k.ros, tapAt := k.tapAt, portAt := k.portAt, chanAt := k.chanAt
      xing := k.xing.cells.foldl (fun (t : Tab XSt) c => t.set (fun _ => XSt.reset) c.1 c.2) d.xing, slkAdm := k.slkAdm, ethCfg := k.ethCfg
      userX := k.userX
      rel := { k.rel with flip := Tab.empty, next := Tab.empty, rdMiss := Tab.empty, coordAt := d.rel.coordAt, carAt := d.rel.carAt,
                            fttRan := d.rel.fttRan, fttBad := d.rel.fttBad }
      load := { d.load with
        store := k.load.store, sig := k.load.sig, place := k.load.place, list := k.load.list, written := k.load.written
        scratch := k.load.scratch, scratchFrames := k.load.scratchFrames, team := k.load.team }
      pwr := { d.pwr with kept := none } }
    { d with se := k.se.cells.foldl (fun (t : Tab SeSt) c => t.set (fun _ => SeSt.reset) c.1 (d.resumedEngine c.1 c.2)) Tab.empty }

/-- The Career record as the save holds it, for the Referee to count on from at a warm resume, unless a record written since has a higher
SEQ (R348, R408). -/
def DieSt.keptCareer (d : DieSt) (k : KeptSt) : DieSt :=
  if (k.regs.get (fun _ => 0) (R.CAR_REC 1)).toNat < (d.rd (R.CAR_REC 1)).toNat then d
  else
  (k.regs.cells.filter (fun c => match findBlk c.1 with
    | some (.bCAR, _) => true
    | _ => false)).foldl (fun (d : DieSt) c => d.wr c.1 c.2) d

/-! ### LOAD, LINE-UP and PLAY -/

/-- Enter LOAD. -/
def DieSt.toLoad (d : DieSt) : DieSt := (d.setState 2 3).put F.CFG_STAT_LSTATE 2

/-- Enter LINE-UP: KICKOFF_N is released, a trained port carries every kind (R274, R343). -/
def DieSt.toLineUp (d : DieSt) : DieSt :=
  let d := ((d.setState 3 4).put F.CFG_STAT_LSTATE 5).put F.CFG_STAT_HOST_RDY 0
  let d := { d.slkLineUp with load := { d.load with lineUpAt := d.now, kickLate := false } }
  if d.on F.PWR_STATE_RESUMED then d.setPlay (d.mt.toNat + 100000) else d

/-- The device drives KICKOFF_N low (R343). -/
def DieSt.kickoffLow (d : DieSt) : Bool := decide (d.dev < 3) || d.dev == 8

/-- A READY region starts: RUNNING, its ring in PASS, its logic and engine in their initial state (R63, R64, R141). -/
def DieSt.startRegion (d : DieSt) (r : Nat) : DieSt :=
  (((d.put (F.RGN_STAT_STATE r) rgRunning).fabricReset r).ringRelease r).seReset r

/-- Enter PLAY from LINE-UP: at a start every READY region starts; at a warm resume every frozen one goes on. -/
def DieSt.toPlay (d : DieSt) : DieSt :=
  let resumed := d.on F.PWR_STATE_RESUMED
  let d := d.setState 4 5
  let d :=
    if resumed then (d.running.foldl (fun d r => (d.ringRelease r).seRelease r) d).restartUser
    else (d.regionsIn (fun r => d.rgState r == rgReady && d.f (F.RGN_STAT_HOME r) != 63 && d.nowAt (d.homeOf r) == r)).foldl (fun d r => d.startRegion r) d
  let d : DieSt := { d with pwr := { d.pwr with unplayed := false } }
  let d := (d.openGates.pinsPlay).unholdAll 0 (List.range d.pins)
  let d := (List.range d.idn.eth).foldl (fun d e =>
    let w := d.rd (R.ETH_CFG e)
    { d.put (F.ETH_STAT_IDLE e) (1 - b2n (bit w.toNat 31)) with ethCfg := d.ethCfg.set (fun _ => 0) e w }) d
  let d := if d.gov = 1 then d.put F.PACE_STAT_STATE 2 else d
  let d : DieSt := { d with mtm := { d.mtm with playAt := none, played := true }, pwr := { d.pwr with streak := 0, stopping := false } }
  d.metPins.teamStart

/-- RESUME reaches its instant: RECOVERY ends (R345). -/
def DieSt.resumePlay (d : DieSt) : DieSt :=
  let d := { d.setState 4 18 with pwr := { d.pwr with going := none } }
  let d := d.restartUser
  if d.gov = 3 && !d.on F.PACE_CTL_HOLD then d.put F.PACE_STAT_STATE 2 else d

/-! ### Triggers (R339 to R341) -/

/-- The order of R341; RESTART stands with FULL-TIME (DESIGN CHOICE, log entry 52). -/
def Trig.rank : Trig → Nat
  | .fullTime _ _ => 1
  | .restart => 1
  | .recovery _ => 2
  | .halfTime => 3
  | .wake => 4
  | .resume => 5

/-- Does Table 13-6 allow a trigger from a state. -/
def Trig.allowed (t : Trig) (dev : Nat) : Bool :=
  match t with
  | .fullTime c _ => if c = 9 then dev == 6 else [1, 2, 3, 4, 6].contains dev || (dev == 5 && (c == 6 || c == 7))
  | .restart => dev != 0
  | .recovery _ => dev == 4
  | .halfTime => dev == 4
  | .wake => dev == 5
  | .resume => dev == 6

/-- Was a trigger given by PWR_CMD (R354). -/
def Trig.byCmd : Trig → Bool
  | .fullTime c _ => c == 7
  | .recovery c => c == 13
  | .wake => false
  | _ => true

/-- A trigger is taken. -/
def DieSt.take (d : DieSt) (t : Trig) : DieSt :=
  match t with
  | .fullTime c h =>
    if d.dev = 1 || d.dev = 5 then d.toCold c true
    else d.toFullTime c h
  | .restart => d.again 19
  | .recovery c => d.toRecovery c
  | .halfTime => d.halfBegin 10
  | .wake => ({ d with pwr := { d.pwr with going := none } } : DieSt).toWarm 12 true
  | .resume => { d.put F.PWR_STATE_TRANSIT 1 with pwr := { d.pwr with going := some (.resume (d.mt.toNat + 100000)) } }

/-- Is a substitution in progress on either die (R341). -/
def State.subBusy (s : State) : Bool := s.d0.f F.SUB_STAT_STEP != 0 || s.d1.f F.SUB_STAT_STEP != 0

/-- Is VCORE in range on every die of the package; each has balls and a regulator of its own (R129, R340). -/
def State.vcoreUp (s : State) : Bool := s.d0.on F.PWR_SUP_STAT_VCORE && (s.d1.idn.absent || s.d1.on F.PWR_SUP_STAT_VCORE)

/-- A FULL-TIME whose test is over on both dies goes on to its destination; on the way to HALF-TIME PENDING calls end (R348). -/
def State.fttNext (s : State) : State :=
  if s.d0.fttOver && (s.d1.idn.absent || s.d1.fttOver) && s.d0.pwr.going.isNone then
    onBoth s (fun d =>
      let d := if s.d0.pwr.ftHalf then d.callsOver else d
      { d.put F.PWR_STATE_TRANSIT 1 with pwr := { d.pwr with going := some .leave } })
  else s

/-- A trigger arrives: taken, latched or not allowed, with the status of PWR_CMD_RES (R341).  Die 0 decides for both dies
(R342).  A wake that waits in HALF-TIME for VCORE (R340) is no transition in progress yet (log entry 126).  A HALF-TIME that waits for a
substitution to end makes step 1 of Table 13-7 at once. -/
def State.fire (s : State) (t : Trig) : State × Nat :=
  let d := s.d0
  if d.pwr.going.isSome && decide (d.pwr.going ≠ some (.wait .wake)) then
    (onBoth s (fun d => { d.put F.PWR_CMD_RES_STATUS 2 with pwr := { d.pwr with latched := d.pwr.latched ++ [t] } }), 2)
  else if !t.allowed d.dev then (s, 1)
  else if decide (t = .wake) && !s.vcoreUp then (onBoth s (fun d => { d with pwr := { d.pwr with going := some (.wait t) } }), 0)
  else if d.dev == 4 && decide (t ≠ .restart) && s.subBusy then
    (onBoth s (fun d =>
      let d := if t = .halfTime then d.halfStop else d
      { d.put F.PWR_STATE_TRANSIT 1 with pwr := { d.pwr with going := some (.wait t) } }), 0)
  else ((onBoth s (fun d => d.take t)).fttNext, 0)

/-- Insert a trigger behind those of its order. -/
def insertTrig (t : Trig) : List Trig → List Trig
  | [] => [t]
  | u :: r => if t.rank < u.rank then t :: u :: r else u :: insertTrig t r

/-- The transition has ended: the latched trigger of the highest order that Table 13-6 allows is taken.  PWR_CMD_RES then shows how the
latched trigger ended: OK when it is taken, BUSY while a command's transition runs, STATE when the state reached does not allow it
(DESIGN CHOICE, log entry 185). -/
def State.afterwards (s : State) : State :=
  let l := s.d0.pwr.latched.foldl (fun l t => insertTrig t l) []
  let s1 := onBoth s (fun d => { d with pwr := { d.pwr with latched := [] } })
  match l.find? (fun t => t.allowed s.d0.dev) with
  | some t =>
    onBoth (s1.fire t).1 (fun d =>
      if d.dev = 0 then d else (d.put F.PWR_CMD_RES_STATUS 0).put F.PWR_CMD_RES_BUSY (b2n (t.byCmd && d.pwr.going.isSome)))
  | none => if l.isEmpty || s.d0.dev = 0 then s1 else onBoth s1 (fun d => d.put F.PWR_CMD_RES_STATUS 1)

/-- Cause 2: at once, whatever is in progress (R341). -/
def State.cutOff (s : State) : State :=
  if s.d0.dev = 0 then s
  else onBoth s (fun d => { d.toCold 2 true with pwr := { d.pwr with going := none, latched := [], stopping := false, pll := false, domGoing := none, kept := none, hdr := none } })

/-- A cause of 14 to 17 (R340).  In RECOVERY it is written to CAUSE; while RESUME is under way it is latched as well, and taken from
PLAY (R341). -/
def State.badCause (s : State) (c : Nat) : State :=
  let d := s.d0
  if d.dev = 4 then (s.fire (.recovery c)).1
  else if d.dev = 6 then onBoth (if d.pwr.going.isSome then (s.fire (.recovery c)).1 else s) (fun d => d.put F.PWR_STATE_CAUSE c)
  else if d.dev = 1 || d.dev = 2 || d.dev = 3 then
    if 3 ≤ d.pwr.streak then onBoth s (fun d => { d.toCold 20 true with pwr := { (d.toCold 20 true).pwr with stuck := true } })
    else onBoth s (fun d => { d.again 20 with pwr := { (d.again 20).pwr with streak := d.pwr.streak + 1 } })
  else if d.dev = 7 then
    onBoth s (fun d => ((if d.f F.FTT_STAT_RESULT = 0 then d.fttStop 4 0 else d).toCold 20 true))
  else if d.dev = 5 && c = 17 then onBoth s (fun d => d.toCold 20 true)
  else s

/-- A write of PWR_CMD. -/
def State.pwrCmd (s : State) (x : Die) (m : Master) (t : Trig) : State :=
  match (s.die x).writeCheck m R.PWR_CMD 4 with
  | .err => onDie x s (fun d => d.answer m 0 true)
  | .void => onDie x s (fun d => d.answer m 0 false)
  | .ok =>
    let r := s.fire t
    onDie x r.1 (fun d =>
      ((d.put F.PWR_CMD_RES_STATUS r.2).put F.PWR_CMD_RES_BUSY (b2n d.pwr.going.isSome)).answer m 0 false)

/-- The transition in progress has ended: PWR_CMD_RES.BUSY falls. -/
def State.settled (s : State) : State :=
  (onBoth s (fun d => (d.put F.PWR_CMD_RES_BUSY 0))).afterwards

/-- Both dies of the package are still. -/
def State.allStill (s : State) : Bool := s.d0.allStill && (s.d1.idn.absent || s.d1.allStill)

/-- A post-package repair runs on either die (Table 15-10, step 8). -/
def State.repairing (s : State) : Bool :=
  let runs := fun (d : DieSt) => (List.range 256).any (fun i => d.f (F.DMC_SPARE_STATE (i / 64) (i % 64)) == 3)
  runs s.d0 || runs s.d1

/-- A Referee call is BUSY on either die. -/
def State.callsBusy (s : State) : Bool := s.d0.callsBusy || s.d1.callsBusy

/-- A FULL-TIME reaches HALF-TIME: the Career log is written, the HALF-TIME holds take the place of FULL-TIME's (Table 12-5), and steps
4 to 6 of Table 13-7 follow (R349). -/
def DieSt.fullToHalf (d : DieSt) (saveOk carOk : Bool) : DieSt :=
  ((((d.careerWrite carOk).holdAll 0 d.halfTimePins).unholdAll 3 (List.range d.pins)).ftKeep).toHalf 11 saveOk

/-- TRANSITION_END: HALF-TIME is reached once every ring is FROZEN, every engine has stopped and every BUSY call has finished
(R348). -/
def State.transitionEnd (s : State) (saveOk carOk : Bool) : State :=
  match s.d0.pwr.going with
  | some (.half c) => if s.subBusy || !s.allStill || s.callsBusy then s else (onBoth s (fun d => d.toHalf c saveOk)).settled
  | some .leave =>
    if s.repairing || (s.d0.pwr.ftHalf && (!s.allStill || s.callsBusy)) then s
    else if s.d0.pwr.ftHalf then (onBoth s (fun d => d.fullToHalf saveOk carOk)).settled
    else (onBoth s (fun d => (d.careerWrite carOk).toCold 11 (d.on F.PWR_STATE_FTT_SKIPPED))).settled
  | some (.wait .wake) => if s.vcoreUp then (onBoth s (fun d => d.take .wake)).settled else s
  | some (.wait t) =>
    if s.subBusy then s
    else
      let s1 := onBoth s (fun d => ({ d with pwr := { d.pwr with going := none } } : DieSt).take t)
      if s1.d0.pwr.going.isSome then s1 else s1.fttNext.settled
  | _ => s

/-- RESUME_INSTANT. -/
def State.resumeInstant (s : State) : State :=
  match s.d0.pwr.going with
  | some (.resume t) => if t ≤ s.d0.mt.toNat then (onBoth s (fun d => d.resumePlay)).settled else s
  | _ => s

/-- RECOVERY_LIMIT: destination COLD, if RESUME has not come (R345). -/
def State.recoveryLimit (s : State) : State :=
  let d := s.d0
  if d.dev = 6 && d.pwr.going.isNone && decide (d.pwr.recovAt + max 1 (d.f F.PWR_RECOV_LIMIT) * 100000000 ≤ d.now) then (s.fire (.fullTime 9 false)).1 else s

/-- The code on STATE[2:0]: PWR_STATE.STATE, and 1 in factory test (R338, R342).  The pins are bonded on die 0. -/
def DieSt.statePins (d : DieSt) : Nat := if d.dev = 8 then 1 else d.dev

/-! ### Wakes that make a full start (R37, R350) -/

/-- RESUME_FULL (Table 13-10): a wake that makes a full start, with no image taken yet. -/
def DieSt.resumeFull (d : DieSt) (reason : Nat) : DieSt :=
  let d := ((d.put F.PWR_STATE_RESUMED 0).put F.PWR_STATE_SAVE_OK 0).raiseIf (bit (d.f F.PWR_EVT_EN_EN) 2) 0x707 0x0D04 (reason * 2 ^ 20)
  { d.put F.CFG_STAT_STORE_OK 0 with
    pwr := { d.pwr with kept := none, hdr := none }, load := { d.load with took := false, loaded := false }, hdrOk := false }

/-- The reason why a warm resume under way can no longer be made: the channel of the save area, or that of the image store, has
failed; 0 while there is none. -/
def DieSt.resumeLost (d : DieSt) : Nat :=
  if d.dev == 2 && d.on F.PWR_STATE_RESUMED && d.pwr.kept.isSome then
    (if d.f (F.DMC_STAT_STATE (d.f F.PWR_SAVE_CH)) = chFailed then 2
     else if d.f (F.DMC_STAT_STATE (d.f F.SUB_STORE_CH)) = chFailed then 3 else 0)
  else 0

/-- A warm resume that has lost its save or its image store on either die is a full start on both (R37, R342, R350). -/
def State.resumeCheck (s : State) : State :=
  let n := if s.d0.resumeLost ≠ 0 || s.d1.idn.absent then s.d0.resumeLost else s.d1.resumeLost
  if n = 0 then s else onBoth s (fun d => d.resumeFull n)

/-! ### Supplies (R329 to R333) -/

/-- The latch and the event of a loss. -/
def DieSt.supplyLost (d : DieSt) (k : Nat) : DieSt :=
  let d := d.wr R.PWR_SUP_STAT (BitVec.ofNat 32 (putBit (d.rd R.PWR_SUP_STAT).toNat k false))
  let d := d.wr R.PWR_SUP_LOSS (BitVec.ofNat 32 (putBit (d.rd R.PWR_SUP_LOSS).toNat k true))
  (d.raiseIf (bit (d.f F.PWR_EVT_EN_EN) 1) 0x707 0x0D03 (k * 2 ^ 20)).xMark

/-- VAON is lost: everything on the die but fuses, the NVM and the sealed store goes (Table 13-5).  The loss and the entry to
COLD are recorded in the AON registers behind their reset (R333, R339; log entry 124). -/
def DieSt.allLost (d : DieSt) : DieSt :=
  let e : DieSt := { DieSt.reset with
    idn := d.idn, free := d.free, now := d.now, nvm := d.nvm, fuse := d.fuse
    regs := d.regs.keep (fun a => match findRow a with
      | some r => decide (r.dom = Dom.none)
      | none => false)
    met := { MetSt.reset with
      sealed := d.met.sealed, key := d.met.key, rollback := d.met.rollback, imageId := d.met.imageId, param := d.met.param
      energy := d.met.ckEnergy, ckEnergy := d.met.ckEnergy, ckPend := d.met.ckPend, ckPeriodic := d.met.ckPeriodic
      offAt := if d.met.running then some d.now else d.met.offAt } }
  let e := ((e.put F.PWR_SUP_STAT_VAON 0).setDoms 0).wr R.PWR_SUP_LOSS 0x200
  if d.dev = 0 then e else ((e.put F.PWR_STATE_PREV d.dev).put F.PWR_STATE_CAUSE 2).put F.PWR_STATE_FTT_SKIPPED 1

/-- Every lane goes DOWN: the Sunislink ports and the Ethernet links with them (Table 13-1). -/
def DieSt.lanesDown (d : DieSt) : DieSt :=
  let d := (List.range 4).foldl (fun d p => if d.portState p = slkDown then d else d.portGo p slkDown) d
  (List.range 4).foldl (fun d e =>
    if d.on (F.ETH_STAT_LINK e) then (d.put (F.ETH_STAT_LINK e) 0).raiseIf (d.on (F.ETH_EVT_EN_LINK e)) (0x5E0 + 20 + e) 0x0B11 0
    else d) d

/-- SUPPLY_LOSS. -/
def State.supplyLoss (s : State) (x : Die) (k : Supply) : State :=
  match k with
  | .vccio b => onDie x s (fun d => if b < d.idn.banks then d.put (F.PIN_BANK_STAT_VCCIO_OK b) 0 else d)
  | .rail 1 => (onBoth s (fun d => d.supplyLost 1)).cutOff
  | .rail 9 => onBoth s (fun d => { (d.allLost) with pwr := PwrSt.reset })
  | .rail 2 =>
    let s1 := onDie x s (fun d => d.supplyLost 2)
    if s.d0.dev = 5 then s1 else s1.badCause 16
  | .rail k =>
    if k = 3 || k = 4 then
      onDie x s (fun d => let e := d.supplyLost k; if d.dev = 5 then e else e.lanesDown)
    else if 5 ≤ k && k ≤ 8 then (onDie x s (fun d => (d.supplyLost k).chFail (k - 5) 4)).resumeCheck
    else if k = 10 then onDie x s (fun d => d.supplyLost 10)
    else s

/-- SUPPLY_RETURN. -/
def State.supplyReturn (s : State) (x : Die) (k : Supply) : State :=
  match k with
  | .vccio b => onDie x s (fun d => if b < d.idn.banks then d.put (F.PIN_BANK_STAT_VCCIO_OK b) 1 else d)
  | .rail k =>
    if 1 ≤ k && k ≤ 10 then
      onDie x s (fun d =>
        let d := d.wr R.PWR_SUP_STAT (BitVec.ofNat 32 (putBit (d.rd R.PWR_SUP_STAT).toNat k true))
        if k = 9 then d.setDoms (2 ^ 78) else d)
    else s

/-! ### Start-up (R292, R363 to R366, R379, R417) -/

/-- PWRGOOD_RISE: straps are sampled; WARM-UP, unless a third restart of R340 holds the device in COLD. -/
def State.pwrgoodRise (s : State) (mode devid pulls : Nat) : State :=
  if s.d0.pwr.good then s
  else
    let s := onBoth s (fun d => { d with pwr := { d.pwr with
      good := true, stuck := false, streak := 0, mode := mode % 8, devid := devid % 16, pulls := pulls } })
    if s.d0.dev = 0 then onBoth s (fun d => d.toWarm 1 false) else s

/-- PWRGOOD_FALL. -/
def State.pwrgoodFall (s : State) : State :=
  (onBoth s (fun d => { d with pwr := { d.pwr with good := false, stuck := false } })).cutOff

/-- PLL_LOCK: MT starts counting and host streams are accepted (R292, R367). -/
def DieSt.pllsLock (d : DieSt) : DieSt :=
  if d.dev = 1 && !d.pwr.pll then
    { d.put F.CFG_STAT_HOST_RDY 1 with pwr := { d.pwr with pll := true }, mtm := { d.mtm with on := true } }
  else d

/-- Does the boot ROM accept a package (R417). -/
def DieSt.fwOk (d : DieSt) (p : FwPkg) : Bool :=
  decide (p.length ≤ 196608) && decide (p.epoch ≤ 64) && decide (d.fuse.fwMin ≤ p.epoch) &&
  match p.root with
  | some k => decide (k < 2) && !bit (d.f F.REF_KEYS_ROM_REVOKED) k
  | none => false

/-- Latch a load error (R372): the first one holds; CFG_ERROR is always raised. -/
def DieSt.cfgError (d : DieSt) (code addr region : Nat) : DieSt :=
  let d := if d.on F.CFG_ERR_VALID then d
    else ((d.put F.CFG_ERR_VALID 1).put F.CFG_ERR_CODE code).wr R.CFG_ERR_ADDR (BitVec.ofNat 32 addr)
  d.raise 0x704 0x0E02 (code * 2 ^ 16 + region)

/-- The Referee runs a package from now on: FW_MIN rises to its epoch, and the ROM root keys it revokes are revoked (R417, Table 16-6). -/
def DieSt.runFw (d : DieSt) (p : FwPkg) : DieSt :=
  let d : DieSt := { d with
    fuse := { d.fuse with fwMin := max d.fuse.fwMin p.epoch }, load := { d.load with fw := some p }, nvm := { d.nvm with staged := none } }
  ((d.put F.REF_FW_VERSION p.version).put F.REF_FW_MIN d.fuse.fwMin).put F.REF_KEYS_ROM_REVOKED
    (Nat.lor (d.f F.REF_KEYS_ROM_REVOKED) (p.revoke % 4))

/-- The Referee boots: security epoch, versions, the Career record and the trial flag (R408, R417, R420). -/
def DieSt.refBoot (d : DieSt) (p : FwPkg) : DieSt :=
  let d := (d.runFw p).put F.REF_STAT_STATE 1
  let d := if d.sel.trial then d.selWrite d.sel.slot false d.sel.trialSlot else d
  d.careerStart

/-- The first start of the record counts: a start from COLD, or a warm resume. -/
def DieSt.countStart (d : DieSt) : DieSt := if d.on F.PWR_STATE_RESUMED then d.car 32 4 1 else d.car 28 4 1

/-- The header fields kept in the Umpire domain, at the start of LOAD on resume (R348). -/
def DieSt.keptHeader (d : DieSt) (h : HdrKept) : DieSt :=
  let d := ((d.put F.PACE_CFG_ADDR h.pmbAddr).put F.PACE_LIMIT_VMIN h.vmin).put F.PACE_LIMIT_VMAX h.vmax
  let d := (List.range 4).foldl (fun d c =>
    d.wr (R.DMC_CFG c) (BitVec.ofNat 32 (nth 0 h.dmc c % 256 * 2 ^ 24 + (d.rd (R.DMC_CFG c)).toNat % 2 ^ 24))) d
  let d := ((d.put F.SUB_STORE_CH (bits h.store.toNat 31 30)).put F.SUB_STORE_BASE (bits h.store.toNat 23 12)).put F.SUB_STORE_SIZE
    (bits h.store.toNat 11 0)
  let on := (List.range 76).filter (fun k => bit h.domains k && d.hasDom k && !d.domOn k)
  let d := on.foldl (fun d k => d.domGain k) d
  ({ d with hdrOk := true } : DieSt).dramTrain.govStart

/-- The directory entries of a TYPE (R364). -/
def dirEntries (dir : List Nat) (type : Nat) : List Nat := (List.range 16).filter (fun k => dirType dir k == type)

/-- FLAGS of directory entry `k`: bit 0 SELF, bit 1 SEND, bit 2 FALLBACK. -/
def dirFlags (dir : List Nat) (k : Nat) : Nat := nth 0 dir (16 * k + 1)

/-- The first firmware entry, and the first FALLBACK firmware entry behind it (R366). -/
def DieSt.fwEntry (d : DieSt) : Option Nat := (dirEntries d.load.dir 1).head?
def DieSt.fwFallback (d : DieSt) : Option Nat := ((dirEntries d.load.dir 1).drop 1).find? (fun k => bit (dirFlags d.load.dir k) 2)

/-- The read of the fast mode (Table 14-7). -/
def DieSt.nvmRead (d : DieSt) (addr : Nat) : XspiCmd :=
  { d.fastCmd (if d.load.fast = .octal then 0xEE else 0xEC) (some addr) [] with dummy := d.load.dummy }

/-- Is the source an NVM of CFG_MODE 0, 1 or 5. -/
def DieSt.nvmMode (d : DieSt) : Bool := d.pwr.mode == 0 || d.pwr.mode == 1 || d.pwr.mode == 5

/-- Is the firmware read from the NVM: in CFG_MODE 0, 1 and 5, and on every warm resume (R350, R366). -/
def DieSt.fwFromNvm (d : DieSt) : Bool := d.nvmMode || d.on F.PWR_STATE_RESUMED

/-- The package the loader runs: the first firmware entry of the directory, `fw`, or a FALLBACK one once its check fails (R366); in a
host mode the one the stream brought.  On a warm resume in a host mode the directory need not list the package (log entry 187). -/
def DieSt.fwPick (d : DieSt) (fw : FwPkg) (alt : Option FwPkg) : Option FwPkg :=
  if !d.fwFromNvm then d.load.fw
  else if (!d.nvmMode || d.fwEntry.isSome) && d.fwOk fw then some fw
  else if !d.nvmMode || d.fwFallback.isSome then alt.filter (fun a => d.fwOk a)
  else none

/-- The check of the first firmware entry has failed: the FALLBACK entry is read (R366, Table 14-7). -/
def DieSt.fwAgain (d : DieSt) (fw : FwPkg) : DieSt :=
  match d.fwFallback with
  | some k => if d.nvmMode && !d.fwOk fw then d.onNvmBus [d.nvmRead (dirOffset d.load.dir k)] else d
  | none => d

/-- The PLLs are locked and the boot block is read: the boot ROM may run, unless it has already found no good package. -/
def DieSt.bootReady (d : DieSt) : Bool := d.dev == 1 && d.pwr.pll && d.load.boot && !d.load.fwBad

/-- No package passes its check: the device stays in WARM-UP with FW_AUTH (R339, R366). -/
def DieSt.fwFail (d : DieSt) (fw : FwPkg) (alt : Option FwPkg) : DieSt :=
  if d.fwFromNvm && (d.fwPick fw alt).isNone then
    { (d.fwAgain fw).cfgError 1 0 0 with load := { ((d.fwAgain fw).cfgError 1 0 0).load with fwBad := true } }
  else d

/-- Why a wake makes a full start (Table 13-10); 0 where it does not, or where the start is no wake. -/
def DieSt.wakeReason (d : DieSt) (digestOk storeOk : Bool) : Nat :=
  if !d.on F.PWR_STATE_RESUMED then 0
  else if d.pwr.kept.isNone || d.pwr.hdr.isNone then 1
  else if !digestOk then 2
  else if !storeOk then 3
  else 0

/-- A die enters LOAD with its firmware; a warm resume takes the kept header and goes on from the save, a full start after a wake
raises RESUME_FULL (R348, R350). -/
def DieSt.bootLoad (d : DieSt) (fw : FwPkg) (alt : Option FwPkg) (reason : Nat) : DieSt :=
  match d.fwPick fw alt with
  | none => d
  | some p =>
    let d := (d.fwAgain fw).toLoad.refBoot p
    if !d.on F.PWR_STATE_RESUMED then d.countStart
    else if reason ≠ 0 then (d.resumeFull reason).countStart
    else
      match d.pwr.kept, d.pwr.hdr with
      | some k, some h =>
        let d := ((d.keptCareer k).countStart.keptHeader h).put F.CFG_STAT_STORE_OK 1
        { d with load := { d.load with took := true, loaded := true } }
      | _, _ => d

/-- WARM_UP_DONE: both dies leave WARM-UP together, each with firmware that its boot ROM has verified, and a wake is a warm resume on
both dies or on none (Table 13-6, R342, R350, R366).  A package that REF_FW_STAGE has staged is the first firmware entry (R419). -/
def State.warmUpDone (s : State) (fw : FwPkg) (alt : Option FwPkg) (digestOk storeOk : Bool) : State :=
  if !s.d0.bootReady || !(s.d1.idn.absent || s.d1.bootReady) then s
  else if s.d0.pwr.mode = 7 then onBoth s (fun d => (d.setState 8 3).put F.MT_CFG_ROOT 1)
  else if s.d0.pwr.mode = 6 then onBoth s (fun d => d.cfgError 3 0 0)
  else
  let fw := s.d0.nvm.staged.getD fw
  if (s.d0.fwPick fw alt).isNone || (!s.d1.idn.absent && (s.d1.fwPick fw alt).isNone) then onBoth s (fun d => d.fwFail fw alt)
  else
    let r0 := s.d0.wakeReason digestOk storeOk
    let r := if r0 = 0 && !s.d1.idn.absent then s.d1.wakeReason digestOk storeOk else r0
    onBoth s (fun d => d.bootLoad fw alt r)

/-- The conditions of LINE-UP on one die (Table 13-6, R379). -/
def DieSt.lineUpReady (d : DieSt) : Bool :=
  d.dev == 2 && d.load.loaded && d.pwr.kept.isNone && !d.load.teamDue && d.loadedConverged
  && (List.range 4).all (fun c => !d.on (F.DMC_CFG_EN c) || d.chReady c || d.f (F.DMC_STAT_STATE c) == chFailed)
  && (d.on F.MT_CFG_ROOT || d.mtPort.isNone || d.on F.MT_STAT_LOCKED)
  && (List.range d.idn.banks).all (fun b => !d.on (F.PIN_BANK_PLL_EN b) || d.on (F.PIN_BANK_STAT_LOCK b))

/-- The image store takes the image, or does not (R373): it is large enough and its channel is READY. -/
def DieSt.storeWrite (d : DieSt) : DieSt :=
  let c := d.f F.SUB_STORE_CH
  if d.f F.SUB_STORE_NEED ≤ d.f F.SUB_STORE_SIZE && d.chReady c then d.put F.CFG_STAT_STORE_OK 1
  else (d.put F.CFG_STAT_STORE_OK 0).raiseIf (bit (d.f F.CFG_EVT_EN_EN) 2) 0x704 0x0E04 (c * 2 ^ 22)

/-- LOAD_DONE on one die. -/
def DieSt.loadDone (d : DieSt) : DieSt :=
  let d := if d.on F.PWR_STATE_RESUMED then d.put F.PWR_STATE_SAVE_OK 0
    else d.storeWrite.raiseIf (bit (d.f F.CFG_EVT_EN_EN) 0) 0x704 0x0E01 0
  d.toLineUp

/-- The saved contents are restored once the channels of the image store and of the save area can be read (Table 13-8,
steps 5 to 8). -/
def DieSt.restoreDue (d : DieSt) : DieSt :=
  if d.dev == 2 && d.on F.PWR_STATE_RESUMED && d.load.loaded && d.chReady (d.f F.PWR_SAVE_CH) && d.storeUp then d.restore.dupCheck else d

/-- LOAD_DONE: both dies reach LINE-UP together (R370); on a warm resume the restore comes first, and the calibrators of what
it loads converge before LINE-UP (R121, Table 13-8). -/
def State.loadDone (s : State) : State :=
  let s := onBoth s.resumeCheck (fun d => d.restoreDue)
  if s.d0.lineUpReady && (s.d1.idn.absent || s.d1.lineUpReady) then onBoth s (fun d => d.loadDone) else s

/-- PLAY_INSTANT: MT reaches the PLAY instant (R343, R378). -/
def State.playInstant (s : State) : State :=
  match s.d0.mtm.playAt with
  | some t => if s.d0.dev = 3 && decide (t ≤ s.d0.mt.toNat) then onBoth s (fun d => d.toPlay) else s
  | none => s

/-! ### The commands -/

/-- PWRGOOD_RISE (R339). -/
def execPwrgoodRise (mode devid pulls : Nat) (s : State) : Out := .next (s.pwrgoodRise mode devid pulls)

/-- PWRGOOD_FALL (R339). -/
def execPwrgoodFall (s : State) : Out := .next s.pwrgoodFall

/-- SUPPLY_LOSS (R333). -/
def execSupplyLoss (x : Die) (k : Supply) (s : State) : Out := .next (s.supplyLoss x k)

/-- SUPPLY_RETURN (R333). -/
def execSupplyReturn (x : Die) (k : Supply) (s : State) : Out := .next (s.supplyReturn x k)

/-- PLL_LOCK (R292). -/
def execPllLock (s : State) : Out := actBoth s (fun d => d.pllsLock)

/-- WARM_UP_DONE (R339). -/
def execWarmUpDone (fw : FwPkg) (alt : Option FwPkg) (digestOk storeOk : Bool) (s : State) : Out :=
  .next (s.warmUpDone fw alt digestOk storeOk)

/-- LOAD_DONE (R379). -/
def execLoadDone (s : State) : Out := .next s.loadDone

/-- PLAY_INSTANT (R378). -/
def execPlayInstant (s : State) : Out := .next s.playInstant

/-- FULLTIME_N_LOW (R342): the destination is COLD. -/
def execFulltimeNLow (s : State) : Out := .next (s.fire (.fullTime 6 false)).1

/-- PWR_FULL_TIME (R346). -/
def execPwrFullTime (x : Die) (m : Master) (half : Bool) (s : State) : Out := .next (s.pwrCmd x m (.fullTime 7 half))

/-- PWR_HALF_TIME (R349). -/
def execPwrHalfTime (x : Die) (m : Master) (s : State) : Out := .next (s.pwrCmd x m .halfTime)

/-- PWR_RECOVERY (R344). -/
def execPwrRecovery (x : Die) (m : Master) (s : State) : Out := .next (s.pwrCmd x m (.recovery 13))

/-- PWR_RESUME (R345). -/
def execPwrResume (x : Die) (m : Master) (s : State) : Out := .next (s.pwrCmd x m .resume)

/-- PWR_RESTART (R339). -/
def execPwrRestart (x : Die) (m : Master) (s : State) : Out := .next (s.pwrCmd x m .restart)

/-- RESUME_INSTANT (R345). -/
def execResumeInstant (s : State) : Out := .next s.resumeInstant

/-- RECOVERY_LIMIT (R345). -/
def execRecoveryLimit (s : State) : Out := .next s.recoveryLimit

/-- DIE1_SILENT (R340). -/
def execDie1Silent (s : State) : Out := .next (if s.d1.idn.absent then s else s.badCause 17)

/-- TRANSITION_END (R341). -/
def execTransitionEnd (saveOk carOk : Bool) (s : State) : Out := .next (s.transitionEnd saveOk carOk)

/-- DOMAIN_ON (R334). -/
def execDomainOn (x : Die) (m : Master) (k : Nat) (s : State) : Out :=
  act x s (fun d => d.busAct m R.PWR_DOM_CMD (fun d => (d.domainOn (k % 128)).1))

/-- DOMAIN_OFF (R334). -/
def execDomainOff (x : Die) (m : Master) (k : Nat) (s : State) : Out :=
  act x s (fun d => d.busAct m R.PWR_DOM_CMD (fun d => (d.domainOff (k % 128)).1))

/-- DOMAIN_READY (R335). -/
def execDomainReady (x : Die) (s : State) : Out := act x s (fun d => d.domainReady)

/-- CALIBRATION_SLOT (R260, R261). -/
def execCalibrationSlot (x : Die) (c rank : Nat) (kind : CalKind) (ok c0waits : Bool) (s : State) : Out :=
  act x s (fun d => d.calSlot c rank kind ok c0waits)

/-- CHANNEL_TRAINING_END (R268, R269): a configuration that Table 10-2 does not allow is refused (cause 2). -/
def execChannelTrainingEnd (x : Die) (c : Nat) (res : TrainRes) (s : State) : Out :=
  .next (onDie x s (fun d => d.chTrained c res)).resumeCheck

/-- DRAM_CH_FAIL (R269): three retraining slots have failed on every rank, or VDDQ is lost. -/
def execDramChFail (x : Die) (c cause : Nat) (s : State) : Out :=
  .next (onDie x s (fun d =>
    if d.dmcOn c && ((cause = 3 && d.chReady c && d.trainLost c) || (cause = 4 && !bit (d.f F.PWR_SUP_STAT_VDDQ) c)) then d.chFail c cause
    else d)).resumeCheck

/-- POST_PACKAGE_REPAIR_END (R267). -/
def execPostPackageRepairEnd (x : Die) (c k : Nat) (ok : Bool) (s : State) : Out := act x s (fun d => d.pprEnd c k ok)

end Sys2Proof.Machine
end

