-- ==== Sys2Proof/Machine/Load.lean ====
section
/-! DEFINITION. Configuration: the boot block, the stream and its records, the image header, body frames, staged partial
loads, read-back, and KICKOFF_N (R355 to R383).  A command of the stream reaches both dies of a package; each acts on its
own die's frames (R370).  Digests, signatures and tags are checked by comparing what the command says was computed. -/

namespace Sys2Proof.Machine

/-! ### Error codes (Table 14-9) -/

def ceFwAuth : Nat := 0x01
def ceNvm : Nat := 0x02
def ceHeader : Nat := 0x03
def ceKey : Nat := 0x04
def ceSignature : Nat := 0x05
def ceDigest : Nat := 0x06
def ceDecrypt : Nat := 0x07
def ceReadbackFlag : Nat := 0x08
def ceMismatch : Nat := 0x09
def ceFrameAddr : Nat := 0x0A
def ceOutOfRegion : Nat := 0x0B
def ceReservedSelect : Nat := 0x0C
def ceRingSig : Nat := 0x0D
def cePinClaim : Nat := 0x0E
def ceNoBench : Nat := 0x0F
def ceStream : Nat := 0x10
def ceTimeout : Nat := 0x11
def ceBench : Nat := 0x12
def ceStore : Nat := 0x13
def ceAborted : Nat := 0x14
def ceNotSelected : Nat := 0x15

/-! ### The boot block (R364) -/

/-- A copy of the boot block is right: its CRC agrees (R364). -/
def bootOk (b : List Nat) : Bool := b.length == 300 && ofBytes (b.drop 296) == crc32 (b.take 296)

/-- IFACE agrees with CFG_MODE 0, 1 and 5. -/
def bootFits (mode : Nat) (b : List Nat) : Bool :=
  if mode = 0 || mode = 5 then nth 0 b 4 == 0 else if mode = 1 then nth 0 b 4 == 1 else true

/-- Entry command `k` of a boot block, write enable first (Table 14-6, Table 14-7; log entry 152). -/
def entryCmd (b : List Nat) (k : Nat) : List XspiCmd :=
  let e := slice b (8 + 8 * k) 8
  [singleCmd 0x06 none [], singleCmd (nth 0 e 0) (if bit (nth 0 e 6) 0 then some (ofBytes (slice e 1 4)) else none)
    (if bit (nth 0 e 6) 1 then [nth 0 e 5] else [])]

/-- What the device sends the NVM in WARM-UP: reset, the read of a copy of the boot block, or of both, and the entry
sequence of the copy in use (R364, Table 14-7). -/
def bootCmds (second : Bool) (b : List Nat) : List XspiCmd :=
  [singleCmd 0x66 none [], singleCmd 0x99 none [], singleCmd 0x13 (some 0) []]
  ++ (if second then [singleCmd 0x13 (some 0x10000) []] else [])
  ++ (List.range (min 4 (nth 0 b 7))).flatMap (entryCmd b)

/-- In CFG_MODE 0, 1 and 5 the loader reads the first firmware entry in the fast mode (R366). -/
def DieSt.firmwareRead (d : DieSt) : DieSt :=
  match d.fwEntry with
  | some k => if d.nvmMode then d.onNvmBus (d.nvm.bus ++ [d.nvmRead (dirOffset d.load.dir k)]) else d
  | none => d

/-- NVM_BOOT: the memory is reset, the boot block read and the entry sequence sent. -/
def DieSt.nvmBoot (d : DieSt) (bootA bootB : List Nat) (teamA teamB : Option TeamImg) : DieSt :=
  if d.dev ≠ 1 || d.load.boot then d
  else
    let b := if bootOk bootA then some bootA else if bootOk bootB then some bootB else none
    match b with
    | some b =>
      let d := d.onNvmBus (bootCmds (!bootOk bootA) (if bootFits d.pwr.mode b then b else []))
      if bootFits d.pwr.mode b then
        ({ d with
            load := { d.load with
              boot := true, dir := (b.drop 40).take 256, fast := if nth 0 b 4 = 0 then .octal else .quad, fastMhz := nth 0 b 5, dummy := nth 0 b 6 }
            ref := { d.ref with slotImg := (Tab.empty.set (fun _ => none) 0 teamA).set (fun _ => none) 1 teamB } } : DieSt).firmwareRead
      else d.cfgError ceNvm 0 0
    | none => (d.onNvmBus (bootCmds true [])).cfgError ceNvm 0 0

/-! ### The stream (R355, R356, R366) -/

/-- A full load is over on this die: every region written is blank again and no detour set leads there (R372), and nothing is claimed
for its pin plan any more. -/
def DieSt.loadDrop (d : DieSt) : DieSt :=
  let d := d.put F.CFG_STAT_LSTATE 6
  let d := d.load.written.foldl (fun d r =>
    let d := if isBench r then d.setDetour r 63 else d
    if d.regionOn r then d.blankRegion r else d) d
  let d := d.load.list.foldl (fun d e => d.put (F.RGN_STAT_AT e.region) 63) d
  let rows := d.load.rowsWritten
  { d with
    fab := { d.fab with rowFrames := d.fab.rowFrames.keep (fun k => !rows.contains (k / 1024)) }
    plan := [], claims := ⟨d.claims.cells.filter (fun c => c.2 != claimPinPlan)⟩
    load := { d.load with
      inStream := false, hdr := none, skip := 0, recs := [], teamWait := false, failed := true, took := false, loaded := false
      teamDue := false, written := [], rowsWritten := [], list := [], place := Tab.empty } }.placeBridge

/-- A full load ends in error: the first code holds (R372). -/
def DieSt.loadError (d : DieSt) (code addr region : Nat) : DieSt := (d.cfgError code addr region).loadDrop

/-- Is this die's load over while the other's goes on. -/
def DieSt.leftBehind (d other : DieSt) : Bool :=
  !d.idn.absent && !other.idn.absent && (d.dev == 1 || d.dev == 2) && other.f F.CFG_STAT_LSTATE == 6 && d.f F.CFG_STAT_LSTATE != 6

/-- One stream loads both dies: a load that ends in error on one die is over on the other too, whose own CFG block shows state ERROR
and latches no code (R370; DEDUCED, log entry 194). -/
def State.loadTogether (s : State) : State :=
  let a := onDie .die0 s (fun d => if d.leftBehind s.d1 then d.loadDrop else d)
  onDie .die1 a (fun d => if d.leftBehind s.d0 then d.loadDrop else d)

/-- A command of the stream acts on both dies. -/
def actStream (s : State) (g : DieSt → DieSt) : Out := .next (onBoth s g).loadTogether

/-- The error of a record that stands where it may not: STREAM, at the byte offset. -/
def DieSt.streamError (d : DieSt) : DieSt := d.loadError ceStream d.load.off 0

/-- Count stream bytes. -/
def DieSt.advance (d : DieSt) (n : Nat) : DieSt := { d with load := { d.load with off := d.load.off + n, lastAt := d.now } }

/-- Have `n` stream bytes from `off` come: in CFG_MODE 4 the CONFIG messages bring them (R369). -/
def DieSt.bytesHere (d : DieSt) (off n : Nat) : Bool := d.pwr.mode != 4 || decide (off + n ≤ d.load.cfgBytes)

/-- Does a stream record of `n` bytes reach this die: a stream is under way, in WARM-UP or LOAD. -/
def DieSt.streaming (d : DieSt) (n : Nat) : Bool := d.load.inStream && (d.dev == 1 || d.dev == 2) && d.bytesHere d.load.off n

/-- A record of `n` stream bytes.  While bytes of an image that the device does not take are still to come it is part of them and
skipped; one that would reach beyond their end leaves no record boundary, and is a record of no TYPE of Table 14-1 (R355, R356). -/
def DieSt.onRecord (d : DieSt) (n : Nat) (g : DieSt → DieSt) : DieSt :=
  if !d.streaming n then d
  else if d.load.skip = 0 then g d
  else if n ≤ d.load.skip then { d.advance n with load := { (d.advance n).load with skip := d.load.skip - n } }
  else d.streamError

/-- The stream entry that an NVM stream is read from: the first with SELF, and with FALLBACK on the second attempt only (R366). -/
def DieSt.selfEntry (d : DieSt) (second : Bool) : Option Nat :=
  (dirEntries d.load.dir 4).find? (fun k => bit (dirFlags d.load.dir k) 0 && bit (dirFlags d.load.dir k) 2 == second)

/-- The read of that entry. -/
def DieSt.streamRead (d : DieSt) : DieSt :=
  match d.selfEntry (d.on F.CFG_STAT_ALT) with
  | some k => if d.nvmMode then d.onNvmBus [d.nvmRead (dirOffset d.load.dir k)] else d
  | none => d

/-- SYNC: accepted while HOST_RDY is 1 and no image has been loaded; an NVM stream is an entry of the directory and is tried twice
(R366).  A SYNC after a whole image was taken is ignored (DESIGN CHOICE, log entry 55). -/
def DieSt.sync (d : DieSt) : DieSt :=
  if !(d.dev == 1 || d.dev == 2) || !d.on F.CFG_STAT_HOST_RDY || d.load.loaded || !d.bytesHere 0 8
      || (d.nvmMode && (d.on F.CFG_STAT_ALT || (d.selfEntry d.load.failed).isNone)) then d
  else
    let d := d.put F.CFG_ERR_VALID 0
    let d := if d.nvmMode && d.load.failed then d.put F.CFG_STAT_ALT 1 else d
    let d := (d.put F.CFG_STAT_LSTATE (if d.load.fw.isSome then 2 else 1)).streamRead
    { d with load := { d.load with
      inStream := true, sel := true, took := false, hdrSeen := false, hdr := none, skip := 0, off := 8, body := 0
      blk := 0, recs := [], teamDue := false, lastAt := d.now } }

/-- SELECT: the body of an image is no place for it. -/
def DieSt.selectDev (d : DieSt) (all : Bool) (mask : Nat) : DieSt :=
  if d.load.teamDue || d.load.hdr.isSome then d.streamError
  else { d.advance 8 with load := { (d.advance 8).load with sel := all || bit mask d.pwr.devid } }

/-- FIRMWARE (R356, R417). -/
def DieSt.firmware (d : DieSt) (p : FwPkg) : DieSt :=
  if !d.load.sel && d.load.hdr.isNone then d.advance (8 + p.length)
  else if d.load.hdrSeen || d.load.teamDue || !(2 ≤ d.pwr.mode && d.pwr.mode ≤ 4) then d.streamError
  else if d.dev = 1 then
    if d.fwOk p then { d.advance (8 + p.length) with load := { (d.advance (8 + p.length)).load with fw := some p } }
    else (d.cfgError ceFwAuth d.load.off 0).advance (8 + p.length)
  else d.advance (8 + p.length)

/-! ### The image header (R357, R19, R22, R311, R371) -/

/-- The signing key is fused in its slot and not revoked (R361). -/
def DieSt.keyOk (d : DieSt) (h : ImgHdr) : Bool :=
  decide (h.keySlot < 4) && bit (d.f F.REF_KEYS_PROG) h.keySlot && !bit (d.f F.REF_KEYS_REVOKED) h.keySlot
  && d.fuse.sigKey.get (fun _ => none) h.keySlot == some h.keyDigest

/-- The checks every image passes first: form, key, signature, and the read-back flag (R357, R361, R362). -/
def DieSt.hdrCode (d : DieSt) (h : ImgHdr) (kind : Nat) : Nat :=
  if !h.formOk || h.kind ≠ kind || 3 ≤ h.pkg then ceHeader
  else if !d.keyOk h then ceKey
  else if !h.sigOk then ceSignature
  else if h.encrypted && !h.noReadback then ceReadbackFlag
  else 0

/-- A pair stands in one row: another PAIRED entry of the row has the same signature (R387). -/
def pairOk (l : List RgnEntry) (e : RgnEntry) : Bool :=
  !e.paired || (l.filter (fun f => f.paired && f.die == e.die && f.sig == e.sig && f.region != e.region)).map
    (fun f => f.region / 44) == [e.region / 44]

/-- Does the header use only what this die has (R19, R22, R330): a set bit of DOMAINS uses its domain, and UP_PORT names a
port used unless the image makes the device the MT root (DEDUCED, log entry 83). -/
def DieSt.hdrFits (d : DieSt) (h : ImgHdr) : Bool :=
  h.pkg == d.idn.pkg && decide (h.rows ≤ d.idn.rows) && (!h.met || d.idn.met || d.idn.die == 1)
  && h.regions.all (fun e => (e.die == 0 || d.idn.twin) && decide (e.region / 44 < h.rows) && pairOk h.regions e)
  && h.bankTable.all (fun e => (e.die == 0 || d.idn.twin) && (e.die != d.idn.die || decide (e.bank < d.idn.banks)))
  && h.pinPlan.all (fun e => (e.die == 0 || d.idn.twin) && (e.die != d.idn.die ||
      (decide (e.pin < d.pins) && d.on (F.PIN_BANK_STAT_VCCIO_OK (e.pin / 48)) && !d.pinAbsent e.cfg)))
  && (List.range 4).all (fun c => !bit (nth 0 h.dmc (4 * d.idn.die + c)) 7 || decide (c < d.idn.ddr))
  && (List.range 80).all (fun k => !bit (if d.idn.die = 0 then h.domains0 else h.domains1) k || d.hasDom k)
  && (h.mtRoot || decide (h.upPort < d.idn.slk))

/-- The pin plan claims nothing twice, nothing another holds, and gives no pin a function its owner may not hold (R309,
R311, R446). -/
def DieSt.planOk (d : DieSt) (h : ImgHdr) : Bool :=
  let l := h.pinPlan.filter (fun e => e.die == d.idn.die)
  l.all (fun e => d.claim e.pin == 0 && (pinUses e.cfg).toList.all (fun r => d.claim r == 0) && d.pinRule e.pin e.cfg && (l.filter (fun f => f.pin == e.pin)).length == 1
    && !d.pulsePins.any (fun p => p.1 == e.pin))

/-- A bench of a row free for a personality of this load, lowest position first (R371). -/
def DieSt.freeBench (d : DieSt) (row : Nat) (used : List Nat) : Option Nat :=
  ([10, 21, 32, 43].map (fun p => 44 * row + p)).find? (fun r =>
    d.rgState r == rgBlank && d.regionOn r && !d.quarHas 1 r && !used.contains r)

/-- Place one entry: at home, or on a bench if the home is quarantined; `none` when there is no bench. -/
def DieSt.placeOne (d : DieSt) (e : RgnEntry) : Option Nat :=
  if d.quarHas 1 e.region then d.freeBench (e.region / 44) (d.load.written) else some e.region

/-- Take one region table entry: its target region is LOADING and empty; the home of a relocated one is QUARANTINED.  An OPTIONAL one
with no bench raises CFG_ERROR and latches nothing: the load does not end (R371, R372). -/
def DieSt.placeEntry (d : DieSt) (e : RgnEntry) : DieSt × Nat :=
  match d.placeOne e with
  | none => if e.optional then ((d.put (F.RGN_STAT_STATE e.region) rgQuarantined).raise 0x704 0x0E02 (ceNoBench * 2 ^ 16 + e.region), 0) else (d, ceNoBench)
  | some t =>
    let d := if t = e.region then d else (d.put (F.RGN_STAT_STATE e.region) rgQuarantined).setDetour t (e.region % 44)
    let d := if d.regionOn t then (d.blankRegion t).put (F.RGN_STAT_STATE t) rgLoading else d
    ({ d with load := { d.load with
        written := d.load.written ++ [t], list := d.load.list ++ [e], place := d.load.place.set (fun _ => 0) e.region (t + 1)
        sig := d.load.sig.set (fun _ => 0) e.region (e.sig + 1) } }, 0)

/-- Place entries until one has no place. -/
def DieSt.placeAll (d : DieSt) : List RgnEntry → DieSt × Nat
  | [] => (d, 0)
  | e :: r =>
    let x := d.placeEntry e
    if x.2 = 0 then x.1.placeAll r else x

/-- The reduced start-up test (R407), also on a first start with an empty map (`fresh`, R25): its failures on this die, whose
bit 15 of the index names the die, are quarantined before placement. -/
def DieSt.reducedTest (d : DieSt) (bad : List TestFail) (ms : Nat) (fresh : Bool) : DieSt :=
  if d.on F.PWR_STATE_FTT_SKIPPED || fresh then
    let l := bad.filter (fun f => f.kind == 1 && f.index / 2 ^ 15 == d.idn.die && d.hasRegion (f.index % 2 ^ 15))
    let d := l.foldl (fun d f =>
      let r := f.index % 2 ^ 15
      (if d.regionOn r then d.put (F.RGN_STAT_STATE r) rgQuarantined else d).quarAdd 1 2 r f.detail) d
    ((d.put F.FTT_REDUCED_RAN 1).put F.FTT_REDUCED_FAIL (b2n !l.isEmpty)).put F.FTT_REDUCED_MS ms
  else d

/-- VMIN and VMAX lie within 600 mV to 850 mV (R127); a header that says otherwise is held to that (DESIGN CHOICE, log
entry 158). -/
def limitMv (mv : Nat) : Nat := max 600 (min 850 mv)

/-- What the header loads into registers (Table 14-2, R129, R279, R294). -/
def DieSt.hdrRegs (d : DieSt) (h : ImgHdr) : DieSt :=
  let d := if d.pwr.mode = 4 then d else d.setPrefix (h.slkPrefix % 128)
  let d := (d.put F.CFG_KICK_KSYS (b2n h.ksys)).put F.SLK_CFG_KROOT (b2n h.kroot)
  let d := if d.on F.MT_CFG_ROOT then d else d.put F.MT_CFG_ROOT (b2n h.mtRoot)
  let d := if d.pwr.mode = 4 then d else d.put F.MT_CFG_UP_PORT h.upPort
  let d := h.groups.foldl (fun d g =>
    if 0x880 ≤ g && g ≤ 0xFFE then
      let a := R.SLK_GROUP ((g - 0x800) / 32)
      d.wr a (BitVec.ofNat 32 (putBit (d.rd a).toNat ((g - 0x800) % 32) true))
    else d) d
  let d := (List.range 16).foldl (fun d i => d.wr (R.PACE_MON_TGT i) (nth 0 h.monitors i)) d
  let st := if d.idn.die = 0 then h.store0 else h.store1
  let k : HdrKept := {
    pmbAddr := if h.pmbAddr = 0 then 0x20 else h.pmbAddr % 128
    vmin := if h.vmin = 0 then 600 else limitMv h.vmin
    vmax := if h.vmax = 0 then 850 else limitMv h.vmax
    dmc := (List.range 4).map (fun c => nth 0 h.dmc (4 * d.idn.die + c))
    domains := if d.idn.die = 0 then h.domains0 else h.domains1
    store := st }
  { d with pwr := { d.pwr with hdr := some k } }

/-- Bank PLL settings and the pin plan wait for their time; the plan's pins, and what their functions use, are claimed (R311, R313,
R324). -/
def DieSt.hdrPins (d : DieSt) (h : ImgHdr) : DieSt :=
  let d := (h.bankTable.filter (fun e => e.die == d.idn.die)).foldl (fun d e => d.wr (R.PIN_BANK_PLL e.bank) e.pll) d
  let l := h.pinPlan.filter (fun e => e.die == d.idn.die)
  let d := l.foldl (fun d e => (e.pin :: (pinUses e.cfg).toList).foldl (fun d r => d.setClaim r claimPinPlan) d) d
  { d with plan := l.map (fun e => ⟨e.pin, e.cfg, e.elec, e.fab⟩) }

/-- Kind 2 quarantine records reload the spare entries of the DRAM channels (R404). -/
def DieSt.spareReload (d : DieSt) : DieSt :=
  d.quar.recs.foldl (fun d r =>
    if r.kind = 2 && r.index / 2 ^ 15 = d.idn.die then d.wr (R.DMC_SPARE (r.index % 4) (r.index / 4 % 64)) (BitVec.ofNat 32 r.detail) else d) d

/-- The loader reads the quarantine map from the record area before it writes a frame (R371). -/
def DieSt.mapRead (d : DieSt) : DieSt := d.onNvmBus [d.nvmRead d.recordArea, d.nvmRead (d.recordArea + 65536)]

/-- HEADER; `fresh`: the quarantine map of the part is empty. -/
def DieSt.header (d : DieSt) (r : HdrRec) (bad : List TestFail) (ms : Nat) (fresh : Bool) : DieSt :=
  let h := readHdr r
  let n := 8 + r.bytes.length
  if d.dev ≠ 2 then d
  else if d.load.teamDue || d.load.hdr.isSome then d.streamError
  else if !d.load.sel || d.load.took then { d.advance n with load := { (d.advance n).load with skip := bodyOnStream h.bodyLen } }
  else
    let code := d.hdrCode h 0
    if code ≠ 0 then d.loadError code d.load.off 0
    else if !d.hdrFits h then d.loadError ceMismatch d.load.off 0
    else if !d.planOk h then d.loadError cePinClaim d.load.off 0
    else
      let d := d.hdrRegs h
      let d := match d.pwr.hdr with
        | some k => d.keptHeader k
        | none => d
      let d := ((d.mapRead.spareReload.reducedTest bad ms fresh).hdrPins h).wr R.CFG_PROG 0
      let d : DieSt := { d with load := { d.load with written := [], rowsWritten := [], list := [], place := Tab.empty, sig := Tab.empty, store := Tab.empty } }
      let r := d.placeAll (h.regions.filter (fun e => e.die == d.idn.die))
      let d := (r.1.put F.CFG_STAT_LSTATE 3).advance n
      if r.2 ≠ 0 then d.loadError r.2 d.load.off 0
      else { d with load := { d.load with hdr := some h, hdrSeen := true, body := 0, blk := 0, want := h.digest0, recs := [] } }

/-! ### Body records (R358 to R361) -/

/-- The frame address of frame `i` of a record. -/
def frameAddr (addr i : Nat) : Nat := addr + 1024 * i

/-- Parts of a frame address. -/
def faDie (a : Nat) : Nat := bits a 31 31
def faRow (a : Nat) : Nat := bits a 30 26
def faPos (a : Nat) : Nat := bits a 25 20
def faIdx (a : Nat) : Nat := bits a 19 10

/-- The address and content of each frame of a record; the index of a record's frames runs on past its 10 bits. -/
def recList (r : BodyRec) : List (Nat × Nat × Nat) :=
  match r with
  | .frames a l => (List.range l.length).map (fun i => (a, faIdx a + i, nth 0 l i % 2 ^ 1024))
  | .zero a n => (List.range n).map (fun i => (a, faIdx a + i, 0))
  | .fill a n v => (List.range n).map (fun i => (a, faIdx a + i, v % 2 ^ 1024))

/-- Bytes of a record. -/
def recBytes (r : BodyRec) : Nat :=
  match r with
  | .frames _ l => 8 + 128 * l.length
  | .zero _ _ => 8
  | .fill _ _ _ => 136

/-- Why a frame of a full image is refused (R79, R81, R112, R360, R72); 0 when it is not.  `a` is the record's address, `ix` the
frame's index. -/
def DieSt.frameCode (d : DieSt) (h : ImgHdr) (a ix v : Nat) : Nat :=
  if a % 1024 ≠ 0 || 45 ≤ faPos a || (faPos a < 44 && 768 ≤ ix) || 736 ≤ ix && faPos a = 44 then ceFrameAddr
  else if h.rows ≤ faRow a || d.idn.rows ≤ faRow a || (faDie a = 1 && !d.idn.twin) then ceMismatch
  else if faPos a = 44 && 720 ≤ ix && !d.idn.twin && Config.bridgeOn ix v then ceMismatch
  else if faPos a < 44 && !h.regions.any (fun e => e.die == faDie a && e.region == 44 * faRow a + faPos a) then ceFrameAddr
  else if faPos a < 44 && ix < 320 && Config.reservedSelect ix v then ceReservedSelect
  else 0

/-- Write one checked frame of this die. -/
def DieSt.putFrame (d : DieSt) (a ix v : Nat) : DieSt :=
  let row := faRow a
  let d := d.bump F.CFG_PROG_FRAMES
  if faPos a = 44 then
    { d with
      fab := { d.fab with rowFrames := d.fab.rowFrames.set (fun _ => Tmr.reset) (1024 * row + ix) ⟨v, v, v⟩ }
      load := { d.load with
        rowsWritten := if d.load.rowsWritten.contains row then d.load.rowsWritten else row :: d.load.rowsWritten
        store := d.load.store.set (fun _ => 0) (1024 * (1408 + row) + ix) v } }
  else
    let home := 44 * row + faPos a
    let t := d.load.place.get (fun _ => 0) home
    if t = 0 then d
    else
      { d with
        fab := { d.fab with frames := d.fab.frames.set (fun _ => 0) (1024 * (t - 1) + ix) v }
        rel := { d.rel with flip := d.rel.flip.set (fun _ => 0) (1024 * (t - 1) + ix) 0 }
        load := { d.load with store := d.load.store.set (fun _ => 0) (1024 * home + ix) v } }

/-- Act on the frames of a record; the first refused frame ends it, with its code and address. -/
def DieSt.actFrames (d : DieSt) (h : ImgHdr) : List (Nat × Nat × Nat) → DieSt × Nat × Nat
  | [] => (d, 0, 0)
  | f :: r =>
    let code := d.frameCode h f.1 f.2.1 f.2.2
    if code ≠ 0 then (d, code, f.1 - 1024 * faIdx f.1 + 1024 * f.2.1)
    else (if faDie f.1 = d.idn.die then d.putFrame f.1 f.2.1 f.2.2 else d).actFrames h r

/-- A body record arrives: it waits until every byte of it has been checked. -/
def DieSt.bodyRec (d : DieSt) (r : BodyRec) : DieSt :=
  d.onRecord (recBytes r) (fun d =>
    match d.load.hdr with
    | none => d.streamError
    | some h =>
      let n := d.load.body + recBytes r
      if h.bodyLen < n || (recList r).isEmpty then d.streamError
      else { d.advance (recBytes r) with load := { (d.advance (recBytes r)).load with body := n, recs := d.load.recs ++ [(n, r)] } })

/-- A body record arrives whole, or a byte of it that a host sent on SSP or PSP beyond the allowance after WAIT_N fell is lost: the load
ends with error STREAM (R474). -/
def DieSt.hostBody (d : DieSt) (r : BodyRec) (lost : Bool) : DieSt :=
  if lost && (d.pwr.mode == 2 || d.pwr.mode == 3) then (if d.streaming 0 then d.streamError else d) else d.bodyRec r

/-- Act on the waiting records that lie whole within the checked blocks. -/
def DieSt.actRecs (d : DieSt) (h : ImgHdr) (upTo : Nat) : List (Nat × BodyRec) → DieSt
  | [] => { d with load := { d.load with recs := [] } }
  | x :: r =>
    if upTo < x.1 then { d with load := { d.load with recs := x :: r } }
    else
      let y := d.actFrames h (recList x.2)
      if y.2.1 ≠ 0 then y.1.loadError y.2.1 y.2.2 (44 * faRow y.2.2 + faPos y.2.2) else y.1.actRecs h upTo r

/-- Is a block's tag right: it verifies under the AES key fused in the header's slot and the IV NONCE followed by the block's number
(R361). -/
def DieSt.tagRight (d : DieSt) (h : ImgHdr) (blk : Nat) (tag : Option (Nat × Nat)) : Bool :=
  match d.fuse.aesKey.get (fun _ => none) h.aesSlot, tag with
  | some k, some t => t == (k, h.nonce * 2 ^ 32 + blk)
  | _, _ => false

/-- BODY_BLOCK_TRAILER (R361). -/
def DieSt.blockTrailer (d : DieSt) (hash next : Nat) (tag : Option (Nat × Nat)) : DieSt :=
  d.onRecord 64 (fun d =>
    match d.load.hdr with
    | none => d.streamError
    | some h =>
      let edge := min h.bodyLen (65536 * (d.load.blk + 1))
      if d.load.body < edge || h.bodyLen ≤ 65536 * d.load.blk then d.streamError
      else if hash ≠ d.load.want then d.loadError ceDigest d.load.off 0
      else if h.encrypted && !d.tagRight h d.load.blk tag then d.loadError ceDecrypt d.load.off 0
      else
        let d := d.advance 64
        { d with load := { d.load with blk := d.load.blk + 1, want := next } }.actRecs h edge d.load.recs)

/-! ### What a load puts into a region -/

/-- Eight registers of an engine's address unit as the image gives them. -/
def fill8 (l : List (BitVec 12)) : Tab (BitVec 12) :=
  ((List.range 8).zip l).foldl (fun (t : Tab (BitVec 12)) x => t.set (fun _ => 0) x.1 x.2) Tab.empty

/-- A region takes what its frames hold: logic, ring cells, memories and the engine's buffers (R79, R80, R90, R140).  Its
engine's latched fault and breakpoint return to their reset values, as every load, reset and substitution has it (R177,
Table 13-4). -/
def DieSt.fillRegion (d : DieSt) (rg home : Nat) : DieSt :=
  let l := d.logic rg
  let buf := Config.seBuffers l
  let e : SeSt := { d.eng rg with
    p := d.imageP rg, x := d.imageXY rg 0, y := d.imageXY rg 1, flip := Tab.empty, ab := fill8 buf.1, al := fill8 buf.2 }
  let des := Config.design home l d.rowsNow
  let d := (((d.setEng rg e).wr (R.SE_FAULT rg) 0).wr (R.SE_BRK rg) 0).wr (R.SE_CFG rg) (BitVec.ofNat 32 (Config.seCfg l))
  let d := d.wr (R.RGN_BM_MODE rg) (BitVec.ofNat 32 (Config.bmModes l % 65536))
  { d with fab := { d.fab with
      design := d.fab.design.set (fun _ => Design.reset) rg des
      bm := d.imageBm rg, bmFlip := d.fab.bmFlip.keep (fun k => decide (k / 2048 ≠ rg)), iso := imageIso rg des.ring d.fab.iso } }

/-- The pace monitors that the frames of region `rg` place count there, each at its unit (R123). -/
def DieSt.placeMons (d : DieSt) (rg : Nat) : DieSt :=
  let mons := (Config.monitors (d.logic rg)).filter (fun i => decide (i.1 < 16))
  { d with pace := { d.pace with
      monRegion := mons.foldl (fun t i => t.set (fun _ => none) i.1 (some rg)) d.pace.monRegion
      monUnit := mons.foldl (fun t i => t.set (fun _ => 0) i.1 i.2) d.pace.monUnit } }

/-- What RGN shows of a loaded region (R114). -/
def DieSt.showRegion (d : DieSt) (rg home pid sig : Nat) (paired : Bool) : DieSt :=
  let d := ((d.wr (R.RGN_PID rg) (BitVec.ofNat 32 pid)).wr (R.RGN_RSIG_LO rg) (BitVec.ofNat 32 sig)).wr (R.RGN_RSIG_HI rg)
    (BitVec.ofNat 32 (sig / 2 ^ 32))
  ((d.put (F.RGN_STAT_STATE rg) rgReady).put (F.RGN_STAT_HOME rg) (home % 44)).put (F.RGN_STAT_PAIRED rg) (b2n paired)

/-- One entry of a loaded full image: its region is READY (R371). -/
def DieSt.entryReady (d : DieSt) (e : RgnEntry) : DieSt :=
  let t := d.load.place.get (fun _ => 0) e.region - 1
  if !d.regionOn t then d
  else
    let d := ((((d.fillRegion t e.region).fabricReset t).placeMons t).showRegion t e.region e.pid e.sig e.paired).put (F.RGN_STAT_AT e.region) (t % 44)
    let mate := d.load.list.find? (fun f => e.paired && f.paired && f.sig == e.sig && f.region != e.region)
    match mate with
    | some f => { d with rel := { d.rel with pair := d.rel.pair.set (fun _ => 0) e.region (f.region + 1) } }
    | none => d

/-- The class, 1 to 3, that the image gives fabric DRAM port `p` of channel `c`; 0 where it places none. -/
def DieSt.imagePort (d : DieSt) (c p : Nat) : Nat :=
  match (Config.dmcPorts d.rowsNow).find? (fun x => x.1 == c && x.2.1 == p) with
  | some x => max 1 (x.2.2 % 4)
  | none => 0

/-- The SLK_CHAN_CFG word the image gives user token channel `c`. -/
def DieSt.imageChan (d : DieSt) (c : Nat) : Option Nat := ((Config.slkChans d.rowsNow).find? (fun x => x.1 == c)).map (fun x => x.2)

/-- The class the image gives user token channel `c`. -/
def DieSt.imageChanClass (d : DieSt) (c : Nat) : Nat := max 1 (bits ((d.imageChan c).getD 0) 29 28)

/-- The most pair comparators that a row of `rows` uses (R387). -/
def DieSt.comparators (d : DieSt) : Nat := (List.range d.idn.rows).foldl (fun n r => max n (Config.comparators d.rowsNow r)) 0

/-- Do the image's frames use only what this die has: DRAM ports of absent channels, absent lanes and banks, user primitives
that Table 09-4 reserves or does not give that width, and more than 48 comparators of a row are refused (R19, R22, R247, R387). -/
def DieSt.placesFit (d : DieSt) : Bool :=
  (Config.dmcPorts d.rowsNow).all (fun x => decide (x.1 < d.idn.ddr))
  && (Config.lanes d.rowsNow).all d.idn.lane
  && (Config.userX d.rowsNow).all (fun x => decide (x.1 / 32 < d.idn.banks) && decide (x.1 % 32 < 17)
    && (decide (8 ≤ x.1 % 32) || (decide (1 ≤ x.2.width) && decide (x.2.width ≤ 72))))
  && decide (d.comparators ≤ 48)

/-- The ports and channels the image places are enabled, and its user primitives and bridge wires are in place (R109, R247). -/
def DieSt.imagePlaces (d : DieSt) : DieSt :=
  let d : DieSt := { d.placeBridge with
    userX := (Config.userX d.rowsNow).foldl (fun (t : Tab (Option UserX)) x => t.set (fun _ => none) x.1 (some x.2)) Tab.empty }
  let d := (List.range d.idn.ddr).foldl (fun d c => (List.range 8).foldl (fun d p =>
    if d.imagePort c p = 0 then d else (d.put (F.DMC_PORT_CFG_EN c p) 1).put (F.DMC_PORT_CFG_CLASS c p) (d.imagePort c p)) d) d
  (List.range 256).foldl (fun d c =>
    match d.imageChan c with
    | some v =>
      let d := ((d.put (F.SLK_CHAN_CFG_EN c) 1).put (F.SLK_CHAN_CFG_DIR c) (bits v 30 30)).put (F.SLK_CHAN_CFG_CLASS c) (d.imageChanClass c)
      (d.put (F.SLK_CHAN_CFG_DEST c) (bits v 23 12)).put (F.SLK_CHAN_CFG_RCH c) (bits v 7 0)
    | none => d) d

/-- CFG_STAT.NO_READBACK after a full load: set by an image with the flag; cleared by one without it only in a start from COLD
(R362). -/
def DieSt.noRbLoad (d : DieSt) (flag : Bool) : DieSt :=
  let v := flag || (d.noRb && !d.pwr.cold)
  { d.put F.CFG_STAT_NO_READBACK (b2n v) with noRb := v }

/-- With ENCRYPTED the image store is encrypted under a key drawn at the load (R362): a free value. -/
def DieSt.storeKeyDraw (d : DieSt) (enc : Bool) : DieSt :=
  if enc then { (d.freeBelow (2 ^ 256)).2 with pwr := { d.pwr with storeKey := some (d.freeBelow (2 ^ 256)).1 } }
  else { d with pwr := { d.pwr with storeKey := none } }

/-- END: the image is complete when its body is, to the byte, and every block has passed. -/
def DieSt.imageEnd (d : DieSt) : DieSt :=
  match d.load.hdr with
  | none => d.advance 8
  | some h =>
    if d.load.body ≠ h.bodyLen || 65536 * d.load.blk < h.bodyLen then d.streamError
    else if !d.placesFit then d.loadError ceMismatch d.load.off 0
    else
      let d := d.load.list.foldl (fun d e => d.entryReady e) (d.advance 8)
      let d := (((d.wr R.CFG_IMG h.imageId).put F.CFG_STAT_ENCRYPTED (b2n h.encrypted)).noRbLoad h.noReadback).storeKeyDraw h.encrypted
      let d := (d.put F.CFG_STAT_LSTATE 4).imagePlaces
      { d with
        tapAt := (Config.taps d.rowsNow).foldl (fun t c => t.set (fun _ => 0) c.1 c.2) d.tapAt
        portAt := (Config.dramEnds d.rowsNow).foldl (fun t c => t.set (fun _ => 0) c.1 c.2) d.portAt
        chanAt := (Config.slkEnds d.rowsNow).foldl (fun t c => t.set (fun _ => 0) c.1 c.2) d.chanAt
        load := { d.load with hdr := none, took := true, loaded := true
                              teamDue := h.teamFollows && decide (2 ≤ d.pwr.mode) && decide (d.pwr.mode ≤ 4) } }

/-- TEAM (R421): the record waits for its channel; until then none of its bytes is taken.  The Referee then copies the image unchecked
into DRAM, through the port of management work. -/
def DieSt.team (d : DieSt) (t : TeamImg) : DieSt :=
  if !d.load.sel && d.load.hdr.isNone then d.advance (8 + t.length)
  else if !d.load.teamDue then d.streamError
  else if !d.chReady t.chan then { d with load := { d.load with teamWait := true, lastAt := d.now } }
  else
    let d := (d.advance (8 + t.length)).portPuts t.chan 12 t.addr t.bytes
    { d with load := { d.load with teamDue := false, teamWait := false, team := some t } }

/-- STREAM_END: with a TEAM record due, or inside a body, the stream breaks R359 or R421; with no whole image taken NOT_SELECTED. -/
def DieSt.streamEnd (d : DieSt) : DieSt :=
  if d.load.teamDue || d.load.hdr.any (fun h => decide (d.load.body ≠ h.bodyLen) || decide (65536 * d.load.blk < h.bodyLen)) then d.streamError
  else if !d.load.took || d.load.hdr.isSome then d.loadError ceNotSelected d.load.off 0
  else { d.advance 8 with load := { (d.advance 8).load with inStream := false } }

/-- A record that is its header alone: the header's TYPE says which; one of no such TYPE ends the load with STREAM (R355).  SYNC begins
a stream wherever it stands, but not inside what is skipped. -/
def DieSt.record0 (d : DieSt) (w : Word64) : DieSt :=
  if recType w = 1 && recArg w = 0x86 && !(d.load.inStream && decide (d.load.skip ≠ 0)) then d.sync
  else
    d.onRecord 8 (fun d =>
      match recType w with
      | 2 => d.selectDev (bit (recArg w) 55) (recArg w % 2 ^ 16)
      | 6 => d.imageEnd
      | 7 => d.streamEnd
      | _ => d.streamError)

/-- STREAM_TIMEOUT: host and Sunislink streams only, after more than 1 s without a byte (R368).  A TEAM record that the device itself
holds back is no pause (R421). -/
def DieSt.streamTimeout (d : DieSt) : DieSt :=
  if d.load.inStream && (d.dev == 1 || d.dev == 2) && !d.nvmMode && !d.load.teamWait && decide (d.load.lastAt + 1000000000 < d.now) then
    let e := d.loadError ceTimeout d.load.off 0
    { e with cfgSeq := [], load := { e.load with cfgBytes := 0 } }
  else d

/-- The bytes that a host status read brings out on SSP, byte 0 first, or the half-words on PSP, low first (Table 14-8). -/
def hostWords (psp : Bool) (v : Word) : List Nat := if psp then [v.toNat % 2 ^ 16, v.toNat / 2 ^ 16] else wordBytes 4 v.toNat

/-- The host takes the value of a status read. -/
def DieSt.hostTake (d : DieSt) (psp : Bool) (v : Word) : DieSt :=
  { d.answer .host v false with load := { d.load with hostOut := hostWords psp v } }

/-- HOST_STATUS_READ (R367): a CFG register below 0x40; on SSP with command byte 0x0B in every state but COLD, on PSP in CFG_MODE 3 and
before LINE-UP, where its pins become high-impedance inputs.  A port whose CS_N is high takes nothing.  A register with no readable
bits reads 0.  In HALF-TIME the block's domain 77 is off, and what a read that works then brings is a free value (log entry 188). -/
def DieSt.hostRead (d : DieSt) (psp cs : Bool) (cmd i : Nat) : DieSt :=
  if d.dev = 0 || 16 ≤ i || !cs || (if psp then d.pwr.mode != 3 || !(d.dev == 1 || d.dev == 2) else cmd != 0x0B) then d
  else if !d.domOn 77 then (d.freeBelow (2 ^ 32)).2.hostTake psp (BitVec.ofNat 32 (d.freeBelow (2 ^ 32)).1)
  else d.hostTake psp (if 0x10030000 + 4 * i = R.CFG_CMD then 0 else d.rd (0x10030000 + 4 * i))

/-- Cut a list into pieces of 256. -/
def pieces : Nat → List Nat → List (List Nat)
  | 0, _ => []
  | n + 1, l => if l.isEmpty then [] else l.take 256 :: pieces n (l.drop 256)

/-- The stream entry with SEND that holds these bytes for this destination and has not been sent (R364, R369). -/
def DieSt.sendEntry (d : DieSt) (dest len : Nat) : Option Nat :=
  (dirEntries d.load.dir 4).find? (fun k =>
    bit (dirFlags d.load.dir k) 1 && ofBytes (slice d.load.dir (16 * k + 2) 2) % 4096 == dest
      && ofBytes (slice d.load.dir (16 * k + 8) 4) == len && !d.load.sentEntry.contains k)

/-- A port lets a lead begin its stream: it forwards nothing, is in HOLD, or has been DOWN for 100 ms (R369).  The PLLs lock at most
1 ms into WARM-UP: a port that has never been anything but DOWN counts from COLD. -/
def DieSt.portSettled (d : DieSt) (p : Nat) : Bool :=
  !d.portLive p || !d.on (F.SLK_PORT_CTL_MCAST p) || d.portState p == slkHold
    || (d.portState p == slkDown && decide ((d.prt p).downAt + 100000000 ≤ d.now + 1))

/-- CONFIG_STREAM_START (R369): a lead in LOAD, each multicast port in HOLD or DOWN for 100 ms.  The entry is read from the NVM, cut
into messages of 256 bytes, and goes out; a copy of a message that a ring brings back is not the next of its stream (R283). -/
def DieSt.configStart (d : DieSt) (dest : Nat) (bytes : List Nat) : DieSt :=
  match d.sendEntry dest bytes.length with
  | none => d
  | some k =>
    if d.pwr.mode ≠ 5 || d.dev ≠ 2 || !(List.range 4).all d.portSettled || !d.on F.SLK_ID_VALID then d
    else
      let l := pieces (bytes.length + 1) bytes
      let msgs := ((List.range l.length).zip l).map (fun m => slkMsg dest 0 1 (m.1 % 65536) m.2)
      let d := msgs.foldl (fun d m => d.slkSend m) (d.onNvmBus [d.nvmRead (dirOffset d.load.dir k)])
      { d with
        cfgSeq := d.cfgSeq.filter (fun e => e.1 != dest) ++ [(dest, l.length % 65536)]
        load := { d.load with
          sent := d.load.sent ++ [dest], sentEntry := d.load.sentEntry ++ [k]
          sentMsgs := d.load.sentMsgs ++ [msgs.map (fun m => { m with src := d.f F.SLK_ID_ID })] } }

/-! ### CFG_CMD (R374 to R377) -/

/-- A command refused while another runs leaves that one's BUSY and caller. -/
def DieSt.cfgRefuse (d : DieSt) (w : Option Caller) (st : Nat) : DieSt :=
  let d := d.put F.CFG_CMD_RES_STATUS st
  match w with
  | some w => d.callEnd w (cfgCallStatus st) []
  | none => d

/-- The home of the personality that stands on a bench through its detour set. -/
def DieSt.detourOf (d : DieSt) (bench : Nat) : Nat :=
  d.f ⟨R.SUB_DETOUR (bench / 44), 8 * ((bench % 44 - 10) / 11) + 5, 8 * ((bench % 44 - 10) / 11)⟩

/-- A row's Drill has nothing more to do with its position. -/
def DieSt.drillRowDone (d : DieSt) (row state : Nat) : DieSt :=
  { d.put F.SUB_DRILL_STAT_STATE state with rel := { d.rel with
    drillDue := d.rel.drillDue.set (fun _ => false) row false, drillHome := d.rel.drillHome.set (fun _ => none) row none
    drillBack := d.rel.drillBack.set (fun _ => false) row false, drillOn := d.rel.drillOn.set (fun _ => 0) row 0
    drillAt := d.rel.drillAt.set (fun _ => 0) row d.now } }

/-- Foreground work takes a blank bench that Drill tests in place: the test ends at its boundary (R40, R376). -/
def DieSt.drillYield (d : DieSt) (bench : Nat) : DieSt :=
  let row := bench / 44
  if d.rel.drillOn.get (fun _ => 0) row = bench + 1 && (d.rel.drillHome.get (fun _ => none) row).isNone && d.rgState bench = rgBlank then
    d.drillRowDone row 0
  else d

/-- What the arguments and the state refuse of a PLOAD: 4 RANGE, else 2 STATE, else 0; in the order of R423. -/
def DieSt.ploadPre (d : DieSt) : Nat :=
  let a0 := d.f F.CFG_ARG0_ARG
  if 1408 ≤ a0 % 2048 || 1408 ≤ a0 / 65536 % 2048 || !isBench (a0 / 65536 % 2048) || d.f F.CFG_ARG1_ARG % 64 ≠ 0
      || d.f F.CFG_ARG2_ARG % 2 ^ 24 = 0 then 4
  else if d.dev ≠ 4 || d.restarting then 2
  else 0

/-- PLOAD starts; none is taken while a COMMIT waits or runs, which CFG_CMD_RES shows as BUSY (R383), nor while the Referee restarts (R38; status STATE: DESIGN CHOICE, log entry 180). -/
def DieSt.ploadStart (d : DieSt) (w : Option Caller) : DieSt :=
  let a0 := d.f F.CFG_ARG0_ARG
  let home := a0 % 2048
  let bench := a0 / 65536 % 2048
  if d.load.pload.isSome || d.load.commit.isSome then d.cfgRefuse w 1
  else
    let d : DieSt := { d with load := { d.load with caller := w } }
    if d.ploadPre ≠ 0 then d.cfgEnd d.ploadPre
    else
      let d := d.put F.CFG_ERR_VALID 0
      if d.rgState bench ≠ rgBlank || !d.regionOn bench || home / 44 ≠ bench / 44 then (d.cfgError ceBench 0 bench).cfgEnd 5
      else
        let d := (((d.drillYield bench).put (F.RGN_STAT_STATE bench) rgLoading).put F.CFG_STAT_LSTATE 7).wr R.CFG_PROG 0
        { d.put F.CFG_CMD_RES_BUSY 1 with load := { d.load with
          pload := some (home, bench)
          ploadAt := (bits (d.f F.CFG_ARG2_ARG) 31 30, d.f F.CFG_ARG1_ARG + bits (d.f F.CFG_ARG2_ARG) 27 24 * 2 ^ 32,
                      64 * (d.f F.CFG_ARG2_ARG % 2 ^ 24)) } }

/-- A PLOAD ends in error: the bench is blank again. -/
def DieSt.ploadFail (d : DieSt) (bench code addr : Nat) : DieSt :=
  let d := (d.cfgError code addr bench).put F.CFG_STAT_LSTATE 6
  let d := if d.regionOn bench then d.blankRegion bench else d
  { d with load := { d.load with pload := none } }.cfgEnd 5

/-- A partial personality's header carries one region entry and nothing a full image alone carries (R357). -/
def isPartial (h : ImgHdr) : Bool :=
  h.regions.map (fun e => e.region) == [0] && h.bankTable.isEmpty && h.pinPlan.isEmpty && h.dmc.all (fun b => b == 0)
  && h.domains0 == 0 && h.domains1 == 0 && h.groups.all (fun g => g == 0) && h.monitors.all (fun m => m == 0)
  && h.store0 == 0 && h.store1 == 0 && h.slkPrefix == 0 && !h.ksys && !h.kroot && !h.mtRoot && h.upPort == 0 && !h.teamFollows

/-- Why a frame of a partial personality is refused (R79, R81, R375).  At a position of 45 to 63 R81 and R360 say FRAME_ADDR, in a
disabled row R19 and R360 say MISMATCH, and R375, of a partial, OUT_OF_REGION for every row and position that is not 0: the model
takes R375 in both (DESIGN CHOICE, log entry 153). -/
def partialFrameCode (a ix v : Nat) : Nat :=
  if faDie a ≠ 0 || faRow a ≠ 0 || faPos a ≠ 0 then ceOutOfRegion
  else if a % 1024 ≠ 0 || 768 ≤ ix then ceFrameAddr
  else if ix < 320 && Config.reservedSelect ix v then ceReservedSelect
  else 0

/-- Write the frames of a partial personality into a bench and the scratch slot, up to the first refused one. -/
def DieSt.actPartial (d : DieSt) (bench : Nat) : List (Nat × Nat × Nat) → DieSt × Nat × Nat
  | [] => (d, 0, 0)
  | f :: r =>
    let code := partialFrameCode f.1 f.2.1 f.2.2
    if code ≠ 0 then (d, code, if code = ceOutOfRegion then f.1 - 1024 * faIdx f.1 + 1024 * (f.2.1 % 1024) else f.1 - 1024 * faIdx f.1 + 1024 * f.2.1)
    else
      let d := d.bump F.CFG_PROG_FRAMES
      ({ d with
          fab := { d.fab with frames := d.fab.frames.set (fun _ => 0) (1024 * bench + f.2.1) f.2.2 }
          rel := { d.rel with flip := d.rel.flip.set (fun _ => 0) (1024 * bench + f.2.1) 0 }
          load := { d.load with scratchFrames := d.load.scratchFrames.set (fun _ => 0) (1024 * bench + f.2.1) f.2.2 } } : DieSt).actPartial bench r

/-- The body records of a partial personality: each has at least one frame, and the body ends exactly at BODY_LEN; `n` bytes have
been read (R359).  The answer's code and address are those of the first error. -/
def DieSt.actPartRecs (d : DieSt) (bench bodyLen n : Nat) : List BodyRec → DieSt × Nat × Nat
  | [] => (d, if n = bodyLen then 0 else ceStream, n)
  | b :: r =>
    if (recList b).isEmpty || bodyLen < n + recBytes b then (d, ceStream, n)
    else
      let x := d.actPartial bench (recList b)
      if x.2.1 ≠ 0 then x else x.1.actPartRecs bench bodyLen (n + recBytes b) r

/-- Every block of a partial personality has a tag that is right. -/
def DieSt.tagsRight (d : DieSt) (h : ImgHdr) (tags : List (Option (Nat × Nat))) : Bool :=
  (List.range ((h.bodyLen + 65535) / 65536)).all (fun i => d.tagRight h i (nth none tags i))

/-- PLOAD_END (R375): the image is read through port 13, and a line that reads with ERR ends it with DIGEST. -/
def DieSt.ploadEnd (d : DieSt) (p : PartImg) : DieSt :=
  match d.load.pload with
  | none => d
  | some (home, bench) =>
    let h := readHdr p.hdr
    let sig := (h.regions.head?).elim 0 (fun e => e.sig)
    let at' := d.load.ploadAt
    let bad := p.dramErr || !d.chReady at'.1 || (List.range (at'.2.2 / 64)).any (fun k => d.dramBad at'.1 (at'.2.1 + 64 * k))
    let d := d.bytesFound at'.1 13 at'.2.1 at'.2.2
    let code := if bad then ceDigest else d.hdrCode h 1
    if code ≠ 0 then d.ploadFail bench code 0
    else if !isPartial h then d.ploadFail bench ceHeader 0
    else if h.pkg ≠ d.idn.pkg || (h.met && !d.idn.met) then d.ploadFail bench ceMismatch 0
    else if !p.digestOk then d.ploadFail bench ceDigest 0
    else if h.encrypted && !d.tagsRight h p.tags then d.ploadFail bench ceDecrypt 0
    else if d.load.sig.get (fun _ => 0) home ≠ sig + 1 then d.ploadFail bench ceRingSig 0
    else if !d.on F.CFG_STAT_STORE_OK || !d.chReady (d.f F.SUB_STORE_CH) then d.ploadFail bench ceStore 0
    else
      let d : DieSt := { d with load := { d.load with scratchFrames := d.load.scratchFrames.keep (fun k => k / 1024 != bench) } }
      let r := d.actPartRecs bench h.bodyLen 0 p.body
      if r.2.1 ≠ 0 then r.1.ploadFail bench r.2.1 r.2.2
      else
        let e := (h.regions.head?).elim (⟨0, 0, false, false, 0, 0⟩ : RgnEntry) id
        let d := ((r.1.fillRegion bench home).fabricReset bench).showRegion bench home e.pid e.sig e.paired
        let d := (d.put F.CFG_STAT_LSTATE 5).raiseIf (bit (d.f F.CFG_EVT_EN_EN) 0) 0x704 0x0E01 (2 ^ 20 + bench)
        let d := if h.noReadback then { d.put F.CFG_STAT_NO_READBACK 1 with noRb := true } else d
        { d with load := { d.load with
          pload := none, scratch := d.load.scratch.filter (fun (s : Nat × Nat) => s.2 != bench) ++ [(home, bench)] } }.cfgEnd 0

/-- Where the personality homed at a position is: its region, if it is loaded or runs. -/
def DieSt.atOf (d : DieSt) (home : Nat) : Option Nat :=
  let p := d.f (F.RGN_STAT_AT home)
  if p < 44 && d.hasRegion home then some (home / 44 * 44 + p) else none

/-- An event of the substitution engine, source 0x701; with SUB_CFG.EVQ_EN it also goes to queue EVQ as one item of two
words, upper half first, when that queue's write side is bound to the engine (R410); its USER bits are those of R300 for a record of this die
(DEDUCED, log entry 57). -/
def DieSt.raiseSub (d : DieSt) (c : Bool) (code data : Nat) : DieSt :=
  let d := d.raiseIf c 0x701 code data
  let q := d.f F.SUB_CFG_EVQ
  if c && d.on F.SUB_CFG_EVQ_EN && d.qWriter q == some .subst then
    let r : EvRec := ⟨d.mt, d.source 0x701, code, data % 2 ^ 24, false, false⟩
    d.qAppend q [(r.mt.toNat, 2), (r.low, 34)]
  else d

/-- A substitution is done: counts, Career log and SUB_DONE (R392, R410).  The interruption lies within its limit; which µs
is a free value. -/
def DieSt.subDone (d : DieSt) (kind home limit : Nat) : DieSt :=
  let r := d.freeBelow (limit + 1)
  let d := (r.2.bump F.SUB_CNT_SUBS).car (64 + 8 * (home / 44)) 4 1
  d.raiseSub (d.on F.SUB_EVT_EN_DONE) 0x0F12 (kind * 2 ^ 21 + home % 2048 * 2 ^ 10 + r.1)

/-- Tokens dropped at the force-freeze of a region's ring: counted, and reported in one SUB_FORCED (R395). -/
def DieSt.forcedReport (d : DieSt) (home : Nat) : DieSt :=
  if d.rel.dropped = 0 then d
  else { d.raiseSub (d.on F.SUB_EVT_EN_PAIR) 0x0F13 (min 255 d.rel.dropped * 2 ^ 16 + home % 2048) with
    rel := { (d.raiseSub (d.on F.SUB_EVT_EN_PAIR) 0x0F13 (min 255 d.rel.dropped * 2 ^ 16 + home % 2048)).rel with dropped := 0 } }

/-! ### COMMIT (R377, R391 to R394) -/

/-- SUB_STAT while a substitution is in service. -/
def DieSt.subShow (d : DieSt) (step kind home bench : Nat) : DieSt :=
  (((d.put F.SUB_STAT_STEP step).put F.SUB_STAT_KIND kind).put F.SUB_STAT_HOME (home % 2048)).put F.SUB_STAT_BENCH (bench % 2048)

/-- The ring of a running region begins to freeze, its engine with it; pins homed there hold (R93, R175, R325). -/
def DieSt.subFreeze (d : DieSt) (rg : Nat) : DieSt :=
  if d.rgState rg = rgRunning then ((d.freezeBegin rg).seFreeze rg).holdAll 1 (d.homePins (d.homeOf rg)) else d

/-- A frozen region goes on. -/
def DieSt.subRelease (d : DieSt) (rg : Nat) : DieSt :=
  if d.rgState rg = rgRunning then ((d.ringRelease rg).seRelease rg).unholdAll 1 (d.homePins (d.homeOf rg)) else d

/-- Show whether any pair runs single. -/
def DieSt.showSingle (d : DieSt) : DieSt := d.put F.SUB_STAT_SINGLE (b2n !d.rel.single.isEmpty)

/-- The engine has nothing in service: a waiting check begins. -/
def DieSt.subIdle (d : DieSt) : DieSt :=
  let d := d.subShow 0 0 0 0
  match d.rel.todo with
  | .check a _ _ :: _ => d.subShow 1 1 a 0
  | _ => d

/-- COMMIT begins to freeze the ring of each running personality it replaces. -/
def DieSt.commitBegin (d : DieSt) (l : List (Nat × Nat)) : DieSt :=
  let x := (l.head?).getD (0, 0)
  l.foldl (fun d x => ((d.atOf x.1).elim d d.subFreeze).setRing x.2 3) (d.subShow 2 5 x.1 x.2)

/-- Every freeze of the COMMIT is complete, and the benches' calibrators have converged. -/
def DieSt.commitReady (d : DieSt) (l : List (Nat × Nat)) : Bool :=
  l.all (fun x => (d.atOf x.1).all d.stillNow && d.regionConverged x.2)

/-- The detours switch: the personality homed at `x.1` is now the one staged on bench `x.2`, which keeps the running context
of the region it replaces (R101, R191, R393); that region is blanked, and the image store's entry switches. -/
def DieSt.commitSwap (d : DieSt) (x : Nat × Nat) : DieSt :=
  let home := x.1
  let bench := x.2
  let d := match d.atOf home with
    | some cur =>
      let d := ((d.latchBench bench (d.latchedRing cur)).moveEngine cur bench).blankRegion cur
      if isBench cur && cur != home then d.setDetour cur 63 else d
    | none => d
  let fr := d.load.scratchFrames.cells.filter (fun c => c.1 / 1024 == bench)
  let st := fr.foldl (fun (t : Tab Nat) c => t.set (fun _ => 0) (1024 * home + c.1 % 1024) c.2) (d.load.store.keep (fun k => k / 1024 != home))
  let d := ((d.setDetour bench (home % 44)).put (F.RGN_STAT_AT home) (bench % 44)).put (F.RGN_STAT_HOME bench) (home % 44)
  { d.placeMons bench with
    load := { (d.placeMons bench).load with
      store := st, scratch := d.load.scratch.filter (fun (s : Nat × Nat) => s.2 != bench)
      scratchFrames := d.load.scratchFrames.keep (fun k => k / 1024 != bench) }
    rel := { (d.placeMons bench).rel with single := d.rel.single.filter (fun h => h != home) } }

/-- The bench is released from its initial state (R63, R394), and the COMMIT of this home is reported. -/
def DieSt.commitRelease (d : DieSt) (x : Nat × Nat) : DieSt :=
  let old := d.latchedRing x.2
  let d := (d.startRegion x.2).ringReleaseFresh x.2 old
  let d : DieSt := { d with fab := { d.fab with gate := d.fab.gate.set (fun _ => false) x.2 true } }
  ((d.unholdAll 1 (d.homePins x.1)).subDone 5 x.1 30).raiseIf (bit (d.f F.CFG_EVT_EN_EN) 0) 0x704 0x0E01 (2 * 2 ^ 20 + x.1)

/-- COMMIT ends: every detour switches, then every ring is released. -/
def DieSt.commitFinish (d : DieSt) (l : List (Nat × Nat)) : DieSt :=
  let d := l.foldl DieSt.commitSwap (d.forcedReport ((l.head?).elim 0 (fun x => x.1)))
  let d := (l.foldl DieSt.commitRelease d).showSingle
  ({ d with load := { d.load with commit := none } }.cfgEnd 0).subIdle

/-- A COMMIT under way goes on as far as it can: with the engine idle and no repair waiting it begins (R391); with every ring
it froze FROZEN it ends.  The model looks again as time passes (DESIGN CHOICE, log entry 157). -/
def DieSt.commitGo (d : DieSt) : DieSt :=
  match d.load.commit with
  | none => d
  | some l =>
    let d := if d.f F.SUB_STAT_STEP = 0 && d.rel.todo.isEmpty && d.dev = 4 && d.pwr.going.isNone then d.commitBegin l else d
    if d.commitFreeze then
      let d := l.foldl (fun d x => d.convergeNow x.2) d
      if d.commitReady l then d.commitFinish l else d
    else d

/-- The homes and benches that a COMMIT names. -/
def DieSt.commitArgs (d : DieSt) (pair : Bool) : List (Nat × Nat) :=
  let of := fun (a : Nat) => (a % 2048, a / 65536 % 2048)
  if pair then [of (d.f F.CFG_ARG0_ARG), of (d.f F.CFG_ARG1_ARG)] else [of (d.f F.CFG_ARG0_ARG)]

/-- What the arguments and the state refuse of a COMMIT: 4 RANGE, else 2 STATE, else 0 (R377, R423). -/
def DieSt.commitPre (d : DieSt) (pair : Bool) : Nat :=
  let l := d.commitArgs pair
  let bad := l.any (fun x => decide (1408 ≤ x.1) || decide (1408 ≤ x.2) || !isBench x.2 || x.1 / 44 != x.2 / 44)
  let mates := l.any (fun x => (d.rel.pair.get (fun _ => 0) x.1 != 0) != pair
    || (pair && !l.any (fun y => d.rel.pair.get (fun _ => 0) x.1 == y.1 + 1)))
  if bad || mates || (pair && decide ((l.map (fun x => x.2)).eraseDups.length = 1)) then 4
  else if d.dev ≠ 4 || l.any (fun x => d.rgState x.2 != rgReady || !d.load.scratch.contains (x.1, x.2)) then 2
  else 0

/-- COMMIT: waits while a substitution or a repair is in service or waits for the engine. -/
def DieSt.commitStart (d : DieSt) (pair : Bool) (w : Option Caller) : DieSt :=
  if d.load.commit.isSome || d.load.pload.isSome then d.cfgRefuse w 1
  else
    let d : DieSt := { d with load := { d.load with caller := w } }
    if d.commitPre pair ≠ 0 then d.cfgEnd (d.commitPre pair)
    else ({ d.put F.CFG_CMD_RES_BUSY 1 with load := { d.load with commit := some (d.commitArgs pair) } } : DieSt).commitGo

/-- ABORT: the PLOAD ends with ABORTED and STATUS FAILED; with none running the command fails with STATE. -/
def DieSt.ploadAbort (d : DieSt) (w : Option Caller) : DieSt :=
  match d.load.pload with
  | some x =>
    let d := d.ploadFail x.2 ceAborted 0
    match w with
    | some w => d.callEnd w csOk []
    | none => d
  | none => d.cfgRefuse w 2

/-- Place 1,024 bits in CFG_RB_DATA. -/
def DieSt.rbData (d : DieSt) (v : Nat) : DieSt :=
  (List.range 32).foldl (fun d k => d.wr (R.CFG_RB_DATA k) (BitVec.ofNat 32 (v / 2 ^ (32 * k)))) d

/-- What refuses a READBACK: 4 RANGE, else 2 STATE for a row that is absent or a region without power, else 3 NO_READBACK, else 0 (R362, R374, R423). -/
def DieSt.readbackPre (d : DieSt) : Nat :=
  let a := d.f F.CFG_ARG0_ARG
  if a % 1024 ≠ 0 || 45 ≤ faPos a || (d.idn.twin && faDie a ≠ d.idn.die) || (faPos a < 44 && 768 ≤ faIdx a)
      || (faPos a = 44 && 736 ≤ faIdx a) then 4
  else if faDie a ≠ d.idn.die || d.idn.rows ≤ faRow a || (faPos a < 44 && !d.regionOn (44 * faRow a + faPos a)) then 2
  else if d.noRb then 3
  else 0

/-- READBACK: the frame as stored. -/
def DieSt.readback (d : DieSt) (w : Option Caller) : DieSt :=
  let a := d.f F.CFG_ARG0_ARG
  let rg := 44 * faRow a + faPos a
  let d : DieSt := if d.load.pload.isSome || d.load.commit.isSome then d else { d with load := { d.load with caller := w } }
  if d.load.pload.isSome || d.load.commit.isSome then d.cfgRefuse w 1
  else if d.readbackPre ≠ 0 then d.cfgEnd d.readbackPre
  else if faPos a = 44 then
    (d.rbData (vote (d.fab.rowFrames.get (fun _ => Tmr.reset) (1024 * faRow a + faIdx a)))).cfgEnd 0
  else
    (d.rbData (Nat.xor (d.fab.frames.get (fun _ => 0) (1024 * rg + faIdx a)) (d.rel.flip.get (fun _ => 0) (1024 * rg + faIdx a) % 2 ^ 1024))).cfgEnd 0

/-- The levels that the cells of one ring channel have latched, each at its cell's bit: request, acknowledge, then the data wires
(R90, R91). -/
def DieSt.ringLevels (d : DieSt) (rg ch : Nat) (c : RingChan) : Nat :=
  let s := d.ringCh rg ch
  ((List.range c.cells.length).zip c.cells).foldl (fun v x =>
    Nat.lor v (b2n (if x.1 = 0 then s.req else if x.1 = 1 then s.ack else bit s.data (x.1 - 2)) * 2 ^ (x.2 % 1536))) 0

/-- The first five rows of Table 04-8 as one bit string: stage registers by unit and slot, handshake controllers, merge
elements, arbiters, ring levels (the order within a row is the model's: DESIGN CHOICE, log entry 56). -/
def DieSt.stateBits (d : DieSt) (rg : Nat) : Nat :=
  let regs := (List.range 2048).foldl (fun v k => v + b2n (d.fab.regs.get (fun _ => false) (2048 * rg + k)) * 2 ^ k) 0
  let ctl := (List.range 1024).foldl (fun v u =>
    let s := d.stage (1024 * rg + u)
    let r := d.rail (1024 * rg + u)
    v + Config.controllerBits (b2n s.full + 2 * b2n s.ackIn + 4 * b2n s.req + 8 * b2n r.ack + 16 * b2n r.req) % 16 * 2 ^ (4 * u)) 0
  let mer := (List.range 544).foldl (fun v k => v + b2n (d.fab.merges.get (fun _ => false) (544 * rg + k)) * 2 ^ k) 0
  let arb := (List.range 128).foldl (fun v k =>
    let a := d.fab.arbs.get (fun _ => none) (128 * rg + k)
    v + (b2n a.isSome + 2 * b2n (a == some true)) * 4 ^ k) 0
  let ring := ((List.range (d.design rg).ring.length).zip (d.design rg).ring).foldl (fun v c => Nat.lor v (d.ringLevels rg c.1 c.2)) 0
  regs + ctl * 2 ^ 2048 + mer * 2 ^ 6144 + arb * 2 ^ 6688 + ring * 2 ^ 6944

/-- What refuses a CAPTURE, as `readbackPre`: STATE unless the region is FROZEN or the device in RECOVERY. -/
def DieSt.capturePre (d : DieSt) : Nat :=
  let rg := d.f F.CFG_ARG0_ARG % 2048
  if 1408 ≤ rg || 9 ≤ d.f F.CFG_ARG0_ARG / 65536 % 16 then 4
  else if !d.regionOn rg || (d.ringState rg ≠ 3 && d.dev ≠ 6) then 2
  else if d.noRb then 3
  else 0

/-- CAPTURE: a state frame of a frozen region, or of any region in RECOVERY. -/
def DieSt.capture' (d : DieSt) (w : Option Caller) : DieSt :=
  let a := d.f F.CFG_ARG0_ARG
  let rg := a % 2048
  let n := a / 65536 % 16
  if d.load.pload.isSome || d.load.commit.isSome then d.cfgRefuse w 1
  else
    let d : DieSt := { d with load := { d.load with caller := w } }
    if d.capturePre ≠ 0 then d.cfgEnd d.capturePre
    else (d.rbData (d.stateBits rg / 2 ^ (1024 * n) % 2 ^ 1024)).cfgEnd 0

/-! ### KICKOFF_N (R378) -/

/-- KICKOFF_RISE: with KSYS 0 the PLAY instant is the MT of the rise plus LEAD; with KSYS 1 READY may go out. -/
def State.kickoffRise (s : State) : State :=
  let d := s.d0
  if d.dev ≠ 3 || d.on F.CFG_KICK_RISEN || d.on F.PWR_STATE_RESUMED then s
  else
    onBoth s (fun e =>
      let e := e.put F.CFG_KICK_RISEN 1
      if d.on F.CFG_KICK_KSYS then e else e.setPlay (d.mt.toNat + 1000 * max 2 (d.f F.CFG_KICK_LEAD)))

/-- KICKOFF_WAIT. -/
def DieSt.kickoffWait (d : DieSt) : DieSt :=
  let n := d.f F.CFG_KICK_WAIT
  if d.dev = 3 && !d.on F.CFG_KICK_RISEN && n ≠ 0 && !d.load.kickLate && d.load.lineUpAt + n * 10000000 ≤ d.now then
    { d.raiseIf (bit (d.f F.CFG_EVT_EN_EN) 1) 0x704 0x0E03 0 with load := { d.load with kickLate := true } }
  else d

/-! ### The commands -/

/-- NVM_BOOT (R364). -/
def execNvmBoot (bootA bootB : List Nat) (teamA teamB : Option TeamImg) (s : State) : Out :=
  actBoth s (fun d => d.nvmBoot bootA bootB teamA teamB)

/-- SYNC (R355). -/
def execSync (hdr : Word64) (s : State) : Out := actStream s (fun d => d.record0 hdr)

/-- SELECT (R356). -/
def execSelectDev (hdr : Word64) (s : State) : Out := actStream s (fun d => d.record0 hdr)

/-- FIRMWARE (R417). -/
def execFirmware (p : FwPkg) (s : State) : Out := actStream s (fun d => d.onRecord (8 + p.length) (fun d => d.firmware p))

/-- TEAM (R421). -/
def execTeam (t : TeamImg) (s : State) : Out := actStream s (fun d => d.onRecord (8 + t.length) (fun d => d.team t))

/-- HEADER (R357). -/
def execHeader (h : HdrRec) (bad : List TestFail) (ms : Nat) (s : State) : Out :=
  actStream s (fun d => d.onRecord (8 + h.bytes.length) (fun d => d.header h bad ms s.d0.quar.recs.isEmpty))

/-- END (R355). -/
def execImageEnd (hdr : Word64) (s : State) : Out := actStream s (fun d => d.record0 hdr)

/-- STREAM_END (R356). -/
def execStreamEnd (hdr : Word64) (s : State) : Out := actStream s (fun d => d.record0 hdr)

/-- FRAMES (R359). -/
def execFrames (addr : Nat) (data : List Nat) (lost : Bool) (s : State) : Out := actStream s (fun d => d.hostBody (.frames addr data) lost)

/-- ZERO (R359). -/
def execZeroFrames (addr n : Nat) (s : State) : Out := actStream s (fun d => d.bodyRec (.zero addr n))

/-- FILL (R359). -/
def execFillFrames (addr n data : Nat) (s : State) : Out := actStream s (fun d => d.bodyRec (.fill addr n data))

/-- BODY_BLOCK_TRAILER (R361). -/
def execBodyBlockTrailer (hash next : Nat) (tag : Option (Nat × Nat)) (s : State) : Out :=
  actStream s (fun d => d.blockTrailer hash next tag)

/-- STREAM_TIMEOUT (R368). -/
def execStreamTimeout (s : State) : Out := actStream s (fun d => d.streamTimeout)

/-- HOST_STATUS_READ (R367). -/
def execHostStatusRead (psp cs : Bool) (cmd i : Nat) (s : State) : Out := act .die0 s (fun d => d.hostRead psp cs cmd i)

/-- CONFIG_STREAM_START (R369). -/
def execConfigStreamStart (dest : Nat) (bytes : List Nat) (s : State) : Out := act .die0 s (fun d => d.configStart dest bytes)

/-- CFG_PLOAD (R375). -/
def execCfgPload (x : Die) (m : Master) (s : State) : Out := act x s (fun d => d.busAct m R.CFG_CMD (fun d => d.ploadStart none))

/-- PLOAD_END (R375): the image is read through port 13, and a line that reads with ERR ends it with DIGEST. -/
def execPloadEnd (x : Die) (p : PartImg) (s : State) : Out := act x s (fun d => d.ploadEnd p)

/-- CFG_COMMIT (R377). -/
def execCfgCommit (x : Die) (m : Master) (pair : Bool) (s : State) : Out :=
  act x s (fun d => d.busAct m R.CFG_CMD (fun d => d.commitStart pair none))

/-- CFG_ABORT (R372). -/
def execCfgAbort (x : Die) (m : Master) (s : State) : Out := act x s (fun d => d.busAct m R.CFG_CMD (fun d => d.ploadAbort none))

/-- CFG_READBACK (R374). -/
def execCfgReadback (x : Die) (m : Master) (s : State) : Out := act x s (fun d => d.busAct m R.CFG_CMD (fun d => d.readback none))

/-- CFG_CAPTURE (R374). -/
def execCfgCapture (x : Die) (m : Master) (s : State) : Out := act x s (fun d => d.busAct m R.CFG_CMD (fun d => d.capture' none))

/-- KICKOFF_RISE (R378). -/
def execKickoffRise (s : State) : Out := .next s.kickoffRise

/-- KICKOFF_WAIT (R378). -/
def execKickoffWait (s : State) : Out := actBoth s (fun d => d.kickoffWait)

end Sys2Proof.Machine
end

