-- ==== Sys2Proof/Machine/Sweep.lean ====
section
/-! DEFINITION. The Sweeper, paired personalities, the substitution engine, Drill, the Full-Time Test and the Career log
(R384 to R414).  Configuration upsets since a frame's last read, and what reads of the image store and the state bus
find, are operands of the commands. -/

namespace Sys2Proof.Machine

/-! ### Frame check bits (R385) -/

/-- Flipped bits in code word `w` of a stored frame: data bits i with i mod 8 = w, and its 9 check bits, which the model
numbers 1,024 + 9w upward. -/
def frameWordFlips (m w : Nat) : Nat :=
  ((List.range 128).filter (fun i => bit m (8 * i + w))).length + ((List.range 9).filter (fun i => bit m (1024 + 9 * w + i))).length

/-- What the check bits say of a frame's flipped bits: 0 good, 1 correctable, 2 detect-only. -/
def frameClass (m : Nat) : Nat :=
  if m = 0 then 0 else if (List.range 8).any (fun w => decide (2 ≤ frameWordFlips m w)) then 2 else 1

/-- Flipped bits of a stored logic frame. -/
def DieSt.flips (d : DieSt) (rg fr : Nat) : Nat := d.rel.flip.get (fun _ => 0) (1024 * rg + fr)

/-- Record the flipped bits of a stored logic frame. -/
def DieSt.setFlips (d : DieSt) (rg fr m : Nat) : DieSt := { d with rel := { d.rel with flip := d.rel.flip.set (fun _ => 0) (1024 * rg + fr) m } }

/-! ### Regions that stop (R39, R390) -/

/-- A region is FAILED with its ring in ISOLATE; a quarantined one stays QUARANTINED. -/
def DieSt.failRegion (d : DieSt) (rg : Nat) : DieSt :=
  let d := if d.rgState rg = rgQuarantined then d else d.put (F.RGN_STAT_STATE rg) rgFailed
  ({ d.setRing rg 0 with fab := { d.fab with gate := d.fab.gate.set (fun _ => false) rg false } } : DieSt).xMark

/-- REGION_RESET: 1 detect-only fault, 2 pair reset, 3 rewritten in place. -/
def DieSt.resetEvent (d : DieSt) (reason home : Nat) : DieSt := d.raiseSub true 0x0F15 (reason * 2 ^ 21 + home % 2048)

/-- SUB_FAIL: 1 NO_BENCH, 2 STORE, 3 COPY; SUB_ERR latches it. -/
def DieSt.subFail (d : DieSt) (why home : Nat) : DieSt := (d.subErr (why + 1) home).raiseSub true 0x0F14 (why * 2 ^ 21 + home % 2048)

/-- R390: the copy homed at `home` is left FAILED and its partner runs alone. -/
def DieSt.runSingle (d : DieSt) (home : Nat) : DieSt :=
  let d := d.failRegion (d.nowAt home)
  { d with rel := { d.rel with single := if d.rel.single.contains home then d.rel.single else home :: d.rel.single } }.showSingle

/-- R39: an unpaired region with a detect-only fault stays isolated, and the fabric receives REGION_RESET for it. -/
def DieSt.leaveIsolated (d : DieSt) (home : Nat) : DieSt := (d.failRegion (d.nowAt home)).resetEvent 1 home

/-- The partner of a home, when the pair runs as one. -/
def DieSt.mateHome (d : DieSt) (home : Nat) : Option Nat :=
  let p := d.rel.pair.get (fun _ => 0) home
  if p = 0 || d.rel.single.contains home || d.rel.single.contains (p - 1) then none else some (p - 1)

/-- Repairs run in PLAY, RECOVERY and LINE-UP (R398). -/
def DieSt.repairState (d : DieSt) : Bool := d.dev == 3 || d.dev == 4 || d.dev == 6

/-! ### The engine's turn (R391) -/

/-- The engine is idle: a waiting check begins, or, with no repair waiting, a waiting COMMIT. -/
def DieSt.subNext (d : DieSt) : DieSt := d.subIdle.commitGo

/-- A substitution may begin: the engine is idle, and no transition out of PLAY has begun or waits (R341, R391). -/
def DieSt.subFree (d : DieSt) : Bool :=
  d.f F.SUB_STAT_STEP == 0 &&
  match d.pwr.going with
  | some (.half _) => false
  | some .leave => false
  | some (.wait _) => false
  | _ => true

/-- The substitution in service is over; `all`: the work at the head of the queue is done. -/
def DieSt.subOver (d : DieSt) (all : Bool) : DieSt :=
  ({ d with rel := { d.rel with
      todo := if all then d.rel.todo.drop 1 else d.rel.todo
      aborts := if all then 0 else d.rel.aborts } } : DieSt).subNext

/-- The home a waiting repair is about. -/
def Repair.about (j : Repair) (home : Nat) : Bool :=
  match j with
  | .check a b _ => a == home || b == home
  | .copy h => h == home
  | .fresh h => h == home

/-- Append work for the engine, unless work about that home waits already. -/
def DieSt.subAdd (d : DieSt) (home : Nat) (j : Repair) : DieSt :=
  if d.rel.todo.any (fun k => k.about home) then d
  else
    let d : DieSt := { d with rel := { d.rel with todo := d.rel.todo ++ [j] } }
    if d.f F.SUB_STAT_STEP = 0 then d.subNext else d

/-- PAIR_CHECK for a home's copy, or for both or none: 0 A, 1 B, 2 none, 3 both. -/
def DieSt.pairCheckEvent (d : DieSt) (faulty a b : Nat) : DieSt :=
  d.raiseSub (d.on F.SUB_EVT_EN_PAIR) 0x0F16 (faulty * 2 ^ 22 + b % 2048 * 2 ^ 11 + a % 2048)

/-- A Drill substitution that has not switched is abandoned: the source is released in place (R397). -/
def DieSt.drillAbandon (d : DieSt) (rg : Nat) : DieSt :=
  let k := d.f F.SUB_STAT_KIND
  let home := d.f F.SUB_STAT_HOME
  let src := d.nowAt home
  if d.f F.SUB_STAT_STEP ≠ 0 && (k == 3 || k == 4) && (src == rg || d.f F.SUB_STAT_BENCH == rg) then
    let back := (src :: (d.mateHome home).toList.map (fun h => d.nowAt h)).filter (fun r => 2 ≤ d.ringState r)
    let d := back.foldl (fun d r => ((d.ringRelease r).seRelease r).unholdAll 1 (d.homePins (d.homeOf r))) d
    let d := d.setRing (d.f F.SUB_STAT_BENCH) 0
    { d.subShow 0 0 0 0 with rel := { d.rel with aborts := 0, dropped := 0 } }.put F.SUB_DRILL_STAT_STATE 0
  else d

/-- A detect-only fault found in a region is reported to the engine (R385, R390, R398). -/
def DieSt.sweepReport (d : DieSt) (rg : Nat) : DieSt :=
  if !d.repairState || !(d.rgState rg == rgRunning || d.rgState rg == rgReady) || d.f (F.RGN_STAT_HOME rg) = 63
    || d.nowAt (d.homeOf rg) ≠ rg then d
  else
    let home := d.homeOf rg
    let d := d.drillAbandon rg
    match d.mateHome home with
    | some mate =>
      if d.rel.todo.any (fun k => k.about home) then d
      else
        let a := min home mate
        let d := d.pairCheckEvent (if home = a then 0 else 1) a (max home mate)
        if d.on F.SUB_CFG_AUTO then d.subAdd home (.copy home) else d.runSingle home
    | none => if d.on F.SUB_CFG_AUTO then d.subAdd home (.fresh home) else d.leaveIsolated home

/-! ### Sweeping (R384 to R386) -/

/-- Does the reader of a region sweep. -/
def DieSt.sweepable (d : DieSt) (rg : Nat) : Bool :=
  d.regionOn rg && [rgBlank, rgReady, rgRunning, rgFailed, rgQuarantined].contains (d.rgState rg) && d.ringState rg != 3

/-- Read, check and where needed correct one frame. -/
def DieSt.checkFrame (d : DieSt) (rg fr upset : Nat) : DieSt :=
  let m := Nat.xor (d.flips rg fr) upset % 2 ^ 1096
  let data := rg * 2 ^ 13 + fr * 2 ^ 4
  match frameClass m with
  | 0 => d.setFlips rg fr m
  | 1 =>
    ((((d.setFlips rg fr 0).bump (F.RGN_FRAME_CNT_CORR rg)).bump F.SWP_CNT_CORR).car (68 + 8 * (rg / 44)) 4 1).raiseIf
      (d.on F.SWP_EVT_EN_CORR) 0x700 0x0F01 data
  | _ =>
    ((((d.setFlips rg fr m).bump (F.RGN_FRAME_CNT_DET rg)).bump F.SWP_CNT_DET).raise 0x700 0x0F02 data).sweepReport rg

/-- Upsets strike frames of a region: the flipped bits stand in the design, under R73, until a reader comes to their frame. -/
def DieSt.struck (d : DieSt) (rg : Nat) (l : List (Nat × Nat)) : DieSt :=
  if d.hasRegion rg then l.foldl (fun d u => d.setFlips rg (u.1 % 320) (Nat.xor (d.flips rg (u.1 % 320)) u.2 % 2 ^ 1096)) d else d

/-- The reader's next frame; a skipped region resumes at frame 0; readers hold while the coordinator restarts. -/
def DieSt.sweepStep (d : DieSt) (rg upset : Nat) : DieSt :=
  if !d.hasRegion rg || d.on F.SWP_STAT_RESTARTING then d
  else if !d.sweepable rg then { d with rel := { d.rel with next := d.rel.next.set (fun _ => 0) rg 0 } }
  else
    let fr := d.rel.next.get (fun _ => 0) rg
    let d : DieSt := { d with rel := { d.rel with
      next := d.rel.next.set (fun _ => 0) rg ((fr + 1) % 320), rdMiss := d.rel.rdMiss.set (fun _ => 0) rg 0 } }
    d.checkFrame rg fr upset

/-- A reader misses a heartbeat; the third in a row restarts it. -/
def DieSt.readerMiss (d : DieSt) (rg : Nat) : DieSt :=
  if !d.regionOn rg then d
  else
    let n := d.rel.rdMiss.get (fun _ => 0) rg + 1
    if n < 3 then { d with rel := { d.rel with rdMiss := d.rel.rdMiss.set (fun _ => 0) rg n } }
    else
      let d : DieSt := { d with rel := { d.rel with rdMiss := d.rel.rdMiss.set (fun _ => 0) rg 0, next := d.rel.next.set (fun _ => 0) rg 0 } }
      (d.bump F.SWP_RESTART_READER).raiseIf (d.on F.SWP_EVT_EN_RESTART) 0x700 0x0F03 rg

/-- The coordinator restarts (Table 15-1). -/
def DieSt.coordRestart (d : DieSt) : DieSt :=
  (((d.put F.SWP_STAT_RESTARTING 1).bump F.SWP_RESTART_COORD).car 52 4 1).raiseIf (d.on F.SWP_EVT_EN_RESTART) 0x700 0x0F03 (2 ^ 23)

/-- A lockstep miscompare of the coordinator: the third within 1 s is cause 15. -/
def State.coordMiscompare (s : State) (x : Die) : State :=
  if (s.die x).idn.absent || (s.die x).dev = 0 || (s.die x).dev = 5 then s
  else
    let now := (s.die x).now
    let l := (now + 1) :: ((s.die x).rel.coordAt.filter (fun t => decide (now + 1 < t + 1000000000)))
    let s1 := onDie x s (fun d => { d.coordRestart with rel := { d.coordRestart.rel with coordAt := l.take 3 } })
    if 3 ≤ l.length then s1.badCause 15 else s1

/-! ### Pairs (R387 to R390) -/

/-- A comparator sees a disagreement: it holds its token, and a check of both copies waits for the engine.  `since` is
the model's time at which the pair last agreed. -/
def DieSt.pairMismatch (d : DieSt) (a b since : Nat) : DieSt :=
  if !d.repairState || d.mateHome a ≠ some b || b ≤ a || d.rel.todo.any (fun k => k.about a || k.about b)
    || d.rgState (d.nowAt a) ≠ rgRunning || d.rgState (d.nowAt b) ≠ rgRunning then d
  else
    let d := d.raiseSub (d.on F.SUB_EVT_EN_PAIR) 0x0F11 (b % 2048 * 2 ^ 11 + a % 2048)
    let d := (d.drillAbandon (d.nowAt a)).drillAbandon (d.nowAt b)
    d.subAdd a (.check a b since)

/-- Sweep the frames of a region in a check: those upset since their last read, and those with flipped bits.  Answers
whether any is detect-only. -/
def DieSt.fullSweep (d : DieSt) (rg : Nat) (upsets : List (Nat × Nat)) : DieSt × Bool :=
  let old := (d.rel.flip.cells.filter (fun c => c.1 / 1024 == rg)).map (fun c => c.1 % 1024)
  let frs := (old ++ upsets.map (fun (u : Nat × Nat) => u.1 % 320)).eraseDups
  let d := frs.foldl (fun d fr => d.checkFrame rg fr ((upsets.filter (fun (u : Nat × Nat) => u.1 % 320 == fr)).foldl (fun m (u : Nat × Nat) => Nat.xor m u.2) 0)) d
  (d, frs.any (fun fr => frameClass (d.flips rg fr) == 2))

/-- A region is reset in place with its memories reloaded (R65, R175). -/
def DieSt.resetRegion (d : DieSt) (home : Nat) : DieSt :=
  let rg := d.nowAt home
  let d := d.holdAll 2 (d.homePins home)
  let d := ((d.fillRegion rg home).fabricReset rg).seReset rg
  d.unholdAll 2 (d.homePins home)

/-- PAIR_CHECK_END: the outcome of Table 15-2. -/
def DieSt.pairCheckEnd (d : DieSt) (upA upB : List (Nat × Nat)) : DieSt :=
  match d.rel.todo with
  | .check a b since :: rest =>
    if d.f F.SUB_STAT_STEP ≠ 1 then d
    else
      let ra := d.fullSweep (d.nowAt a) upA
      let rb := ra.1.fullSweep (ra.1.nowAt b) upB
      let d := rb.1
      let fresh := fun (h : Nat) => decide (since < d.rel.found.get (fun _ => 0) (d.nowAt h))
      let fa := ra.2 || fresh a
      let fb := rb.2 || fresh b
      let auto := d.on F.SUB_CFG_AUTO
      let d := d.pairCheckEvent (if fa && fb then 3 else if fa then 0 else if fb then 1 else 2) a b
      let jobs := fun (l : List Repair) => ({ d with rel := { d.rel with todo := .check a b since :: l ++ rest } } : DieSt)
      let d :=
        if fa && fb then (if auto then jobs [.fresh a, .fresh b] else (d.leaveIsolated a).leaveIsolated b)
        else if fa then (if auto then jobs [.copy a] else d.runSingle a)
        else if fb then (if auto then jobs [.copy b] else d.runSingle b)
        else (((d.resetRegion a).resetRegion b).resetEvent 2 a).resetEvent 2 b
      d.subOver true
  | _ => d

/-! ### Moving a personality (R392 to R397, Table 15-4) -/

/-- The free bench of a row with the lowest position: BLANK, powered, and not a region Drill has vacated. -/
def DieSt.benches (d : DieSt) (row : Nat) : List Nat :=
  ([10, 21, 32, 43].map (fun p => 44 * row + p)).filter (fun r => d.rgState r == rgBlank && d.regionOn r
    && !((d.rel.drillHome.get (fun _ => none) row).isSome && d.rel.drillOn.get (fun _ => 0) row == r + 1))

/-- A repair's bench: a free one, or that of a running PLOAD, which ends with ABORTED (R376, R396). -/
def DieSt.takeBench (d : DieSt) (row : Nat) : DieSt × Option Nat :=
  match (d.benches row).head? with
  | some b => (d, some b)
  | none =>
    match d.load.pload with
    | some (_, b) => if b / 44 = row then (d.ploadFail b ceAborted 0, some b) else (d, none)
    | none => (d, none)

/-- The image store gives the frames of a home, and they are read without error (R400). -/
def DieSt.storeReads (d : DieSt) (ok : Bool) : Bool := ok && d.storeUp

/-- Write the store's frames of a home into a region, and fill the region from them. -/
def DieSt.loadRegion (d : DieSt) (rg home : Nat) : DieSt :=
  let st := (d.load.store.cells.filter (fun c => c.1 / 1024 == home)).foldl (fun (t : Tab Nat) c =>
    t.set (fun _ => 0) (1024 * rg + c.1 % 1024) c.2) (d.fab.frames.keep (fun k => k / 1024 != rg))
  ({ d with
      fab := { d.fab with frames := st }
      rel := { d.rel with flip := d.rel.flip.keep (fun k => k / 1024 != rg) } } : DieSt).fillRegion rg home

/-- A bench loaded with the personality of a home, its calibrators converged while its ring is FROZEN (R393). -/
def DieSt.loadBench (d : DieSt) (bench home : Nat) : DieSt := (d.loadRegion bench home).convergeNow bench

/-- The calibrators of a bench converge on the personality of a home: Release does not begin before they have (R121, R393). -/
def DieSt.benchReady (d : DieSt) (bench home : Nat) : Bool := (d.loadBench bench home).regionConverged bench

/-- The cells of a keyed table at `src`, `n` keys to a region, also at `dst`. -/
def Tab.copyTo {α : Type} [DecidableEq α] (t : Tab α) (dflt : Nat → α) (n src dst : Nat) : Tab α :=
  (t.cells.filter (fun c => c.1 / n == src)).foldl (fun t c => t.set dflt (n * dst + c.1 % n) c.2) (t.keep (fun k => k / n != dst))

/-- The block memory words of `dst` as the state bus brings them from `src`: the data bits as they stand, with check bits
computed anew.  Table 04-8 does not say whether a single-bit error is corrected on the way (DESIGN CHOICE, log entry 154). -/
def DieSt.movedBm (d : DieSt) (src dst : Nat) : Tab Word64 :=
  (((d.fab.bm.cells.map (fun c => c.1)) ++ (d.fab.bmFlip.cells.map (fun c => c.1))).filter (fun k => k / 2048 == src)).foldl
    (fun (t : Tab Word64) k => t.set (fun _ => 0) (2048 * dst + k % 2048) (d.bmRaw k)) (d.fab.bm.keep (fun k => k / 2048 != dst))

/-- The state bus moves Table 04-8 from a frozen region to another: what the region's logic, rings, block memories and
engine hold, but not its program memory or any configuration.  X and Y are read over the service port (R135, R137). -/
def DieSt.moveState (d : DieSt) (src dst : Nat) : DieSt :=
  let fb := d.fab
  let bm := d.movedBm src dst
  let e := d.eng src
  let o := d.eng dst
  let d := d.seFounds src 2 ((d.flippedXY src).flatMap (fun x => e.found x.1 x.2))
  let n := (d.flippedXY src).foldl (fun (t : SeSt) x => t.wrM x.1 x.2 (e.rdM x.1 x.2)) e
  let d := (d.setEng dst { n with p := o.p, ab := o.ab, al := o.al, scrub := o.scrub, flip := o.flip.keep (fun k => decide (k < 4096)) }).xMove src dst
  { d with fab := { fb with
      stages := fb.stages.copyTo (fun _ => StageSt.reset) 1024 src dst
      regs := fb.regs.copyTo (fun _ => false) 2048 src dst
      rails := fb.rails.copyTo (fun _ => RailSt.reset) 1024 src dst
      merges := fb.merges.copyTo (fun _ => false) 544 src dst
      arbs := fb.arbs.copyTo (fun _ => none) 128 src dst
      ring := fb.ring.copyTo (fun _ => RingSt.reset) 1536 src dst
      bm := bm, bmFlip := fb.bmFlip.keep (fun k => k / 2048 != dst) } }

/-- The Roster keeps the running context of a pooled engine with its personality (R191, R393). -/
def DieSt.moveCtx (d : DieSt) (src dst : Nat) : DieSt := if d.pooled src then d.moveEngine src dst else d

/-- The detour switch (R100, R101): the personality homed at `home` is now in `dst`, no longer in `src`, whose REGION registers
return to their reset values (Table 13-4). -/
def DieSt.detourSwitch (d : DieSt) (home src dst : Nat) : DieSt :=
  let d := if isBench src && src ≠ home then d.setDetour src 63 else d
  let d := if dst = home then d else d.setDetour dst (home % 44)
  let d := ((d.put (F.RGN_STAT_AT home) (dst % 44)).put (F.RGN_STAT_HOME dst) (home % 44)).put (F.RGN_STAT_PAIRED dst)
    (d.f (F.RGN_STAT_PAIRED src))
  let d := ((d.wr (R.RGN_PID dst) (d.rd (R.RGN_PID src))).wr (R.RGN_RSIG_LO dst) (d.rd (R.RGN_RSIG_LO src))).wr (R.RGN_RSIG_HI dst)
    (d.rd (R.RGN_RSIG_HI src))
  let mon := d.pace.monRegion.cells.foldl (fun (t : Tab (Option Nat)) c => if c.2 = some src then t.set (fun _ => none) c.1 (some dst) else t) d.pace.monRegion
  let d : DieSt := { d with pace := { d.pace with monRegion := mon } }
  if src = dst then d else d.regionRegs src

/-- The personality in `dst` runs, or in LINE-UP is READY. -/
def DieSt.enliven (d : DieSt) (dst : Nat) (running : Bool) : DieSt :=
  let d := d.put (F.RGN_STAT_STATE dst) (if running then rgRunning else rgReady)
  { d with fab := { d.fab with gate := d.fab.gate.set (fun _ => false) dst (running && d.playing) } }

/-- Start in `dst`, from initial values, the personality homed at `home` that ran in `src`. -/
def DieSt.moveFresh (d : DieSt) (home src dst : Nat) (running : Bool) : DieSt :=
  let old := if src = dst || d.rgState src ≠ rgRunning then [] else d.latchedRing src
  let d := (((d.loadBench dst home).latchBench dst old).moveCtx src dst).detourSwitch home src dst
  let d := ((d.fabricReset dst).seReset dst).enliven dst running
  if running then (d.ringReleaseFresh dst old).unholdAll 1 (d.homePins home) else (d.latchBench dst []).setRing dst 0

/-- Start in `dst`, with the state of `fr`, the personality homed at `home` that ran in `src`. -/
def DieSt.moveWith (d : DieSt) (home src dst fr : Nat) : DieSt :=
  let d := (((d.loadBench dst home).moveState fr dst).moveCtx src dst).detourSwitch home src dst
  (((d.enliven dst true).ringRelease dst).seRelease dst).showCtx dst |>.unholdAll 1 (d.homePins home)

/-- The substitution of `home` to `bench` begins: the freeze of its ring, and of its partner's where there is one; a Drill test of the
bench is over. -/
def DieSt.subBegin (d : DieSt) (kind home bench : Nat) (mate : Option Nat) : DieSt :=
  let d := ((d.drillYield bench).subShow 2 kind home bench).subFreeze (d.nowAt home)
  let d := match mate with
    | some m => d.subFreeze (d.nowAt m)
    | none => d
  d.setRing bench 3

/-- The regions a substitution froze. -/
def DieSt.subFrozen (d : DieSt) (home : Nat) (mate : Option Nat) : Bool :=
  d.stillNow (d.nowAt home) && mate.all (fun m => d.stillNow (d.nowAt m))

/-- Blank the bench of a substitution that ends early. -/
def DieSt.dropBench (d : DieSt) : DieSt := d.blankRegion (d.f F.SUB_STAT_BENCH)

/-- Release the partner's region. -/
def DieSt.releaseMate (d : DieSt) (mate : Option Nat) : DieSt :=
  match mate with
  | some m => d.subRelease (d.nowAt m)
  | none => d

/-! ### Fault repair (R389, R390, R396 to R398) -/

/-- Any partner of a home, single or not. -/
def DieSt.partner (d : DieSt) (home : Nat) : Option Nat :=
  let p := d.rel.pair.get (fun _ => 0) home
  if p = 0 then none else some (p - 1)

/-- The steps of a paired repair after its freeze. -/
def DieSt.pairedFinish (d : DieSt) (home : Nat) (storeOk abort : Bool) : DieSt :=
  let mate := d.partner home
  let src := d.nowAt home
  let bench := d.f F.SUB_STAT_BENCH
  let d := d.forcedReport home
  if d.storeReads storeOk && !d.benchReady bench home then d
  else if !d.storeReads storeOk then (((d.dropBench.subFail 2 home).runSingle home).releaseMate mate).subOver true
  else if abort then
    let d := (d.dropBench.subRelease src).releaseMate mate
    if d.rel.aborts = 0 then { d with rel := { d.rel with aborts := 1 } }.subOver false
    else ((d.subFail 3 home).runSingle home).subOver true
  else
    let running := mate.any (fun m => d.rgState (d.nowAt m) == rgRunning)
    let d := match mate with
      | some m => if running then d.moveWith home src bench (d.nowAt m) else d.moveFresh home src bench false
      | none => d.moveFresh home src bench true
    let d := (d.failRegion src).releaseMate mate
    let d : DieSt := { d with rel := { d.rel with single := d.rel.single.filter (fun h => h != home) } }
    ((d.showSingle).subDone 1 home 400).subOver true

/-- PAIRED_REPAIR: one command begins the freeze, and the command that finds it complete does the rest.  A pair that runs
single is restored once a bench of its row is free. -/
def DieSt.pairedRepair (d : DieSt) (storeOk abort : Bool) : DieSt :=
  if !d.repairState || !d.on F.SUB_CFG_AUTO then d
  else
    let d : DieSt := if d.subFree && d.rel.todo.isEmpty then
        match d.rel.single.find? (fun h => !(d.benches (h / 44)).isEmpty) with
        | some h => { d with rel := { d.rel with todo := [.copy h] } }
        | none => d
      else d
    match d.rel.todo with
    | .copy home :: _ =>
      let d :=
        if d.subFree then
          let t := d.takeBench (home / 44)
          match t.2 with
          | some b => t.1.subBegin 1 home b (t.1.partner home)
          | none => ((t.1.subFail 1 home).runSingle home).subOver true
        else d
      if d.f F.SUB_STAT_STEP = 2 && d.f F.SUB_STAT_KIND = 1 && d.f F.SUB_STAT_HOME = home % 2048 && d.subFrozen home (d.partner home) then
        d.pairedFinish home storeOk abort
      else d
    | _ => d

/-- No bench for an unpaired repair: the region is rewritten in place; the second time within 1 s it is left FAILED. -/
def DieSt.rewriteInPlace (d : DieSt) (home : Nat) (storeOk : Bool) : DieSt :=
  let rg := d.nowAt home
  let last := d.rel.rewrite.get (fun _ => 0) rg
  let d := d.subFail 1 home
  if last ≠ 0 && d.now + 1 < last + 1000000000 then ((d.failRegion rg).quarAdd 1 4 rg 0).subOver true
  else if !d.storeReads storeOk then ((d.subFail 2 home).leaveIsolated home).subOver true
  else
    let d := ((d.loadRegion rg home).resetRegion home).resetEvent 3 home
    { d with rel := { d.rel with rewrite := d.rel.rewrite.set (fun _ => 0) rg (d.now + 1) } }.subOver true

/-- UNPAIRED_REPAIR: as PAIRED_REPAIR, from initial values. -/
def DieSt.unpairedRepair (d : DieSt) (storeOk : Bool) : DieSt :=
  if !d.repairState || !d.on F.SUB_CFG_AUTO then d
  else
    match d.rel.todo with
    | .fresh home :: _ =>
      let t := if d.subFree then d.takeBench (home / 44) else (d, some (d.f F.SUB_STAT_BENCH))
      match t.2 with
      | none => t.1.rewriteInPlace home storeOk
      | some b =>
        let d := if t.1.subFree then t.1.subBegin 2 home b none else t.1
        if d.f F.SUB_STAT_STEP = 2 && d.f F.SUB_STAT_KIND = 2 && d.f F.SUB_STAT_HOME = home % 2048 && d.subFrozen home none
            && (!d.storeReads storeOk || d.benchReady b home) then
          let src := d.nowAt home
          let d := d.forcedReport home
          if !d.storeReads storeOk then ((d.dropBench.subFail 2 home).leaveIsolated home).subOver true
          else
            let running := d.rgState src == rgRunning
            let d := ((d.moveFresh home src b running).failRegion src).resetEvent 1 home
            (d.subDone 2 home 400).subOver true
        else d
    | _ => d

/-! ### Drill (R401, R402) -/

/-- Drill substitutions start only in the window. -/
def DieSt.inWindow (d : DieSt) : Bool :=
  let p := d.f F.SUB_DRILL_WIN_WIN_PERIOD
  p == 0 || decide (d.mt.toNat / 1000 % p < d.f F.SUB_DRILL_WIN_WIN_LEN)

/-- DRILL_DUE: with no image store Drill is suspended (R37); else the next position of the row is chosen, a FAILED region first; a position that neither runs a personality
nor is BLANK or FAILED is passed over. -/
def DieSt.drillDue' (d : DieSt) (row : Nat) : DieSt :=
  let free := (d.benches row).length
  let bad := d.rel.drillBad.get (fun _ => 0) row
  let pace := max 1 (d.f F.SUB_DRILL_CFG_PACE) * 60000000000
  if d.dev = 4 && d.on F.SUB_DRILL_CFG_EN && decide (row < d.idn.rows) && bit (d.f F.SUB_DRILL_ROWS_EN) row && !d.storeUp then
    d.put F.SUB_DRILL_STAT_STATE 4
  else if d.dev ≠ 4 || !d.on F.SUB_DRILL_CFG_EN || d.idn.rows ≤ row || !bit (d.f F.SUB_DRILL_ROWS_EN) row
    || d.rel.drillOn.get (fun _ => 0) row ≠ 0 || d.now < d.rel.drillAt.get (fun _ => 0) row + pace || (bad ≠ 0 && free + 1 ≤ bad) then d
  else
    let d : DieSt := { d with rel := { d.rel with drillBad := d.rel.drillBad.set (fun _ => 0) row 0 } }
    let failed := (List.range 44).find? (fun p => d.rgState (44 * row + p) == rgFailed)
    let p := failed.getD (d.rel.drillPos.get (fun _ => 0) row)
    let r := 44 * row + p
    let d : DieSt := if failed.isSome then d else { d with rel := { d.rel with drillPos := d.rel.drillPos.set (fun _ => 0) row ((p + 1) % 44) } }
    let on := fun (due : Bool) => ({ d with rel := { d.rel with
      drillOn := d.rel.drillOn.set (fun _ => 0) row (r + 1), drillDue := d.rel.drillDue.set (fun _ => false) row due } } : DieSt)
    if !d.regionOn r then d.drillRowDone row 0
    else if d.rgState r = rgRunning && d.f (F.RGN_STAT_HOME r) ≠ 63 then on true
    else if d.rgState r = rgBlank || d.rgState r = rgFailed then (on false).put F.SUB_DRILL_STAT_STATE 2
    else d.drillRowDone row 0

/-- A Drill substitution ends early by an abort on the state bus: it is tried once more, and after the second given up (R397). -/
def DieSt.drillAborts (d : DieSt) (row home : Nat) (mate : Option Nat) : DieSt :=
  let src := d.nowAt home
  let d := (d.dropBench.subRelease src).releaseMate mate
  if d.rel.aborts = 0 then ({ d with rel := { d.rel with aborts := 1 } } : DieSt).subOver false
  else
    let d := (d.subFail 3 home).drillRowDone row 0
    ({ d with rel := { d.rel with aborts := 0 } } : DieSt).subOver false

/-- The frames that a Drill substitution fetches before it freezes its source cannot be read: SUB_FAIL, and Drill suspends
(R37, R392, R397). -/
def DieSt.drillNoFetch (d : DieSt) (row home : Nat) : DieSt := (d.subFail 2 home).drillRowDone row 4

/-- The engine may begin a Drill substitution: it is idle, no repair waits, and the window is open (R391, R401). -/
def DieSt.drillMay (d : DieSt) : Bool := d.dev == 4 && d.on F.SUB_DRILL_CFG_EN && d.rel.todo.isEmpty && d.subFree && d.inWindow

/-- DRILL_OUT (kind 3). -/
def DieSt.drillOut (d : DieSt) (row : Nat) (storeOk abort : Bool) : DieSt :=
  let r := d.rel.drillOn.get (fun _ => 0) row - 1
  let home := d.homeOf r
  let mate := d.mateHome home
  if !d.rel.drillDue.get (fun _ => false) row || d.rel.drillOn.get (fun _ => 0) row = 0 || d.rgState r ≠ rgRunning then d
  else
    let d :=
      if !d.drillMay then d
      else if !d.storeUp then d.put F.SUB_DRILL_STAT_STATE 4
      else
        match d.benches row with
        | b :: _ :: _ =>
          if storeOk then (d.subBegin 3 home b mate).put F.SUB_DRILL_STAT_STATE 1 else d.drillNoFetch row home
        | _ => d
    let b := d.f F.SUB_STAT_BENCH
    if d.f F.SUB_STAT_STEP = 2 && d.f F.SUB_STAT_KIND = 3 && d.f F.SUB_STAT_HOME = home % 2048 && d.subFrozen home mate && d.benchReady b home then
      let d := d.forcedReport home
      if abort then d.drillAborts row home mate
      else
        let d := (((d.moveWith home r b r).blankRegion r).releaseMate mate).subDone 3 home 40
        let d := { d with rel := { d.rel with
          aborts := 0, drillDue := d.rel.drillDue.set (fun _ => false) row false
          drillHome := d.rel.drillHome.set (fun _ => none) row (some home) } }.put F.SUB_DRILL_STAT_STATE 2
        d.subOver false
    else d

/-- DRILL_TEST_END: the test of Table 15-7 ends; `block` is the first block the region fails. -/
def DieSt.drillTestEnd (d : DieSt) (row : Nat) (block : Option Nat) : DieSt :=
  let r := d.rel.drillOn.get (fun _ => 0) row - 1
  let st := d.rgState r
  if d.rel.drillOn.get (fun _ => 0) row = 0 || d.rel.drillDue.get (fun _ => false) row || !(st == rgBlank || st == rgFailed) || !d.regionOn r then d
  else
    let d := (d.bump F.SUB_DRILL_STAT_TESTED).put F.SUB_DRILL_STAT_REGION r
    match block with
    | some b =>
      let d := ((d.put (F.RGN_STAT_STATE r) rgQuarantined).setRing r 0).quarAdd 1 3 r (b % 256)
      let d := (d.raiseSub (d.on F.SUB_EVT_EN_DRILL) 0x0F21 (b % 256 * 2 ^ 16 + r)).drillRowDone row 4
      { d with rel := { d.rel with drillBad := d.rel.drillBad.set (fun _ => 0) row ((d.benches row).length + 1) } }
    | none =>
      if (d.rel.drillHome.get (fun _ => none) row).isSome || st = rgFailed then
        let home := (d.rel.drillHome.get (fun _ => none) row).getD (d.homeOf r)
        ({ d with rel := { d.rel with
          drillHome := d.rel.drillHome.set (fun _ => none) row (some home)
          drillBack := d.rel.drillBack.set (fun _ => false) row true } } : DieSt).put F.SUB_DRILL_STAT_STATE 3
      else d.drillRowDone row 0

/-- DRILL_BACK (kind 4): the tested region is rewritten from the store and takes its personality back, with its own state,
with its partner's where it ran single, or from initial values where it ran nowhere. -/
def DieSt.drillBack (d : DieSt) (row : Nat) (storeOk abort : Bool) : DieSt :=
  let r := d.rel.drillOn.get (fun _ => 0) row - 1
  match d.rel.drillHome.get (fun _ => none) row with
  | none => d
  | some home =>
    let src := d.nowAt home
    let away := src != r && d.rgState src == rgRunning
    let mate := if away then d.mateHome home else d.partner home
    if d.rel.drillOn.get (fun _ => 0) row = 0 || !(d.rgState r == rgBlank || d.rgState r == rgFailed) then d
    else
      let d :=
        if !(d.drillMay && d.rel.drillBack.get (fun _ => false) row) then d
        else if !d.storeUp then d.put F.SUB_DRILL_STAT_STATE 4
        else if storeOk then (d.subBegin 4 home r mate).put F.SUB_DRILL_STAT_STATE 3
        else d.drillNoFetch row home
      if d.f F.SUB_STAT_STEP = 2 && d.f F.SUB_STAT_KIND = 4 && d.f F.SUB_STAT_HOME = home % 2048 && d.subFrozen home mate && d.benchReady r home then
        let d := d.forcedReport home
        if abort then d.drillAborts row home mate
        else
          let d :=
            if away then (d.moveWith home src r src).blankRegion src
            else match mate with
              | some m => d.moveWith home r r (d.nowAt m)
              | none => (d.moveFresh home r r true).resetEvent 1 home
          let d : DieSt := { d with rel := { d.rel with single := d.rel.single.filter (fun h => h != home), aborts := 0 } }
          ((((d.showSingle).releaseMate mate).subDone 4 home 40).drillRowDone row 0).subOver false
      else d

/-! ### The Full-Time Test (R405, R406) -/

/-- A test that has begun and not ended. -/
def DieSt.fttRuns (d : DieSt) : Bool := d.dev == 7 && d.f F.FTT_STAT_RESULT == 0

/-- FTT_CONDITION_FAIL: reasons [0] VCORE, [1] REFCLK, [2] temperature, [3] EN = 0; skipped at step 2, ABORTED later. -/
def DieSt.fttCondition (d : DieSt) (reasons step : Nat) : DieSt :=
  let why := Nat.lor (reasons % 8) (if d.on F.FTT_CFG_EN then 0 else 8)
  if !d.fttRuns || why = 0 || step < 2 || 6 < step then d
  else (d.put F.FTT_STAT_STEP step).fttStop (if step = 2 then 3 else 4) why

/-- FTT_LIMIT. -/
def DieSt.fttLimit (d : DieSt) (step : Nat) : DieSt :=
  if !d.fttRuns || step < 2 || 6 < step || d.now < d.pwr.ftAt + max 1 (d.f F.FTT_CFG_LIMIT) * 100000000 then d
  else (d.put F.FTT_STAT_STEP step).fttStop 4 16

/-- Is a resource that the test names there (R16, Table 15-9). -/
def DieSt.fttHas (d : DieSt) (f : TestFail) : Bool :=
  match f.kind with
  | 1 => d.hasRegion f.index
  | 3 => d.idn.lane f.index
  | 4 => decide (f.index < 8) || (decide (16 ≤ f.index) && decide (f.index ≤ 25))
  | _ => false

/-- FTT_END: every failure is a quarantine record with cause 1; post-package repairs begin (R267, Table 15-10, steps 7 and 8). -/
def DieSt.fttEnd (d : DieSt) (bad : List TestFail) : DieSt :=
  if !d.fttRuns then d
  else
    let l := bad.filter d.fttHas
    let d := l.foldl (fun d f => d.quarAdd f.kind 1 f.index f.detail) d
    let d := ((d.put F.FTT_STAT_STEP 7).put F.FTT_STAT_FAILS (min 65535 l.length)).put F.FTT_STAT_RESULT (if l.isEmpty then 1 else 2)
    let d := (d.car 36 4 1).raise 0x709 0x0F31 (d.f F.FTT_STAT_RESULT * 2 ^ 21 + d.f F.FTT_STAT_FAILS)
    let d := d.fttTime.fttCopy.pprStart
    { d with rel := { d.rel with fttRan := true, fttBad := l.map (fun f => f.kind * 65536 + f.index % 32768) } }

/-! ### The Career log (R408, R409) -/

/-- The Referee's 15-minute write. -/
def DieSt.careerDue (d : DieSt) (ok : Bool) : DieSt :=
  if d.serving && decide (d.rel.carAt + 900000000000 ≤ d.now) then { d.careerWrite ok with rel := { (d.careerWrite ok).rel with carAt := d.now } }
  else d

/-- The bin of a histogram. -/
def binOf (v : Int) : Nat := if v < 0 then 0 else min 15 v.toNat

/-- CAREER_SAMPLE: the five histograms of Table 15-12, and the seconds with PWRGOOD high and in PLAY.  `tj` is the highest
junction temperature in °C; `level` (in sixteenths of the capacity) and `armed` are the second's highest. -/
def DieSt.careerSample (d : DieSt) (tj : Int) (level armed : Nat) : DieSt :=
  if d.dev = 0 || d.dev = 5 then d
  else
    let d := if d.pwr.good then d.car 20 4 1 else d
    let d := if d.dev = 4 then d.car 24 4 1 else d
    let d := d.car (416 + 4 * binOf ((tj + 40) / 10)) 4 1
    let d := d.car (480 + 4 * binOf (((d.f F.PACE_STAT_VSET : Int) - 600) / 16)) 4 1
    let d := d.car (544 + 4 * binOf (((d.f F.PACE_MARGIN_MIN : Int) - 14) / 2)) 4 1
    let d := d.car (608 + 4 * min 15 level) 4 1
    d.car (672 + 4 * min 15 (armed / 2560)) 4 1

/-! ### The commands -/

/-- FRAME_SWEEP_STEP (R384, R385). -/
def execFrameSweepStep (x : Die) (rg upset : Nat) (later : List (Nat × Nat)) (s : State) : Out :=
  act x s (fun d => (d.sweepStep rg upset).struck rg later)

/-- READER_HEARTBEAT_MISS (R386). -/
def execReaderHeartbeatMiss (x : Die) (rg : Nat) (s : State) : Out := act x s (fun d => d.readerMiss rg)

/-- COORDINATOR_MISCOMPARE (R386). -/
def execCoordinatorMiscompare (x : Die) (s : State) : Out := .next (s.coordMiscompare x)

/-- COORDINATOR_RESTART_END (R386). -/
def execCoordinatorRestartEnd (x : Die) (s : State) : Out := act x s (fun d => d.put F.SWP_STAT_RESTARTING 0)

/-- PAIR_MISMATCH (R388). -/
def execPairMismatch (x : Die) (a b since : Nat) (s : State) : Out := act x s (fun d => d.pairMismatch a b since)

/-- PAIR_CHECK_END (R389). -/
def execPairCheckEnd (x : Die) (upA upB : List (Nat × Nat)) (s : State) : Out := act x s (fun d => d.pairCheckEnd upA upB)

/-- PAIRED_REPAIR (R392). -/
def execPairedRepair (x : Die) (storeOk abort : Bool) (s : State) : Out := act x s (fun d => d.pairedRepair storeOk abort)

/-- UNPAIRED_REPAIR (R396). -/
def execUnpairedRepair (x : Die) (storeOk : Bool) (s : State) : Out := act x s (fun d => d.unpairedRepair storeOk)

/-- DRILL_DUE (R401). -/
def execDrillDue (x : Die) (row : Nat) (s : State) : Out := act x s (fun d => d.drillDue' row)

/-- DRILL_OUT (R401). -/
def execDrillOut (x : Die) (row : Nat) (storeOk abort : Bool) (s : State) : Out := act x s (fun d => d.drillOut row storeOk abort)

/-- DRILL_TEST_END (R402). -/
def execDrillTestEnd (x : Die) (row : Nat) (block : Option Nat) (s : State) : Out := act x s (fun d => d.drillTestEnd row block)

/-- DRILL_BACK (R401). -/
def execDrillBack (x : Die) (row : Nat) (storeOk abort : Bool) (s : State) : Out := act x s (fun d => d.drillBack row storeOk abort)

/-- FTT_CONDITION_FAIL (R405). -/
def execFttConditionFail (x : Die) (reasons step : Nat) (s : State) : Out :=
  .next (onDie x s (fun d => (if d.fttRuns then d.ftKeep else d).fttCondition reasons step)).fttNext

/-- FTT_LIMIT (R406). -/
def execFttLimit (x : Die) (step : Nat) (s : State) : Out :=
  .next (onDie x s (fun d => (if d.fttRuns then d.ftKeep else d).fttLimit step)).fttNext

/-- FTT_END (R406). -/
def execFttEnd (x : Die) (bad : List TestFail) (s : State) : Out :=
  .next (onDie x s (fun d => (if d.fttRuns then d.ftKeep else d).fttEnd bad)).fttNext

/-- CAREER_WRITE (R408). -/
def execCareerWrite (x : Die) (ok : Bool) (s : State) : Out := act x s (fun d => d.careerDue ok)

/-- CAR_WRITE (R414). -/
def execCarWrite (x : Die) (m : Master) (ok : Bool) (s : State) : Out := act x s (fun d => d.busAct m R.CAR_CMD (fun d => d.careerWrite ok))

/-- CAREER_SAMPLE (R409). -/
def execCareerSample (x : Die) (tj : Int) (level armed : Nat) (s : State) : Out := act x s (fun d => d.careerSample tj level armed)

/-- SWP_CNT_CLR.ALL (R411). -/
def DieSt.swpCntClr (d : DieSt) : DieSt := (d.wr R.SWP_CNT 0).wr R.SWP_RESTART 0

/-- SWP_CNT_CLR (R411). -/
def execSwpCntClr (x : Die) (m : Master) (s : State) : Out :=
  act x s (fun d => d.busAct m R.SWP_CNT_CLR (fun d => d.swpCntClr))

end Sys2Proof.Machine
end

