-- ==== Sys2Proof/Machine/Referee.lean ====
section
/-! DEFINITION. The Referee's calls of Table 16-3, remote calls, Team updates, keys and fuses, and the Referee's restart
(R197, R208 to R213, R224, R254, R287, R288, R310, R320, R334, R404, R415 to R432).  What the Referee reads outside the
device (signatures, packages, NVM writes that fail) is an operand of the command. -/

namespace Sys2Proof.Machine

/-! ### Calls that reach both dies (R429) -/

/-- Die 1's Referee takes a call that die 0, which does not serve now, is to answer: it stays BUSY until then (R429). -/
def DieSt.callForward (d : DieSt) (w : Caller) : DieSt :=
  let d := d.callTake w
  { d with ref := { d.ref with fwd := d.ref.fwd ++ [w] } }

/-- Take a call made on die `x` whose effect reaches the whole package; `lead`: die 1 forwards it to die 0, whose Referee
must serve. -/
def State.call (s : State) (x : Die) (w : Caller) (code : Nat) (lead : Bool) (g : State → State × Option (Nat × List Nat)) : State :=
  let next := (s.die x).callNext w code
  if (s.die x).idn.absent || !(next || (s.die x).callWaits w code) then s
  else if lead && !s.d0.serving && (s.die x).policyAllows w code then
    (if next then onDie x s (fun d => (d.callForward w).dropUnknown 8) else s)
  else
    let s1 := onDie x s (fun d => d.callTake w)
    let s2 :=
      if !(s.die x).policyAllows w code then onDie x s1 (fun d => d.callEnd w csDenied [])
      else
        let r := g s1
        match r.2 with
        | some (st, rets) => onDie x (if st = csOk || st = csFailed then r.1 else s1) (fun d => d.callEnd w st rets)
        | none => r.1
    onDie x s2 (fun d => d.dropUnknown 8)

/-- Is a resource free for Team's use. -/
def DieSt.mine (d : DieSt) (r : Nat) : Bool := d.claim r == 0 || d.claim r == claimTeam

/-! ### Pins and matchers -/

/-- Does a PIN_CFG word break Table 12-1 at pin `n` whatever resources the part has. -/
def DieSt.pinMisfit (d : DieSt) (n : Nat) (v : Word) : Bool :=
  let o := cfgOwner v
  let g := cfgSig v
  match cfgFunc v with
  | 3 => o != 3 || decide (16 ≤ g) || decide (n < 80) || decide (96 ≤ n)
  | 9 => decide (1 < o) || decide (80 ≤ g % 128)
  | _ => !d.pinRule n v

/-- A pin call ends when its setting has taken effect, at the end of the guard where there is one (example of R315): `pinWrite`
ends it. -/
def DieSt.pinCall (d : DieSt) : DieSt × Option (Nat × List Nat) := (d, none)

/-- PIN_SET: the pin, and the peripheral its function uses, are Team's or unclaimed, and Team claims them. -/
def DieSt.callPinSet (d : DieSt) (w : Caller) : DieSt :=
  d.call w 0x10 (fun d =>
    let n := d.arg w 0
    let v := BitVec.ofNat 32 (d.arg w 1)
    let e := BitVec.ofNat 32 (d.arg w 2)
    let uses := (pinUses v).toList
    d.checked [(decide (0x3C0 ≤ n) || cfgOwner v != 1 || d.pinMisfit n v, csRange), (decide (d.pins ≤ n) || d.pinAbsent v, csAbsent),
        (d.pinSealed (d.rd (R.PIN_CFG n)) v, csSealed),
        (d.f (F.PIN_CFG_OWNER n) != 1, csClaimed), ((n :: uses).any (fun r => !d.mine r), csClaimed),
        ((n :: uses).any (fun r => d.held r), csBusy)]
      (fun d =>
        let d := (n :: uses).foldl (fun d r => d.setClaim r claimTeam) d
        ((d.hold w n).pinWrite n v (some e) (some w)).1.pinCall))

/-- PIN_OWNER: the peripheral or matcher that the function uses is claimed for the new owner (R311). -/
def DieSt.callPinOwner (d : DieSt) (w : Caller) : DieSt :=
  d.call w 0x11 (fun d =>
    let n := d.arg w 0
    let a := d.arg w 1
    let v := BitVec.ofNat 32 (a % 4 * 2 ^ 30 + bits a 27 24 * 2 ^ 24 + bits a 15 8 * 2 ^ 8)
    let who := if a % 4 = 0 then claimReferee else claimTeam
    let uses := (pinUses v).toList
    d.checked [(decide (0x3C0 ≤ n) || cfgOwner v == 2 || d.pinMisfit n v, csRange), (decide (d.pins ≤ n) || d.pinAbsent v, csAbsent),
        (d.pinSealed (d.rd (R.PIN_CFG n)) v, csSealed),
        (d.claim n != 0 || d.f (F.PIN_CFG_OWNER n) == 2 || uses.any (fun r => d.claim r != 0 && d.claim r != who), csClaimed),
        ((n :: uses).any (fun r => d.held r), csBusy)]
      (fun d =>
        let d := uses.foldl (fun d r => d.setClaim r who) d
        ((d.hold w n).pinWrite n v none (some w)).1.pinCall))

/-- MATCHER_SET. -/
def DieSt.callMatcherSet (d : DieSt) (w : Caller) : DieSt :=
  d.call w 0x12 (fun d =>
    let k := d.arg w 0
    let v := BitVec.ofNat 32 (d.arg w 1)
    d.checked [(decide (80 ≤ k) || decide (4 < bits v.toNat 29 27), csRange), (decide (d.idn.banks ≤ k / 4), csAbsent),
        (!d.mine (0x500 + k), csClaimed), (d.held (0x500 + k), csBusy)]
      (fun d =>
        let r := (d.setClaim (0x500 + k) claimTeam).pmCfgWrite (k / 4) (k % 4) v
        done (r.1.wr (R.PIN_PM_MV (k / 4) (k % 4)) (BitVec.ofNat 32 (d.arg w 2))) []))

/-! ### Queues and check-value units -/

/-- An end that the word binds afresh is claimed by another: a claim of Team's own on an unbound end is no obstacle, unless
the Roster's read side is to stand there, which needs the claim of the context that uses it (R183, R208). -/
def DieSt.qEndTaken (d : DieSt) (q v : Nat) (wr : Bool) : Bool :=
  let old := (d.rd (R.Q_CFG q)).toNat
  let r := qEndRes q wr
  let e := qEndOf v wr
  let c := d.claim r
  e.1 != 0 && e != qEndOf old wr && c != 0
  && !(if !wr && e.1 == 2 then decide (claimContext 0 ≤ c) && decide (c < claimUnit 0)
       else c == claimTeam && (qEndOf old wr).1 == 0)

/-- Is an end's agent absent. -/
def DieSt.qEndAbsent (d : DieSt) (v : Nat) : Bool :=
  let a := qEndOf v true
  let b := qEndOf v false
  (a.1 == 1 && decide (d.idn.rows ≤ a.2.2)) || (b.1 == 1 && decide (d.idn.rows ≤ b.2.2))
  || (b.1 == 4 && decide (d.idn.eth ≤ b.2.2)) || (b.1 == 5 && decide (d.idn.slk ≤ b.2.2))

/-- Q_BIND. -/
def DieSt.callQBind (d : DieSt) (w : Caller) : DieSt :=
  d.call w 0x20 (fun d =>
    let q := d.arg w 0
    let cfg := BitVec.ofNat 32 (d.arg w 1)
    let base := BitVec.ofNat 32 (d.arg w 2)
    let size := BitVec.ofNat 32 (d.arg w 3)
    let n := size.toNat % 2 ^ 17
    let v := cfg.toNat
    let new := d.qConfigure q cfg base size
    d.checked [(decide (64 ≤ q) || qCfgReserved cfg || decide (65536 < n) || (bit v 30 && n != 0)
          || ((qEndOf v true).1 == 4 && decide (16 ≤ (qEndOf v true).2.2)), csRange),
        (d.qEndAbsent v || (n != 0 && decide (d.idn.ddr ≤ bits base.toNat 31 30)), csAbsent), (!d.hubOn, csState),
        (d.qEndTaken q v true || d.qEndTaken q v false, csClaimed), (new.isNone || d.held (0x600 + q), csBusy)]
      (fun d =>
        let old := (d.rd (R.Q_CFG q)).toNat
        let e := new.getD d
        done ((e.qEndBound q old v claimTeam true).qEndBound q old v claimTeam false) []))

/-- Step 4 of Q_UNBIND: both end fields 0, both end claims released, and nothing of the old ends left in the queue. -/
def DieSt.unbound (d : DieSt) (q : Nat) : DieSt :=
  let v := BitVec.ofNat 32 ((d.rd (R.Q_CFG q)).toNat &&& 0xF00003FF)
  (((d.wr (R.Q_CFG q) v).setClaim (0x600 + q) 0).setClaim (0x640 + q) 0).qFresh q

/-- Q_UNBIND: ends at once when the queue is empty, else waits for Q_UNBIND_DRAIN_END. -/
def DieSt.callQUnbind (d : DieSt) (w : Caller) : DieSt :=
  d.call w 0x21 (fun d =>
    let q := d.arg w 0
    d.checked [(decide (64 ≤ q), csRange), (!d.hubOn, csState), (d.servesExpress q, csClass), (d.held (0x600 + q), csBusy)]
      (fun d =>
        let d := d.put (F.Q_CFG_EN q) 0
        let d := if bit (d.arg w 1) 0 then d.qFlush q else d
        if d.qIdle q then done (d.unbound q) []
        else ((d.hold w (0x600 + q)).setQue q { d.que q with unbind := some w }, none)))

/-- Q_UNBIND_DRAIN_END. -/
def DieSt.unbindEnd (d : DieSt) (q : Nat) (timeout : Bool) : DieSt :=
  match (d.que q).unbind with
  | none => d
  | some w =>
    let e := d.setQue q { d.que q with unbind := none }
    if e.qIdle q then (e.unbound q).callEnd w csOk []
    else if timeout then e.callEnd w csBusy []
    else d

/-- CRC_ATTACH. -/
def DieSt.callCrcAttach (d : DieSt) (w : Caller) : DieSt :=
  d.call w 0x22 (fun d =>
    let u := d.arg w 0
    let v := d.arg w 1
    let k := bits v 31 29
    let i := bits v 5 0
    let lim := nth 16 [64, 64, 64, 4, 4, 4, 4, 16] k
    let there := if k = 3 || k = 4 then decide (i < d.idn.eth) else if k = 5 || k = 6 then decide (i < d.idn.slk) else true
    d.checked [(decide (16 ≤ u) || decide (lim ≤ i), csRange), (!there, csAbsent), (!d.hubOn, csState),
        (!d.mine (0x680 + u) || d.on (F.CRC_SCAN_STAT_BUSY u), csClaimed), (d.held (0x680 + u), csBusy)]
      (fun d => done (((d.setClaim (0x680 + u) claimTeam).wr (R.CRC_ATTACH u) (BitVec.ofNat 32 v &&& 0xE000003F)).setCrc u
        { d.crcU u with inPacket := false }) []))

/-! ### Express contexts (R197) -/

/-- The admitted contexts of a group. -/
def DieSt.admitted (d : DieSt) (g : Nat) : List Nat := d.usedCtx.filter (fun n => d.cAdmitted n && d.cGroup n == g)

/-- The slots taken in a group. -/
def DieSt.slotsOf (d : DieSt) (g : Nat) : List Nat := ((d.admitted g).filterMap (fun n => (d.cx n).slot)).eraseDups

/-- The context uses the period trigger alone. -/
def DieSt.periodAlone (d : DieSt) (n : Nat) : Bool := d.cTrgPeriod n && !d.cTrgQ n && !d.cTrgWatch n && !d.cTrgEvent n

/-- Two windows [PHASE, PHASE + RUN_MAX + 2,000 ns) of one PERIOD are disjoint modulo it. -/
def windowsApart (period p1 l1 p2 l2 : Nat) : Bool :=
  decide (l1 + l2 ≤ period) && decide (l1 ≤ (p2 + period - p1 % period) % period) && decide (l2 ≤ (p1 + period - p2 % period) % period)

/-- May two contexts share a slot (condition 6). -/
def DieSt.mayShare (d : DieSt) (a b : Nat) : Bool :=
  d.periodAlone a && d.periodAlone b && d.cPeriod a == d.cPeriod b
  && windowsApart (d.cPeriod a) (d.cPhase a) (d.cRunMax a + 2000) (d.cPhase b) (d.cRunMax b + 2000)

/-- The slot a context takes: the lowest it may share, else the lowest free one, within the group's and the die's number. -/
def DieSt.slotFor (d : DieSt) (n : Nat) : Option Nat :=
  let g := d.cGroup n
  let taken := d.slotsOf g
  let share := (List.range 256).find? (fun k => taken.contains k
    && (d.admitted g).all (fun m => (d.cx m).slot != some k || d.mayShare n m))
  let most := ((d.groupEngines g).filter (fun r => d.rgState r == rgRunning)).length
  let all := (List.range 64).foldl (fun t h => t + (d.slotsOf h).length) 0
  match share with
  | some k => some k
  | none => if taken.length < most && all < 256 then (List.range 256).find? (fun k => !taken.contains k) else none

/-- Condition 3: no inbox, and the queues it uses are pinned express queues. -/
def DieSt.expressQueues (d : DieSt) (n : Nat) : Bool :=
  !d.cInbox n && d.on (F.Q_CFG_PINNED (d.cQin n))
  && (!d.cOutEn n || d.on (F.Q_CFG_PINNED (d.cQout n)))

/-- EXPRESS_ADMIT. -/
def DieSt.callExpressAdmit (d : DieSt) (w : Caller) : DieSt :=
  d.call w 0x30 (fun d =>
    let n := d.arg w 0
    let d := if n < 40960 then (d.descRead n).1 else d
    let slot := d.slotFor n
    let g := d.cGroup n
    d.checked [(decide (40960 ≤ n) || d.xShort, csRange), (!d.rosOn, csState), (d.cst n != cStopped, csState),
        (d.ctxChecks n != 0, d.ctxChecks n), (!d.cResident n || d.cRunMax n == 0 || !d.expressQueues n, csRange),
        (decide (512 < d.grpWx g) || decide (512 < d.grpWy g), csRange), (slot.isNone, csFull), ((d.ctxArm n).2 != 0, (d.ctxArm n).2)]
      (fun d =>
        let d := (d.put (cF n 0 27 26) 0).put (cF n 0 18 18) 1
        let d := (d.setCx n { d.cx n with slot := slot }).ctxArm n
        done d.1 [slot.getD 0, (d.1.slotsOf g).length]))

/-- A release whose context has come to rest ends: ADMITTED clears and the slot is free. -/
def DieSt.releaseEnds (d : DieSt) : DieSt :=
  match d.ros.release with
  | none => d
  | some (n, w) =>
    if (d.cx n).stopping then d
    else
      let d := if d.cst n = cError || d.cst n = cFaulted then (d.setCx n { d.cx n with lost := none, descBad := false, cont := false }).setCst n cStopped else d
      let d := d.put (cF n 0 18 18) 0
      let d := d.setCx n { d.cx n with slot := none }
      ({ d with ros := { d.ros with release := none } } : DieSt).callEnd w csOk []

/-- EXPRESS_RELEASE: one at a time; a running context stops first. -/
def DieSt.callExpressRelease (d : DieSt) (w : Caller) : DieSt :=
  (d.call w 0x31 (fun d =>
    let n := d.arg w 0
    let d := if n < 40960 then (d.descRead n).1 else d
    d.checked [(decide (40960 ≤ n), csRange), (!d.rosOn || !d.cAdmitted n, csState), (d.ros.release.isSome, csBusy)]
      (fun d =>
        let d : DieSt := { d with ros := { d.ros with release := some (n, w) } }
        (if cWaiting ≤ d.cst n && d.cst n ≤ cSaving then d.stopBegin n else d, none)))).releaseEnds

/-! ### Class-0 admissions (R254, R288) -/

/-- 30 % of a channel's peak, in lines per µs. -/
def DieSt.dramLimit (d : DieSt) (c : Nat) : Nat := nth 240 [180, 210, 240] (d.f (F.DMC_CFG_BIN c))

/-- A sum over the other class-0 fabric ports of a channel. -/
def DieSt.dramSum (d : DieSt) (c p : Nat) (x : Nat → Nat) : Nat :=
  ((List.range 8).filter (fun i => i != p && d.on (F.DMC_PORT_CFG_EN c i) && d.f (F.DMC_PORT_CFG_CLASS c i) == 0)).foldl (fun t i => t + x i) 0

/-- The rate regulator of a port that is admitted (R254): one that was class 0 already keeps the tokens it holds, credited at
its old RATE, up to the new CREDITS; any other holds none yet (DESIGN CHOICE, log entry 159). -/
def DieSt.admitTokens (d : DieSt) (c p cr : Nat) : DieSt :=
  let n := if d.f (F.DMC_PORT_CFG_CLASS c p) = 0 then min (1000 * cr) (d.tokensNow c p) else 0
  d.setCh c { d.ch c with tokens := (d.ch c).tokens.set (fun _ => (0, 0)) p (n, d.now) }

/-- DRAM_ADMIT. -/
def DieSt.callDramAdmit (d : DieSt) (w : Caller) : DieSt :=
  d.call w 0x32 (fun d =>
    let c := d.arg w 0 % 4
    let p := d.arg w 0 / 16 % 8
    let rate := d.arg w 1
    let cr := d.arg w 2
    let pn := d.arg w 3
    d.checked [(rate == 0 || decide (255 < rate) || cr == 0 || decide (16 < cr) || decide (31 < pn) || d.xShort, csRange), (decide (d.idn.ddr ≤ c), csAbsent),
        (!d.chReady c || !d.on (F.DMC_PORT_CFG_EN c p), csState), (!d.mine (0x740 + 8 * c + p), csClaimed),
        (decide (d.dramLimit c < d.dramSum c p (fun i => d.f (F.DMC_PORT_CFG_RATE c i)) + rate)
          || decide (16 < d.dramSum c p (fun i => d.f (F.DMC_PORT_CFG_CREDITS c i)) + cr), csFull)]
      (fun d =>
        let d := (d.admitTokens c p cr).setClaim (0x740 + 8 * c + p) claimTeam
        let d := (((d.put (F.DMC_PORT_CFG_CLASS c p) 0).put (F.DMC_PORT_CFG_RATE c p) rate).put (F.DMC_PORT_CFG_CREDITS c p) cr).put (F.DMC_PORT_CFG_PANIC c p) pn
        done (d.chShow c) []))

/-- DRAM_RELEASE: the port goes back to its image class; STATE where it is not admitted. -/
def DieSt.callDramRelease (d : DieSt) (w : Caller) : DieSt :=
  d.call w 0x33 (fun d =>
    let c := d.arg w 0 % 4
    let p := d.arg w 0 / 16 % 8
    d.checked [(decide (d.idn.ddr ≤ c), csAbsent),
        (!d.on (F.DMC_PORT_CFG_EN c p) || d.f (F.DMC_PORT_CFG_CLASS c p) != 0, csState)]
      (fun d =>
        let d := (d.setClaim (0x740 + 8 * c + p) 0).put (F.DMC_PORT_CFG_CLASS c p) (max 1 (d.imagePort c p))
        let d := ((d.put (F.DMC_PORT_CFG_RATE c p) 0).put (F.DMC_PORT_CFG_CREDITS c p) 0).put (F.DMC_PORT_CFG_PANIC c p) 0
        done (d.chShow c) []))

/-- Class-0 tokens per µs admitted at a local port, apart from one channel and one queue. -/
def DieSt.slkSum (d : DieSt) (p butChan butQueue : Nat) : Nat :=
  let ch := ((List.range 256).filter (fun c => c != butChan && d.on (F.SLK_CHAN_CFG_EN c) && !d.on (F.SLK_CHAN_CFG_DIR c)
    && d.f (F.SLK_CHAN_CFG_CLASS c) == 0 && (d.route (d.f (F.SLK_CHAN_CFG_DEST c))).1 == p)).foldl
      (fun t c => t + d.f (F.SLK_CHAN_RATE_RATE c)) 0
  (d.slkAdm.cells.filter (fun c => c.1 != butQueue && d.f (F.Q_CFG_RSEL c.1) == p)).foldl (fun t c => t + (c.2 - 1)) ch

/-- SLK_ADMIT. -/
def DieSt.callSlkAdmit (d : DieSt) (w : Caller) : DieSt :=
  d.call w 0x34 (fun d =>
    let a := d.arg w 0
    let i := a % 256
    let rate := d.arg w 1
    if bit a 8 then
      let p := d.f (F.Q_CFG_RSEL i)
      d.checked [(decide (64 ≤ i) || rate == 0 || decide (255 < rate) || d.xShort, csRange),
          (!d.hubOn || !d.on (F.Q_CFG_PINNED i) || d.f (F.Q_CFG_RSNK i) != 5, csState), (!d.mine (0x640 + i), csClaimed),
          (decide (64 < d.slkSum p 256 i + rate), csFull)]
        (fun d => done { d with slkAdm := d.slkAdm.set (fun _ => 0) i (rate + 1) } [])
    else
      let p := (d.route (d.f (F.SLK_CHAN_CFG_DEST i))).1
      d.checked [(rate == 0 || decide (255 < rate) || d.xShort, csRange), (!d.on (F.SLK_CHAN_CFG_EN i), csAbsent),
          (d.on (F.SLK_CHAN_CFG_DIR i), csState), (!d.mine (0x800 + i), csClaimed), (decide (64 < d.slkSum p i 64 + rate), csFull)]
        (fun d => done (((d.setClaim (0x800 + i) claimTeam).put (F.SLK_CHAN_CFG_CLASS i) 0).put (F.SLK_CHAN_RATE_RATE i) rate) []))

/-- SLK_RELEASE: STATE where nothing is admitted. -/
def DieSt.callSlkRelease (d : DieSt) (w : Caller) : DieSt :=
  d.call w 0x35 (fun d =>
    let a := d.arg w 0
    let i := a % 256
    if bit a 8 then
      d.checked [(decide (64 ≤ i), csRange), (d.slkAdm.get (fun _ => 0) i == 0, csState)]
        (fun d => done { d with slkAdm := d.slkAdm.set (fun _ => 0) i 0 } [])
    else
      d.checked [(!d.on (F.SLK_CHAN_CFG_EN i), csAbsent), (d.f (F.SLK_CHAN_CFG_CLASS i) != 0 || d.on (F.SLK_CHAN_CFG_DIR i), csState)]
        (fun d => done (((d.setClaim (0x800 + i) 0).put (F.SLK_CHAN_CFG_CLASS i) (d.imageChanClass i)).put (F.SLK_CHAN_RATE_RATE i) 0) []))

/-! ### The loader's calls -/

/-- A region that a call names lies in a disabled row (R18). -/
def DieSt.rowAbsent (d : DieSt) (rg : Nat) : Bool := decide (rg < 1408) && !d.hasRegion rg

/-- What a loader call's argument names is absent (R18): the regions of PLOAD, COMMIT and CAPTURE, the frame of READBACK, and
the channel a PLOAD reads. -/
def DieSt.loaderAbsent (d : DieSt) (w : Caller) (code : Nat) : Bool :=
  let a := d.arg w 0
  let pair := fun (v : Nat) => d.rowAbsent (v % 2048) || d.rowAbsent (v / 65536 % 2048)
  match code with
  | 0x40 => pair a || decide (d.idn.ddr ≤ bits (d.arg w 2) 31 30)
  | 0x41 => pair a || (bit (d.arg w 2) 0 && pair (d.arg w 1))
  | 0x43 => decide (a % 1024 = 0) && decide (faPos a < 45) && (decide (d.idn.rows ≤ faRow a) || (faDie a == 1 && !d.idn.twin))
  | _ => d.rowAbsent (a % 2048)

/-- The first `n` arguments of a call, in CFG_ARG0 to CFG_ARG2. -/
def DieSt.cfgArgs (d : DieSt) (w : Caller) (n : Nat) : DieSt :=
  let a := fun (k : Nat) => BitVec.ofNat 32 (d.arg w k)
  let e := if 0 < n then d.wr R.CFG_ARG0 (a 0) else d
  let e := if 1 < n then e.wr R.CFG_ARG1 (a 1) else e
  if 2 < n then e.wr R.CFG_ARG2 (a 2) else e

/-- A call that gives the loader a command, its `n` arguments in CFG_ARG0 up.  `pre` is the status that the command's own checks give
(RANGE, STATE or NO_READBACK, 0 for none); checks come in the order of R423, and BUSY while a load or a COMMIT runs. -/
def DieSt.callLoader (d : DieSt) (w : Caller) (code n : Nat) (pre : DieSt → Nat) (g : DieSt → DieSt) : DieSt :=
  d.call w code (fun d =>
    let e := d.cfgArgs w n
    d.checked [(pre e == 4, csRange), (d.loaderAbsent w code, csAbsent), (pre e == 2, csState),
        (d.load.pload.isSome || d.load.commit.isSome, csBusy), (pre e == 3, csNoReadback)]
      (fun _ => (g e, none)))

/-- COMMIT. -/
def DieSt.callCommit (d : DieSt) (w : Caller) : DieSt :=
  d.callLoader w 0x41 2 (fun e => e.commitPre (bit (d.arg w 2) 0)) (fun e => e.commitStart (bit (d.arg w 2) 0) (some w))

/-- ABORT: STATE when no PLOAD runs. -/
def DieSt.callAbort (d : DieSt) (w : Caller) : DieSt := d.call w 0x42 (fun d => (d.ploadAbort (some w), none))

/-! ### Power and state calls -/

/-- DOMAIN: on waits for the domain. -/
def DieSt.callDomain (d : DieSt) (w : Caller) : DieSt :=
  d.call w 0x50 (fun d =>
    let a := d.arg w 0
    let k := a % 128
    let op := bits a 31 30
    let st := fun (n : Nat) => nth csRange [csOk, csBusy, csState, csAbsent, csFixed] n
    if op = 1 then
      let r := d.domainOn k
      if r.2 = 0 && r.1.pwr.domGoing.isSome && !d.pwr.domGoing.isSome then
        ({ r.1 with pwr := { r.1.pwr with domCaller := some w } }, none)
      else (r.1, some (st r.2, []))
    else if op = 2 then
      let r := d.domainOff k
      (r.1, some (st r.2, []))
    else (d, some (csRange, [])))

/-- A call of 0x51 to 0x55: it ends when its trigger is taken (OK), latched (LATCHED) or not allowed (STATE). -/
def State.callState (s : State) (x : Die) (w : Caller) (code : Nat) (t : State → Trig) : State :=
  let d := s.die x
  let next := d.callNext w code
  if d.idn.absent || !(next || d.callWaits w code) then s
  else if !s.d0.serving && d.policyAllows w code then
    (if next then onDie x s (fun d => (d.callForward w).dropUnknown 8) else s)
  else
    let tr := t s
    let st := if s.d0.pwr.going.isSome then csLatched else if tr.allowed s.d0.dev then csOk else csState
    let st := if d.policyAllows w code then st else csDenied
    let s1 := onDie x s (fun d => ((d.callTake w).callEnd w st []).dropUnknown 8)
    if st = csOk || st = csLatched then (s1.fire tr).1 else s1

/-! ### Team's updates (R418 to R421) -/

/-- The entries of a type in the directory: offset and length. -/
def DieSt.dirEntries (d : DieSt) (ty : Nat) : List (Nat × Nat) :=
  (List.range 16).filterMap (fun i =>
    let e := (d.load.dir.drop (16 * i)).take 16
    if nth 0 e 0 = ty && e.length = 16 then some (ofBytes ((e.drop 4).take 4), ofBytes ((e.drop 8).take 4)) else none)

/-- Does the 4 KiB sector at `o` overlap a range. -/
def inSector (o : Nat) (r : Nat × Nat) : Bool := decide (o < r.1 + r.2) && decide (r.1 < o + 4096)

/-- The sectors NVM_WRITE is denied: the boot block and its copy, firmware entries, the record area and Team's running slot. -/
def DieSt.nvmDenied (d : DieSt) (o : Nat) : Bool :=
  inSector o (0, 300) || inSector o (0x10000, 300) || (d.dirEntries 1).any (inSector o) || (d.dirEntries 5).any (inSector o)
  || (d.ref.teamSlot.elim [] (fun k => d.dirEntries (2 + k % 2))).any (inSector o)

/-- NVM_WRITE: a sector is erased and takes 4,096 bytes of DRAM, which the Referee reads through the port of management work
(R264, R365).  What the slot it lies in holds must be verified anew. -/
def DieSt.callNvmWrite (d : DieSt) (w : Caller) (ok : Bool) : DieSt :=
  d.call w 0x60 (fun d =>
    let o := d.arg w 0
    let c := bits (d.arg w 2) 31 30
    let a := d.arg w 1 + d.arg w 2 % 16 * 2 ^ 32
    d.checked [(o % 4096 != 0, csRange), (decide (d.idn.ddr ≤ c), csAbsent), (!d.chReady c, csState), (d.nvmDenied o, csDenied)]
      (fun d =>
        let good := ok && (List.range 64).all (fun k => !d.dramBad c (a + 64 * k))
        let d := d.bytesFound c 12 a 4096
        let z := d.freeBelow (2 ^ 32)
        if good then
          let d := d.onNvmBus (d.nvmCmds [o] o ((List.range 4096).map (fun k => d.dramByte c (a + k))))
          let data := (List.range 4096).foldl (fun (t : Tab Nat) k => t.set (fun _ => 255) (o + k) (d.dramByte c (a + k))) d.nvm.data
          let slots := (List.range 2).foldl (fun (t : Tab (Option TeamImg)) k =>
            if (d.dirEntries (2 + k)).any (inSector o) then t.set (fun _ => none) k none else t) d.ref.slotImg
          done { d with
            nvm := { d.nvm with data := data }
            ref := { d.ref with slotImg := slots } } []
        else (z.2, some (csFailed, [z.1]))))

/-- TEAM_SWITCH: `img` is what the Referee reads in the other slot. -/
def DieSt.callTeamSwitch (d : DieSt) (w : Caller) (img : Option TeamImg) : DieSt :=
  d.call w 0x61 (fun d =>
    match d.ref.teamSlot with
    | none => (d, some (csState, []))
    | some k =>
      if d.ref.trialEnd.isSome then (d, some (csState, []))
      else
        let n := 1 - k % 2
        let d : DieSt := { d with ref := { d.ref with slotImg := d.ref.slotImg.set (fun _ => none) n img } }
        match d.slotImage n with
        | none =>
          let z := d.freeBelow (2 ^ 32)
          (z.2, some (csFailed, [z.1]))
        | some t =>
          let d := d.selWrite d.sel.slot true n
          let d := (d.teamRun t (some n) false).teamRestarted 2
          done { d with ref := { d.ref with trialEnd := some (d.mt.toNat + 10000000000) } } [])

/-- TEAM_ALIVE: the slot on trial becomes permanent; after its 10 s, or with none on trial, STATE (R419). -/
def DieSt.callTeamAlive (d : DieSt) (w : Caller) : DieSt :=
  d.call w 0x62 (fun d =>
    if d.ref.trialEnd.all (fun t => decide (t ≤ d.mt.toNat)) then (d, some (csState, []))
    else
      let n := d.sel.trialSlot
      done { d.selWrite n false n with ref := { d.ref with trialEnd := none } } [])

/-- TEAM_TRIAL_EXPIRE: Team restarts from the old slot. -/
def DieSt.trialExpire (d : DieSt) : DieSt :=
  match d.ref.trialEnd with
  | none => d
  | some t =>
    if d.mt.toNat < t || !d.serving then d
    else
      let d : DieSt := { d.selWrite d.sel.slot false d.sel.trialSlot with ref := { d.ref with trialEnd := none } }
      let k := d.sel.slot % 2
      let d := (d.teamFallback k).teamRestarted 3
      match d.slotImage k with
      | some t => d.teamRun t (some k) false
      | none => d.teamStartNvm false

/-- Team restarts from what it runs, verified again. -/
def DieSt.teamAgain (d : DieSt) : DieSt :=
  match d.ref.team, d.ref.teamSlot with
  | some t, some k => if d.teamValid t then d.teamRun t (some k) (d.on F.REF_STAT_TEAM_ALT) else d.teamStartNvm false
  | _, _ => d.teamStart

/-- TEAM_RESTART: the call ends DONE before Team resets. -/
def DieSt.callTeamRestart (d : DieSt) (w : Caller) : DieSt :=
  d.call w 0x63 (fun d => (((d.callEnd w csOk []).teamAgain).teamRestarted 1, none))

/-- REF_FW_STAGE: `p` is the package the Referee reads at the offset; one that fails its check ends the call with FAILED
and the loader's FW_AUTH code. -/
def State.callFwStage (s : State) (x : Die) (w : Caller) (p : FwPkg) : State :=
  s.call x w 0x64 true (fun s =>
    let len := (s.die x).arg w 1
    if (s.die x).arg w 0 % 4096 ≠ 0 || len = 0 then (s, some (csRange, []))
    else if !s.d0.fwOk p || p.length ≠ len then (s, some (csFailed, [0x01]))
    else (onBoth s (fun d => { d with nvm := { d.nvm with staged := some p } }), some (csOk, [])))

/-! ### Keys and fuses (R427) -/

/-- The slots whose key may sign: programmed and not revoked. -/
def DieSt.keyLive (d : DieSt) (k : Nat) : Bool := decide (k < 4) && bit (d.f F.REF_KEYS_PROG) k && !bit (d.f F.REF_KEYS_REVOKED) k

/-- The record's signature verifies: under a live slot's key, or, while no slot is programmed, none is asked. -/
def DieSt.keyAuth (d : DieSt) (r : KeyRec) : Bool := d.f F.REF_KEYS_PROG == 0 || r.signer.any (fun k => d.keyLive k)

/-- Fuse programming is allowed: VAUX within its range and the junction from 0 °C to 85 °C. -/
def State.fuseFit (s : State) (warm : Bool) : Bool :=
  warm && s.d0.on F.PWR_SUP_STAT_VAUX && (s.d1.idn.absent || s.d1.on F.PWR_SUP_STAT_VAUX)

/-- Set bit `k` of a REF_KEYS field. -/
def DieSt.keyBit (d : DieSt) (x : Fld) (k : Nat) : DieSt := d.put x (putBit (d.f x) k true)

/-- Program both dies; a die that reads back wrong has its revoke fuse blown (`revoke`), and the call ends FAILED. -/
def State.fuseBoth (s : State) (ok0 ok1 : Bool) (g revoke : DieSt → DieSt) : State × Option (Nat × List Nat) :=
  let s1 := onDie .die0 s (fun d => if ok0 then g d else revoke (g d))
  let s2 := onDie .die1 s1 (fun d => if ok1 then g d else revoke (g d))
  if ok0 && (ok1 || s.d1.idn.absent) then (s2, some (csOk, []))
  else
    let z := s2.d0.freeBelow (2 ^ 32)
    (onDie .die0 s2 (fun _ => z.2), some (csFailed, [z.1]))

/-- The checks of the record's DRAM address, which ARG1 and ARG2 give as for NVM_WRITE: an absent channel ends ABSENT (R18), one that
is not READY ends STATE (R423). -/
def DieSt.recordChecks (d : DieSt) (w : Caller) : List (Bool × Nat) :=
  let c := bits (d.arg w 2) 31 30
  [(decide (d.idn.ddr ≤ c), csAbsent), (!d.chReady c, csState)]

/-- KEY_PROGRAM. -/
def State.callKeyProgram (s : State) (x : Die) (w : Caller) (r : KeyRec) (warm ok0 ok1 : Bool) : State :=
  s.call x w 0x70 true (fun s =>
    let k := (s.die x).arg w 0
    let d := s.d0
    let st := firstFail ([(!d.keyAuth r, csAuth), (decide (4 ≤ k), csRange)] ++ (s.die x).recordChecks w ++ [
      (!s.fuseFit warm || bit (d.f F.REF_KEYS_PROG) k || bit (d.f F.REF_KEYS_REVOKED) k, csState)])
    if st ≠ csOk then (s, some (st, []))
    else
      s.fuseBoth ok0 ok1
        (fun d => ({ d with fuse := { d.fuse with sigKey := d.fuse.sigKey.set (fun _ => none) k (some r.payload) } } : DieSt).keyBit F.REF_KEYS_PROG k)
        (fun d => d.keyBit F.REF_KEYS_REVOKED k))

/-- KEY_REVOKE: signed with the key of another unrevoked slot, and some unrevoked programmed slot is left. -/
def State.callKeyRevoke (s : State) (x : Die) (w : Caller) (r : KeyRec) (warm ok0 ok1 : Bool) : State :=
  s.call x w 0x71 true (fun s =>
    let k := (s.die x).arg w 0
    let d := s.d0
    let st := firstFail ([(!r.signer.any (fun j => d.keyLive j && j != k), csAuth), (decide (4 ≤ k), csRange)] ++ (s.die x).recordChecks w ++ [
      (!s.fuseFit warm || !(List.range 4).any (fun j => j != k && d.keyLive j), csState)])
    if st ≠ csOk then (s, some (st, []))
    else s.fuseBoth ok0 ok1 (fun d => d.keyBit F.REF_KEYS_REVOKED k) (fun d => d))

/-- AES_PROGRAM: `r` carries the unwrapped key, which never leaves the fuses. -/
def State.callAesProgram (s : State) (x : Die) (w : Caller) (r : KeyRec) (wrapOk warm ok0 ok1 : Bool) : State :=
  s.call x w 0x72 true (fun s =>
    let k := (s.die x).arg w 0
    let d := s.d0
    let st := firstFail ([(!d.keyAuth r || !wrapOk, csAuth), (decide (2 ≤ k), csRange)] ++ (s.die x).recordChecks w ++ [
      (!s.fuseFit warm || bit (d.f F.REF_KEYS_AES) k, csState)])
    if st ≠ csOk then (s, some (st, []))
    else
      s.fuseBoth ok0 ok1
        (fun d => ({ d with fuse := { d.fuse with aesKey := d.fuse.aesKey.set (fun _ => none) k (some r.payload) } } : DieSt).keyBit F.REF_KEYS_AES k)
        (fun d => d))

/-! ### Quarantine (R404) -/

/-- QUAR_CLEAR: kind 2 is refused with RANGE; a resource the latest Full-Time Test did not pass, with STATE. -/
def DieSt.callQuarClear (d : DieSt) (w : Caller) : DieSt :=
  d.call w 0x80 (fun d =>
    let kind := d.arg w 0 % 256
    let i := d.arg w 0 / 65536
    d.checked [(!(kind == 1 || kind == 3 || kind == 4) || (i / 2 ^ 15 != d.idn.die && d.idn.twin), csRange),
        (i / 2 ^ 15 != d.idn.die || (kind == 1 && d.rowAbsent (i % 2 ^ 15)) || (kind == 3 && decide (i % 2 ^ 15 < 24) && !d.idn.lane (i % 2 ^ 15)),
          csAbsent),
        (!d.rel.fttRan || d.rel.fttBad.contains (kind * 65536 + i % 2 ^ 15), csState),
        (!d.quarHas kind (i % 2 ^ 15), csNotFound)]
      (fun d => done (d.quarDrop kind (i % 2 ^ 15)) []))

/-! ### Remote calls (R425) -/

/-- MGMT_SEND: die 1's go out through die 0.  `hold`: the message is refused under R275 on its way. -/
def State.callMgmtSend (s : State) (x : Die) (w : Caller) (hold : Bool) : State :=
  s.call x w 0x90 true (fun s =>
    let d := s.die x
    match w with
    | .remote _ => (s, some (csDenied, []))
    | .slot k =>
      let a := d.arg w 0
      let msg := slkMsg (a % 4096) 2 1 (bits a 23 16) ((List.range 5).flatMap (fun i => wordBytes 4 (d.arg w (i + 1))))
      let s1 := onDie .die0 s (fun d => d.slkSend msg)
      if hold then (s1, some (csHold, []))
      else (onDie x s1 (fun d => { d with ref := { d.ref with sends := d.ref.sends ++ [(k, d.now)] } }), none))

/-- The oldest MGMT_SEND of a die to that device with that code. -/
def DieSt.sendFor (d : DieSt) (src code : Nat) : Option Nat :=
  (d.ref.sends.find? (fun p => d.arg (.slot p.1) 0 % 4096 == src && bits (d.arg (.slot p.1) 0) 23 16 == code)).map (fun p => p.1)

/-- A MGMT_SEND has its answer. -/
def DieSt.sendAnswered (d : DieSt) (k : Nat) (l : List Nat) : DieSt :=
  ({ d with ref := { d.ref with sends := d.ref.sends.filter (fun p => p.1 != k) } } : DieSt).callEnd (.slot k) csOk
    ((List.range 4).map (fun i => ofBytes ((l.drop (4 * i)).take 4)))

/-- A remote call is refused. -/
def DieSt.remoteRefused (d : DieSt) (m : SlkMsg) (st : Nat) : DieSt :=
  ({ d with ref := { d.ref with answers := d.ref.answers ++ [(m.src, st, [])] } } : DieSt).slkSend (mgmtAnswer m.src m.chan st [])
    |>.callDenied m.chan st true

/-- MGMT_REMOTE_CALL: die 0's Referee takes the oldest MGMT message.  An answer ends its MGMT_SEND; a call is checked and
joins the at most 16 in service.  `inGroup`: the sender belongs to the remote group of Team's image. -/
def State.remoteCall (s : State) (inGroup : Bool) : State :=
  match s.d0.mgmtIn with
  | [] => s
  | m :: rest =>
    if !s.d0.serving then s
    else
      let s := onDie .die0 s (fun d => { d with mgmtIn := rest })
      if 256 ≤ m.chan then
        match s.d0.sendFor m.src (m.chan - 256), s.d1.sendFor m.src (m.chan - 256) with
        | some k, _ => onDie .die0 s (fun d => d.sendAnswered k m.payload)
        | none, some k => onDie .die1 s (fun d => d.sendAnswered k m.payload)
        | none, none => s
      else
        onDie .die0 s (fun d =>
          if !callCodes.contains m.chan then d.remoteRefused m csUnknown
          else if !inGroup || neverRemote m.chan || d.ref.team.all (fun t => t.group == 0 || !bit t.remote m.chan) then d.remoteRefused m csDenied
          else if 16 ≤ d.ref.remotes.length then d.remoteRefused m csBusy
          else
            let c : RemCall := ⟨d.ref.nextKey, m.src, m.chan, (List.range 5).map (fun i => ofBytes ((m.payload.drop (4 * i)).take 4)), false⟩
            { d with ref := { d.ref with remotes := d.ref.remotes ++ [c], nextKey := d.ref.nextKey + 1 } })

/-- MGMT_SEND_TIMEOUT: 10 ms without an answer. -/
def DieSt.sendTimeout (d : DieSt) (k : Nat) : DieSt :=
  match d.ref.sends.find? (fun p => p.1 == k) with
  | some p =>
    if d.now < p.2 + 10000000 then d
    else ({ d with ref := { d.ref with sends := d.ref.sends.filter (fun p => p.1 != k) } } : DieSt).callEnd (.slot k) csTimeout []
  | none => d

/-! ### The Referee's restart (R428) -/

/-- A restart begins: the REF block's own words other than counts and fuse fields are reset. -/
def DieSt.refRestart (d : DieSt) (cause : Nat) : DieSt :=
  let d := (((d.put F.REF_STAT_STATE 2).put F.REF_STAT_REBUILT 0).put F.REF_STAT_RELOADED 0).bump F.REF_STAT_RESTARTS
  let d := d.wr R.REF_CAUSE (BitVec.ofNat 32 (cause * 2 ^ 28))
  { d with ref := { d.ref with restart := some (cause, d.now) } }

/-- A restart fails; the third in a row is cause 14. -/
def State.refFailed (s : State) (x : Die) (cause : Nat) : State :=
  let s1 := onDie x s (fun d => (d.put F.REF_STAT_FAILS (min 255 (d.f F.REF_STAT_FAILS + 1))).refRestart cause)
  if 3 ≤ (s1.die x).f F.REF_STAT_FAILS then s1.badCause 14 else s1

/-- A cause of R428 arrives: a restart in progress that meets another has failed. -/
def State.refOrder (s : State) (x : Die) (cause : Nat) : State :=
  let d := s.die x
  if d.idn.absent || !d.domOn 76 || d.f F.REF_STAT_STATE = 0 then s
  else if d.f F.REF_STAT_STATE = 2 then s.refFailed x cause
  else onDie x s (fun d => d.refRestart cause)

/-- Is a resource bound to something, as the hardware shows (R428). -/
def DieSt.boundNow (d : DieSt) (r : Nat) : Bool :=
  if r < 0x3C0 then d.f (F.PIN_CFG_OWNER r) == 1
  else if 0x600 ≤ r && r < 0x640 then d.f (F.Q_CFG_WSRC (r - 0x600)) != 0
  else if 0x640 ≤ r && r < 0x680 then d.f (F.Q_CFG_RSNK (r - 0x640)) != 0
  else if 0x680 ≤ r && r < 0x690 then d.f (F.CRC_ATTACH_KIND (r - 0x680)) != 0
  else if 0x740 ≤ r && r < 0x760 then d.f (F.DMC_PORT_CFG_CLASS ((r - 0x740) / 8) (r % 8)) == 0
  else if 0x800 ≤ r && r < 0x900 then d.f (F.SLK_CHAN_CFG_CLASS (r - 0x800)) == 0
  else false

/-- The claim table rebuilt: Team's claims on resources bound to nothing are lost. -/
def DieSt.rebuilt (d : DieSt) : DieSt :=
  { d with claims := ⟨d.claims.cells.filter (fun c => c.2 != claimTeam || d.boundNow c.1)⟩ }.put F.REF_STAT_REBUILT 1

/-- The package a restart runs where one is staged: the staged one, or, when its check fails, that of the FALLBACK firmware entry
(R366, R419). -/
def DieSt.restartFw (d : DieSt) (alt : Option FwPkg) : Option FwPkg :=
  match d.nvm.staged with
  | none => none
  | some p => if d.fwOk p then some p else alt.filter (fun a => d.fwOk a)

/-- A staged package takes over at a restart. -/
def DieSt.stagedFw (d : DieSt) (alt : Option FwPkg) : DieSt :=
  let p := d.restartFw alt
  ({ d with nvm := { d.nvm with staged := none } } : DieSt) |> fun d => match p with
    | some p => d.runFw p
    | none => d

/-- REF_RESTART_END: SERVING is reached within 50 ms, or the restart fails, as it does where neither the staged nor the FALLBACK package passes
its check. -/
def State.refRestartEnd (s : State) (x : Die) (ok reloaded rebuild : Bool) (alt : Option FwPkg) : State :=
  match (s.die x).ref.restart with
  | none => s
  | some (cause, t) =>
    if (s.die x).idn.absent || (s.die x).f F.REF_STAT_STATE ≠ 2 then s
    else if !ok || t + 50000000 < (s.die x).now then s.refFailed x cause
    else if (s.die x).nvm.staged.isSome && ((s.die x).restartFw alt).isNone then
      (onDie x s (fun d => d.stagedFw alt)).refFailed x cause
    else
      onDie x s (fun d =>
        let d := if rebuild then d.rebuilt else d
        let d := (((d.put F.REF_STAT_RELOADED (b2n reloaded)).put F.REF_STAT_FAILS 0).put F.REF_STAT_STATE 1).stagedFw alt
        let d : DieSt := { d with ref := { d.ref with restart := none } }
        let l := d.ref.late
        let d : DieSt := { d with ref := { d.ref with late := [] } }
        let d := l.foldl (fun d c => d.callOver c.1 c.2.1 c.2.2) d
        (d.raise 0x705 0x1001 (cause * 2 ^ 20 + b2n reloaded * 2 ^ 19 + b2n rebuild * 2 ^ 18 + min (2 ^ 18 - 1) ((d.now - t) / 1000))).dropUnknown 8)

/-- REF_RESTART: the call ends before its restart begins. -/
def DieSt.callRefRestart (d : DieSt) (w : Caller) : DieSt :=
  d.call w 0x65 (fun d => ((d.callEnd w csOk []).refRestart 3, none))

/-! ### The commands -/

/-- PIN_SET (R310). -/
def execPinSet (x : Die) (w : Caller) (s : State) : Out := act x s (fun d => d.callPinSet w)

/-- PIN_OWNER (R310). -/
def execPinOwner (x : Die) (w : Caller) (s : State) : Out := act x s (fun d => d.callPinOwner w)

/-- MATCHER_SET (R320). -/
def execMatcherSet (x : Die) (w : Caller) (s : State) : Out := act x s (fun d => d.callMatcherSet w)

/-- Q_BIND (R208). -/
def execQBind (x : Die) (w : Caller) (s : State) : Out := act x s (fun d => d.callQBind w)

/-- Q_UNBIND (R209). -/
def execQUnbind (x : Die) (w : Caller) (s : State) : Out := act x s (fun d => d.callQUnbind w)

/-- Q_UNBIND_DRAIN_END (R209). -/
def execQUnbindDrainEnd (x : Die) (q : Nat) (timeout : Bool) (s : State) : Out := act x s (fun d => d.unbindEnd q timeout)

/-- CRC_ATTACH (R224). -/
def execCrcAttach (x : Die) (w : Caller) (s : State) : Out := act x s (fun d => d.callCrcAttach w)

/-- EXPRESS_ADMIT (R197). -/
def execExpressAdmit (x : Die) (w : Caller) (s : State) : Out := act x s (fun d => d.callExpressAdmit w)

/-- EXPRESS_RELEASE (R197). -/
def execExpressRelease (x : Die) (w : Caller) (s : State) : Out := act x s (fun d => d.callExpressRelease w)

/-- DRAM_ADMIT (R254). -/
def execDramAdmit (x : Die) (w : Caller) (s : State) : Out := act x s (fun d => d.callDramAdmit w)

/-- DRAM_RELEASE (R424). -/
def execDramRelease (x : Die) (w : Caller) (s : State) : Out := act x s (fun d => d.callDramRelease w)

/-- SLK_ADMIT (R288). -/
def execSlkAdmit (x : Die) (w : Caller) (s : State) : Out := act x s (fun d => d.callSlkAdmit w)

/-- SLK_RELEASE (R424). -/
def execSlkRelease (x : Die) (w : Caller) (s : State) : Out := act x s (fun d => d.callSlkRelease w)

/-- PLOAD (R375). -/
def execPload (x : Die) (w : Caller) (s : State) : Out := act x s (fun d => d.callLoader w 0x40 3 DieSt.ploadPre (fun d => d.ploadStart (some w)))

/-- COMMIT (R377). -/
def execCommit (x : Die) (w : Caller) (s : State) : Out := act x s (fun d => d.callCommit w)

/-- ABORT (R424). -/
def execAbortLoad (x : Die) (w : Caller) (s : State) : Out := act x s (fun d => d.callAbort w)

/-- READBACK (R374). -/
def execReadback (x : Die) (w : Caller) (s : State) : Out := act x s (fun d => d.callLoader w 0x43 1 DieSt.readbackPre (fun d => d.readback (some w)))

/-- CAPTURE (R374). -/
def execCapture (x : Die) (w : Caller) (s : State) : Out := act x s (fun d => d.callLoader w 0x44 1 DieSt.capturePre (fun d => d.capture' (some w)))

/-- DOMAIN (R334). -/
def execDomain (x : Die) (w : Caller) (s : State) : Out := act x s (fun d => d.callDomain w)

/-- FULL_TIME (R346). -/
def execFullTime (x : Die) (w : Caller) (s : State) : Out :=
  .next (s.callState x w 0x51 (fun s => .fullTime 7 (bit ((s.die x).arg w 0) 0)))

/-- HALF_TIME (R348). -/
def execHalfTime (x : Die) (w : Caller) (s : State) : Out := .next (s.callState x w 0x52 (fun _ => .halfTime))

/-- RECOVERY (R340). -/
def execRecovery (x : Die) (w : Caller) (s : State) : Out := .next (s.callState x w 0x53 (fun _ => .recovery 13))

/-- RESUME (R345). -/
def execResume (x : Die) (w : Caller) (s : State) : Out := .next (s.callState x w 0x54 (fun _ => .resume))

/-- RESTART (R339). -/
def execRestart (x : Die) (w : Caller) (s : State) : Out := .next (s.callState x w 0x55 (fun _ => .restart))

/-- NVM_WRITE (R419). -/
def execNvmWrite (x : Die) (w : Caller) (ok : Bool) (s : State) : Out := act x s (fun d => d.callNvmWrite w ok)

/-- TEAM_SWITCH (R419). -/
def execTeamSwitch (x : Die) (w : Caller) (img : Option TeamImg) (s : State) : Out := act x s (fun d => d.callTeamSwitch w img)

/-- TEAM_ALIVE (R420). -/
def execTeamAlive (x : Die) (w : Caller) (s : State) : Out := act x s (fun d => d.callTeamAlive w)

/-- TEAM_TRIAL_EXPIRE (R419). -/
def execTeamTrialExpire (x : Die) (s : State) : Out := act x s (fun d => d.trialExpire)

/-- TEAM_RESTART (R416). -/
def execTeamRestart (x : Die) (w : Caller) (s : State) : Out := act x s (fun d => d.callTeamRestart w)

/-- REF_FW_STAGE (R419). -/
def execRefFwStage (x : Die) (w : Caller) (p : FwPkg) (s : State) : Out := .next (s.callFwStage x w p)

/-- REF_RESTART (R428). -/
def execRefRestart (x : Die) (w : Caller) (s : State) : Out := act x s (fun d => d.callRefRestart w)

/-- KEY_PROGRAM (R427). -/
def execKeyProgram (x : Die) (w : Caller) (r : KeyRec) (warm ok0 ok1 : Bool) (s : State) : Out :=
  .next (s.callKeyProgram x w r warm ok0 ok1)

/-- KEY_REVOKE (R427). -/
def execKeyRevoke (x : Die) (w : Caller) (r : KeyRec) (warm ok0 ok1 : Bool) (s : State) : Out :=
  .next (s.callKeyRevoke x w r warm ok0 ok1)

/-- AES_PROGRAM (R427). -/
def execAesProgram (x : Die) (w : Caller) (r : KeyRec) (wrapOk warm ok0 ok1 : Bool) (s : State) : Out :=
  .next (s.callAesProgram x w r wrapOk warm ok0 ok1)

/-- QUAR_CLEAR (R404). -/
def execQuarClear (x : Die) (w : Caller) (s : State) : Out := act x s (fun d => d.callQuarClear w)

/-- MGMT_SEND (R425). -/
def execMgmtSend (x : Die) (w : Caller) (hold : Bool) (s : State) : Out := .next (s.callMgmtSend x w hold)

/-- MGMT_REMOTE_CALL (R425). -/
def execMgmtRemoteCall (inGroup : Bool) (s : State) : Out := .next (s.remoteCall inGroup)

/-- MGMT_SEND_TIMEOUT (R425). -/
def execMgmtSendTimeout (x : Die) (k : Nat) (s : State) : Out := act x s (fun d => d.sendTimeout k)

/-- REF_LOCKSTEP_MISCOMPARE (R428). -/
def execRefLockstepMiscompare (x : Die) (s : State) : Out := .next (s.refOrder x 1)

/-- A write of REF_CTL with RESTART: a restart of cause 3, or 4 for die 1's Referee (R428). -/
def State.refCtl (s : State) (x : Die) (m : Master) : State :=
  match (s.die x).writeCheck m R.REF_CTL 4 with
  | .err => onDie x s (fun d => d.answer m 0 true)
  | .void => onDie x s (fun d => d.answer m 0 false)
  | .ok => onDie x (s.refOrder x (if x = .die1 then 4 else 3)) (fun d => d.answer m 0 false)

/-- REF_CTL_RESTART (R428): die 0's order to die 1 is cause 4. -/
def execRefCtlRestart (x : Die) (m : Master) (s : State) : Out := .next (s.refCtl x m)

/-- REF_RESTART_END (R428). -/
def execRefRestartEnd (x : Die) (ok reloaded rebuild : Bool) (alt : Option FwPkg) (s : State) : Out :=
  .next (s.refRestartEnd x ok reloaded rebuild alt)

/-- CONTEXT_MOVE_END (R192): a release may wait for it (R197). -/
def execContextMoveEnd (x : Die) (n : Nat) (upset : List (Nat × Nat)) (s : State) : Out :=
  act x s (fun d => (d.moveEnd n upset).releaseEnds)

/-- DESCRIPTOR_SCAN (R179): a release may wait for what it finds (R197). -/
def execDescriptorScan (x : Die) (n : Nat) (upset : List (Nat × Nat)) (s : State) : Out :=
  act x s (fun d => (d.descriptorScan n upset).releaseEnds)

end Sys2Proof.Machine
end

