-- ==== Sys2Proof/Machine/Met.lean ====
section
/-! DEFINITION. The Zinen metrology island (R433 to R454): windows and energies, pulses, demand, the spare-channel
exchange, supplies, the Scorebook and sealing.  The payload of a parameter is held as a list of values: POINTS, eight
types, the nominal frequency, then for each channel 0 or one more than 8 × role + point (roles 0 to 2 voltage, 3 to 6
current); PULSES, for each output point, quantity, constant and width; PINS, for each pin 32 to 47 its output or 0xFF;
FABRIC, the point mask and the word mask (log entry 70). -/

namespace Sys2Proof.Machine

/-- The island is there and both its supplies are in range (R433). -/
def DieSt.metOn (d : DieSt) : Bool := d.idn.met && d.domOn 79

/-- The parameter of a code at a point's windows: what it was, while a change waits for the point's boundary (R448). -/
def MetSt.par (m : MetSt) (p c : Nat) : List Nat := (m.old.get (fun _ => none) (256 * p + c)).getD (m.param.get (fun _ => []) c)

/-- Is point `p` defined (R437). -/
def MetSt.point (m : MetSt) (p : Nat) : Bool := decide (p < 8) && nth 0 (m.par p 2) p != 0

/-- Channel `c`'s role in point `p`, if it belongs to it. -/
def MetSt.role (m : MetSt) (p c : Nat) : Option Nat :=
  let e := nth 0 (m.par p 2) (9 + c)
  if e ≠ 0 && (e - 1) % 8 = p then some ((e - 1) / 8) else none

/-- The channels of a point. -/
def MetSt.channels (m : MetSt) (p : Nat) : List Nat := (List.range 16).filter (fun c => (m.role p c).isSome)

/-- The output rate in samples a second (Table 17-1). -/
def MetSt.rate (m : MetSt) (p : Nat) : Nat := 4000 * 2 ^ nth 0 (m.par p 7) 0

/-- Energy register `g` of point `p`, with its 32-bit fraction (R441). -/
def MetSt.en (m : MetSt) (p g : Nat) : Nat := m.energy.get (fun _ => 0) (8 * p + g)

/-- MET_CH_STAT of channel `c`. -/
def DieSt.setChStat (d : DieSt) (c v : Nat) : DieSt := d.put ⟨R.MET_CH_STAT, 2 * c + 1, 2 * c⟩ v

/-! ### The Scorebook (R449) -/

/-- Match Time, or 0 when it is not running. -/
def DieSt.mtOr0 (d : DieSt) : Nat := if d.mtm.on then d.mt.toNat else 0

/-- The first 64 bits of the digest of the installed authority key, or 0. -/
def MetSt.keyHead (m : MetSt) : Nat := (m.key - 1) % 2 ^ 64

/-- The bytes of a record before its CRC (Table 17-10). -/
def scorebookBody (count type source param mt old new key : Nat) : List Nat :=
  wordBytes 4 count ++ [type, source] ++ wordBytes 2 param ++ wordBytes 8 mt ++ wordBytes 8 old ++ wordBytes 8 new
    ++ wordBytes 8 key ++ List.replicate 20 0

/-- Write a record to the slot of its COUNT. -/
def DieSt.scorebook (d : DieSt) (type source param old new key : Nat) : DieSt :=
  let c := d.f F.MET_SB_COUNT_COUNT
  let body := scorebookBody c type source param d.mtOr0 old new key
  let bytes := body ++ wordBytes 4 (crc32 body)
  let d := (List.range 16).foldl (fun (d : DieSt) j =>
    d.wr (R.MET_SB (c % 4096) j) (BitVec.ofNat 32 (ofBytes ((bytes.drop (4 * j)).take 4)))) d
  d.wrapBy F.MET_SB_COUNT_COUNT 1

/-! ### Pulse outputs (R445) -/

/-- Pulse output `k`. -/
def DieSt.pulse (d : DieSt) (k : Nat) : PulseSt := d.met.pulse.get (fun _ => PulseSt.reset) k

/-- Replace pulse output `k`. -/
def DieSt.setPulse (d : DieSt) (k : Nat) (v : PulseSt) : DieSt :=
  { d with met := { d.met with pulse := d.met.pulse.set (fun _ => PulseSt.reset) k v } }

/-- A pulse starts. -/
def DieSt.pulseStart (d : DieSt) (k pend : Nat) : DieSt := (d.setPulse k ⟨pend, 1⟩).wrapBy (F.MET_PULSES_CNT k) 1

/-- One pulse falls due. -/
def DieSt.pulseDue (d : DieSt) (k : Nat) : DieSt :=
  let s := d.pulse k
  if !d.met.pinsOn then d
  else if s.phase = 0 then d.pulseStart k s.pend
  else if s.pend < 255 then d.setPulse k { s with pend := s.pend + 1 }
  else (d.put F.MET_PULSE_OVF_OVF (putBit (d.f F.MET_PULSE_OVF_OVF) k true)).raise 0x708 0x1105 (k * 2 ^ 20)

/-- Several pulses fall due. -/
def DieSt.pulsesDue (k : Nat) : Nat → DieSt → DieSt
  | 0, d => d
  | n + 1, d => DieSt.pulsesDue k n (d.pulseDue k)

/-- The energy a quantity of PULSES counts. -/
def MetSt.quantity (m : MetSt) (p g : Nat) : Nat :=
  match g with
  | 6 => m.en p 2 + m.en p 3
  | 7 => m.en p 4 + m.en p 5
  | 8 => m.en p 6
  | _ => m.en p g

/-- Multiples of 1 ÷ constant that an energy has passed: pulses a MWh, MVArh or MVAh. -/
def pulsesPassed (energy const : Nat) : Nat := energy * const / (10 ^ 9 * 2 ^ 32)

/-- The pulses a window of point `p` makes due, from the energies `m` before it. -/
def DieSt.windowPulses (d : DieSt) (m : MetSt) (p : Nat) : DieSt :=
  let v := m.par p 5
  (List.range 16).foldl (fun (d : DieSt) k =>
    let c := nth 0 v (4 * k + 2)
    if nth 0 v (4 * k) = p && c ≠ 0 then
      let g := nth 0 v (4 * k + 1)
      DieSt.pulsesDue k (pulsesPassed (d.met.quantity p g) c - pulsesPassed (m.quantity p g) c) d
    else d) d

/-- A pulse's high time ends, or its low time does and the next one starts. -/
def DieSt.pulseEnd (d : DieSt) (k : Nat) : DieSt :=
  let s := d.pulse k
  if s.phase = 1 then d.setPulse k { s with phase := 2 }
  else if s.phase = 2 then
    if s.pend = 0 then d.setPulse k { s with phase := 0 } else d.pulseStart k (s.pend - 1)
  else d

/-! ### Windows (R438 to R441, R451) -/

/-- The energy of a window: v mW over n samples at a rate, in mWh with 32 fraction bits (R441). -/
def windowEnergy (v n rate : Nat) : Nat := v * n * 2 ^ 32 / (rate * 3600)

/-- Add to an energy register. -/
def MetSt.addEnergy (m : MetSt) (p g v : Nat) : MetSt := { m with energy := m.energy.set (fun _ => 0) (8 * p + g) (m.en p g + v) }

/-- The register that takes a window's reactive energy: Q1 to Q4 by the quadrant of (P, Q) (R441). -/
def quadrant (p q : Int) : Nat := if 0 ≤ q then (if 0 ≤ p then 2 else 3) else (if 0 ≤ p then 5 else 4)

/-- Is a window's frequency valid: from 42.5 Hz to 69.0 Hz with enough of the reference (R438). -/
def winFreqOk (w : MetWin) : Bool :=
  w.refOk && decide (85 * 2 ^ 149 ≤ 2 * f32Int (f32Clean w.freq)) && decide (f32Int (f32Clean w.freq) ≤ 69 * 2 ^ 149)

/-- The samples of a window: a fixed 200 ms without a valid frequency (R438). -/
def winLength (w : MetWin) (rate : Nat) : Nat := if winFreqOk w then w.samples else rate / 5

/-- The type of a point (Table 17-2). -/
def MetSt.ptype (m : MetSt) (p : Nat) : Nat := nth 0 (m.par p 2) p

/-- The phases of a window: one, two elements or three (Table 17-2). -/
def MetSt.phases (m : MetSt) (w : MetWin) : List MetPhase := w.ph.take (m.ptype w.point)

/-- Apparent power of a phase in mVA (Table 17-3). -/
def phaseS (h : MetPhase) : Nat := h.v * h.i / 1000

/-- The point's totals of active, reactive and apparent power (Table 17-3). -/
def MetSt.totP (m : MetSt) (w : MetWin) : Int := (m.phases w).foldl (fun t h => t + h.p) 0
def MetSt.totQ (m : MetSt) (w : MetWin) : Int := (m.phases w).foldl (fun t h => t + h.q) 0
def MetSt.totS (m : MetSt) (w : MetWin) : Nat :=
  if m.ptype w.point = 2 then natSqrt ((m.totP w).natAbs ^ 2 + (m.totQ w).natAbs ^ 2)
  else (m.phases w).foldl (fun t h => t + phaseS h) 0

/-- The energies of a window (R441). -/
def MetSt.accumulate (m : MetSt) (w : MetWin) : MetSt :=
  let r := m.rate w.point
  let n := winLength w r
  let p := m.totP w
  let q := m.totQ w
  ((m.addEnergy w.point (if 0 ≤ p then 0 else 1) (windowEnergy p.natAbs n r)).addEnergy w.point (quadrant p q)
    (windowEnergy q.natAbs n r)).addEnergy w.point 6 (windowEnergy (m.totS w) n r)

/-- Show the energies of a point: an unsigned 64-bit count each. -/
def DieSt.showEnergy (d : DieSt) (p : Nat) : DieSt :=
  (List.range 7).foldl (fun (d : DieSt) g => d.wr64 (R.MET_EI_LO p + 8 * g) (R.MET_EI_HI p + 8 * g) (d.met.en p g / 2 ^ 32)) d

/-- Is harmonic h valid: h × f < 0.45 × the output rate (R440), f a binary32 word in Hz. -/
def harmonicValid (rate freq h : Nat) : Bool := decide (20 * h * (f32Int freq).toNat < 9 * rate * 2 ^ 149)

/-- A listed value, or 0. -/
def listed (l : List (Nat × Nat)) (k : Nat) : Nat := ((l.find? (fun e => e.1 == k)).elim 0 (fun e => e.2))

/-- Harmonic `h` of channel `c` as published: an invalid one reads 0 (R440). -/
def winHarm (w : MetWin) (rate c h : Nat) : Nat :=
  if harmonicValid rate (f32Clean w.freq) h then f32Clean (listed w.harm (64 * c + h)) else 0

/-- THD of channel `c` in %, over its valid harmonics (Table 17-3, R440). -/
def winThd (w : MetWin) (rate c : Nat) : Nat :=
  let x := fun h => (f32Int (winHarm w rate c h)).natAbs
  f32Clean (f32Mag (100 * natSqrt ((List.range 62).foldl (fun t k => t + x (k + 2) ^ 2) 0)) (x 1))

/-- A quantity of channel `c` that the island cannot form: a valid harmonic that is no normal number, or THD of a channel
without a fundamental (R454). -/
def winUnformed (w : MetWin) (rate c : Nat) : Bool :=
  f32Int (winHarm w rate c 1) == 0 || (List.range 63).any (fun k =>
    harmonicValid rate (f32Clean w.freq) (k + 1) && listed w.harm (64 * c + k + 1) % 2 ^ 31 != 0 && winHarm w rate c (k + 1) == 0)

/-- A total or power of the window that the island cannot form (R454). -/
def MetSt.totUnformed (m : MetSt) (w : MetWin) : Bool :=
  !f32Fits (m.totP w) 1000 || !f32Fits (m.totQ w) 1000 || !f32Fits (m.totS w) 1000
    || (m.phases w).any (fun h => !f32Fits h.p 1000 || !f32Fits h.q 1000 || !f32Fits (phaseS h) 1000)

/-- A voltage (`cur` false) or current RMS value of the window that the island cannot form (R454). -/
def MetSt.rmsUnformed (m : MetSt) (w : MetWin) (cur : Bool) : Bool :=
  (m.phases w).any (fun h => !f32Fits (if cur then h.i else h.v) 1000) || (cur && !f32Fits w.neutral 1000)

/-- POINT_STAT of a window (Table 17-13): an overloaded channel and a quantity that cannot be formed are marked invalid (R436,
R454; which bit marks which quantity: log entry 196). -/
def DieSt.pointStat (d : DieSt) (w : MetWin) : Nat :=
  let m := d.met
  let r := m.rate w.point
  let bad (cur : Bool) := m.rmsUnformed w cur || (m.channels w.point).any (fun c =>
    (m.role w.point c).any (fun k => decide (3 ≤ k) == cur) && (w.ovr.contains c || winUnformed w r c))
  b2n (winFreqOk w) * 2 ^ 31 + b2n (m.badWin.get (fun _ => false) w.point || m.totUnformed w) * 2 ^ 30
    + b2n (!harmonicValid r (f32Clean w.freq) 63) * 2 ^ 29 + b2n (bad true) * 2 ^ 28 + b2n (bad false) * 2 ^ 27

/-- Word `k` of MET_PH of phase `f`: φ = 3 is the neutral current of a type 3 point (Table 17-13). -/
def MetSt.phaseWord (m : MetSt) (w : MetWin) (f k : Nat) : Nat :=
  let r := m.rate w.point
  let thd := fun role => match (m.channels w.point).find? (fun c => m.role w.point c == some role) with
    | some c => winThd w r c
    | none => 0
  match (m.phases w)[f]? with
  | some h =>
    match k with
    | 0 => f32Pub h.v 1000
    | 1 => f32Pub h.i 1000
    | 2 => f32Pub h.p 1000
    | 3 => f32Pub h.q 1000
    | 4 => f32Pub (phaseS h) 1000
    | 5 => thd f
    | _ => thd (3 + f)
  | none => if f = 3 && k = 1 && m.ptype w.point = 3 then f32Pub w.neutral 1000 else 0

/-- Publish the registers of a window's snapshot: a word the island could not form reads 0 (R451, R454). -/
def DieSt.showWindow (d : DieSt) (w : MetWin) : DieSt :=
  let p := w.point
  let m := d.met
  let d := d.showEnergy p
  let d := ((d.wr (R.MET_P p) (BitVec.ofNat 32 (f32Pub (m.totP w) 1000))).wr (R.MET_P p + 4) (BitVec.ofNat 32 (f32Pub (m.totQ w) 1000))).wr
    (R.MET_P p + 8) (BitVec.ofNat 32 (f32Pub (m.totS w) 1000))
  let d := d.wr (R.MET_P p + 12) (BitVec.ofNat 32 (f32Clean w.freq))
  let d := (d.wr (R.MET_DEM p) (BitVec.ofNat 32 (d.met.dem.get (fun _ => 0) p))).wr (R.MET_DEM_MAX p)
    (BitVec.ofNat 32 (d.met.demMax.get (fun _ => 0) p))
  let d := d.wr (R.MET_POINT_STAT p) (BitVec.ofNat 32 (d.pointStat w))
  let d := (List.range 32).foldl (fun (d : DieSt) j =>
    if j % 8 = 7 then d else d.wr (R.MET_PH p j) (BitVec.ofNat 32 (m.phaseWord w (j / 8) (j % 8)))) d
  (d.met.channels p).foldl (fun (d : DieSt) c =>
    let d := d.setChStat c (if w.ovr.contains c then 1 else if d.met.disagree.get (fun _ => 0) c ≠ 0 then 3 else 0)
    (List.range 63).foldl (fun (d : DieSt) k => d.wr (R.MET_HARM c (k + 1)) (BitVec.ofNat 32 (winHarm w (m.rate p) c (k + 1)))) d) d

/-- The word of a point's block at a word index. -/
def DieSt.pointWord (d : DieSt) (p i : Nat) : Nat := (d.rd (R.MET_EI_LO p + 4 * i)).toNat

/-- The word indexes FABRIC names for a point. -/
def MetSt.fabricWords (m : MetSt) (p : Nat) : List Nat :=
  let v := m.par p 0x42
  if bit (nth 0 v 0) p then (List.range 64).filter (fun i => bit (nth 0 v 1) i) else []

/-- A fabric token: the snapshot's MT, the point, the word index, and the word or the pair it begins (R451). -/
def DieSt.metToken (d : DieSt) (p i : Nat) : Nat :=
  let lo := d.pointWord p i
  d.mt.toNat * 2 ^ 80 + p * 2 ^ 77 + i * 2 ^ 70 + lo + (if i < 14 && i % 2 = 0 then d.pointWord p (i + 1) * 2 ^ 32 else 0)

/-- The snapshot's words for the fabric. -/
def DieSt.toFabric (d : DieSt) (p : Nat) : DieSt :=
  let t := (d.met.fabricWords p).foldl (fun (t : Tab (Option Nat)) i => t.set (fun _ => none) (128 * p + i) (some (d.metToken p i)))
    d.met.tokens
  ({ d with met := { d.met with tokens := t } } : DieSt).metOffer

/-- The snapshot as a queue item. -/
def DieSt.metItem (d : DieSt) (p : Nat) : List (Nat × Nat) :=
  let l := d.mt.toNat :: (d.met.fabricWords p).map (fun i => p * 2 ^ 56 + i * 2 ^ 48 + d.pointWord p i)
  (List.range l.length).map (fun k => (nth 0 l k, if k + 1 = l.length then 32 else 0))

/-- The snapshot for the Roster: appended whole to the queue EXPORT_Q names, or dropped and counted (R211, R451). -/
def DieSt.toRoster (d : DieSt) (p : Nat) : DieSt :=
  let q := nth 255 (d.met.par p 0x40) 0
  if q < 64 && d.hubOn && d.rosOn && d.qWriter q == some .roster then
    let item := d.metItem p
    if d.qRoom q item.length then (d.xPass ⟨9, 1, 0, false⟩ d.mt.toNat).qAppend q item else d.bump F.MET_EXP_DROP_CNT
  else d

/-- The snapshot for the Umpire: the slots that select the point (R451). -/
def DieSt.toUmpire (d : DieSt) (p : Nat) : DieSt :=
  let v := d.met.par p 0x41
  let d := d.xPass ⟨9, 3, 0, false⟩ d.mt.toNat
  (List.range 16).foldl (fun (d : DieSt) u =>
    match v[u]? with
    | some e => if bits e 10 8 = p then d.put (F.MET_UMP_VALUE u) (d.pointWord p (e % 128)) else d
    | none => d) d

/-- MET_ID of the image that the latest IMAGE brought, or of the image that runs. -/
def MetSt.newId (m : MetSt) : Nat := if (m.param.get (fun _ => []) 1).isEmpty then m.imageId else nth 0 (m.param.get (fun _ => []) 1) 0 % 2 ^ 64

/-- Point `p` passes a window boundary: changed parameters take effect there, the window after an IMAGE is invalid, and MET_ID
is the new image's (R448). -/
def DieSt.metBoundary (d : DieSt) (p : Nat) : DieSt :=
  let m := d.met
  let img := (m.old.get (fun _ => none) (256 * p + 1)).isSome
  let d : DieSt := { d with met := { m with
    snaps := m.snaps.upd (fun _ => 0) p (fun n => n + 1)
    badWin := m.badWin.set (fun _ => false) p img
    imageId := if img then m.newId else m.imageId
    old := m.old.keep (fun k => k / 256 != p) } }
  if img then d.wr64 R.MET_ID_LO R.MET_ID_HI d.met.imageId else d

/-- A window of a point ends: its energies accumulate, its snapshot is published over the METROLOGY crossings of its readers,
and changed parameters take effect (R246, R438, R441, R448, R451). -/
def DieSt.metWindow (d : DieSt) (w : MetWin) : DieSt :=
  let p := w.point
  if !d.metOn || !d.met.running || !d.met.point p then d
  else
    let m := d.met
    let d := ({ d with met := m.accumulate w } : DieSt).windowPulses m p
    let d := d.showWindow w
    let d := (d.wrapBy F.MET_SEQ_SEQ 1).wr64 R.MET_SNAP_LO R.MET_SNAP_HI d.mt.toNat
    ((((d.toFabric p).toRoster p).xPass ⟨9, 2, 0, false⟩ d.mt.toNat).toUmpire p).metBoundary p

/-- The demand interval of a point, counted from MT + MT_EPOCH 0 (Table 17-7). -/
def DieSt.demandNo (d : DieSt) (p : Nat) : Nat :=
  (d.mt + BitVec.ofNat 64 (d.rd64 R.MT_EPOCH_LO R.MT_EPOCH_HI)).toNat / (60000000000 * nth 0 (d.met.par p 8) 0)

/-- A demand interval of a point ends, MT + MT_EPOCH having reached or passed a multiple of its length: the import energy of the
interval over its length, in W (R293, R439). -/
def DieSt.demandEnd (d : DieSt) (p : Nat) : DieSt :=
  let t := nth 0 (d.met.par p 8) 0
  if !d.metOn || !d.met.running || !d.met.point p || t = 0 || d.demandNo p = d.met.demNo.get (fun _ => 0) p then d
  else
    let w := f32Mag ((d.met.en p 0 - d.met.demFrom.get (fun _ => 0) p) * 60) (2 ^ 32 * 1000 * t)
    { d with met := { d.met with
      demFrom := d.met.demFrom.set (fun _ => 0) p (d.met.en p 0), demNo := d.met.demNo.set (fun _ => 0) p (d.demandNo p)
      dem := d.met.dem.set (fun _ => 0) p (f32Clean w)
      demMax := d.met.demMax.upd (fun _ => 0) p (fun v => max v (f32Clean w)) } }

/-! ### The spare-channel exchange (R443, R444) -/

/-- The modulator that serves a channel. -/
def MetSt.serving (m : MetSt) (c : Nat) : Nat := m.serve.get (fun k => k) c

/-- MET_XCHG_FAIL (Table 17-12). -/
def DieSt.xchgFail (d : DieSt) (m c : Nat) (retired : Bool) : DieSt :=
  d.raise 0x708 0x1103 (m * 2 ^ 19 + c % 16 * 2 ^ 15 + b2n retired * 2 ^ 14)

/-- The spare that has waited longest joins the next channel. -/
def DieSt.exchange (d : DieSt) : DieSt :=
  if !d.metOn || !d.met.running || d.met.xchg.isSome || d.on F.MET_STAT_DEGRADED then d
  else
    match d.met.spares with
    | s :: r => { d with met := { d.met with xchg := some (d.met.nextCh, s), spares := r } }
    | [] => d

/-- The overlap ends: the spare takes the channel, or the exchange is abandoned. -/
def DieSt.overlapEnd (d : DieSt) (disagree : Bool) : DieSt :=
  match d.met.xchg with
  | none => d
  | some (c, s) =>
    let m := d.met.serving c
    let first := d.met.disagree.get (fun _ => 0) c
    let d := d.put F.MET_XCHG_CH c
    if disagree && (first = 0 || first = s + 1) then
      let d := ((d.put F.MET_XCHG_RESULT 1).setChStat c 3).xchgFail s c false
      { d with met := { d.met with
        xchg := none, calib := d.met.calib ++ [s], disagree := d.met.disagree.set (fun _ => 0) c (s + 1) } }
    else
      let d := (((d.put F.MET_XCHG_IN s).put F.MET_XCHG_OUT m).put F.MET_XCHG_RESULT 0).bump F.MET_XCHG_COUNT
      let d := if first = 0 then d else d.setChStat c (if nth 0 (d.met.param.get (fun _ => []) 2) (9 + c) = 0 then 2 else 0)
      { d with met := { d.met with
        xchg := none, calib := d.met.calib ++ [m], serve := d.met.serve.set (fun k => k) c s
        disagree := d.met.disagree.set (fun _ => 0) c 0, nextCh := (c + 1) % 16 } }

/-- How many modulators are retired. -/
def DieSt.retired (d : DieSt) : Nat := ((List.range 18).filter (fun m => bit (d.f F.MET_MOD_STAT_RETIRED) m)).length

/-- A modulator's calibration ends: a ready spare, or retired. -/
def DieSt.calEnd (d : DieSt) (m : Nat) (ok : Bool) : DieSt :=
  if !d.metOn || !d.met.calib.contains m then d
  else
    let d : DieSt := { d with met := { d.met with calib := d.met.calib.filter (fun k => k != m) } }
    if ok then { d with met := { d.met with spares := d.met.spares ++ [m] } }
    else
      let d := d.put F.MET_MOD_STAT_RETIRED (putBit (d.f F.MET_MOD_STAT_RETIRED) m true)
      let d := (d.put F.MET_STAT_SPARES (2 - d.retired)).put F.MET_XCHG_RESULT 2
      let d := if 2 ≤ d.retired then d.put F.MET_STAT_DEGRADED 1 else d
      (d.scorebook 6 0 0 0 m 0).xchgFail m (d.f F.MET_XCHG_CH) true

/-! ### Supplies (R434, R452) -/

/-- Show what lies in the sealed store. -/
def DieSt.showStore (d : DieSt) : DieSt :=
  let m := d.met
  let d := d.wr64 R.MET_ID_LO R.MET_ID_HI m.imageId
  let d := (((d.put F.MET_STAT_SEALED (b2n m.sealed)).put F.MET_STAT_KEY (b2n (m.key != 0))).put F.MET_STAT_ROLLBACK (b2n m.rollback)).put
    F.MET_STAT_REF_EXT (nth 0 (m.param.get (fun _ => []) 0x0A) 0)
  let d := d.put F.MET_STAT_RATE (nth 0 (m.param.get (fun _ => []) 7) 0)
  let pts := m.param.get (fun _ => []) 2
  let d := d.put F.MET_STAT_POINTS ((List.range 8).foldl (fun v p => v + b2n (nth 0 pts p != 0) * 2 ^ p) 0)
  (List.range 16).foldl (fun (d : DieSt) c =>
    let old := d.f ⟨R.MET_CH_STAT, 2 * c + 1, 2 * c⟩
    if nth 0 pts (9 + c) = 0 then d.setChStat c 2 else if old = 2 then d.setChStat c 0 else d) d

/-- Pulse outputs that stand low with these pending counts. -/
def pulsesHeld (t : Tab Nat) : Tab PulseSt :=
  t.cells.foldl (fun (u : Tab PulseSt) c => u.set (fun _ => PulseSt.reset) c.1 ⟨c.2, 0⟩) Tab.empty

/-- The island has loaded its image and starts measuring; after a loss of a supply it goes on from its checkpoint and
writes SUPPLY_ON. -/
def DieSt.metStart (d : DieSt) : DieSt :=
  if !d.metOn || d.met.running then d
  else
    let m := d.met
    let d : DieSt := { d with met := { m with
      running := true, loaded := true, old := Tab.empty, imageId := m.newId, xchg := none, energy := m.ckEnergy, offAt := none
      calib := m.calib ++ (match m.xchg with | some e => [e.2] | none => [])
      demFrom := (List.range 8).foldl (fun (t : Tab Nat) p => t.set (fun _ => 0) p (m.ckEnergy.get (fun _ => 0) (8 * p))) Tab.empty
      demNo := (List.range 8).foldl (fun (t : Tab Nat) p => t.set (fun _ => 0) p (d.demandNo p)) Tab.empty
      pulse := pulsesHeld m.ckPend } }
    let d := ((d.put F.MET_STAT_MEASURING 1).put F.MET_STAT_VANA_OK 1).showStore
    let d := (List.range 8).foldl (fun (d : DieSt) p => d.showEnergy p) d
    let d := (List.range 16).foldl (fun (d : DieSt) k =>
      let s := d.pulse k
      if s.pend = 0 || !d.met.pinsOn then d else d.pulseStart k (s.pend - 1)) d
    match m.offAt with
    | none => d
    | some t =>
      let d := if m.ckPeriodic then
          ({ d with met := { d.met with rollback := true } } : DieSt).put F.MET_STAT_ROLLBACK 1
        else d
      d.scorebook 8 0 0 (b2n m.ckPeriodic) ((d.now - t) / 1000000000) 0

/-- Write a checkpoint of the energies, their fractions and the pending pulse counts. -/
def DieSt.checkpoint (d : DieSt) (periodic : Bool) : DieSt :=
  { d with met := { d.met with
    ckEnergy := d.met.energy, ckPeriodic := periodic
    ckPend := (List.range 16).foldl (fun (t : Tab Nat) k => t.set (fun _ => 0) k (d.pulse k).pend) Tab.empty } }

/-- VANA leaves its range. -/
def DieSt.vanaLoss (d : DieSt) : DieSt :=
  if !d.idn.met || !d.on F.PWR_SUP_STAT_VAON then d
  else
    let d := if d.on F.PWR_SUP_STAT_VANA then d.supplyLost 10 else d
    let was := d.met.running
    let had := d.on F.MET_STAT_VANA_OK
    let d := (d.put F.MET_STAT_VANA_OK 0).put F.MET_STAT_MEASURING 0
    let d :=
      if !was then d
      else
        let d := (d.checkpoint false).scorebook 7 0 0 0 (d.met.en 0 0 / 2 ^ 32 % 2 ^ 64) 0
        { d with met := { d.met with running := false, offAt := some d.now, pulse := pulsesHeld d.met.ckPend } }
    d.raiseIf had 0x708 0x1104 0

/-- VANA returns; MET_START follows when the island measures again. -/
def DieSt.vanaReturn (d : DieSt) : DieSt :=
  if !d.idn.met || !d.on F.PWR_SUP_STAT_VAON || d.on F.MET_STAT_VANA_OK then d
  else
    let d := d.wr R.PWR_SUP_STAT (BitVec.ofNat 32 (putBit (d.rd R.PWR_SUP_STAT).toNat 10 true))
    (d.put F.MET_STAT_VANA_OK 1).raise 0x708 0x1104 (2 ^ 23)

/-- The seal switch changes (R447): a Scorebook record whatever the seal state, and MET_SEAL. -/
def DieSt.sealChange (d : DieSt) (opened : Bool) : DieSt :=
  if !d.metOn || d.on F.MET_STAT_SEAL_OPEN == opened then d
  else
    let c := d.f F.MET_SB_COUNT_COUNT
    let t := if opened then 4 else 5
    ((d.put F.MET_STAT_SEAL_OPEN (b2n opened)).scorebook t 0 0 0 0 0).raise 0x708 0x1101 (t * 2 ^ 20 + c % 2 ^ 20)

/-! ### Sealing (R447, R448) -/

/-- The record's place: DRAM channel and address. -/
def DieSt.sealAt (d : DieSt) (w : Caller) : Nat × Nat := (bits (d.arg w 2) 31 30, d.arg w 1 + d.arg w 2 % 16 * 2 ^ 32)

/-- `n` bytes of the record at `off`, as a number. -/
def DieSt.sealField (d : DieSt) (w : Caller) (off n : Nat) : Nat :=
  ofBytes ((List.range n).map (fun k => d.dramByte (d.sealAt w).1 ((d.sealAt w).2 + off + k)))

/-- A read of the record ends with ERR. -/
def DieSt.sealBad (d : DieSt) (w : Caller) (n : Nat) : Bool :=
  let a := (d.sealAt w).2
  (List.range ((a + n + 63) / 64 - a / 64)).any (fun k => d.dramBad (d.sealAt w).1 (64 * (a / 64 + k)))

/-- The Referee has read the record through the port of management work: what the reads find is counted (R264, R265). -/
def DieSt.sealRead (d : DieSt) (w : Caller) (code : Nat) : DieSt :=
  if (d.callNext w code || d.callWaits w code) && d.policyAllows w code && decide ((d.sealAt w).1 < d.idn.ddr) && d.chReady (d.sealAt w).1 then
    d.bytesFound (d.sealAt w).1 12 (d.sealAt w).2 (32 + min (d.sealField w 20 4) 262144 + 96)
  else d

/-- Is the code an export setting. -/
def exportCode (c : Nat) : Bool := 0x40 ≤ c && c ≤ 0x42

/-- The codes of Table 17-7. -/
def metCode (c : Nat) : Bool := (1 ≤ c && c ≤ 10) || exportCode c

/-- Does a parameter's content lie within the limits the tables give. -/
def metFits (c : Nat) (v : List Nat) : Bool :=
  match c with
  | 0x02 => (v.take 8).all (fun t => decide (t ≤ 3)) && decide (v.length = 25) && (nth 0 v 8 == 50 || nth 0 v 8 == 60)
  | 0x05 => decide (v.length = 64) && (List.range 16).all (fun k => nth 0 v (4 * k + 2) == 0 ||
      (decide (nth 0 v (4 * k) < 8) && decide (nth 0 v (4 * k + 1) ≤ 8) && decide (nth 0 v (4 * k + 2) ≤ 1000000)
        && decide (1 ≤ nth 0 v (4 * k + 3)) && decide (nth 0 v (4 * k + 3) ≤ 100)))
  | 0x06 => decide (v.length = 16) && v.all (fun k => decide (k < 16) || k == 255)
  | 0x07 => decide (v.length = 1) && decide (nth 0 v 0 < 3)
  | 0x08 => decide (v.length = 1) && [1, 5, 10, 15, 30, 60].contains (nth 0 v 0)
  | 0x0A => decide (v.length = 1) && decide (nth 0 v 0 < 2)
  | 0x40 => decide (v.length = 1) && (decide (nth 0 v 0 < 64) || nth 0 v 0 == 255)
  | 0x41 => decide (v.length = 16)
  | 0x42 => decide (v.length = 2)
  | _ => true

/-- The checks of a record that both calls share: `rd` is the die whose DRAM holds it, `d` the island's die, `needSig`
whether it is signed, `range` the other range checks.  The fault 4 of Table 17-8 comes as `FAILED`. -/
def sealChecks (rd d : DieSt) (w : Caller) (needSig sigOk range : Bool) : Nat :=
  let len := rd.sealField w 20 4
  if rd.idn.ddr ≤ (rd.sealAt w).1 then csAbsent
  else if !rd.chReady (rd.sealAt w).1 then csState
  else if rd.sealBad w (32 + min len 262144 + (if needSig then 96 else 0)) then csFailed
  else firstFail [
    (rd.sealField w 0 4 != 0x4C414553 || rd.sealField w 8 8 != d.idn.uid || rd.sealField w 16 4 != d.f F.MET_SB_COUNT_COUNT
      || (needSig && !sigOk), csAuth),
    (decide (262144 < len) || range, csRange),
    (!d.idn.met, csAbsent),
    (!d.metOn, csState)]

/-- An accepted SEAL call: the record of Table 17-9 and MET_SEAL. -/
def DieSt.sealDo (d : DieSt) (on : Bool) : DieSt × Option (Nat × List Nat) :=
  let c := d.f F.MET_SB_COUNT_COUNT
  let t := if on then 2 else 1
  let key := d.met.keyHead
  let d : DieSt := { d with met := { d.met with
    sealed := on, rollback := false, demMax := if on then Tab.empty else d.met.demMax } }
  let d := (d.put F.MET_STAT_SEALED (b2n on)).put F.MET_STAT_ROLLBACK 0
  (((d.scorebook t 1 0 0 0 key).raise 0x708 0x1101 (t * 2 ^ 20 + c % 2 ^ 20)), some (csOk, [0, c]))

/-- SEAL: die 1 forwards it to die 0, whose island it seals. -/
def State.callSeal (s : State) (x : Die) (w : Caller) (i : SealIn) : State :=
  (if s.d0.serving then onDie x s (fun d => d.sealRead w 0x82) else s).call x w 0x82 true (fun s =>
    let rd := s.die x
    let d := s.d0
    let op := rd.arg w 0
    let st := sealChecks rd d w (d.met.key != 0) i.sigOk
      (decide (1 < op) || rd.sealField w 4 1 != op || rd.sealField w 6 2 != 0)
    if st = csFailed then (s, some (csFailed, [4, 0]))
    else if st ≠ csOk then (s, some (st, []))
    else if op = 0 && !(d.met.sealed && d.on F.MET_STAT_SEAL_OPEN) then (s, some (csState, []))
    else if op = 1 && (d.met.sealed || d.on F.MET_STAT_SEAL_OPEN || d.met.key == 0) then (s, some (csState, []))
    else if !i.storeOk then (s, some (csFailed, [1, 0]))
    else
      let r := d.sealDo (op == 1)
      ({ s with d0 := r.1 }, r.2))

/-- Take a parameter's new value: it holds at a point from the point's next window boundary (R448). -/
def MetSt.setParam (m : MetSt) (c : Nat) (v : List Nat) : MetSt :=
  let was := m.param.get (fun _ => []) c
  { m with
    param := m.param.set (fun _ => []) c v
    old := if !m.running then m.old else (List.range 8).foldl (fun (t : Tab (Option (List Nat))) p =>
      if (t.get (fun _ => none) (256 * p + c)).isSome then t else t.set (fun _ => none) (256 * p + c) (some was)) m.old }

/-- What a changed parameter does beside the windows: KEY and PINS; with no point defined an IMAGE has no boundary to wait for
(R446, R448). -/
def DieSt.paramDo (d : DieSt) (c : Nat) (v : List Nat) : DieSt :=
  let d : DieSt := { d with met := d.met.setParam c v }
  match c with
  | 0x01 => if d.met.running && (List.range 8).any (fun p => d.met.point p) then d
    else ({ d with met := { d.met with imageId := d.met.newId } } : DieSt).showStore
  | 0x09 => ({ d with met := { d.met with key := nth 0 v 0 % 2 ^ 384 + 1 } } : DieSt).showStore
  | 0x06 =>
    let l := d.pulsePins
    let d := (List.range 16).foldl (fun (d : DieSt) k =>
      if d.claim (80 + k) = claimMet && !l.any (fun p => p.1 == 80 + k) then d.setClaim (80 + k) 0 else d) d
    let d := if d.dev = 0 then d else l.foldl (fun (d : DieSt) p => d.setClaim p.1 claimMet) d
    if d.dev = 4 then d.metSwitch else { d with met := { d.met with pinsDue := true } }
  | _ => d.showStore

/-- Does another claimant hold a pin that PINS names. -/
def DieSt.pinsTaken (d : DieSt) (v : List Nat) : Bool :=
  (List.range 16).any (fun k => decide (nth 255 v k < 16) && d.claim (80 + k) != 0 && d.claim (80 + k) != claimMet)

/-- MET_PARAM: a sealed parameter needs the island UNSEALED and the seal open; an export setting neither. -/
def DieSt.callMetParam (d : DieSt) (w : Caller) (i : SealIn) : DieSt :=
  (d.sealRead w 0x83).call w 0x83 (fun d =>
    let c := d.arg w 0
    let signed := d.met.key != 0 && !exportCode c
    let st := sealChecks d d w signed i.sigOk
      (!metCode c || d.sealField w 4 1 != 2 || d.sealField w 6 2 != c)
    if st = csFailed then (d, some (csFailed, [4, 0]))
    else if st ≠ csOk then (d, some (st, []))
    else if !exportCode c && d.met.sealed then (d, some (csSealed, []))
    else if !exportCode c && !d.on F.MET_STAT_SEAL_OPEN then (d, some (csState, []))
    else if c = 6 && d.pinsTaken i.vals then (d, some (csClaimed, []))
    else if c = 1 && !i.imgOk then (d, some (csFailed, [2, 0]))
    else if !i.fits || !metFits c i.vals then (d, some (csFailed, [3, 0]))
    else if !i.storeOk then (d, some (csFailed, [1, 0]))
    else
      let n := d.f F.MET_SB_COUNT_COUNT
      let key := if signed then d.met.keyHead else 0
      let oldH := if c = 1 then d.met.newId else i.oldH
      let d := d.paramDo c i.vals
      let newH := if c = 1 then d.met.newId else i.newH
      ((d.scorebook 3 1 c oldH newH key).raise 0x708 0x1102 (c * 2 ^ 16 + n % 2 ^ 16), some (csOk, [0, n])))

/-! ### The commands -/

/-- MET_START (R434, R452). -/
def execMetStart (x : Die) (s : State) : Out := act x s (fun d => d.metStart)

/-- MET_WINDOW_END (R441, R451). -/
def execMetWindowEnd (x : Die) (w : MetWin) (s : State) : Out := act x s (fun d => d.metWindow w)

/-- PULSE_WIDTH_END (R445). -/
def execPulseWidthEnd (x : Die) (k : Nat) (s : State) : Out := act x s (fun d => d.pulseEnd k)

/-- DEMAND_INTERVAL_END (R439). -/
def execDemandIntervalEnd (x : Die) (p : Nat) (s : State) : Out := act x s (fun d => d.demandEnd p)

/-- SPARE_EXCHANGE (R443). -/
def execSpareExchange (x : Die) (s : State) : Out := act x s (fun d => d.exchange)

/-- EXCHANGE_OVERLAP_END (R444). -/
def execExchangeOverlapEnd (x : Die) (disagree : Bool) (s : State) : Out := act x s (fun d => d.overlapEnd disagree)

/-- MODULATOR_CAL_END (R444). -/
def execModulatorCalEnd (x : Die) (m : Nat) (ok : Bool) (s : State) : Out := act x s (fun d => d.calEnd m ok)

/-- SEAL_N_CHANGE (R447). -/
def execSealNChange (x : Die) (opened : Bool) (s : State) : Out := act x s (fun d => d.sealChange opened)

/-- VANA_LOSS (R452). -/
def execVanaLoss (x : Die) (s : State) : Out := act x s (fun d => d.vanaLoss)

/-- VANA_RETURN (R452). -/
def execVanaReturn (x : Die) (s : State) : Out := act x s (fun d => d.vanaReturn)

/-- MET_CHECKPOINT (R452). -/
def execMetCheckpoint (x : Die) (s : State) : Out := act x s (fun d => if d.met.running then d.checkpoint true else d)

/-- SEAL (R447). -/
def execSeal (x : Die) (w : Caller) (i : SealIn) (s : State) : Out := .next (s.callSeal x w i)

/-- MET_PARAM (R447). -/
def execMetParam (x : Die) (w : Caller) (i : SealIn) (s : State) : Out := act x s (fun d => d.callMetParam w i)

end Sys2Proof.Machine
end

