-- ==== Sys2Proof/Machine/Umpire.lean ====
section
/-! DEFINITION. The Umpire (R455 to R467): rules with their filters and actions, comparators, heartbeats and the log. -/

namespace Sys2Proof.Machine

/-- Umpire rule `r` beside its words. -/
def DieSt.rule (d : DieSt) (r : Nat) : RuleSt := d.ump.rule.get (fun _ => RuleSt.reset) r

/-- Replace rule `r`. -/
def DieSt.setRule (d : DieSt) (r : Nat) (v : RuleSt) : DieSt :=
  { d with ump := { d.ump with rule := d.ump.rule.set (fun _ => RuleSt.reset) r v } }

/-- A rule's output. -/
def DieSt.ruleOut (d : DieSt) (r : Nat) : Bool := bit (d.rd64 R.UMP_OUT_LO R.UMP_OUT_HI) r

/-- Set a rule's output. -/
def DieSt.setRuleOut (d : DieSt) (r : Nat) (b : Bool) : DieSt :=
  d.wr64 R.UMP_OUT_LO R.UMP_OUT_HI (putBit (d.rd64 R.UMP_OUT_LO R.UMP_OUT_HI) r b)

/-! ### The log (R466) -/

/-- A record enters the log; a full log loses its oldest. -/
def DieSt.umpLog (d : DieSt) (code data : Nat) : DieSt :=
  let b := EvRec.bytes ⟨d.mt, d.source 0x707, code, data % 2 ^ 24, false, false⟩
  let put (d : DieSt) (e : Nat) : DieSt :=
    (List.range 4).foldl (fun (d : DieSt) j => d.wr (R.UMP_LOG e j) (BitVec.ofNat 32 (ofBytes ((b.drop (4 * j)).take 4)))) d
  let n := d.f F.UMP_LOG_STAT_LEVEL
  if n < 16 then (put d n).put F.UMP_LOG_STAT_LEVEL (n + 1)
  else
    let d := (List.range 60).foldl (fun (d : DieSt) k => d.wr (R.UMP_LOG 0 k) (d.rd (R.UMP_LOG 0 (k + 4)))) d
    (put d 15).put F.UMP_LOG_STAT_OVF 1

/-- An event of the Umpire goes out through crossing kind 10 to the event collector (R466). -/
def DieSt.umpRaise (d : DieSt) (code data : Nat) : DieSt := (d.xPass ⟨10, 0, 0, false⟩ data).raise 0x707 code data

/-- Remove the oldest record. -/
def DieSt.umpPop (d : DieSt) : DieSt :=
  let n := d.f F.UMP_LOG_STAT_LEVEL
  if n = 0 then d
  else
    let d := (List.range 60).foldl (fun (d : DieSt) k => d.wr (R.UMP_LOG 0 k) (d.rd (R.UMP_LOG 0 (k + 4)))) d
    let d := (List.range 4).foldl (fun (d : DieSt) j => d.wr (R.UMP_LOG 15 j) 0) d
    d.put F.UMP_LOG_STAT_LEVEL (n - 1)

/-! ### Rules as written (R463) -/

/-- A rule written: empty histories, c = 0 and output 0; a latched pin stays latched, and words a call
has given still take effect at the next tick (R459, R460, R463). -/
def DieSt.ruleFresh (d : DieSt) (r : Nat) : DieSt :=
  (d.setRule r { RuleSt.reset with latched := (d.rule r).latched, next := (d.rule r).next }).setRuleOut r false

/-- Store the words of a rule. -/
def DieSt.ruleStore (d : DieSt) (r : Nat) (w : Word × Word × Word × Word) : DieSt :=
  ((((d.wr (R.UMP_RULE_W0 r) w.1).wr (R.UMP_RULE_W1 r) w.2.1).wr (R.UMP_RULE_W2 r) w.2.2.1).wr (R.UMP_RULE_W3 r) w.2.2.2).ruleFresh r

/-- Is UMP_STAT.ALARM right: 1 while any alarm bit is set (Table 18-2). -/
def DieSt.alarmShow (d : DieSt) : DieSt := d.put F.UMP_STAT_ALARM (b2n (d.rd64 R.UMP_ALARM_LO R.UMP_ALARM_HI != 0))

/-- Set or clear a rule's alarm bit. -/
def DieSt.setAlarm (d : DieSt) (r : Nat) (b : Bool) : DieSt :=
  (d.wr64 R.UMP_ALARM_LO R.UMP_ALARM_HI (putBit (d.rd64 R.UMP_ALARM_LO R.UMP_ALARM_HI) r b)).alarmShow

/-! ### Inputs (R457, R458) -/

/-- What a rule finds at its tick. -/
inductive Sample where
  /-- No new sample: its metrology slot has not been refreshed, or SRC is reserved. -/
  | none
  | invalid
  | value (w : Nat)
deriving DecidableEq, Repr

/-- Sample the input of rule `r`; `v` is what its pin, sensor or supply monitor presents. -/
def DieSt.ruleInput (d : DieSt) (r v : Nat) : Sample × DieSt :=
  let i := d.f (F.UMP_RULE_W0_IDX r)
  let s := d.rule r
  match d.f (F.UMP_RULE_W0_SRC r) with
  | 0 =>
    if i < 48 && d.f (F.PIN_CFG_FUNC (48 + i)) == 2 && d.on (F.PIN_BANK_STAT_VCCIO_OK 1) then (.value (v % 2), d) else (.invalid, d)
  | 1 =>
    if !d.idn.met || !d.on F.MET_STAT_MEASURING then (.invalid, d)
    else
      match (d.met.param.get (fun _ => []) 0x41)[i]? with
      | some e =>
        let n := d.met.snaps.get (fun _ => 0) (bits e 10 8)
        if n = s.seen then (.none, d) else (.value (d.f (F.MET_UMP_VALUE (i % 16))), d.setRule r { s with seen := n })
      | none => (.none, d)
  | 2 =>
    let i := i % 8
    if d.quarHas 4 i then (.invalid, d.put (F.UMP_TEMP_VALID i) 0)
    else (.value (uns 32 (sgn 16 v)), (d.put (F.UMP_TEMP_VALID i) 1).put (F.UMP_TEMP_VALUE i) v)
  | 3 =>
    if 1 ≤ i && i ≤ 10 then (.value (v % 2 ^ 16), (d.put (F.UMP_VSUP_VALID (i - 1)) 1).put (F.UMP_VSUP_VALUE (i - 1)) v)
    else (.none, d)
  | 4 => if !d.mtm.on then (.invalid, d) else (.value (b2n s.fired), d.setRule r { s with fired := false })
  | _ => (.none, d)

/-! ### Filters (R459) -/

/-- The mean of samples as a signed integer; a mean that is no integer is one of its two neighbours, a free choice. -/
def DieSt.meanInt (d : DieSt) (l : List Word) : Int × DieSt :=
  let sum := l.foldl (fun (a : Int) w => a + w.toInt) 0
  let n : Int := (l.length : Nat)
  if sum % n = 0 then (sum / n, d)
  else
    let c := d.choose
    (sum / n + (if c.1 then 1 else 0), c.2)

/-- The mean of samples in single precision, rounded to nearest; nothing where it is no number. -/
def meanF32 (l : List Word) : Option Nat :=
  let inf := l.filter (fun w => f32Inf w.toNat)
  match inf with
  | w :: r => if r.all (fun v => v == w) then some w.toNat else none
  | [] => some (f32Of (l.foldl (fun (a : Int) w => a + f32Int w.toNat) 0) (l.length * 2 ^ 149))

/-- The bit c from a value and its thresholds (POL 0 above, 1 below). -/
def threshold (pol : Bool) (v set clr : Int) (c : Bool) : Bool :=
  if pol then (if v ≤ set then true else if clr < v then false else c)
  else if set ≤ v then true else if v < clr then false else c

/-- c of a rule whose averaged value is `v`, a word of its FMT; a comparison with a NaN threshold is false. -/
def DieSt.ruleThreshold (d : DieSt) (r : Nat) (v : Int) (c : Bool) : Bool :=
  let set := d.rd (R.UMP_RULE_W2 r)
  let clr := d.rd (R.UMP_RULE_W3 r)
  let pol := d.on (F.UMP_RULE_W0_POL r)
  if d.on (F.UMP_RULE_W0_FMT r) then
    if f32Nan set.toNat || f32Nan clr.toNat then c else threshold pol v (f32Key set.toNat) (f32Key clr.toNat) c
  else threshold pol v set.toInt clr.toInt c

/-- c while the input is invalid (INV). -/
def invalidC (inv : Nat) (c : Bool) : Bool := if inv = 1 then false else if inv = 2 then true else c

/-- Average and threshold: c and the samples kept. -/
def DieSt.ruleC (d : DieSt) (r : Nat) (x : Sample) : Option (Bool × List Word) × DieSt :=
  let s := d.rule r
  let src := d.f (F.UMP_RULE_W0_SRC r)
  let bad := invalidC (d.f (F.UMP_RULE_W0_INV r)) s.c
  match x with
  | .none => (none, d)
  | .invalid => (some (bad, s.samples), d)
  | .value v =>
    let w : Word := BitVec.ofNat 32 v
    let l := (w :: s.samples).take (d.f (F.UMP_RULE_W0_AVG r) + 1)
    if src = 0 || src = 4 then (some (xor (v != 0) (d.on (F.UMP_RULE_W0_POL r)), s.samples), d)
    else if src = 1 && d.on (F.UMP_RULE_W0_FMT r) then
      if f32Nan v then (some (bad, s.samples), d)
      else
        match meanF32 l with
        | some m => (some (d.ruleThreshold r (f32Key m) s.c, l), d)
        | none => (some (bad, l), d)
    else
      let m := d.meanInt l
      (some (m.2.ruleThreshold r m.1 s.c, l), m.2)

/-- The boolean filter: the new output, the history of c and the run of differing samples. -/
def boolFilter (kind n m : Nat) (c out : Bool) (cs : List Bool) (differ : Nat) : Bool × List Bool × Nat :=
  if kind = 1 then
    if c == out then (out, [], 0)
    else if n + 1 ≤ differ + 1 then (c, [], 0)
    else (out, [], differ + 1)
  else if kind = 2 then
    let l := (c :: cs).take (m + 1)
    (decide (n + 1 ≤ (l.filter (fun b => b)).length), l, 0)
  else (c, [], 0)

/-! ### Actions (R460) -/

/-- The actions of rule `r` whose output becomes `out`, and the triggers it gives. -/
def DieSt.ruleAct (d : DieSt) (r : Nat) (out : Bool) : DieSt × List Trig :=
  let s := d.rule r
  let latch := out && d.on (F.UMP_RULE_W1_PIN r) && d.on (F.UMP_RULE_W1_LATCH r) && !s.latched
  let trip := latch && d.f (F.UMP_RULE_W0_AVG r) == 0 && d.f (F.UMP_RULE_W1_BFILT r) == 0
  let d := if latch then d.setRule r { s with latched := true } else d
  let data := r * 2 ^ 18 + b2n out * 2 ^ 17 + b2n trip * 2 ^ 16
  let d := if d.on (F.UMP_RULE_W1_LOG r) then d.umpLog 0x1201 data else d
  let d := if d.on (F.UMP_RULE_W1_LOG r) && d.on F.UMP_EVT_EN_RULE then d.umpRaise 0x1201 data else d
  let d := if out && d.on (F.UMP_RULE_W1_ALARM r) then d.setAlarm r true else d
  let ft := if out && d.on (F.UMP_RULE_W1_FT r) && [1, 2, 3, 4, 6].contains d.dev then [Trig.fullTime 8 false] else []
  let wake := if out && d.on (F.UMP_RULE_W1_WAKE r) && d.dev == 5 then [Trig.wake] else []
  (d, ft ++ wake)

/-- The rule's words that waited take effect (R463). -/
def DieSt.ruleTake (d : DieSt) (r : Nat) : DieSt :=
  match (d.rule r).next with
  | some w => (d.setRule r { d.rule r with next := none }).ruleStore r w
  | none => d

/-- Tick `r` of a round (R456). -/
def DieSt.ruleTick (d : DieSt) (r v : Nat) : DieSt × List Trig :=
  let d := d.put F.UMP_STAT_LIVE 1
  let d := if r = 63 then d.wrapBy F.UMP_STAT_ROUND 1 else d
  let d := d.ruleTake r
  if !d.on (F.UMP_RULE_W0_EN r) then (d, [])
  else
    let x := d.ruleInput r v
    let y := x.2.ruleC r x.1
    let d := y.2
    match y.1 with
    | none => (d, [])
    | some (c, l) =>
      let s := d.rule r
      let out := d.ruleOut r
      let b := boolFilter (d.f (F.UMP_RULE_W1_BFILT r)) (d.f (F.UMP_RULE_W1_N r)) (d.f (F.UMP_RULE_W1_M r)) c out s.cs s.differ
      let d := d.setRule r { s with samples := l, c := c, cs := b.2.1, differ := b.2.2 }
      if b.1 == out then (d, []) else (d.setRuleOut r b.1).ruleAct r b.1

/-- RULE_EVALUATE. -/
def State.ruleEvaluate (s : State) (x : Die) (r v : Nat) : State :=
  if (s.die x).idn.absent || !(s.die x).on F.PWR_SUP_STAT_VAON then s
  else
    let t := ((s.die x).ruleTick (r % 64) v).2
    t.foldl (fun (s : State) k => (s.fire k).1) (onDie x s (fun d => (d.ruleTick (r % 64) v).1))

/-! ### Comparators (R458) -/

/-- Comparator `k` fires: the rules that read it see 1 once. -/
def DieSt.mtcFire (d : DieSt) (k : Nat) : DieSt :=
  let v := d.rd64 (R.UMP_MTC_VALUE_LO k) (R.UMP_MTC_VALUE_HI k)
  let per := d.f (F.UMP_MTC_PERIOD_V k)
  if 8 ≤ k || !d.on (F.UMP_MTC_EN_EN k) || !d.mtm.on || d.mt.toNat < v then d
  else
    let d := (List.range 64).foldl (fun (d : DieSt) r =>
      if d.f (F.UMP_RULE_W0_SRC r) = 4 && d.f (F.UMP_RULE_W0_IDX r) = k then d.setRule r { d.rule r with fired := true } else d) d
    if per = 0 then d.put (F.UMP_MTC_EN_EN k) 0
    else d.wr64 (R.UMP_MTC_VALUE_LO k) (R.UMP_MTC_VALUE_HI k) ((v + per) % 2 ^ 64)

/-! ### The call UMP_RULE (R463) -/

/-- Is the order of a rule's thresholds wrong. -/
def thresholdsBad (fmt pol : Bool) (set clr : Word) : Bool :=
  let le (a b : Word) : Bool :=
    if fmt then !f32Nan a.toNat && !f32Nan b.toNat && decide (f32Key a.toNat ≤ f32Key b.toNat) else decide (a.toInt ≤ b.toInt)
  if pol then !le set clr else !le clr set

/-- The RANGE checks of a rule's words. -/
def DieSt.ruleRange (d : DieSt) (w0 w1 w2 w3 : Word) : Bool :=
  let a := w0.toNat
  let b := w1.toNat
  let src := bits a 30 28
  let i := bits a 27 22
  let fmt := bit a 19
  let isPin (n : Nat) : Bool := decide (n < 48) && d.f (F.PIN_CFG_FUNC (48 + n)) == 2
  bits a 9 0 != 0 || bits b 4 0 != 0 || decide (4 < src) || bits a 21 20 == 3 || bits b 31 30 == 3 || (fmt && src != 1)
    || (src == 1 && decide (16 ≤ i)) || ((src == 2 || src == 4) && decide (8 ≤ i)) || (src == 3 && (i == 0 || decide (10 < i)))
    || (if src = 0 || src = 4 then bits a 17 10 != 0 || w2 != 0 || w3 != 0 else thresholdsBad fmt (bit a 18) w2 w3)
    || (src == 0 && !isPin i) || (bit b 13 && !isPin (bits b 11 6))
    || (bits b 31 30 == 2 && decide (bits b 23 18 < bits b 29 24))

/-- UMP_RULE. -/
def DieSt.callUmpRule (d : DieSt) (w : Caller) : DieSt :=
  d.call w 0x81 (fun d =>
    let a := d.arg w 0
    let r := a % 64
    let op := bits a 9 8
    let g (k : Nat) : Word := BitVec.ofNat 32 (d.arg w k)
    if op = 1 then
      d.checked [(a != r + 256, csRange), (!d.mine (0x700 + r), csClaimed)]
        (fun d => done ((d.setRule r { d.rule r with latched := false }).setAlarm r false) [])
    else
      let pin := bit (g 2).toNat 13
      let opin := bits (g 2).toNat 11 6
      let moved := pin != d.on (F.UMP_RULE_W1_PIN r) || opin != d.f (F.UMP_RULE_W1_OPIN r)
      d.checked [(a != r || d.ruleRange (g 1) (g 2) (g 3) (g 4), csRange),
          (bits (g 1).toNat 30 28 == 1 && !d.idn.met, csAbsent),
          (!d.mine (0x700 + r) || (pin && !d.mine (48 + opin)), csClaimed),
          ((d.rule r).latched && moved, csBusy)]
        (fun d =>
          let d := d.setClaim (0x700 + r) claimTeam
          let d := if pin then d.setClaim (48 + opin) claimTeam else d
          done (d.setRule r { d.rule r with next := some (g 1, g 2, g 3, g 4) }) []))

/-! ### Heartbeats (R465) -/

/-- UMP_HB_MISS. -/
def DieSt.hbMiss (d : DieSt) (ref : Bool) (n : Nat) : DieSt :=
  let data := b2n ref * 2 ^ 23 + min n 65535
  if d.on F.UMP_EVT_EN_HB then (d.umpLog 0x1202 data).umpRaise 0x1202 data else d

/-- One beat of the Referee. -/
def DieSt.refBeat (d : DieSt) : DieSt :=
  ({ d with ump := { d.ump with refBeat := d.now + 1, ordered := 0, fails := 0 } } : DieSt).put F.UMP_HB_REF_WATCH 1

/-- 10 ms with no beat, or 50 ms with none since a restart was ordered: a restart, and RECOVERY at the third failure. -/
def State.refMiss (s : State) (x : Die) : State :=
  let d := s.die x
  if d.idn.absent || !d.domOn 76 then s
  else if d.on F.UMP_HB_REF_WATCH && decide (d.ump.refBeat + 10000000 ≤ d.now + 1) then
    (onDie x s (fun d =>
      let d := ((d.bump F.UMP_HB_REF_MISS).put F.UMP_HB_REF_WATCH 0).hbMiss true 1
      { d with ump := { d.ump with ordered := d.now + 1, fails := 0 } })).refOrder x 2
  else if d.ump.ordered ≠ 0 && decide (d.ump.ordered + 50000000 ≤ d.now + 1) then
    let n := d.ump.fails + 1
    (onDie x s (fun d =>
      ({ d with ump := { d.ump with ordered := d.now + 1, fails := n } } : DieSt).put F.REF_STAT_FAILS
        (max (n - 1) (d.f F.REF_STAT_FAILS)))).refFailed x 2
  else s

/-- A beat of the coordinator. -/
def DieSt.coordBeat (d : DieSt) : DieSt :=
  if !d.domOn 77 || d.on F.SWP_STAT_RESTARTING then d
  else ({ d with ump := { d.ump with swpBeat := d.now + 1, swpRun := 0 } } : DieSt).put F.UMP_HB_SWP_WATCH 1

/-- Four rounds of 64 ticks with no beat: the coordinator restarts. -/
def DieSt.coordMiss (d : DieSt) : DieSt :=
  if !d.domOn 77 || !d.on F.UMP_HB_SWP_WATCH || decide (d.now + 1 < d.ump.swpBeat + 256000) then d
  else
    let n := d.ump.swpRun + 1
    let d : DieSt := { d with ump := { d.ump with swpBeat := d.now + 1, swpRun := n } }
    ((d.bump F.UMP_HB_SWP_MISS).hbMiss false n).coordRestart

/-! ### The commands -/

/-- CRYSTAL_START (R455): die 1's Umpire takes its clock from die 0 (R480). -/
def execCrystalStart (s : State) : Out :=
  actBoth s (fun d => if d.on F.PWR_SUP_STAT_VAON then (d.put F.UMP_STAT_LIVE 1).put F.UMP_STAT_XTAL 1 else d)

/-- RULE_EVALUATE (R456, R460). -/
def execRuleEvaluate (x : Die) (r v : Nat) (s : State) : Out := .next (s.ruleEvaluate x r v)

/-- MTC_FIRE (R458). -/
def execMtcFire (x : Die) (k : Nat) (s : State) : Out := act x s (fun d => d.mtcFire k)

/-- UMP_LOG_POP (R467). -/
def execUmpLogPop (x : Die) (m : Master) (s : State) : Out :=
  act x s (fun d => d.busAct m R.UMP_LOG_POP (fun d => d.umpPop))

/-- UMP_RULE (R463). -/
def execUmpRule (x : Die) (w : Caller) (s : State) : Out := act x s (fun d => d.callUmpRule w)

/-- REF_HB_BEAT (R465). -/
def execRefHbBeat (x : Die) (m : Master) (s : State) : Out := act x s (fun d => d.busAct m R.REF_HB (fun d => d.refBeat))

/-- REF_HEARTBEAT_MISS (R465). -/
def execRefHeartbeatMiss (x : Die) (s : State) : Out := .next (s.refMiss x)

/-- COORDINATOR_HEARTBEAT (R465). -/
def execCoordinatorHeartbeat (x : Die) (s : State) : Out := act x s (fun d => d.coordBeat)

/-- COORD_HEARTBEAT_MISS (R465). -/
def execCoordHeartbeatMiss (x : Die) (s : State) : Out := act x s (fun d => d.coordMiss)

end Sys2Proof.Machine
end

