-- ==== Sys2Proof/Machine/Jtag.lean ====
section
/-! DEFINITION. The IEEE 1149.1 test port (R476, R477). -/

namespace Sys2Proof.Machine

/-- Replace the port's state. -/
def DieSt.setJtag (d : DieSt) (j : JtagSt) : DieSt := { d with jtag := j }

/-- One scan of the boundary register under instruction `code`: the cells are captured, and those shifted in are held. -/
def JtagSt.boundary (j : JtagSt) (code : Nat) (cells cap : List (Nat × Bool)) : JtagSt :=
  { j with
    ir := code
    sampled := cap.foldl (fun (t : Tab Bool) c => t.set (fun _ => false) c.1 c.2) j.sampled
    preload := cells.foldl (fun (t : Tab Bool) c => t.set (fun _ => false) c.1 c.2) j.preload }

/-- SYS_ID in bits 31 to 0, SYS_RES in bits 63 to 32 (Table 19-7). -/
def DieSt.sysidOut (d : DieSt) : Nat := d.idn.sysId.toNat + d.idn.sysRes.toNat * 2 ^ 32

/-- Does an instruction code select BYPASS: 0xFF and every unlisted code (R476). -/
def selectsBypass (code : Nat) : Bool := code % 256 != 0 && code % 256 != 1 && code % 256 != 0x20

/-- One bit through the bypass register. -/
def JtagSt.throughBypass (j : JtagSt) (code : Nat) (tdi : Bool) : JtagSt :=
  { j with ir := code % 256, out := b2n j.bypass, bypass := tdi }

/-- JTAG_EXTEST (R477): whether the cells drive the pins is `DieSt.extest`. -/
def execJtagExtest (x : Die) (cells cap : List (Nat × Bool)) (s : State) : Out :=
  act x s (fun d => d.setJtag (d.jtag.boundary 0 cells cap))

/-- JTAG_SAMPLE_PRELOAD (R476). -/
def execJtagSamplePreload (x : Die) (cells cap : List (Nat × Bool)) (s : State) : Out :=
  act x s (fun d => d.setJtag (d.jtag.boundary 1 cells cap))

/-- JTAG_SYSID (R476). -/
def execJtagSysid (x : Die) (s : State) : Out :=
  act x s (fun d => d.setJtag { d.jtag with
    ir := 0x20
    out := d.sysidOut })

/-- JTAG_BYPASS (R476). -/
def execJtagBypass (x : Die) (code : Nat) (tdi : Bool) (s : State) : Out :=
  act x s (fun d => if selectsBypass code then d.setJtag (d.jtag.throughBypass code tdi) else d)

/-- TRST_N_LOW (R476): the port of both dies selects BYPASS; nothing else is reset. -/
def execTrstNLow (s : State) : Out := actBoth s (fun d => d.setJtag { d.jtag with
    ir := 0xFF
    bypass := false })

end Sys2Proof.Machine
end

