-- ==== Sys2Proof/Machine/Bus.lean ====
section
/-! DEFINITION. The management bus as a whole: what a read of every register shows, what a write of every register does,
64-bit values, and accesses to the other die (R4 to R9, R17, R28, R29, R482 to R484). -/

namespace Sys2Proof.Machine

/-- The block whose decoded span holds an address. -/
def blkOf (a : Nat) : Option Blk := (findBlk a).map (fun b => b.1)

/-! ### What a read shows -/

/-- The leaders of the cluster PACE_CAL_SEL names, as PACE_CAL_STAT shows them (R133).  Of a powered cluster with no leaders the spec
does not say what MARGIN and LEADERS, which is "less one", read: here 0xFF, the most, and 0 (DESIGN CHOICE, log entry 174). -/
def DieSt.calStat (d : DieSt) : Word :=
  let rg := d.f F.PACE_CAL_SEL_REGION
  let cl := d.f F.PACE_CAL_SEL_CLUSTER
  if !d.regionOn rg then 0
  else
    let q := d.canaries rg cl
    let l := d.leaders rg cl
    let least := l.foldl (fun n st => min n (marginSteps (d.delayOf (1024 * rg + st.leader)) (required st.recipe q))) 0xFF
    let waits := (l.filter (fun st => (d.fab.delayNext.get (fun _ => none) (1024 * rg + st.leader)).isSome)).length
    BitVec.ofNat 32 (least * 2 ^ 24 + (l.length - 1) % 16 * 2 ^ 20 + waits % 32 * 2 ^ 15 + nth 0 q 0 / 4 % 1024)

/-- SE_STAT.STATE codes. -/
def SeMode.code : SeMode → Nat
  | .off => 0
  | .halt => 1
  | .run => 2
  | .stall => 3
  | .idle => 4
  | .fault => 5
  | .frozen => 6

/-- One bit for each of the four ports. -/
def portBits (t : Tab Bool) : Nat := (List.range 4).foldl (fun n i => n + b2n (t.get (fun _ => false) i) * 2 ^ i) 0

/-- SE_STAT of a region's engine (R177). -/
def DieSt.seStat (d : DieSt) (rg : Nat) : Word :=
  let e := d.eng rg
  let st := if e.mode = .stall then b2n e.stallOut * 2 ^ 27 + e.stallPort % 4 * 2 ^ 25 else 0
  BitVec.ofNat 32 (e.mode.code * 2 ^ 29 + b2n e.active * 2 ^ 28 + st + portBits e.inFull * 2 ^ 20 + portBits e.outFull * 2 ^ 16
    + e.bk.pc.toNat)

/-- ROS_STAT (R205). -/
def DieSt.rosStat (d : DieSt) : Word :=
  let l := d.usedCtx
  BitVec.ofNat 32 ((l.filter (fun n => d.cst n != cStopped)).length % 2 ^ 16 * 2 ^ 16
    + (l.filter (fun n => d.cst n == cReady)).length % 2 ^ 16)

/-- ROS_GRP_STAT of group `g` (R205). -/
def DieSt.grpStat (d : DieSt) (g : Nat) : Word :=
  let l := d.groupEngines g
  BitVec.ofNat 32 ((l.filter (fun r => d.rgState r == rgRunning)).length % 2 ^ 11 * 2 ^ 21 + (d.slotsOf g).length % 2 ^ 9 * 2 ^ 12
    + (l.filter (fun r => (d.eng r).mode == .idle)).length % 2 ^ 12)

/-- SWP_STAT (R411). -/
def DieSt.swpStat (d : DieSt) : Word :=
  let run := d.domOn 77 && !d.on F.SWP_STAT_RESTARTING
  let n := if run then ((List.range (44 * d.idn.rows)).filter (fun rg => d.sweepable rg)).length else 0
  BitVec.ofNat 32 (b2n run * 2 ^ 31 + b2n (d.on F.SWP_STAT_RESTARTING) * 2 ^ 30 + n % 2 ^ 11)

/-- A word of SLK_GROUP: words 0 to 3 show the board group, and broadcast reads 1 (R280, R303). -/
def DieSt.slkGroup (d : DieSt) (w : Nat) : Word :=
  if w < 4 then
    let p := d.f F.SLK_ID_PREFIX
    if d.on F.SLK_ID_VALID && p / 32 == w then BitVec.ofNat 32 (2 ^ (p % 32)) else 0
  else if w = 63 then d.rd (R.SLK_GROUP 63) ||| 0x80000000
  else d.rd (R.SLK_GROUP w)

/-- A word of SLK_ROUTE: the entry of the device's own ID reads 4 and 4 (R282, R303). -/
def DieSt.slkRoute (d : DieSt) (k : Nat) : Word :=
  let w := d.rd (R.SLK_ROUTE k)
  let id := d.f F.SLK_ID_ID
  if d.on F.SLK_ID_VALID && id / 4 == k then (⟨R.SLK_ROUTE k, 8 * (id % 4) + 5, 8 * (id % 4)⟩ : Fld).put w 0x24 else w

/-- The word a read of the register at (folded) address `a` returns now.  `alarm`: an alarm bit of either die is set. -/
def DieSt.live (d : DieSt) (alarm : Bool) (a : Nat) : Word :=
  let w := d.rd a
  match blkOf a with
  | some .bSYS =>
    if a = R.SYS_ID then d.idn.sysId
    else if a = R.SYS_RES then d.idn.sysRes
    else if a = R.SYS_EVT_STAT then F.SYS_EVT_STAT_LEVEL.put w d.coll.length
    else w
  | some .bRGN =>
    let rg := (a - 0x11000000) / 0x100
    if a % 0x100 = 0 then
      let w := (F.RGN_STAT_BENCH rg).put w (b2n (isBench rg))
      if d.rgState rg = rgRunning && d.ringState rg = 3 then (F.RGN_STAT_STATE rg).put w rgFrozen else w
    else w
  | some .bPACE =>
    if a = R.PACE_STAT then F.PACE_STAT_PARKED.put (F.PACE_STAT_CONVERGED.put w (b2n d.converged)) (min 65535 d.parked)
    else if a = R.PACE_CAL_STAT then d.calStat
    else w
  | some .bSE => if a % 0x10000 = 8 then d.seStat ((a - 0x40000000) / 0x10000) else w
  | some .bROS =>
    if a = R.ROS_STAT then d.rosStat
    else if R.ROS_GRP_STAT 0 ≤ a ∧ a < R.ROS_GRP_STAT 64 ∧ (a - R.ROS_GRP_STAT 0) % 8 = 0 then d.grpStat ((a - R.ROS_GRP_STAT 0) / 8)
    else w
  | some .bQ =>
    let q := (a - 0x14000000) / 0x80
    if a % 0x80 = 0x0C then d.qStat q else if a % 0x80 = 0x10 then BitVec.ofNat 32 (d.que q).level else w
  | some .bDMC =>
    if 0x120 ≤ a % 0x1000 ∧ a % 0x1000 < 0x140 then w ||| BitVec.ofNat 32 (2 ^ 31 + nth 0 [2, 1, 2, 3, 2, 1] (a % 0x1000 / 4 - 0x48) * 2 ^ 29) else w
  | some .bSLK =>
    let o := a - 0x16000000
    if 0x400 ≤ o ∧ o < 0x500 then d.slkGroup ((o - 0x400) / 4)
    else if 0x1000 ≤ o ∧ o < 0x1800 then d.slkRoute ((o - 0x1000) / 4)
    else w
  | some .bMT =>
    if a = R.MT_NOW_LO then d.mt.setWidth 32
    else if a = R.MT_NOW_HI then d.mt.extractLsb' 32 32
    else if a = R.MT_STAT then F.MT_STAT_LOCKED.put w (max (d.f F.MT_STAT_LOCKED) (d.f F.MT_CFG_ROOT))
    else w
  | some .bPIN =>
    let o := a - 0x10020000
    if 0x800 ≤ o ∧ o < 0xBC0 ∧ o % 16 = 8 then BitVec.ofNat 32 (d.gpioIn ((o - 0x800) / 16))
    else if 0x1000 ≤ o ∧ o % 16 = 8 ∧ d.f (F.PIN_CFG_FUNC ((o - 0x1000) / 16)) ≠ 0 then 0
    else w
  | some .bPWR =>
    if a = R.PWR_DOM_ON 2 then BitVec.ofNat 32 (putBit (putBit w.toNat 14 (d.domOn 78)) 15 (d.domOn 79)) else w
  | some .bSWP => if a = R.SWP_STAT then d.swpStat else w
  | some .bCAR =>
    if a = R.CAR_UID_LO then BitVec.ofNat 32 d.idn.uid else if a = R.CAR_UID_HI then BitVec.ofNat 32 (d.idn.uid / 2 ^ 32) else w
  | some .bMET => if a = R.MET_SB_COUNT && !d.met.loaded then 0 else w
  | some .bUMP => if a = R.UMP_STAT then F.UMP_STAT_ALARM.put w (b2n alarm) else w
  | _ => w

/-- Is an alarm bit of either die of the package set: they share ALARM_N (R461). -/
def State.alarm (s : State) : Bool :=
  (!s.d0.idn.absent && s.d0.on F.UMP_STAT_ALARM) || (!s.d1.idn.absent && s.d1.on F.UMP_STAT_ALARM)

/-! ### 64-bit values (R8) -/

/-- The low words of the 64-bit values that are read under R8: those of the register tables, the two halves of an event record in
the Umpire's log (R298), and MT, OLD, NEW and the key digest of a Scorebook record (Table 17-10). -/
def readsPair (a : Nat) : Bool :=
  match blkOf a with
  | some .bRGN => a % 0x100 == 0x08
  | some .bSE => a % 0x10000 == 0x20
  | some .bROS => a == R.ROS_KEY_LO || (decide (0x13400000 ≤ a) && a % 0x40 == 0x30)
  | some .bQ => a % 0x80 == 0x28 || a % 0x80 == 0x38
  | some .bCRC => [0x08, 0x10, 0x18, 0x20, 0x28, 0x54].contains (a % 0x100)
  | some .bETH => a % 0x100 == 0x20
  | some .bMT => a == R.MT_NOW_LO || a == R.MT_EPOCH_LO || a == R.MT_CAP_LO
  | some .bCFG => a == R.CFG_PLAY_LO
  | some .bCAR => a == R.CAR_UID_LO
  | some .bUMP =>
    (decide (R.UMP_MTC_VALUE_LO 0 ≤ a) && decide (a < R.UMP_MTC_VALUE_LO 8) && a % 16 == 0)
      || (decide (R.UMP_LOG 0 0 ≤ a) && decide (a < R.UMP_LOG 16 0) && a % 8 == 0)
  | some .bMET =>
    (decide (0x17180000 ≤ a) && decide (a < 0x171C0000) && [8, 0x10, 0x18, 0x20].contains (a % 0x40))
      || a == R.MET_ID_LO || a == R.MET_SNAP_LO
      || (decide (R.MET_EI_LO 0 ≤ a) && decide (a < R.MET_EI_LO 8) && decide (a % 0x200 < 0x38) && a % 8 == 0)
  | _ => false

/-- The low words of the 64-bit RW values the register tables write under R8. -/
def writesPair (a : Nat) : Bool :=
  match blkOf a with
  | some .bROS => a == R.ROS_KEY_LO
  | some .bQ => a % 0x80 == 0x28
  | some .bCRC => [0x08, 0x10, 0x18, 0x20].contains (a % 0x100)
  | some .bMT => a == R.MT_EPOCH_LO
  | some .bUMP => decide (R.UMP_MTC_VALUE_LO 0 ≤ a) && decide (a < R.UMP_MTC_VALUE_LO 8) && a % 16 == 0
  | _ => false

/-! ### Reads -/

/-- A read that the checks allow: a low word fills the master's latch, and a high word takes it. -/
def DieSt.readOk (d : DieSt) (m : Master) (alarm : Bool) (a : Nat) : DieSt :=
  let w := d.live alarm a
  if readsPair a then (d.latchLow m a (d.live alarm (a + 4))).answer m w false
  else if readsPair (a - 4) then
    let r := d.takeHigh m (a - 4) w
    r.1.answer m r.2 false
  else d.answer m w false

/-- Does the offset in an engine's slot lie in a window of R138. -/
def inWindow (off : Nat) : Bool :=
  decide (0x4000 ≤ off) || (decide (0x300 ≤ off) && decide (off < 0x340))
    || (decide (0x100 ≤ off) && decide (off < 0x300) && decide (off % 0x100 < 0xA8))

/-- Is a (folded) address in an engine's windows. -/
def seWindowAt (a : Nat) : Bool := decide (0x40000000 ≤ a) && decide (a ≤ 0x457FFFFF) && inWindow (a % 0x10000)

/-- Is an address in the Roster's state window (R205). -/
def rosWindowAt (a : Nat) : Bool := decide (0x13001000 ≤ a) && decide (a < 0x13002000)

/-- A read of `size` bytes at die-relative address `a` by master `m`. -/
def DieSt.busRead (d : DieSt) (m : Master) (alarm : Bool) (a size : Nat) : DieSt :=
  let a := foldSe a
  if size ≠ 4 then d.answer m 0 true
  else if seWindowAt a then d.seWindow m ((a - 0x40000000) / 0x10000) (a % 0x10000) false 0
  else if rosWindowAt a then d.stateWindow m (a - 0x13001000) false 0
  else
    match d.readCheck m a size with
    | .err => d.answer m 0 true
    | .void => d.answer m 0 false
    | .ok =>
      if 0x16100000 ≤ a ∧ a < 0x16100400 ∧ a % 0x100 = 0x24 then d.txtsPop m ((a - 0x16100000) / 0x100) else d.readOk m alarm a

/-! ### Writes of each block.  Each answers the die and whether the write is refused with an error. -/

/-- A write by the access codes alone: RW fields take the value, W1C bits are cleared by a 1, every other bit keeps what
it holds (R6, R7). -/
def DieSt.plain (d : DieSt) (a : Nat) (v : Word) : DieSt :=
  match findRow a with
  | some r =>
    let rw := BitVec.ofNat 32 r.rw
    d.wr a ((d.rd a &&& ~~~rw &&& ~~~(v &&& BitVec.ofNat 32 r.w1c)) ||| (v &&& rw))
  | none => d

/-- As `plain`, and then a field that may not hold less than `lo` or more than `hi` reads back the nearer of the two. -/
def DieSt.clamped (d : DieSt) (a : Nat) (v : Word) (x : Fld) (lo hi : Nat) : DieSt × Bool :=
  let d := d.plain a v
  (d.put x (max lo (min hi (d.f x))), false)

/-- Do `g` when bit `i` of the value is 1. -/
def DieSt.onBit (d : DieSt) (v : Word) (i : Nat) (g : DieSt → DieSt) : DieSt := if bit v.toNat i then g d else d

/-- RGN (R114). -/
def DieSt.writeRgn (d : DieSt) (a : Nat) (v : Word) : DieSt × Bool :=
  let rg := (a - 0x11000000) / 0x100
  if a = R.RGN_CNT_CLR rg then
    let d := d.onBit v 2 (fun d => d.wr (R.RGN_RING_CNT rg) 0)
    let d := d.onBit v 1 (fun d => d.wr (R.RGN_BM_CNT rg) 0)
    (d.onBit v 0 (fun d => d.wr (R.RGN_FRAME_CNT rg) 0), false)
  else (d.plain a v, false)

/-- PACE (R133).  Of one write of PACE_CTL with HOLD and RESUME both 1, HOLD acts first and RESUME then (DESIGN CHOICE, log entry
155). -/
def DieSt.writePace (d : DieSt) (a : Nat) (v : Word) : DieSt × Bool :=
  if a = R.PACE_CTL then
    let d := d.paceHold (bit v.toNat 0)
    let d := d.onBit v 1 (fun d => d.paceResume)
    (d.onBit v 2 (fun d => d.paceCntClr), false)
  else if a = R.PACE_CFG then
    let d := d.plain a v
    let d := d.put F.PACE_CFG_SETTLE (max 10 (d.f F.PACE_CFG_SETTLE))
    (d.put F.PACE_CFG_INTERVAL (max 20 (d.f F.PACE_CFG_INTERVAL)), false)
  else if a = R.PACE_HR then d.paceHr (F.PACE_HR_HR_UP.of v) (F.PACE_HR_HR_DN.of v)
  else if a = R.PACE_PMB_CMD then
    if bit v.toNat 0 then (d.pmbGo (F.PACE_PMB_CMD_CMD.of v), false) else (d.plain a v, false)
  else (d.plain a v, false)

/-- SE (R174, R177). -/
def DieSt.writeSe (d : DieSt) (a : Nat) (v : Word) : DieSt × Bool :=
  let rg := (a - 0x40000000) / 0x10000
  if a = R.SE_CTL rg then
    match v.toNat % 16 with
    | 0 => d.seDo rg (fun d => d)
    | 1 => d.seDo rg (fun d => d.seHaltReq rg)
    | 2 => d.seDo rg (fun d => d.seRun rg)
    | 4 => d.seDo rg (fun d => d.seStep rg)
    | 8 => d.seDo rg (fun d => d.seRestart rg)
    | _ => (d, true)
  else if a = R.SE_BRK rg then d.seDo rg (fun d => d.plain a v)
  else if a = R.SE_CNT_CLR rg then
    let d := d.onBit v 2 (fun d => d.wr (R.SE_STALL rg) 0)
    let d := d.onBit v 1 (fun d => d.seInsnClr rg)
    (d.onBit v 0 (fun d => d.wr (R.SE_MEM_CNT rg) 0), false)
  else (d.plain a v, false)

/-- May ROS_GRP_CFG of group `g` be written: every context of the group is FREE or STOPPED (R205). -/
def DieSt.grpFree (d : DieSt) (g : Nat) : Bool := d.usedCtx.all (fun n => d.cGroup n != g || d.cst n == cStopped)

/-- ROS (R179, R205). -/
def DieSt.writeRos (d : DieSt) (a : Nat) (v : Word) : DieSt × Bool :=
  if a = R.ROS_CTL then ((d.plain a v).onBit v 0 (fun d => d.rosCntClr), false)
  else if a = R.ROS_CMD then
    let n := v.toNat % 65536
    d.rosDo n (fun d => match F.ROS_CMD_OP.of v with
      | 1 => doneAt (d.rosArm n)
      | 2 => d.rosStop n
      | 3 => doneAt (d.rosFree n)
      | 4 => doneAt (d.rosTrigger n)
      | 5 => doneAt (d.rosResume n)
      | 6 => doneAt (d.rosInstall n)
      | 7 => doneAt (d.rosRemove n)
      | 8 => doneAt (d.rosSelect n)
      | _ => (d, some 2))
  else if R.ROS_GRP_CFG 0 ≤ a ∧ a < R.ROS_GRP_CFG 64 ∧ a % 8 = 0 then
    if d.grpFree ((a - R.ROS_GRP_CFG 0) / 8) then (d.plain a v, false) else (d, true)
  else if R.ROS_CTX 0 0 ≤ a then
    let o := a - R.ROS_CTX 0 0
    d.descWrite (o / 0x40) (o % 0x40 / 4) v
  else (d.plain a v, false)

/-- Q (R208, R223). -/
def DieSt.writeQ (d : DieSt) (upset a : Nat) (v : Word) : DieSt × Bool :=
  let q := (a - 0x14000000) / 0x80
  match a % 0x80 with
  | 0x00 => d.qCfgWrite q 0 v
  | 0x04 => d.qCfgWrite q 1 v
  | 0x08 => d.qCfgWrite q 2 v
  | 0x20 =>
    match v.toNat % 8 with
    | 1 => (d.qFlush q, false)
    | 2 => (d.qMark q, false)
    | 3 => (d.qRewind q, false)
    | 4 => (d.qClearMark q, false)
    | 5 => (d.qCntClr q, false)
    | _ => (d, true)
  | 0x30 => d.qWrTag q (v.toNat % 64)
  | 0x34 => if d.qReader q ≠ some .team then (d, true) else if bit v.toNat 0 then d.qPopDo q upset else (d, false)
  | _ => (d.plain a v, false)

/-- CRC (R227, R228, R230). -/
def DieSt.writeCrc (d : DieSt) (a : Nat) (v : Word) : DieSt × Bool :=
  let u := (a - 0x14010000) / 0x100
  match a % 0x100 with
  | 0x38 => ((d.onBit v 0 (fun d => d.crcRestart u)).onBit v 1 (fun d => d.crcCntClr u), false)
  | 0x4C => ((d.onBit v 1 (fun d => d.scanAbort u)).onBit v 0 (fun d => d.scanGo u), false)
  | _ => (d.plain a v, false)

/-- XING (R245, R249). -/
def DieSt.writeXing (d : DieSt) (a : Nat) (v : Word) : DieSt × Bool :=
  if a = R.XING_CNT_CLR then (d.xCntClr v, false)
  else if R.XING_CFG 0 ≤ a ∧ a % 16 = 0 then d.xCfgWrite ((a - R.XING_CFG 0) / 16) v
  else (d.plain a v, false)

/-- DMC (R266, R271). -/
def DieSt.writeDmc (d : DieSt) (a : Nat) (v : Word) : DieSt × Bool :=
  let c := (a - 0x15000000) / 0x1000
  if a = R.DMC_CMD c then
    match (F.DMC_CMD_OP c).of v with
    | 1 => (d.dmcSpare c ((F.DMC_CMD_SUBCH c).of v) ((F.DMC_CMD_RANK c).of v) ((F.DMC_CMD_BANK c).of v) ((F.DMC_CMD_ROW c).of v), false)
    | 2 => (d.dmcFree c (v.toNat % 64), false)
    | 3 => (d.dmcRetrain c, false)
    | _ => (d, false)
  else if a = R.DMC_CNT_CLR c then
    ((d.onBit v 1 (fun d => d.put (F.DMC_REF_FORCED c) 0)).onBit v 0 (fun d => d.wr (R.DMC_ECC_CNT c) 0), false)
  else if a = R.DMC_SPARE_CFG c then
    ((((d.clamped a v (F.DMC_SPARE_CFG_THRESH c) 1 15).1).threshLowered c (d.f (F.DMC_SPARE_CFG_THRESH c))).autoSpare c, false)
  else (d.plain a v, false)

/-- SLK (R274, R288, R303): a port that is disabled is DOWN; the words of the board groups are read-only. -/
def DieSt.writeSlk (d : DieSt) (a : Nat) (v : Word) : DieSt × Bool :=
  let o := a - 0x16000000
  if a = R.SLK_CFG then d.clamped a v F.SLK_CFG_KLEAD 100 65535
  else if a = R.SLK_CHAN_RST then (d.onBit v 31 (fun d => d.chanRst (v.toNat % 256)), false)
  else if 0x100 ≤ o ∧ o < 0x180 ∧ o % 0x20 = 0 then
    let d := d.plain a v
    let p := (o - 0x100) / 0x20
    (if d.portLive p && !d.on (F.SLK_PORT_CTL_EN p) then d.portGo p slkDown else d, false)
  else if 0x400 ≤ o ∧ o < 0x410 then (d, false)
  else (d.plain a v, false)

/-- ETH (R304). -/
def DieSt.writeEth (d : DieSt) (a : Nat) (v : Word) : DieSt × Bool :=
  let len := v.toNat % 2 ^ 14
  if a % 0x100 = 0 && (decide (len < 1518) || decide (9216 < len)) then (d, true) else (d.plain a v, false)

/-- MT (R296, R297, R305); MT_EPOCH as a whole. -/
def DieSt.writeMt (d : DieSt) (a : Nat) (v : Word) : DieSt × Bool :=
  if a = R.MT_RATE then d.mtRate v
  else if a = R.MT_PPS_CFG then
    let r := d.clamped a v F.MT_PPS_CFG_PERIOD 1 60000
    (r.1.ppsFrom, r.2)
  else (d.plain a v, false)

/-- PIN and GPIO (R309, R315, R317, R323, R328). -/
def DieSt.writePin (d : DieSt) (m : Master) (a : Nat) (v : Word) : DieSt × Bool :=
  let o := a - 0x10020000
  if 0x1000 ≤ o then
    let n := (o - 0x1000) / 16
    match o % 16 with
    | 0 => d.pinWrite n v none none
    | 4 => d.elecWrite n v
    | 8 => d.fabWrite n v
    | _ => (d, false)
  else if 0x800 ≤ o then
    let l := (o - 0x800) / 16
    match o % 16 with
    | 0 => (d.gpioWrite m l (F.GPIO_OUT_DATA l) v, false)
    | 4 => (d.gpioWrite m l (F.GPIO_OE_DATA l) v, false)
    | _ => (d, false)
  else if 0x100 ≤ o ∧ 0x10 ≤ o % 0x40 then
    let b := (o - 0x100) / 0x40
    let k := (o % 0x40 - 0x10) / 12
    match (o % 0x40 - 0x10) % 12 with
    | 0 => d.pmCfgWrite b k v
    | 8 => ((d.plain a v).onBit v 31 (fun d => d.put (F.PIN_PM_STAT_COUNT b k) 0), false)
    | _ => (d.plain a v, false)
  else (d.plain a v, false)

/-- PWR, but for PWR_CMD, which both dies of a package obey (R334, R354). -/
def DieSt.writePwr (d : DieSt) (a : Nat) (v : Word) : DieSt × Bool :=
  if a = R.PWR_DOM_CMD then
    match F.PWR_DOM_CMD_OP.of v with
    | 1 => ((d.domainOn (v.toNat % 128)).1, false)
    | 2 => ((d.domainOff (v.toNat % 128)).1, false)
    | _ => (d, true)
  else if a = R.PWR_BLK_RST then ((d.plain a v).xMark, false)
  else if a = R.PWR_RECOV then d.clamped a v F.PWR_RECOV_LIMIT 1 255
  else (d.plain a v, false)

/-- CFG (R374 to R377, R383). -/
def DieSt.writeCfg (d : DieSt) (a : Nat) (v : Word) : DieSt × Bool :=
  if a = R.CFG_CMD then
    match F.CFG_CMD_OP.of v with
    | 1 => (d.ploadStart none, false)
    | 2 => (d.commitStart (bit v.toNat 27) none, false)
    | 3 => (d.ploadAbort none, false)
    | 4 => (d.readback none, false)
    | 5 => (d.capture' none, false)
    | _ => (d.cfgRefuse none 4, false)
  else if a = R.CFG_KICK then d.clamped a v F.CFG_KICK_LEAD 2 255
  else (d.plain a v, false)

/-- SWP, SUB and FTT (R411 to R413). -/
def DieSt.writeRel (d : DieSt) (a : Nat) (v : Word) : DieSt × Bool :=
  if a = R.SWP_CFG then d.clamped a v F.SWP_CFG_PERIOD 10 1000
  else if a = R.SWP_CNT_CLR then (d.onBit v 0 (fun d => d.swpCntClr), false)
  else if a = R.SUB_CFG then d.clamped a v F.SUB_CFG_PAIR_WAIT 10 2000
  else if a = R.SUB_DRILL_CFG then d.clamped a v F.SUB_DRILL_CFG_PACE 1 65535
  else if a = R.FTT_CFG then d.clamped a v F.FTT_CFG_LIMIT 1 255
  else (d.plain a v, false)

/-- MBX (R422). -/
def DieSt.writeMbx (d : DieSt) (a : Nat) (v : Word) : DieSt × Bool :=
  let o := a - 0x18100000
  let k := (o - 0x100) / 0x40
  if o < 0x100 then (d.plain a v, false)
  else if o % 0x40 = 0 then d.mbxCallWrite k v
  else if o % 0x40 < 0x1C then d.mbxArgWrite k (o % 0x40 / 4 - 1) v
  else (d.plain a v, false)

/-- UMP (R458, R461, R463, R468). -/
def DieSt.writeUmp (d : DieSt) (a : Nat) (v : Word) : DieSt × Bool :=
  if a = R.UMP_ALARM_LO ∨ a = R.UMP_ALARM_HI then ((d.plain a v).alarmShow, false)
  else if a = R.UMP_LOG_POP then (d.onBit v 0 (fun d => d.umpPop), false)
  else if R.UMP_RULE_W0 0 ≤ a then
    let r := (a - R.UMP_RULE_W0 0) / 16
    ((d.plain a v).ruleFresh r, false)
  else if R.UMP_MTC_PERIOD 0 ≤ a ∧ a < R.UMP_MTC_PERIOD 8 ∧ a % 16 = 8 then
    (d.wr a (if 1 ≤ v.toNat ∧ v.toNat < 128000 then 128000 else v), false)
  else (d.plain a v, false)

/-- A 32-bit write of the register at (folded) address `a`, once the access checks pass. -/
def DieSt.writeOk (d : DieSt) (m : Master) (a : Nat) (v : Word) (e : BusEnv) : DieSt × Bool :=
  match blkOf a with
  | some .bRGN => d.writeRgn a v
  | some .bPACE => d.writePace a v
  | some .bSE => d.writeSe a v
  | some .bROS => d.writeRos a v
  | some .bQ => d.writeQ e.upset a v
  | some .bCRC => d.writeCrc a v
  | some .bXING => d.writeXing a v
  | some .bDMC => d.writeDmc a v
  | some .bSLK => d.writeSlk a v
  | some .bETH => d.writeEth a v
  | some .bMT => d.writeMt a v
  | some .bPIN => d.writePin m a v
  | some .bPWR => d.writePwr a v
  | some .bCFG => d.writeCfg a v
  | some .bSWP => d.writeRel a v
  | some .bSUB => d.writeRel a v
  | some .bFTT => d.writeRel a v
  | some .bCAR => if a = R.CAR_CMD then (d.onBit v 0 (fun d => d.careerWrite e.ok), false) else (d.plain a v, false)
  | some .bREF => if a = R.REF_HB then (d.onBit v 0 (fun d => d.refBeat), false) else (d.plain a v, false)
  | some .bMBX => d.writeMbx a v
  | some .bUMP => d.writeUmp a v
  | _ => (d.plain a v, false)

/-- Is MT_EPOCH written on a follower (R305). -/
def DieSt.epochHeld (d : DieSt) (a : Nat) : Bool := (a == R.MT_EPOCH_LO || a == R.MT_EPOCH_HI) && (!d.on F.MT_CFG_ROOT || d.idn.die == 1)

/-- A write of half of a 64-bit RW value that is refused (R223, R305): MT_EPOCH on a follower, Q_WR of a queue whose write side
is not bound to Team. -/
def DieSt.pairHeld (d : DieSt) (a : Nat) : Bool :=
  d.epochHeld a || (blkOf a == some .bQ && decide (d.qWriter ((a - 0x14000000) / 0x80) ≠ some .team))

/-- A write of a low word of a 64-bit RW value: it is kept in the writer's latch with its address, and nothing else
changes (R8). -/
def DieSt.writeLow (d : DieSt) (m : Master) (a : Nat) (v : Word) : DieSt × Bool :=
  if d.pairHeld a then (d, true) else ({ d with wrLatch := d.wrLatch.set (fun _ => none) (masterKey m) (some (a, v)) }, false)

/-- A write of the high word at `a`: with the latched low word of the same value, or alone (R8). -/
def DieSt.writeHigh (d : DieSt) (m : Master) (a : Nat) (v : Word) : DieSt × Bool :=
  if d.pairHeld a then (d, true)
  else
    let r := d.takeLow m (a - 4) (d.rd (a - 4))
    let d := (r.1.wr (a - 4) r.2).wr a v
    (if a = R.MT_EPOCH_HI then d.ppsFrom else d, false)

/-- A write of `size` bytes at die-relative address `a` by master `m`, but for PWR_CMD and REF_CTL. -/
def DieSt.busWrite (d : DieSt) (m : Master) (a size : Nat) (v : Word) (e : BusEnv) : DieSt :=
  let a := foldSe a
  if size ≠ 4 then d.answer m 0 true
  else if seWindowAt a then d.seWindow m ((a - 0x40000000) / 0x10000) (a % 0x10000) true v
  else if rosWindowAt a then d.stateWindow m (a - 0x13001000) true v
  else d.busDo m a (fun d =>
    if writesPair a then d.writeLow m a v
    else if writesPair (a - 4) then d.writeHigh m a v
    else d.writeOk m a v e)

/-- The command a value of PWR_CMD gives (R354). -/
def pwrTrig (v : Word) : Option Trig :=
  match F.PWR_CMD_OP.of v with
  | 1 => some (.fullTime 7 (F.PWR_CMD_FT_NEXT.of v == 1))
  | 2 => some .halfTime
  | 3 => some (.recovery 13)
  | 4 => some .resume
  | 5 => some .restart
  | _ => none

/-- An access by the fabric's bus port of a row crosses to the management bus, and its answer back (Table 09-3); one that cannot cross
waits at the crossing and does nothing.  How the words of either are packed is the model's (DESIGN CHOICE, log entry 160). -/
def State.onPort (s : State) (x : Die) (m : Master) (req : Nat) (g : State → State) : State :=
  match m with
  | .fabric r =>
    let t := onDie x s (fun d => d.xPass ⟨5, r, 0, true⟩ req)
    if !(s.die x).xOpen ⟨5, r, 0, true⟩ then t
    else onDie x (g t) (fun d =>
      let p := d.resp.get (fun _ => Resp.reset) (masterKey m)
      d.xPass ⟨5, r, 0, false⟩ (b2n p.err * 2 ^ 32 + p.data.toNat))
  | _ => g s

/-- What a write at die-relative address `a` of die `x` does there. -/
def State.busWriteAt (s : State) (x : Die) (m : Master) (a size : Nat) (v : Word) (e : BusEnv) : State :=
  if size = 4 ∧ a = R.PWR_CMD then
    match pwrTrig v with
    | some t => s.pwrCmd x m t
    | none => onDie x s (fun d => d.busDo m a (fun d => (d, true)))
  else if size = 4 ∧ a = R.REF_CTL ∧ bit v.toNat 0 = true then s.refCtl x m
  else onDie x s (fun d => d.busWrite m a size v e)

/-- What a read at die-relative address `a` of die `x` does there. -/
def State.busReadAt (s : State) (x : Die) (m : Master) (a size : Nat) : State :=
  onDie x s (fun d => d.busRead m s.alarm a size)

/-- A request on the bus port, packed. -/
def busReq (a : Nat) (wr : Bool) (v : Word) : Nat := if wr then 2 ^ 64 + a * 2 ^ 32 + v.toNat else a * 2 ^ 32

/-- A write at die-relative address `a` of die `x` by a master of that die. -/
def State.busWrite (s : State) (x : Die) (m : Master) (a size : Nat) (v : Word) (e : BusEnv) : State :=
  s.onPort x m (busReq a true v) (fun s => s.busWriteAt x m a size v e)

/-- A read at die-relative address `a` of die `x` by a master of that die. -/
def State.busRead (s : State) (x : Die) (m : Master) (a size : Nat) : State :=
  s.onPort x m (busReq a false 0) (fun s => s.busReadAt x m a size)

/-! ### The other die (R29, R482) -/

/-- A latch that names an address of this die names one of the other die, and back: bit 32 tells them apart. -/
def farLatch (l : Option (Nat × Word)) : Option (Nat × Word) := l.map (fun p => (Nat.xor p.1 (2 ^ 32), p.2))

/-- What master `m` of die `d` keeps at its die, taken from die `e` as seen from the other side. -/
def DieSt.masterFrom (d e : DieSt) (m : Master) : DieSt :=
  let k := masterKey m
  { d with
    resp := d.resp.set (fun _ => Resp.reset) k (e.resp.get (fun _ => Resp.reset) k)
    rdLatch := d.rdLatch.set (fun _ => none) k (farLatch (e.rdLatch.get (fun _ => none) k))
    wrLatch := d.wrLatch.set (fun _ => none) k (farLatch (e.wrLatch.get (fun _ => none) k)) }

/-- Exchange what the two masters `m` keep: the master of one die stands at the other for one access. -/
def State.crossMaster (s : State) (m : Master) : State :=
  { s with
    d0 := s.d0.masterFrom s.d1 m
    d1 := s.d1.masterFrom s.d0 m }

/-- The other die. -/
def otherDie : Die → Die
  | .die0 => .die1
  | .die1 => .die0

/-- An access by master `m` of die `x` to the register at address `a` of the other die; on a single-die package it ends
with an error, and a read returns 0 (R482). -/
def State.crossAccess (s : State) (x : Die) (m : Master) (a size : Nat) (wr : Bool) (v : Word) (e : BusEnv) : State :=
  let y := otherDie x
  if (s.die y).idn.absent || !(s.die x).busUp m then onDie x s (fun d => d.answer m 0 true)
  else
    s.onPort x m (busReq (a + 2 ^ 29) wr v) (fun s =>
      let s := s.crossMaster m
      (if wr then s.busWriteAt y m a size v e else s.busReadAt y m a size).crossMaster m)

/-! ### The commands -/

/-- REGISTER_WRITE (R7): every access rule, and the effect of the register written. -/
def execRegisterWrite (x : Die) (m : Master) (a size : Nat) (v : Word) (e : BusEnv) (s : State) : Out :=
  .next (s.busWrite x m a size v e)

/-- WORD64_LOW_READ (R8): at the low word of a 64-bit value its high word is latched; a read at any other address follows
the rules of that address. -/
def execWord64LowRead (x : Die) (m : Master) (a size : Nat) (s : State) : Out := .next (s.busRead x m a size)

/-- WORD64_LOW_WRITE (R8). -/
def execWord64LowWrite (x : Die) (m : Master) (a : Nat) (v : Word) (s : State) : Out :=
  .next (if writesPair a then s.onPort x m (busReq a true v) (fun s => onDie x s (fun d => d.busDo m a (fun d => d.writeLow m a v)))
    else s)

/-- WORD64_HIGH_WRITE (R8): `a` is the address of the high word. -/
def execWord64HighWrite (x : Die) (m : Master) (a : Nat) (v : Word) (s : State) : Out :=
  .next (if writesPair (a - 4) then s.onPort x m (busReq a true v) (fun s => onDie x s (fun d => d.busDo m a (fun d => d.writeHigh m a v)))
    else s)

/-- CROSS_DIE_ACCESS (R29). -/
def execCrossDieAccess (x : Die) (m : Master) (a size : Nat) (wr : Bool) (v : Word) (e : BusEnv) (s : State) : Out :=
  .next (s.crossAccess x m a size wr v e)

/-- CROSS_DIE_TIMEOUT (R29): error, and a read returns 0. -/
def execCrossDieTimeout (x : Die) (m : Master) (s : State) : Out := act x s (fun d => d.answer m 0 true)

end Sys2Proof.Machine
end

