-- ==== Sys2Proof/Machine/Dispatch.lean ====
section
/-! DEFINITION. One arm for each command: a direct call of its meaning. -/

namespace Sys2Proof.Machine

/-- The effect of a command on everything but the queue of waiting commands. -/
def exec (i : Instr) (s : State) : Host.Outcome State Fault Refusal :=
  match i with
  | .registerWrite x m a size v e => Sys2Proof.Machine.execRegisterWrite x m a size v e s
  | .word64LowRead x m a size => Sys2Proof.Machine.execWord64LowRead x m a size s
  | .word64LowWrite x m a v => Sys2Proof.Machine.execWord64LowWrite x m a v s
  | .word64HighWrite x m a v => Sys2Proof.Machine.execWord64HighWrite x m a v s
  | .crossDieAccess x m a size wr v e => Sys2Proof.Machine.execCrossDieAccess x m a size wr v e s
  | .crossDieTimeout x m => Sys2Proof.Machine.execCrossDieTimeout x m s
  | .stageCapture x rg u env => Sys2Proof.Machine.execStageCapture x rg u env s
  | .matchedDelayEnd x rg u env => Sys2Proof.Machine.execMatchedDelayEnd x rg u env s
  | .stageHandover x rg u env => Sys2Proof.Machine.execStageHandover x rg u env s
  | .inputWithdraw x rg u env => Sys2Proof.Machine.execInputWithdraw x rg u env s
  | .dualRailCapture x rg k env => Sys2Proof.Machine.execDualRailCapture x rg k env s
  | .dualRailNull x rg k env => Sys2Proof.Machine.execDualRailNull x rg k env s
  | .drIllegal x rg k ut uf env => Sys2Proof.Machine.execDrIllegal x rg k ut uf env s
  | .mergeElementChange x rg k env => Sys2Proof.Machine.execMergeElementChange x rg k env s
  | .arbiterGrant x rg k env => Sys2Proof.Machine.execArbiterGrant x rg k env s
  | .delayChangeApply x rg u env meets => Sys2Proof.Machine.execDelayChangeApply x rg u env meets s
  | .bmRead x rg m p a upset => Sys2Proof.Machine.execBmRead x rg m p a upset s
  | .bmW64Write x rg m p a v => Sys2Proof.Machine.execBmW64Write x rg m p a v s
  | .bmNarrowWrite x rg m p a v upset => Sys2Proof.Machine.execBmNarrowWrite x rg m p a v upset s
  | .bmScrubStep x rg m upset => Sys2Proof.Machine.execBmScrubStep x rg m upset s
  | .rowFrameVote x row upset => Sys2Proof.Machine.execRowFrameVote x row upset s
  | .channelFreeze x rg ch env meets => Sys2Proof.Machine.execChannelFreeze x rg ch env meets s
  | .forceFreeze x rg ch inFlight => Sys2Proof.Machine.execForceFreeze x rg ch inFlight s
  | .frozenTransitionHeld x rg ch cell level => Sys2Proof.Machine.execFrozenTransitionHeld x rg ch cell level s
  | .rgnCntClrRing x m rg => Sys2Proof.Machine.execRgnCntClrRing x m rg s
  | .rgnCntClrBm x m rg => Sys2Proof.Machine.execRgnCntClrBm x m rg s
  | .rgnCntClrFrame x m rg => Sys2Proof.Machine.execRgnCntClrFrame x m rg s
  | .canaryMeasure x rg cl q => Sys2Proof.Machine.execCanaryMeasure x rg cl q s
  | .calibratorStep x rg u => Sys2Proof.Machine.execCalibratorStep x rg u s
  | .monitorWindowEnd x k => Sys2Proof.Machine.execMonitorWindowEnd x k s
  | .governorDecision x => Sys2Proof.Machine.execGovernorDecision x s
  | .settleEnd x => Sys2Proof.Machine.execSettleEnd x s
  | .convTimeout x => Sys2Proof.Machine.execConvTimeout x s
  | .pmbusTransactionEnd x res data => Sys2Proof.Machine.execPmbusTransactionEnd x res data s
  | .pmbAlert x => Sys2Proof.Machine.execPmbAlert x s
  | .faultStatusPoll x => Sys2Proof.Machine.execFaultStatusPoll x s
  | .paceCntClr x m => Sys2Proof.Machine.execPaceCntClr x m s
  | .paceResume x m => Sys2Proof.Machine.execPaceResume x m s
  | .paceHold x m v => Sys2Proof.Machine.execPaceHold x m v s
  | .paceHrWrite x m up dn => Sys2Proof.Machine.execPaceHrWrite x m up dn s
  | .pmbTelemetryRead x m code => Sys2Proof.Machine.execPmbTelemetryRead x m code s
  | .seNop x rg u => Sys2Proof.Machine.execSeNop x rg u s
  | .halt x rg u => Sys2Proof.Machine.execHalt x rg u s
  | .yieldDone x rg u => Sys2Proof.Machine.execYieldDone x rg u s
  | .yieldAgain x rg u => Sys2Proof.Machine.execYieldAgain x rg u s
  | .yieldError x rg u => Sys2Proof.Machine.execYieldError x rg u s
  | .swap x rg u => Sys2Proof.Machine.execSwap x rg u s
  | .ret x rg u => Sys2Proof.Machine.execRet x rg u s
  | .jmpd x rg u => Sys2Proof.Machine.execJmpd x rg u s
  | .endl x rg u => Sys2Proof.Machine.execEndl x rg u s
  | .ld x rg u => Sys2Proof.Machine.execLd x rg u s
  | .st x rg u => Sys2Proof.Machine.execSt x rg u s
  | .lda x rg u => Sys2Proof.Machine.execLda x rg u s
  | .sta x rg u => Sys2Proof.Machine.execSta x rg u s
  | .moveReg x rg u => Sys2Proof.Machine.execMoveReg x rg u s
  | .ldi x rg u => Sys2Proof.Machine.execLdi x rg u s
  | .ldih x rg u => Sys2Proof.Machine.execLdih x rg u s
  | .br x rg u => Sys2Proof.Machine.execBr x rg u s
  | .call x rg u => Sys2Proof.Machine.execCall x rg u s
  | .loop x rg u => Sys2Proof.Machine.execLoop x rg u s
  | .loopWrap x rg => Sys2Proof.Machine.execLoopWrap x rg s
  | .tokIn x rg u cyc => Sys2Proof.Machine.execTokIn x rg u cyc s
  | .tokOut x rg u cyc => Sys2Proof.Machine.execTokOut x rg u cyc s
  | .addp x rg u => Sys2Proof.Machine.execAddp x rg u s
  | .aluAdd x rg u => Sys2Proof.Machine.execAluAdd x rg u s
  | .aluSub x rg u => Sys2Proof.Machine.execAluSub x rg u s
  | .aluAnd x rg u => Sys2Proof.Machine.execAluAnd x rg u s
  | .aluOr x rg u => Sys2Proof.Machine.execAluOr x rg u s
  | .aluXor x rg u => Sys2Proof.Machine.execAluXor x rg u s
  | .aluAsl x rg u => Sys2Proof.Machine.execAluAsl x rg u s
  | .aluAsr x rg u => Sys2Proof.Machine.execAluAsr x rg u s
  | .aluLsr x rg u => Sys2Proof.Machine.execAluLsr x rg u s
  | .aluCmp x rg u => Sys2Proof.Machine.execAluCmp x rg u s
  | .aluMin x rg u => Sys2Proof.Machine.execAluMin x rg u s
  | .aluMax x rg u => Sys2Proof.Machine.execAluMax x rg u s
  | .aluAdds x rg u => Sys2Proof.Machine.execAluAdds x rg u s
  | .aluSubs x rg u => Sys2Proof.Machine.execAluSubs x rg u s
  | .sha x rg u => Sys2Proof.Machine.execSha x rg u s
  | .shar x rg u => Sys2Proof.Machine.execShar x rg u s
  | .expo x rg u => Sys2Proof.Machine.execExpo x rg u s
  | .sat x rg u => Sys2Proof.Machine.execSat x rg u s
  | .extl x rg u => Sys2Proof.Machine.execExtl x rg u s
  | .exth x rg u => Sys2Proof.Machine.execExth x rg u s
  | .extg x rg u => Sys2Proof.Machine.execExtg x rg u s
  | .insl x rg u => Sys2Proof.Machine.execInsl x rg u s
  | .insh x rg u => Sys2Proof.Machine.execInsh x rg u s
  | .insg x rg u => Sys2Proof.Machine.execInsg x rg u s
  | .parNop x rg u => Sys2Proof.Machine.execParNop x rg u s
  | .mpy x rg u => Sys2Proof.Machine.execMpy x rg u s
  | .mac x rg u => Sys2Proof.Machine.execMac x rg u s
  | .msu x rg u => Sys2Proof.Machine.execMsu x rg u s
  | .mpyn x rg u => Sys2Proof.Machine.execMpyn x rg u s
  | .clr x rg u => Sys2Proof.Machine.execClr x rg u s
  | .parAdd x rg u => Sys2Proof.Machine.execParAdd x rg u s
  | .parSub x rg u => Sys2Proof.Machine.execParSub x rg u s
  | .parLda x rg u => Sys2Proof.Machine.execParLda x rg u s
  | .tfr x rg u => Sys2Proof.Machine.execTfr x rg u s
  | .adda x rg u => Sys2Proof.Machine.execAdda x rg u s
  | .suba x rg u => Sys2Proof.Machine.execSuba x rg u s
  | .abs x rg u => Sys2Proof.Machine.execAbs x rg u s
  | .neg x rg u => Sys2Proof.Machine.execNeg x rg u s
  | .macsu x rg u => Sys2Proof.Machine.execMacsu x rg u s
  | .seInputToken x rg p v => Sys2Proof.Machine.execSeInputToken x rg p v s
  | .seOutputTaken x rg p => Sys2Proof.Machine.execSeOutputTaken x rg p s
  | .portEvent x rg => Sys2Proof.Machine.execPortEvent x rg s
  | .seBreakpoint x rg => Sys2Proof.Machine.execSeBreakpoint x rg s
  | .seScrubStep x rg mem upset => Sys2Proof.Machine.execSeScrubStep x rg mem upset s
  | .seWindowAccess x m rg off wr v => Sys2Proof.Machine.execSeWindowAccess x m rg off wr v s
  | .seRestart x m rg => Sys2Proof.Machine.execSeRestart x m rg s
  | .seStep x m rg => Sys2Proof.Machine.execSeStep x m rg s
  | .seRun x m rg => Sys2Proof.Machine.execSeRun x m rg s
  | .seHaltReq x m rg => Sys2Proof.Machine.execSeHaltReq x m rg s
  | .seCntClrStall x m rg => Sys2Proof.Machine.execSeCntClrStall x m rg s
  | .seCntClrInsn x m rg => Sys2Proof.Machine.execSeCntClrInsn x m rg s
  | .seCntClrMem x m rg => Sys2Proof.Machine.execSeCntClrMem x m rg s
  | .rosDescriptorWrite x m n w v => Sys2Proof.Machine.execRosDescriptorWrite x m n w v s
  | .rosArm x m n => Sys2Proof.Machine.execRosArm x m n s
  | .rosStop x m n => Sys2Proof.Machine.execRosStop x m n s
  | .rosFree x m n => Sys2Proof.Machine.execRosFree x m n s
  | .rosTrigger x m n => Sys2Proof.Machine.execRosTrigger x m n s
  | .rosResume x m n => Sys2Proof.Machine.execRosResume x m n s
  | .rosInstall x m n => Sys2Proof.Machine.execRosInstall x m n s
  | .rosRemove x m n => Sys2Proof.Machine.execRosRemove x m n s
  | .rosSelect x m n => Sys2Proof.Machine.execRosSelect x m n s
  | .rosCntClr x m => Sys2Proof.Machine.execRosCntClr x m s
  | .rosStateWindowAccess x m off wr v => Sys2Proof.Machine.execRosStateWindowAccess x m off wr v s
  | .queueTrigger x n => Sys2Proof.Machine.execQueueTrigger x n s
  | .periodTrigger x n => Sys2Proof.Machine.execPeriodTrigger x n s
  | .watchTrigger x n => Sys2Proof.Machine.execWatchTrigger x n s
  | .eventTrigger x p => Sys2Proof.Machine.execEventTrigger x p s
  | .rosterDispatch x g => Sys2Proof.Machine.execRosterDispatch x g s
  | .contextMoveEnd x n upset => Sys2Proof.Machine.execContextMoveEnd x n upset s
  | .quantumPreempt x rg => Sys2Proof.Machine.execQuantumPreempt x rg s
  | .expressPreempt x n => Sys2Proof.Machine.execExpressPreempt x n s
  | .runOverrun x n => Sys2Proof.Machine.execRunOverrun x n s
  | .port3WaitEnd x n => Sys2Proof.Machine.execPort3WaitEnd x n s
  | .dueMissed x n => Sys2Proof.Machine.execDueMissed x n s
  | .descriptorScan x n upset => Sys2Proof.Machine.execDescriptorScan x n upset s
  | .intakeFrame x p ts bytes => Sys2Proof.Machine.execIntakeFrame x p ts bytes s
  | .queueWordWrite x q who data tag => Sys2Proof.Machine.execQueueWordWrite x q who data tag s
  | .queueWordRead x q who upset => Sys2Proof.Machine.execQueueWordRead x q who upset s
  | .qFlush x q src => Sys2Proof.Machine.execQFlush x q src s
  | .qMark x q src => Sys2Proof.Machine.execQMark x q src s
  | .qRewind x q src => Sys2Proof.Machine.execQRewind x q src s
  | .qClearMark x q src => Sys2Proof.Machine.execQClearMark x q src s
  | .qCntClear x m q => Sys2Proof.Machine.execQCntClear x m q s
  | .qWrTag x m q tag => Sys2Proof.Machine.execQWrTag x m q tag s
  | .qPop x m q upset => Sys2Proof.Machine.execQPop x m q upset s
  | .qCfgWrite x m q k v => Sys2Proof.Machine.execQCfgWrite x m q k v s
  | .spillWriteEnd x q n => Sys2Proof.Machine.execSpillWriteEnd x q n s
  | .spillFetchEnd x q n us => Sys2Proof.Machine.execSpillFetchEnd x q n us s
  | .qUnbindDrainEnd x q timeout => Sys2Proof.Machine.execQUnbindDrainEnd x q timeout s
  | .crcRestart x m u => Sys2Proof.Machine.execCrcRestart x m u s
  | .crcCntClr x m u => Sys2Proof.Machine.execCrcCntClr x m u s
  | .crcScanGo x m u => Sys2Proof.Machine.execCrcScanGo x m u s
  | .crcScanAbort x m u => Sys2Proof.Machine.execCrcScanAbort x m u s
  | .crcScanEnd x u bad => Sys2Proof.Machine.execCrcScanEnd x u bad s
  | .crossingOffer x r v => Sys2Proof.Machine.execCrossingOffer x r v s
  | .crossingTake x r => Sys2Proof.Machine.execCrossingTake x r s
  | .crossingReturn x r => Sys2Proof.Machine.execCrossingReturn x r s
  | .pulseArrive x r meets => Sys2Proof.Machine.execPulseArrive x r meets s
  | .pulseDeliver x r => Sys2Proof.Machine.execPulseDeliver x r s
  | .peerResetSeen x r source => Sys2Proof.Machine.execPeerResetSeen x r source s
  | .crossingTimeout x r meets => Sys2Proof.Machine.execCrossingTimeout x r meets s
  | .xingCntClr x m v => Sys2Proof.Machine.execXingCntClr x m v s
  | .xingCfgWrite x m k v => Sys2Proof.Machine.execXingCfgWrite x m k v s
  | .dramRequestAccept x c p req => Sys2Proof.Machine.execDramRequestAccept x c p req s
  | .dramCommandIssue x c ready => Sys2Proof.Machine.execDramCommandIssue x c ready s
  | .dramReadDone x c id upset wrong => Sys2Proof.Machine.execDramReadDone x c id upset wrong s
  | .refreshDue x c rank => Sys2Proof.Machine.execRefreshDue x c rank s
  | .mr4Read x c rank ind c0waits => Sys2Proof.Machine.execMr4Read x c rank ind c0waits s
  | .patrolScrubStep x c upset c0waits => Sys2Proof.Machine.execPatrolScrubStep x c upset c0waits s
  | .calibrationSlot x c rank kind ok c0waits => Sys2Proof.Machine.execCalibrationSlot x c rank kind ok c0waits s
  | .spareCopyStep x c k upset c0waits => Sys2Proof.Machine.execSpareCopyStep x c k upset c0waits s
  | .dmcSpare x m c subch rank bank row => Sys2Proof.Machine.execDmcSpare x m c subch rank bank row s
  | .dmcFree x m c k => Sys2Proof.Machine.execDmcFree x m c k s
  | .dmcRetrain x m c => Sys2Proof.Machine.execDmcRetrain x m c s
  | .dmcCntClrRef x m c => Sys2Proof.Machine.execDmcCntClrRef x m c s
  | .dmcCntClrEcc x m c => Sys2Proof.Machine.execDmcCntClrEcc x m c s
  | .channelTrainingEnd x c res => Sys2Proof.Machine.execChannelTrainingEnd x c res s
  | .dramChFail x c cause => Sys2Proof.Machine.execDramChFail x c cause s
  | .laneFail x lane => Sys2Proof.Machine.execLaneFail x lane s
  | .signalDetect x p => Sys2Proof.Machine.execSignalDetect x p s
  | .portTrainingEnd x p peer => Sys2Proof.Machine.execPortTrainingEnd x p peer s
  | .linkControlFail x p => Sys2Proof.Machine.execLinkControlFail x p s
  | .slkMessageReceive x p msg num crc => Sys2Proof.Machine.execSlkMessageReceive x p msg num crc s
  | .slkReplay x p acked => Sys2Proof.Machine.execSlkReplay x p acked s
  | .slkMessageTransmit x p acked owed => Sys2Proof.Machine.execSlkMessageTransmit x p acked owed s
  | .kickoffReadySend x => Sys2Proof.Machine.execKickoffReadySend x s
  | .kickoffMessage x p msg => Sys2Proof.Machine.execKickoffMessage x p msg s
  | .slkQueueItemSend x q us => Sys2Proof.Machine.execSlkQueueItemSend x q us s
  | .tokenChannelSend x c data tag => Sys2Proof.Machine.execTokenChannelSend x c data tag s
  | .slkChanStall x c => Sys2Proof.Machine.execSlkChanStall x c s
  | .slkChanRst x m c => Sys2Proof.Machine.execSlkChanRst x m c s
  | .ethFrameReceive x e frame fcsOk => Sys2Proof.Machine.execEthFrameReceive x e frame fcsOk s
  | .ethFrameTransmit x q us => Sys2Proof.Machine.execEthFrameTransmit x q us s
  | .ethTxtsPop x m e => Sys2Proof.Machine.execEthTxtsPop x m e s
  | .ethLinkChange x e up => Sys2Proof.Machine.execEthLinkChange x e up s
  | .mtTimingExchange x p ok delay offset epoch peer => Sys2Proof.Machine.execMtTimingExchange x p ok delay offset epoch peer s
  | .mtHoldover x => Sys2Proof.Machine.execMtHoldover x s
  | .mtAltSwitch x peerLocked => Sys2Proof.Machine.execMtAltSwitch x peerLocked s
  | .mtRateWrite x m v => Sys2Proof.Machine.execMtRateWrite x m v s
  | .mtPulseOut x => Sys2Proof.Machine.execMtPulseOut x s
  | .mtPulseCapture x n => Sys2Proof.Machine.execMtPulseCapture x n s
  | .eventRecordCollect x src => Sys2Proof.Machine.execEventRecordCollect x src s
  | .eventRecordAppend x => Sys2Proof.Machine.execEventRecordAppend x s
  | .pinCfgWrite x m n v => Sys2Proof.Machine.execPinCfgWrite x m n v s
  | .pinGuardEnd x n => Sys2Proof.Machine.execPinGuardEnd x n s
  | .pinElecWrite x m n v => Sys2Proof.Machine.execPinElecWrite x m n v s
  | .pinFabWrite x m n v => Sys2Proof.Machine.execPinFabWrite x m n v s
  | .gpioOutWrite x m l v => Sys2Proof.Machine.execGpioOutWrite x m l v s
  | .gpioOeWrite x m l v => Sys2Proof.Machine.execGpioOeWrite x m l v s
  | .pmSample x b lv => Sys2Proof.Machine.execPmSample x b lv s
  | .debounceTick x b lv => Sys2Proof.Machine.execDebounceTick x b lv s
  | .bankPllLock x b => Sys2Proof.Machine.execBankPllLock x b s
  | .bankPllUnlock x b => Sys2Proof.Machine.execBankPllUnlock x b s
  | .pwrgoodRise mode devid pulls => Sys2Proof.Machine.execPwrgoodRise mode devid pulls s
  | .pwrgoodFall  => Sys2Proof.Machine.execPwrgoodFall  s
  | .supplyLoss x k => Sys2Proof.Machine.execSupplyLoss x k s
  | .nvmBoot bootA bootB teamA teamB => Sys2Proof.Machine.execNvmBoot bootA bootB teamA teamB s
  | .warmUpDone fw alt digestOk storeOk => Sys2Proof.Machine.execWarmUpDone fw alt digestOk storeOk s
  | .loadDone  => Sys2Proof.Machine.execLoadDone  s
  | .playInstant  => Sys2Proof.Machine.execPlayInstant  s
  | .fulltimeNLow  => Sys2Proof.Machine.execFulltimeNLow  s
  | .pwrFullTime x m half => Sys2Proof.Machine.execPwrFullTime x m half s
  | .pwrHalfTime x m => Sys2Proof.Machine.execPwrHalfTime x m s
  | .pwrRecovery x m => Sys2Proof.Machine.execPwrRecovery x m s
  | .pwrResume x m => Sys2Proof.Machine.execPwrResume x m s
  | .pwrRestart x m => Sys2Proof.Machine.execPwrRestart x m s
  | .resumeInstant  => Sys2Proof.Machine.execResumeInstant  s
  | .recoveryLimit  => Sys2Proof.Machine.execRecoveryLimit  s
  | .die1Silent  => Sys2Proof.Machine.execDie1Silent  s
  | .transitionEnd saveOk carOk => Sys2Proof.Machine.execTransitionEnd saveOk carOk s
  | .domainOn x m k => Sys2Proof.Machine.execDomainOn x m k s
  | .domainOff x m k => Sys2Proof.Machine.execDomainOff x m k s
  | .domainReady x => Sys2Proof.Machine.execDomainReady x s
  | .sync hdr => Sys2Proof.Machine.execSync hdr s
  | .selectDev hdr => Sys2Proof.Machine.execSelectDev hdr s
  | .firmware p => Sys2Proof.Machine.execFirmware p s
  | .team t => Sys2Proof.Machine.execTeam t s
  | .header h bad ms => Sys2Proof.Machine.execHeader h bad ms s
  | .imageEnd hdr => Sys2Proof.Machine.execImageEnd hdr s
  | .streamEnd hdr => Sys2Proof.Machine.execStreamEnd hdr s
  | .frames addr data lost => Sys2Proof.Machine.execFrames addr data lost s
  | .zeroFrames addr n => Sys2Proof.Machine.execZeroFrames addr n s
  | .fillFrames addr n data => Sys2Proof.Machine.execFillFrames addr n data s
  | .bodyBlockTrailer hash next tag => Sys2Proof.Machine.execBodyBlockTrailer hash next tag s
  | .streamTimeout  => Sys2Proof.Machine.execStreamTimeout  s
  | .hostStatusRead psp cs cmd k => Sys2Proof.Machine.execHostStatusRead psp cs cmd k s
  | .configStreamStart dest bytes => Sys2Proof.Machine.execConfigStreamStart dest bytes s
  | .cfgPload x m => Sys2Proof.Machine.execCfgPload x m s
  | .ploadEnd x p => Sys2Proof.Machine.execPloadEnd x p s
  | .cfgCommit x m pair => Sys2Proof.Machine.execCfgCommit x m pair s
  | .cfgAbort x m => Sys2Proof.Machine.execCfgAbort x m s
  | .cfgReadback x m => Sys2Proof.Machine.execCfgReadback x m s
  | .cfgCapture x m => Sys2Proof.Machine.execCfgCapture x m s
  | .kickoffRise  => Sys2Proof.Machine.execKickoffRise  s
  | .kickoffWait  => Sys2Proof.Machine.execKickoffWait  s
  | .frameSweepStep x rg upset later => Sys2Proof.Machine.execFrameSweepStep x rg upset later s
  | .readerHeartbeatMiss x rg => Sys2Proof.Machine.execReaderHeartbeatMiss x rg s
  | .coordinatorMiscompare x => Sys2Proof.Machine.execCoordinatorMiscompare x s
  | .coordHeartbeatMiss x => Sys2Proof.Machine.execCoordHeartbeatMiss x s
  | .pairMismatch x a b since => Sys2Proof.Machine.execPairMismatch x a b since s
  | .pairCheckEnd x upA upB => Sys2Proof.Machine.execPairCheckEnd x upA upB s
  | .pairedRepair x storeOk abort => Sys2Proof.Machine.execPairedRepair x storeOk abort s
  | .unpairedRepair x storeOk => Sys2Proof.Machine.execUnpairedRepair x storeOk s
  | .drillDue x row => Sys2Proof.Machine.execDrillDue x row s
  | .drillOut x row storeOk abort => Sys2Proof.Machine.execDrillOut x row storeOk abort s
  | .drillTestEnd x row block => Sys2Proof.Machine.execDrillTestEnd x row block s
  | .drillBack x row storeOk abort => Sys2Proof.Machine.execDrillBack x row storeOk abort s
  | .fttConditionFail x reasons step => Sys2Proof.Machine.execFttConditionFail x reasons step s
  | .fttLimit x step => Sys2Proof.Machine.execFttLimit x step s
  | .fttEnd x bad => Sys2Proof.Machine.execFttEnd x bad s
  | .careerWrite x ok => Sys2Proof.Machine.execCareerWrite x ok s
  | .carWrite x m ok => Sys2Proof.Machine.execCarWrite x m ok s
  | .careerSample x tj level armed => Sys2Proof.Machine.execCareerSample x tj level armed s
  | .swpCntClr x m => Sys2Proof.Machine.execSwpCntClr x m s
  | .callNop x w => Sys2Proof.Machine.execCallNop x w s
  | .version x w => Sys2Proof.Machine.execVersion x w s
  | .claimQuery x w => Sys2Proof.Machine.execClaimQuery x w s
  | .claim x w => Sys2Proof.Machine.execClaim x w s
  | .release x w => Sys2Proof.Machine.execRelease x w s
  | .pinSet x w => Sys2Proof.Machine.execPinSet x w s
  | .pinOwner x w => Sys2Proof.Machine.execPinOwner x w s
  | .matcherSet x w => Sys2Proof.Machine.execMatcherSet x w s
  | .qBind x w => Sys2Proof.Machine.execQBind x w s
  | .qUnbind x w => Sys2Proof.Machine.execQUnbind x w s
  | .crcAttach x w => Sys2Proof.Machine.execCrcAttach x w s
  | .expressAdmit x w => Sys2Proof.Machine.execExpressAdmit x w s
  | .expressRelease x w => Sys2Proof.Machine.execExpressRelease x w s
  | .dramAdmit x w => Sys2Proof.Machine.execDramAdmit x w s
  | .dramRelease x w => Sys2Proof.Machine.execDramRelease x w s
  | .slkAdmit x w => Sys2Proof.Machine.execSlkAdmit x w s
  | .slkRelease x w => Sys2Proof.Machine.execSlkRelease x w s
  | .pload x w => Sys2Proof.Machine.execPload x w s
  | .commit x w => Sys2Proof.Machine.execCommit x w s
  | .abortLoad x w => Sys2Proof.Machine.execAbortLoad x w s
  | .readback x w => Sys2Proof.Machine.execReadback x w s
  | .capture x w => Sys2Proof.Machine.execCapture x w s
  | .domain x w => Sys2Proof.Machine.execDomain x w s
  | .fullTime x w => Sys2Proof.Machine.execFullTime x w s
  | .halfTime x w => Sys2Proof.Machine.execHalfTime x w s
  | .recovery x w => Sys2Proof.Machine.execRecovery x w s
  | .resume x w => Sys2Proof.Machine.execResume x w s
  | .restart x w => Sys2Proof.Machine.execRestart x w s
  | .nvmWrite x w ok => Sys2Proof.Machine.execNvmWrite x w ok s
  | .teamSwitch x w img => Sys2Proof.Machine.execTeamSwitch x w img s
  | .teamAlive x w => Sys2Proof.Machine.execTeamAlive x w s
  | .teamTrialExpire x => Sys2Proof.Machine.execTeamTrialExpire x s
  | .teamRestart x w => Sys2Proof.Machine.execTeamRestart x w s
  | .refFwStage x w p => Sys2Proof.Machine.execRefFwStage x w p s
  | .refRestart x w => Sys2Proof.Machine.execRefRestart x w s
  | .keyProgram x w r warm ok0 ok1 => Sys2Proof.Machine.execKeyProgram x w r warm ok0 ok1 s
  | .keyRevoke x w r warm ok0 ok1 => Sys2Proof.Machine.execKeyRevoke x w r warm ok0 ok1 s
  | .aesProgram x w r wrapOk warm ok0 ok1 => Sys2Proof.Machine.execAesProgram x w r wrapOk warm ok0 ok1 s
  | .quarClear x w => Sys2Proof.Machine.execQuarClear x w s
  | .umpRule x w => Sys2Proof.Machine.execUmpRule x w s
  | .seal x w k => Sys2Proof.Machine.execSeal x w k s
  | .metParam x w k => Sys2Proof.Machine.execMetParam x w k s
  | .mgmtSend x w hold => Sys2Proof.Machine.execMgmtSend x w hold s
  | .mgmtRemoteCall inGroup => Sys2Proof.Machine.execMgmtRemoteCall inGroup s
  | .mgmtSendTimeout x k => Sys2Proof.Machine.execMgmtSendTimeout x k s
  | .refLockstepMiscompare x => Sys2Proof.Machine.execRefLockstepMiscompare x s
  | .refHbBeat x m => Sys2Proof.Machine.execRefHbBeat x m s
  | .refHeartbeatMiss x => Sys2Proof.Machine.execRefHeartbeatMiss x s
  | .refCtlRestart x m => Sys2Proof.Machine.execRefCtlRestart x m s
  | .refRestartEnd x ok reloaded rebuild alt => Sys2Proof.Machine.execRefRestartEnd x ok reloaded rebuild alt s
  | .metStart x => Sys2Proof.Machine.execMetStart x s
  | .metWindowEnd x w => Sys2Proof.Machine.execMetWindowEnd x w s
  | .pulseWidthEnd x k => Sys2Proof.Machine.execPulseWidthEnd x k s
  | .demandIntervalEnd x p => Sys2Proof.Machine.execDemandIntervalEnd x p s
  | .spareExchange x => Sys2Proof.Machine.execSpareExchange x s
  | .exchangeOverlapEnd x disagree => Sys2Proof.Machine.execExchangeOverlapEnd x disagree s
  | .modulatorCalEnd x m ok => Sys2Proof.Machine.execModulatorCalEnd x m ok s
  | .sealNChange x opened => Sys2Proof.Machine.execSealNChange x opened s
  | .vanaLoss x => Sys2Proof.Machine.execVanaLoss x s
  | .vanaReturn x => Sys2Proof.Machine.execVanaReturn x s
  | .metCheckpoint x => Sys2Proof.Machine.execMetCheckpoint x s
  | .crystalStart  => Sys2Proof.Machine.execCrystalStart  s
  | .ruleEvaluate x r v => Sys2Proof.Machine.execRuleEvaluate x r v s
  | .mtcFire x k => Sys2Proof.Machine.execMtcFire x k s
  | .umpLogPop x m => Sys2Proof.Machine.execUmpLogPop x m s
  | .jtagExtest x cells cap => Sys2Proof.Machine.execJtagExtest x cells cap s
  | .jtagSamplePreload x cells cap => Sys2Proof.Machine.execJtagSamplePreload x cells cap s
  | .jtagSysid x => Sys2Proof.Machine.execJtagSysid x s
  | .jtagBypass x code tdi => Sys2Proof.Machine.execJtagBypass x code tdi s
  | .trstNLow  => Sys2Proof.Machine.execTrstNLow  s
  | .supplyReturn x k => Sys2Proof.Machine.execSupplyReturn x k s
  | .pllLock  => Sys2Proof.Machine.execPllLock  s
  | .peerResetEnd x r source => Sys2Proof.Machine.execPeerResetEnd x r source s
  | .coordinatorRestartEnd x => Sys2Proof.Machine.execCoordinatorRestartEnd x s
  | .coordinatorHeartbeat x => Sys2Proof.Machine.execCoordinatorHeartbeat x s
  | .postPackageRepairEnd x c k ok => Sys2Proof.Machine.execPostPackageRepairEnd x c k ok s

end Sys2Proof.Machine
end

