-- ==== Sys2Proof/Machine/Step.lean ====
section
/-! DEFINITION. One step of the block: the command that has waited longest, or a nanosecond of time when none waits. -/

namespace Sys2Proof.Machine

/-- One step: the command at the front of the queue acts on the state with the rest of the queue.  On an empty queue one
nanosecond passes on both dies, and a COMMIT under way goes on as far as it can (DESIGN CHOICE, log entries 4 and 157). -/
def step (s : State) : Host.Outcome State Fault Refusal :=
  match s.pending with
  | [] => .next (onBoth s (fun d => d.tick.commitGo)).mtPair
  | c :: r => exec c { s with pending := r }

/-- The state with the command a word spells at the front of its queue. -/
def State.withFetchWord (s : State) (nbits w : Nat) : State :=
  match decodeTableWord nbits w with
  | some c => { s with pending := c :: s.pending }
  | none => s

end Sys2Proof.Machine
end

