-- ==== Sys2Proof/WellFormed.lean ====
section
/-! DEFINITION. The range the spec gives each operand of a command.  A command outside its range still has a meaning: the
event it names cannot happen, or the access it makes is refused by the rules of the bus. -/

namespace Sys2Proof

/-- Do a command's operands lie in the ranges of the spec's tables: regions (R32), units (R48), engines' slots, contexts
(R178), queues (R206), channels, ports, pins (R306), banks, rules (R455) and frames (R358). -/
def Instr.wf : Instr → Bool
  | .registerWrite _ _ a _ _ _ => decide (a < 2 ^ 32)
  | .word64LowRead _ _ a _ => decide (a < 2 ^ 32)
  | .word64LowWrite _ _ a _ => decide (a < 2 ^ 32)
  | .word64HighWrite _ _ a _ => decide (a < 2 ^ 32)
  | .crossDieAccess _ _ a _ _ _ _ => decide (a < 2 ^ 32)
  | .crossDieTimeout _ _ => true
  | .stageCapture _ rg u _ => decide (rg < 1408) && decide (u < 1024)
  | .matchedDelayEnd _ rg u _ => decide (rg < 1408) && decide (u < 1024)
  | .stageHandover _ rg u _ => decide (rg < 1408) && decide (u < 1024)
  | .inputWithdraw _ rg u _ => decide (rg < 1408) && decide (u < 1024)
  | .dualRailCapture _ rg _ _ => decide (rg < 1408)
  | .dualRailNull _ rg _ _ => decide (rg < 1408)
  | .drIllegal _ rg _ _ _ _ => decide (rg < 1408)
  | .mergeElementChange _ rg _ _ => decide (rg < 1408)
  | .arbiterGrant _ rg _ _ => decide (rg < 1408)
  | .delayChangeApply _ rg u _ _ => decide (rg < 1408) && decide (u < 1024)
  | .bmRead _ rg m p _ _ => decide (rg < 1408) && decide (m < 4) && decide (p < 2)
  | .bmW64Write _ rg m p _ _ => decide (rg < 1408) && decide (m < 4) && decide (p < 2)
  | .bmNarrowWrite _ rg m p _ _ _ => decide (rg < 1408) && decide (m < 4) && decide (p < 2)
  | .bmScrubStep _ rg m _ => decide (rg < 1408) && decide (m < 4)
  | .rowFrameVote _ row _ => decide (row < 32)
  | .channelFreeze _ rg ch _ _ => decide (rg < 1408) && decide (ch < 256)
  | .forceFreeze _ rg ch _ => decide (rg < 1408) && decide (ch < 256)
  | .frozenTransitionHeld _ rg ch _ _ => decide (rg < 1408) && decide (ch < 256)
  | .rgnCntClrRing _ _ rg => decide (rg < 1408)
  | .rgnCntClrBm _ _ rg => decide (rg < 1408)
  | .rgnCntClrFrame _ _ rg => decide (rg < 1408)
  | .canaryMeasure _ rg cl _ => decide (rg < 1408) && decide (cl < 64)
  | .calibratorStep _ rg u => decide (rg < 1408) && decide (u < 1024)
  | .monitorWindowEnd _ i => decide (i < 16)
  | .governorDecision _ => true
  | .settleEnd _ => true
  | .convTimeout _ => true
  | .pmbusTransactionEnd _ _ data => decide (data < 65536)
  | .pmbAlert _ => true
  | .faultStatusPoll _ => true
  | .paceCntClr _ _ => true
  | .paceResume _ _ => true
  | .paceHold _ _ _ => true
  | .paceHrWrite _ _ _ _ => true
  | .pmbTelemetryRead _ _ code => decide (code < 256)
  | .seNop _ rg _ => decide (rg < 1408)
  | .halt _ rg _ => decide (rg < 1408)
  | .yieldDone _ rg _ => decide (rg < 1408)
  | .yieldAgain _ rg _ => decide (rg < 1408)
  | .yieldError _ rg _ => decide (rg < 1408)
  | .swap _ rg _ => decide (rg < 1408)
  | .ret _ rg _ => decide (rg < 1408)
  | .jmpd _ rg _ => decide (rg < 1408)
  | .endl _ rg _ => decide (rg < 1408)
  | .ld _ rg _ => decide (rg < 1408)
  | .st _ rg _ => decide (rg < 1408)
  | .lda _ rg _ => decide (rg < 1408)
  | .sta _ rg _ => decide (rg < 1408)
  | .moveReg _ rg _ => decide (rg < 1408)
  | .ldi _ rg _ => decide (rg < 1408)
  | .ldih _ rg _ => decide (rg < 1408)
  | .br _ rg _ => decide (rg < 1408)
  | .call _ rg _ => decide (rg < 1408)
  | .loop _ rg _ => decide (rg < 1408)
  | .loopWrap _ rg => decide (rg < 1408)
  | .tokIn _ rg _ _ => decide (rg < 1408)
  | .tokOut _ rg _ _ => decide (rg < 1408)
  | .addp _ rg _ => decide (rg < 1408)
  | .aluAdd _ rg _ => decide (rg < 1408)
  | .aluSub _ rg _ => decide (rg < 1408)
  | .aluAnd _ rg _ => decide (rg < 1408)
  | .aluOr _ rg _ => decide (rg < 1408)
  | .aluXor _ rg _ => decide (rg < 1408)
  | .aluAsl _ rg _ => decide (rg < 1408)
  | .aluAsr _ rg _ => decide (rg < 1408)
  | .aluLsr _ rg _ => decide (rg < 1408)
  | .aluCmp _ rg _ => decide (rg < 1408)
  | .aluMin _ rg _ => decide (rg < 1408)
  | .aluMax _ rg _ => decide (rg < 1408)
  | .aluAdds _ rg _ => decide (rg < 1408)
  | .aluSubs _ rg _ => decide (rg < 1408)
  | .sha _ rg _ => decide (rg < 1408)
  | .shar _ rg _ => decide (rg < 1408)
  | .expo _ rg _ => decide (rg < 1408)
  | .sat _ rg _ => decide (rg < 1408)
  | .extl _ rg _ => decide (rg < 1408)
  | .exth _ rg _ => decide (rg < 1408)
  | .extg _ rg _ => decide (rg < 1408)
  | .insl _ rg _ => decide (rg < 1408)
  | .insh _ rg _ => decide (rg < 1408)
  | .insg _ rg _ => decide (rg < 1408)
  | .parNop _ rg _ => decide (rg < 1408)
  | .mpy _ rg _ => decide (rg < 1408)
  | .mac _ rg _ => decide (rg < 1408)
  | .msu _ rg _ => decide (rg < 1408)
  | .mpyn _ rg _ => decide (rg < 1408)
  | .clr _ rg _ => decide (rg < 1408)
  | .parAdd _ rg _ => decide (rg < 1408)
  | .parSub _ rg _ => decide (rg < 1408)
  | .parLda _ rg _ => decide (rg < 1408)
  | .tfr _ rg _ => decide (rg < 1408)
  | .adda _ rg _ => decide (rg < 1408)
  | .suba _ rg _ => decide (rg < 1408)
  | .abs _ rg _ => decide (rg < 1408)
  | .neg _ rg _ => decide (rg < 1408)
  | .macsu _ rg _ => decide (rg < 1408)
  | .seInputToken _ rg _ _ => decide (rg < 1408)
  | .seOutputTaken _ rg _ => decide (rg < 1408)
  | .portEvent _ rg => decide (rg < 1408)
  | .seBreakpoint _ rg => decide (rg < 1408)
  | .seScrubStep _ rg mem _ => decide (rg < 1408) && decide (mem < 3)
  | .seWindowAccess _ _ rg off _ _ => decide (rg < 1408) && decide (off < 65536)
  | .seRestart _ _ rg => decide (rg < 1408)
  | .seStep _ _ rg => decide (rg < 1408)
  | .seRun _ _ rg => decide (rg < 1408)
  | .seHaltReq _ _ rg => decide (rg < 1408)
  | .seCntClrStall _ _ rg => decide (rg < 1408)
  | .seCntClrInsn _ _ rg => decide (rg < 1408)
  | .seCntClrMem _ _ rg => decide (rg < 1408)
  | .rosDescriptorWrite _ _ n w _ => decide (n < 40960) && decide (w < 16)
  | .rosArm _ _ n => decide (n < 40960)
  | .rosStop _ _ n => decide (n < 40960)
  | .rosFree _ _ n => decide (n < 40960)
  | .rosTrigger _ _ n => decide (n < 40960)
  | .rosResume _ _ n => decide (n < 40960)
  | .rosInstall _ _ n => decide (n < 40960)
  | .rosRemove _ _ n => decide (n < 40960)
  | .rosSelect _ _ n => decide (n < 40960)
  | .rosCntClr _ _ => true
  | .rosStateWindowAccess _ _ off _ _ => decide (off < 4096)
  | .queueTrigger _ n => decide (n < 40960)
  | .periodTrigger _ n => decide (n < 40960)
  | .watchTrigger _ n => decide (n < 40960)
  | .eventTrigger _ _ => true
  | .rosterDispatch _ g => decide (g < 64)
  | .contextMoveEnd _ n _ => decide (n < 40960)
  | .quantumPreempt _ rg => decide (rg < 1408)
  | .expressPreempt _ n => decide (n < 40960)
  | .runOverrun _ n => decide (n < 40960)
  | .port3WaitEnd _ n => decide (n < 40960)
  | .dueMissed _ n => decide (n < 40960)
  | .descriptorScan _ n _ => decide (n < 40960)
  | .intakeFrame _ p _ bytes => decide (p < 8) && bytes.all (fun v => v < 256)
  | .queueWordWrite _ q _ _ tag => decide (q < 64) && decide (tag < 64)
  | .queueWordRead _ q _ _ => decide (q < 64)
  | .qFlush _ q _ => decide (q < 64)
  | .qMark _ q _ => decide (q < 64)
  | .qRewind _ q _ => decide (q < 64)
  | .qClearMark _ q _ => decide (q < 64)
  | .qCntClear _ _ q => decide (q < 64)
  | .qWrTag _ _ q tag => decide (q < 64) && decide (tag < 64)
  | .qPop _ _ q _ => decide (q < 64)
  | .qCfgWrite _ _ q k _ => decide (q < 64) && decide (k < 3)
  | .spillWriteEnd _ q _ => decide (q < 64)
  | .spillFetchEnd _ q _ _ => decide (q < 64)
  | .qUnbindDrainEnd _ q _ => decide (q < 64)
  | .crcRestart _ _ u => decide (u < 16)
  | .crcCntClr _ _ u => decide (u < 16)
  | .crcScanGo _ _ u => decide (u < 16)
  | .crcScanAbort _ _ u => decide (u < 16)
  | .crcScanEnd _ u _ => decide (u < 16)
  | .crossingOffer _ _ _ => true
  | .crossingTake _ _ => true
  | .crossingReturn _ _ => true
  | .pulseArrive _ _ _ => true
  | .pulseDeliver _ _ => true
  | .peerResetSeen _ _ _ => true
  | .crossingTimeout _ _ _ => true
  | .xingCntClr _ _ _ => true
  | .xingCfgWrite _ _ k _ => decide (k < 12)
  | .dramRequestAccept _ c p _ => decide (c < 4) && decide (p < 16)
  | .dramCommandIssue _ c _ => decide (c < 4)
  | .dramReadDone _ c _ _ _ => decide (c < 4)
  | .refreshDue _ c rank => decide (c < 4) && decide (rank < 2)
  | .mr4Read _ c rank ind _ => decide (c < 4) && decide (rank < 2) && decide (ind < 3)
  | .patrolScrubStep _ c _ _ => decide (c < 4)
  | .calibrationSlot _ c rank _ _ _ => decide (c < 4) && decide (rank < 2)
  | .spareCopyStep _ c k _ _ => decide (c < 4) && decide (k < 64)
  | .dmcSpare _ _ c subch rank bank row => decide (c < 4) && decide (subch < 2) && decide (rank < 2) && decide (bank < 32) && decide (row < 32)
  | .dmcFree _ _ c k => decide (c < 4) && decide (k < 64)
  | .dmcRetrain _ _ c => decide (c < 4)
  | .dmcCntClrRef _ _ c => decide (c < 4)
  | .dmcCntClrEcc _ _ c => decide (c < 4)
  | .channelTrainingEnd _ c _ => decide (c < 4)
  | .dramChFail _ c _ => decide (c < 4)
  | .laneFail _ lane => decide (lane < 20)
  | .signalDetect _ p => decide (p < 4)
  | .portTrainingEnd _ p _ => decide (p < 4)
  | .linkControlFail _ p => decide (p < 4)
  | .slkMessageReceive _ p _ _ _ => decide (p < 4)
  | .slkReplay _ p _ => decide (p < 4)
  | .slkMessageTransmit _ p _ _ => decide (p < 4)
  | .kickoffReadySend _ => true
  | .kickoffMessage _ p _ => decide (p < 4)
  | .slkQueueItemSend _ q _ => decide (q < 64)
  | .tokenChannelSend _ c _ tag => decide (c < 256) && decide (tag < 64)
  | .slkChanStall _ c => decide (c < 256)
  | .slkChanRst _ _ c => decide (c < 256)
  | .ethFrameReceive _ e frame _ => decide (e < 4) && frame.all (fun v => v < 256)
  | .ethFrameTransmit _ q _ => decide (q < 64)
  | .ethTxtsPop _ _ e => decide (e < 4)
  | .ethLinkChange _ e _ => decide (e < 4)
  | .mtTimingExchange _ p _ _ _ _ _ => decide (p < 4)
  | .mtHoldover _ => true
  | .mtAltSwitch _ _ => true
  | .mtRateWrite _ _ _ => true
  | .mtPulseOut _ => true
  | .mtPulseCapture _ n => decide (n < 960)
  | .eventRecordCollect _ _ => true
  | .eventRecordAppend _ => true
  | .pinCfgWrite _ _ n _ => decide (n < 960)
  | .pinGuardEnd _ n => decide (n < 960)
  | .pinElecWrite _ _ n _ => decide (n < 960)
  | .pinFabWrite _ _ n _ => decide (n < 960)
  | .gpioOutWrite _ _ l _ => decide (l < 60)
  | .gpioOeWrite _ _ l _ => decide (l < 60)
  | .pmSample _ b lv => decide (b < 20) && decide (lv < 2 ^ 48)
  | .debounceTick _ b lv => decide (b < 20) && decide (lv < 2 ^ 48)
  | .bankPllLock _ b => decide (b < 20)
  | .bankPllUnlock _ b => decide (b < 20)
  | .pwrgoodRise mode devid pulls => decide (mode < 8) && decide (devid < 16) && decide (pulls < 2 ^ 60)
  | .pwrgoodFall => true
  | .supplyLoss _ _ => true
  | .nvmBoot bootA bootB _ _ => decide (bootA.length = 300) && decide (bootB.length = 300)
  | .warmUpDone _ _ _ _ => true
  | .loadDone => true
  | .playInstant => true
  | .fulltimeNLow => true
  | .pwrFullTime _ _ _ => true
  | .pwrHalfTime _ _ => true
  | .pwrRecovery _ _ => true
  | .pwrResume _ _ => true
  | .pwrRestart _ _ => true
  | .resumeInstant => true
  | .recoveryLimit => true
  | .die1Silent => true
  | .transitionEnd _ _ => true
  | .domainOn _ _ k => decide (k < 80)
  | .domainOff _ _ k => decide (k < 80)
  | .domainReady _ => true
  | .sync _ => true
  | .selectDev _ => true
  | .firmware _ => true
  | .team _ => true
  | .header _ _ _ => true
  | .imageEnd _ => true
  | .streamEnd _ => true
  | .frames addr data _ => decide (addr < 2 ^ 32) && data.all (fun v => v < 2 ^ 1024)
  | .zeroFrames addr _ => decide (addr < 2 ^ 32)
  | .fillFrames addr _ data => decide (addr < 2 ^ 32) && decide (data < 2 ^ 1024)
  | .bodyBlockTrailer _ _ _ => true
  | .streamTimeout => true
  | .hostStatusRead _ _ _ i => decide (i < 16)
  | .configStreamStart dest bytes => decide (dest < 4096) && bytes.all (fun v => v < 256)
  | .cfgPload _ _ => true
  | .ploadEnd _ _ => true
  | .cfgCommit _ _ _ => true
  | .cfgAbort _ _ => true
  | .cfgReadback _ _ => true
  | .cfgCapture _ _ => true
  | .kickoffRise => true
  | .kickoffWait => true
  | .frameSweepStep _ rg _ _ => decide (rg < 1408)
  | .readerHeartbeatMiss _ rg => decide (rg < 1408)
  | .coordinatorMiscompare _ => true
  | .coordHeartbeatMiss _ => true
  | .pairMismatch _ a b _ => decide (a < 1408) && decide (b < 1408)
  | .pairCheckEnd _ _ _ => true
  | .pairedRepair _ _ _ => true
  | .unpairedRepair _ _ => true
  | .drillDue _ row => decide (row < 32)
  | .drillOut _ row _ _ => decide (row < 32)
  | .drillTestEnd _ row _ => decide (row < 32)
  | .drillBack _ row _ _ => decide (row < 32)
  | .fttConditionFail _ _ _ => true
  | .fttLimit _ _ => true
  | .fttEnd _ _ => true
  | .careerWrite _ _ => true
  | .carWrite _ _ _ => true
  | .careerSample _ _ _ _ => true
  | .swpCntClr _ _ => true
  | .callNop _ _ => true
  | .version _ _ => true
  | .claimQuery _ _ => true
  | .claim _ _ => true
  | .release _ _ => true
  | .pinSet _ _ => true
  | .pinOwner _ _ => true
  | .matcherSet _ _ => true
  | .qBind _ _ => true
  | .qUnbind _ _ => true
  | .crcAttach _ _ => true
  | .expressAdmit _ _ => true
  | .expressRelease _ _ => true
  | .dramAdmit _ _ => true
  | .dramRelease _ _ => true
  | .slkAdmit _ _ => true
  | .slkRelease _ _ => true
  | .pload _ _ => true
  | .commit _ _ => true
  | .abortLoad _ _ => true
  | .readback _ _ => true
  | .capture _ _ => true
  | .domain _ _ => true
  | .fullTime _ _ => true
  | .halfTime _ _ => true
  | .recovery _ _ => true
  | .resume _ _ => true
  | .restart _ _ => true
  | .nvmWrite _ _ _ => true
  | .teamSwitch _ _ _ => true
  | .teamAlive _ _ => true
  | .teamTrialExpire _ => true
  | .teamRestart _ _ => true
  | .refFwStage _ _ _ => true
  | .refRestart _ _ => true
  | .keyProgram _ _ _ _ _ _ => true
  | .keyRevoke _ _ _ _ _ _ => true
  | .aesProgram _ _ _ _ _ _ _ => true
  | .quarClear _ _ => true
  | .umpRule _ _ => true
  | .seal _ _ _ => true
  | .metParam _ _ _ => true
  | .mgmtSend _ _ _ => true
  | .mgmtRemoteCall _ => true
  | .mgmtSendTimeout _ k => decide (k < 9)
  | .refLockstepMiscompare _ => true
  | .refHbBeat _ _ => true
  | .refHeartbeatMiss _ => true
  | .refCtlRestart _ _ => true
  | .refRestartEnd _ _ _ _ _ => true
  | .metStart _ => true
  | .metWindowEnd _ _ => true
  | .pulseWidthEnd _ k => decide (k < 16)
  | .demandIntervalEnd _ p => decide (p < 8)
  | .spareExchange _ => true
  | .exchangeOverlapEnd _ _ => true
  | .modulatorCalEnd _ _ _ => true
  | .sealNChange _ _ => true
  | .vanaLoss _ => true
  | .vanaReturn _ => true
  | .metCheckpoint _ => true
  | .crystalStart => true
  | .ruleEvaluate _ r _ => decide (r < 64)
  | .mtcFire _ k => decide (k < 8)
  | .umpLogPop _ _ => true
  | .jtagExtest _ _ _ => true
  | .jtagSamplePreload _ _ _ => true
  | .jtagSysid _ => true
  | .jtagBypass _ code _ => decide (code < 256)
  | .trstNLow => true
  | .supplyReturn _ _ => true
  | .pllLock => true
  | .peerResetEnd _ _ _ => true
  | .coordinatorRestartEnd _ => true
  | .coordinatorHeartbeat _ => true
  | .postPackageRepairEnd _ c k _ => decide (c < 4) && decide (k < 64)

end Sys2Proof
end

