-- ==== Sys2Proof/Safety.lean ====
section
/-! DEFINITION. The terms statements use: one die of a package replaced, a die that is there, what a bus access meets, and
the invariant of a package with an absent die. -/

namespace Sys2Proof.Machine

/-- Die `x` of the package is there, and its state is `d` (R16). -/
def State.has (s : State) (x : Die) (d : DieSt) : Prop := s.die x = d ∧ d.idn.absent = false

/-- Die `x` is there with state `d`, and a write by master `m` of the register at `a` passes the checks of R5, R9, R17,
R28 and R484. -/
def State.takes (s : State) (x : Die) (d : DieSt) (m : Master) (a : Nat) : Prop := s.die x = d ∧ d.writeCheck m a 4 = .ok

/-- The answer of a write that is carried out. -/
def DieSt.ack (d : DieSt) (m : Master) : DieSt := d.answer m 0 false

/-- A die that is absent holds what it holds at reset, but for its fuses. -/
def DieSt.idle (d : DieSt) : Prop := d.idn.absent = true → d = { DieSt.reset with idn := d.idn }

/-- Absent dies are idle (R16), and a package without die 0 has no die 1 (R13). -/
def State.Quiet (s : State) : Prop := s.d0.idle ∧ s.d1.idle ∧ (s.d0.idn.absent = true → s.d1.idn.absent = true)

/-- Die `x` becomes `g` of it, the access of master `m` that does so crossing at the fabric's bus port where `m` is one
(Table 09-3). -/
def State.viaPort (s : State) (x : Die) (m : Master) (req : Nat) (g : DieSt → DieSt) : State :=
  s.onPort x m req (fun t => t.setDie x (g (t.die x)))

/-- Two states agree outside die `x` and the package's NVM, which `State.die` shows with either die. -/
def State.sameElse (s t : State) (x : Die) : Prop :=
  t.pending = s.pending ∧ match x with
    | .die0 => t.d1 = s.d1
    | .die1 => t.d0 = { s.d0 with nvm := t.d0.nvm }

/-- Die 0 is there, and die 1 of a package that has one stands in the same state (R342): the same PWR_STATE.STATE, PWRGOOD seen
alike, and a transition in progress on both or on neither. -/
def State.paired (s : State) : Prop :=
  s.d0.idn.absent = false ∧ (s.d1.idn.absent = true ∨
    (s.d1.dev = s.d0.dev ∧ s.d1.pwr.good = s.d0.pwr.good ∧ s.d1.pwr.going.isSome = s.d0.pwr.going.isSome))

/-- A command answers a next state with the same queue, in which every die that is there relates to what it was as `P` says; an
absent die 1 is as it was. -/
def State.ends (s : State) (o : Out) (P : DieSt → DieSt → Prop) : Prop :=
  ∃ t, o = .next t ∧ t.pending = s.pending ∧ (s.d1.idn.absent = true → t.d1 = s.d1) ∧
    ∀ x, (s.die x).idn.absent = false → P (s.die x) (t.die x)

/-- Every die of the package that is there is as `P` says. -/
def State.every (s : State) (P : DieSt → Prop) : Prop := ∀ x, (s.die x).idn.absent = false → P (s.die x)

/-- The engine of region `rg` as its row finds it: the words its reads meet flipped by `u`, the windows of its group set, the
pipeline filled. -/
def DieSt.seNow (d : DieSt) (rg : Nat) (u : List (Nat × Nat × Nat)) : SeSt := (d.seFill rg u).1

/-- The die once the findings of that filling and `cyc` cycles of stall are counted. -/
def DieSt.seCounted (d : DieSt) (rg : Nat) (u : List (Nat × Nat × Nat)) (cyc : Nat) : DieSt :=
  (d.seFounds rg 0 (d.seFill rg u).2).bumpBy (F.SE_STALL_CNT rg) cyc

/-- The engine of `rg` runs and Execute takes `w` next: no loop wrap, port event or breakpoint stands before it. -/
def DieSt.seReach (d : DieSt) (rg : Nat) (u : List (Nat × Nat × Nat)) (w : ExecSt) : Prop :=
  let e := d.seNow rg u
  d.seLive rg = true ∧ (e.mode = .run ∨ e.mode = .stall) ∧ e.ew = some w ∧ e.wrap = none ∧ e.evDue = false ∧ d.seBreaks rg e = false

/-- Execute takes `w` next, it decodes to `i`, and neither the engine nor the Roster finds a fault in it. -/
def DieSt.seAt (d : DieSt) (rg : Nat) (u : List (Nat × Nat × Nat)) (cyc : Nat) (w : ExecSt) (i : SeInsn) : Prop :=
  let e := d.seNow rg u
  let c := d.seCounted rg u cyc
  d.seReach rg u w ∧ seDecode w.word.toNat = some i ∧ e.faultCause (c.pooled rg) w = none ∧
    (c.pooled rg = true → c.rosFault rg (e.ctx.getD 0) e = false)

/-- The engine after the cycle in which `w` completes Execute (R149, R150): Fetch and Decode have advanced, what they did
for `w` is committed, `g` is what `w` does itself, and PC is the address of the next instruction. -/
def SeSt.retired (e : SeSt) (w : ExecSt) (br : Bool) (g : SeSt → SeSt) : SeSt :=
  let f := g (e.front.1.commit w)
  { f.setBk { f.bk with pc := f.nextPc } with mode := .run, lastBranch := br, brkSkip := if f.brkSkip = some w.addr then none else f.brkSkip, ran := f.ran || !f.active }

/-- The die after that cycle: the findings of the cycle's reads counted, one more instruction completed, and then `fin`. -/
def DieSt.seRetire (c : DieSt) (rg : Nat) (e : SeSt) (w : ExecSt) (br : Bool) (g : SeSt → SeSt) (fin : DieSt → DieSt) : DieSt :=
  let f := e.retired w br g
  fin (((c.setEng rg (if c.pooled rg then f.clearPort3 else f)).seFounds rg 0 e.front.2).seCount rg)

end Sys2Proof.Machine
end

