-- ==== Sys2Proof/Certificates/Slice0/Obligations.lean ====
section
/-! DEFINITION. The statements about the model, for the provers. -/

open Sys2Proof Sys2Proof.Machine

/-- For every command c and state s: a step of s with c at the front of its queue is exec of c on s with the rest of the
queue. The queue of waiting commands is the model's own form (log entry 4). (95_what_each_step_holds.md, 00_scope.md
R1) -/
def Obligations.StepRunsFrontCommand : Prop :=
  ∀ (c : Instr) (s : State) (r : List Instr), s.pending = c :: r → step s = exec c { s with pending := r }

/-- On an empty queue a step is one nanosecond (DESIGN CHOICE, log entry 4): an absent die stays as it was, no command
is put into the queue, and a die with no COMMIT under way (log entry 157) moves by 1 ns, its pace monitors counting.
A running clock of die 0 that nothing steers or slews takes Match Time forward by exactly 1 ns; a stopped one leaves
it; in a package of two dies with both clocks running die 1 shows the Match Time of die 0 (log entry 149).
(11_links_and_time.md R292, 02_architecture.md) -/
def Obligations.IdleStepPassesTime : Prop :=
  ∀ (s : State), s.pending = [] →
    ∃ t, step s = .next t ∧ t.pending = [] ∧
      (s.d0.idn.absent = true → s.d1.idn.absent = true → t.d0 = s.d0) ∧
      (s.d1.idn.absent = true → s.d1.mtm.on = false → t.d1 = s.d1) ∧
      (∀ x, (s.die x).idn.absent = false → (s.die x).load.commit = none →
        let e := ({ s.die x with now := (s.die x).now + 1 } : DieSt).monTick
        ((s.die x).mtm.on = false → t.die x = e) ∧
        (x = .die0 → (s.die x).mtm.on = true → (s.die x).on F.MT_CFG_ROOT = false → (s.die x).f F.MT_RATE_NOW_RATE = 0 →
          (s.die x).mtm.frac < 2 ^ 32 → t.die x = { e with mt := (s.die x).mt + 1 })) ∧
      (s.d0.idn.twin = true → s.d0.idn.absent = false → s.d1.idn.absent = false → s.d0.mtm.on = true → s.d1.mtm.on = true →
        s.d0.load.commit = none → s.d1.load.commit = none → t.d1.mt = t.d0.mt)

/-- Whatever the command and the state, exec answers a next state and neither faults nor refuses: an access that a rule
turns away ends with an error response, and an event whose condition does not hold has no effect. The next state
holds the same queue of waiting commands: commands come from outside and only a step takes one. The queue is the
model's own (log entry 4). (00_scope.md R5, 02_architecture.md R28, 95_what_each_step_holds.md) -/
def Obligations.EveryCommandAnswersAndLeavesTheQueueAlone : Prop :=
  ∀ (c : Instr) (s : State), ∃ t, exec c s = .next t ∧ t.pending = s.pending

/-- For every state in which each absent die holds what it holds at reset (but for its fuses) and a package without die
0 has no die 1, every step, whichever command stands at the front of the queue and also on an empty queue, keeps it
so, and no die changes whether it is there: an absent die never acts, switches no power domain on and raises no
event. (01_variants.md R16, 01_variants.md R13) -/
def Obligations.AbsentDieNeverActs : Prop :=
  ∀ (s t : State), s.Quiet → step s = .next t →
    t.Quiet ∧ t.d0.idn.absent = s.d0.idn.absent ∧ t.d1.idn.absent = s.d1.idn.absent ∧
      (s.d0.idn.absent = true → t.d0 = s.d0) ∧ (s.d1.idn.absent = true → t.d1 = s.d1)

/-- At State.reset no command waits, the absent die is idle, die 0 is in COLD with Match Time 0, no event held, every
pin table and queue empty, no region there in any state but OFF with its ring at ISOLATE, and registers with a reset
value in the tables read it: PACE_CFG, CFG_KICK, SWP_CFG, SUB_CFG, FTT_CFG and PWR_RECOV. (13_supplies_and_states.md
R336, 13_supplies_and_states.md R337, 11_links_and_time.md R292, 01_variants.md R15, 16_referee_and_team.md R422) -/
def Obligations.ResetHoldsTheSpecValues : Prop :=
  State.reset.pending = [] ∧ State.reset.Quiet ∧ State.reset.d0.dev = 0 ∧ State.reset.d0.mt = 0 ∧
    State.reset.d0.raised = [] ∧ State.reset.d0.coll = [] ∧
    (∀ rg, rg < 1408 → State.reset.d0.rgState rg = rgOff ∧ State.reset.d0.ringState rg = 0) ∧
    State.reset.d0.f F.CFG_KICK_LEAD = 10 ∧ State.reset.d0.f F.SWP_CFG_PERIOD = 10 ∧
    State.reset.d0.f F.PWR_RECOV_LIMIT = 100 ∧ State.reset.d0.f F.SUB_CFG_PAIR_WAIT = 200 ∧
    State.reset.d0.f F.SUB_DRILL_CFG_PACE = 480 ∧ State.reset.d0.f F.FTT_CFG_LIMIT = 100

/-- For every die that is there, every master, address and size: a write or a read whose size is not four bytes or whose
address is not a multiple of four leaves the die as it was but for the master's answer, which is an error, and,
where the master is a bus port of the fabric, the words that cross there. (R5) -/
def Obligations.MisalignedAccessHasNoEffect : Prop :=
  ∀ (s : State) (x : Die) (d : DieSt) (m : Master) (a size : Nat) (v : Word) (e : BusEnv), s.has x d →
    (size ≠ 4 ∨ a % 4 ≠ 0) →
      exec (.registerWrite x m a size v e) s = .next (s.viaPort x m (busReq a true v) (fun d => d.answer m 0 true)) ∧
      exec (.word64LowRead x m a size) s = .next (s.viaPort x m (busReq a false 0) (fun d => d.answer m 0 true))

/-- A write of a register whose owner is another master (the Referee may write Team registers too), of an absent
instance, or of a block whose domain is off, has no effect and ends with an error; a read of an absent instance
answers 0 without error and of a block that is off answers 0 with an error. A write the checks allow sets the RW
fields of SYS_EVT_CFG and keeps its reserved bits, and clears exactly the bits of PACE_ERR that are written 1.
(00_scope.md R6, 00_scope.md R7, 00_scope.md R9, 01_variants.md R17, 02_architecture.md R28) -/
def Obligations.RegisterWriteRules : Prop :=
  ∀ (s : State) (x : Die) (d : DieSt) (m : Master) (a : Nat) (v : Word) (e : BusEnv), s.has x d →
    (∀ (b : Blk) (rows : List RegRow) (r : RegRow), a % 4 = 0 → foldSe a = a → seWindowAt a = false → rosWindowAt a = false →
      findBlk a = some (b, rows) → d.busUp m = true →
      ((d.absentAt b a = true →
          exec (.registerWrite x m a 4 v e) s = .next (s.viaPort x m (busReq a true v) (fun d => d.answer m 0 true)) ∧
          exec (.word64LowRead x m a 4) s = .next (s.viaPort x m (busReq a false 0) (fun d => d.answer m 0 false))) ∧
       (d.absentAt b a = false → d.liveAt b a = false →
          exec (.registerWrite x m a 4 v e) s = .next (s.viaPort x m (busReq a true v) (fun d => d.answer m 0 true)) ∧
          exec (.word64LowRead x m a 4) s = .next (s.viaPort x m (busReq a false 0) (fun d => d.answer m 0 true))) ∧
       (rows.find? (fun r => r.has a) = some r → mayWrite m r.owner = false →
          exec (.registerWrite x m a 4 v e) s = .next (s.viaPort x m (busReq a true v) (fun d => d.answer m 0 true))))) ∧
    (s.takes x d m R.SYS_EVT_CFG →
      exec (.registerWrite x m R.SYS_EVT_CFG 4 v e) s = .next (s.viaPort x m (busReq R.SYS_EVT_CFG true v)
        (fun d => (d.wr R.SYS_EVT_CFG ((d.rd R.SYS_EVT_CFG &&& 0x1F03F000) ||| (v &&& 0xE0FC0FFF))).ack m))) ∧
    (s.takes x d m R.PACE_ERR →
      exec (.registerWrite x m R.PACE_ERR 4 v e) s = .next (s.viaPort x m (busReq R.PACE_ERR true v)
        (fun d => (d.wr R.PACE_ERR (d.rd R.PACE_ERR &&& ~~~(v &&& 0xFF))).ack m)))

/-- A read of MT_NOW_LO answers the low word and latches the high word for that master; its next read of MT_NOW_HI
answers the latched word and empties the latch, and with no latch the live word. A write of a low word of a 64-bit
RW value is held in the writer's latch and changes nothing else; a write of the high word takes the latched low word
of the same value with it, or keeps the present low word where the latch holds none of that value. Where a rule
refuses the write (Q_WR of a queue not bound to Team, R223) it ends with an error. MT_EPOCH has further rules of its
own (R297, R305) and is left to them. (00_scope.md R8) -/
def Obligations.PairsReadAndWriteWhole : Prop :=
  ∀ (s : State) (x : Die) (d : DieSt) (m : Master), s.has x d →
    (d.busUp m = true →
      exec (.word64LowRead x m R.MT_NOW_LO 4) s = .next (s.viaPort x m (busReq R.MT_NOW_LO false 0) (fun d =>
        ({ d with rdLatch := d.rdLatch.set (fun _ => none) (masterKey m) (some (R.MT_NOW_LO, d.mt.extractLsb' 32 32)) } : DieSt).answer
          m (d.mt.setWidth 32) false)) ∧
      (∀ w, d.rdLatch.get (fun _ => none) (masterKey m) = some (R.MT_NOW_LO, w) →
        exec (.word64LowRead x m R.MT_NOW_HI 4) s = .next (s.viaPort x m (busReq R.MT_NOW_HI false 0) (fun d =>
          ({ d with rdLatch := d.rdLatch.set (fun _ => none) (masterKey m) none } : DieSt).answer m w false))) ∧
      (d.rdLatch.get (fun _ => none) (masterKey m) = none →
        exec (.word64LowRead x m R.MT_NOW_HI 4) s = .next (s.viaPort x m (busReq R.MT_NOW_HI false 0) (fun d =>
          d.answer m (d.mt.extractLsb' 32 32) false)))) ∧
    (∀ (a : Nat) (v : Word), writesPair a = true → a ≠ R.MT_EPOCH_LO →
      (s.takes x d m a →
        (d.pairHeld a = false → exec (.word64LowWrite x m a v) s = .next (s.viaPort x m (busReq a true v) (fun d =>
          ({ d with wrLatch := d.wrLatch.set (fun _ => none) (masterKey m) (some (a, v)) } : DieSt).ack m))) ∧
        (d.pairHeld a = true → exec (.word64LowWrite x m a v) s = .next (s.viaPort x m (busReq a true v) (fun d => d.answer m 0 true)))) ∧
      (s.takes x d m (a + 4) →
        (d.pairHeld (a + 4) = true →
          exec (.word64HighWrite x m (a + 4) v) s = .next (s.viaPort x m (busReq (a + 4) true v) (fun d => d.answer m 0 true))) ∧
        (∀ lo, d.pairHeld (a + 4) = false → d.wrLatch.get (fun _ => none) (masterKey m) = some (a, lo) →
          exec (.word64HighWrite x m (a + 4) v) s = .next (s.viaPort x m (busReq (a + 4) true v) (fun d =>
            ((({ d with wrLatch := d.wrLatch.set (fun _ => none) (masterKey m) none } : DieSt).wr a lo).wr (a + 4) v).ack m))) ∧
        (d.pairHeld (a + 4) = false → (∀ lo, d.wrLatch.get (fun _ => none) (masterKey m) ≠ some (a, lo)) →
          exec (.word64HighWrite x m (a + 4) v) s = .next (s.viaPort x m (busReq (a + 4) true v) (fun d =>
            ((d.wr a (d.rd a)).wr (a + 4) v).ack m)))))

/-- Let two different masters write the same 64-bit value, low word and high word each, in the order low of the first,
low of the second, high of the first, high of the second, on a die that takes their writes. After the third command
the value holds the first master's pair whole, after the fourth the second master's, and no word of one is ever
beside a word of the other. (00_scope.md R8) -/
def Obligations.PairsOfTwoMastersNeverMix : Prop :=
  ∀ (s : State) (x : Die) (d : DieSt) (m n : Master) (a : Nat) (lo hi lo' hi' : Word),
    writesPair a = true → a ≠ R.MT_EPOCH_LO → d.pairHeld a = false → d.pairHeld (a + 4) = false → masterKey m ≠ masterKey n →
    s.takes x d m a → s.takes x d n a → d.writeCheck m (a + 4) 4 = .ok → d.writeCheck n (a + 4) 4 = .ok →
    ∃ s1 s2 s3 s4,
      exec (.word64LowWrite x m a lo) s = .next s1 ∧ exec (.word64LowWrite x n a lo') s1 = .next s2 ∧
      exec (.word64HighWrite x m (a + 4) hi) s2 = .next s3 ∧ exec (.word64HighWrite x n (a + 4) hi') s3 = .next s4 ∧
      (s1.die x).rd a = d.rd a ∧ (s1.die x).rd (a + 4) = d.rd (a + 4) ∧
      (s2.die x).rd a = d.rd a ∧ (s2.die x).rd (a + 4) = d.rd (a + 4) ∧
      (s3.die x).rd a = lo ∧ (s3.die x).rd (a + 4) = hi ∧
      (s4.die x).rd a = lo' ∧ (s4.die x).rd (a + 4) = hi'

/-- On a single-die package, and on a timeout, an access to the other die ends with an error and a read returns 0, and
nothing else changes. On a package of two dies, where the other die's bus answers, a read of its SYS_ID gives the
master, at its own die, the other die's word, and a write of its SYS_EVT_CFG sets that die's register and no
register of the master's own die. (02_architecture.md R29, 20_address_map.md R482, 00_scope.md R7) -/
def Obligations.CrossDieAccesses : Prop :=
  ∀ (s : State) (x : Die) (d : DieSt) (m : Master) (a size : Nat) (wr : Bool) (v : Word) (e : BusEnv), s.has x d →
    exec (.crossDieTimeout x m) s = .next (s.setDie x (d.answer m 0 true)) ∧
    ((s.die (otherDie x)).idn.absent = true →
      exec (.crossDieAccess x m a size wr v e) s = .next (s.setDie x (d.answer m 0 true))) ∧
    (∀ f : DieSt, s.has (otherDie x) f → d.busUp m = true → f.busUp m = true →
      (∃ t, exec (.crossDieAccess x m R.SYS_ID 4 false v e) s = .next t ∧
        (t.die x).resp.get (fun _ => Resp.reset) (masterKey m) = ⟨f.idn.sysId, false⟩ ∧
        (t.die x).regs = d.regs ∧ (t.die (otherDie x)).regs = f.regs ∧
        (t.die (otherDie x)).resp.get (fun _ => Resp.reset) (masterKey m) = f.resp.get (fun _ => Resp.reset) (masterKey m)) ∧
      (f.writeCheck m R.SYS_EVT_CFG 4 = .ok →
        ∃ t, exec (.crossDieAccess x m R.SYS_EVT_CFG 4 true v e) s = .next t ∧
          (t.die x).resp.get (fun _ => Resp.reset) (masterKey m) = ⟨0, false⟩ ∧
          (t.die x).regs = d.regs ∧
          (t.die (otherDie x)).rd R.SYS_EVT_CFG = (f.rd R.SYS_EVT_CFG &&& 0x1F03F000) ||| (v &&& 0xE0FC0FFF) ∧
          (∀ b, b ≠ R.SYS_EVT_CFG → (t.die (otherDie x)).rd b = f.rd b)))

/-- STAGE_CAPTURE, MATCHED_DELAY_END, STAGE_HANDOVER and INPUT_WITHDRAW complete when the levels of R60 allow the phase,
and change the stage (and on capture its registers) and nothing else: a capture fills the stage and raises the input
acknowledge; the end of the matched delay raises the request while the gate is open; a hand-over empties the stage,
lowers the request and is counted by the monitors of the channel (R123); the fall of the input request lowers the
input acknowledge. (03_handshake_fabric.md R60, 03_handshake_fabric.md R64, 05_pace.md R123) -/
def Obligations.FourPhaseHandshakeMoves : Prop :=
  ∀ (s : State) (x : Die) (d : DieSt) (rg u env : Nat) (st : StageCfg),
    s.has x d → d.regionOn rg = true → d.stageCfg rg u = some st →
    let k := 1024 * rg + u
    let g := d.stage k
    let e := s.fabEnv x env
    (d.levelIn e rg u st.reqSel = true → g.ackIn = false → g.full = false →
      exec (.stageCapture x rg u env) s
        = .next (s.setDie x ((d.capture rg st e).setStage k { g with full := true, ackIn := true }))) ∧
    (d.gateOpen rg = true → g.full = true → g.req = false → d.levelIn e rg u st.ackSel = false →
      exec (.matchedDelayEnd x rg u env) s = .next (s.setDie x (d.setStage k { g with req := true, runs := false }))) ∧
    (g.req = true → d.levelIn e rg u st.ackSel = true →
      exec (.stageHandover x rg u env) s = .next (s.setDie x ((d.tokenPassed rg u).setStage k { g with full := false, req := false }))) ∧
    (g.ackIn = true → d.levelIn e rg u st.reqSel = false →
      exec (.inputWithdraw x rg u env) s = .next (s.setDie x (d.setStage k { g with ackIn := false })))

/-- DUAL_RAIL_CAPTURE of a complete word at an empty stage captures and acknowledges it, at a decoder it first raises
the bundled request and acknowledges once that is acknowledged; DUAL_RAIL_NULL lowers the acknowledge; the stage
offers its word on an idle output and withdraws it once acknowledged, and so does a decoder that holds a token its
request; DR_ILLEGAL reports the first illegal bit (log entry 131) once; a merge element takes the common level of
its inputs and keeps its own otherwise; an arbiter with no grant that stands grants one request, of two one, which
is free, of none neither; a delay change on an idle channel is applied unless a request rises first; of the two at
once either wins, which is free; and none is made while the channel is busy or a token runs down the delay line; a
step of the governor that waits notes the convergence then reached (R126). (03_handshake_fabric.md R55,
03_handshake_fabric.md R56, 03_handshake_fabric.md R62, 03_handshake_fabric.md R67, 03_handshake_fabric.md R69) -/
def Obligations.DualRailMergeAndArbiter : Prop :=
  ∀ (s : State) (x : Die) (d : DieSt) (rg env : Nat), s.has x d → d.regionOn rg = true →
    let e := s.fabEnv x env
    (∀ (k : Nat) (c : RailCfg), d.railCfg rg k = some c →
      let key := 1024 * rg + k
      let n := c.inT.length
      let t := d.railT e rg c
      let f := d.railF e rg c
      let g := (d.rail key).seen t f
      let a := d.levelIn e rg k c.ackSel
      let go := exec (.dualRailCapture x rg k env) s
      (c.decoder = false → railsComplete n t f = true → g.ack = false → g.full = false → g.drive = false →
        go = .next (s.setDie x (((d.railWord rg k e).railDone rg k true).setRail key
          { g with ack := true, full := true, drive := d.gateOpen rg && !a }))) ∧
      (c.decoder = true → railsComplete n t f = true → g.ack = false → g.full = false → g.req = false → d.gateOpen rg = true → a = false →
        go = .next (s.setDie x (((d.railWord rg k e).railDone rg k true).railPut c rg { g with req := true }))) ∧
      (c.decoder = true → railsComplete n t f = true → g.ack = false → g.full = false → g.req = true →
        go = .next (s.setDie x (d.railPut c rg { g with ack := a }))) ∧
      (railsNull n t f = true → g.ack = true →
        exec (.dualRailNull x rg k env) s
          = .next (s.setDie x ((d.railDone rg k false).railPut c rg (d.railOut e rg c { g with ack := false, req := false })))) ∧
      (c.decoder = true → g.full = true →
        (g.req = true → a = true → d.railOut e rg c g = { g with req := false, full := false }) ∧
        (g.req = false → d.gateOpen rg = true → a = false → d.railOut e rg c g = { g with req := true })) ∧
      (c.decoder = false →
        (g.drive = true → a = true → d.railOut e rg c g = { g with drive := false, full := false }) ∧
        (g.drive = false → g.full = true → d.gateOpen rg = true → a = false → d.railOut e rg c g = { g with drive := true })) ∧
      (∀ ut uf i, let h := (d.rail key).seen (Nat.xor t ut) (Nat.xor f uf)
        railsIllegal n (Nat.xor t ut) (Nat.xor f uf) = some i → h.illegal = none →
        let u := (((d.design rg).rails' k false).find? (fun x => x.1 == i)).elim k (fun x => x.2)
        exec (.drIllegal x rg k ut uf env) s = .next (s.setDie x
          (((d.finding rg).setRail key { h with illegal := some i }).raise rg 0x0301 (u / 16 % 64 * 2 ^ 18 + u % 16 * 2 ^ 14))))) ∧
    (∀ (k : Nat) (ins : List Link), (d.design rg).merges[k]? = some ins → ins ≠ [] →
      let put := fun b => { d with fab := { d.fab with merges := d.fab.merges.set (fun _ => false) (544 * rg + k) b } }
      ((∀ l ∈ ins, d.level e rg l = true) → exec (.mergeElementChange x rg k env) s = .next (s.setDie x (put true))) ∧
      ((∀ l ∈ ins, d.level e rg l = false) → exec (.mergeElementChange x rg k env) s = .next (s.setDie x (put false))) ∧
      ((∃ l ∈ ins, d.level e rg l = true) → (∃ l ∈ ins, d.level e rg l = false) →
        exec (.mergeElementChange x rg k env) s = .next (s.setDie x d))) ∧
    (∀ (k : Nat) (l : Link × Link), (d.design rg).arbs[k]? = some l →
      let g := d.fab.arbs.get (fun _ => none) (128 * rg + k)
      let put := fun (d : DieSt) (g : Option Bool) => { d with fab := { d.fab with arbs := d.fab.arbs.set (fun _ => none) (128 * rg + k) g } }
      let r0 := d.level e rg l.1
      let r1 := d.level e rg l.2
      (g = some false → r0 = true → exec (.arbiterGrant x rg k env) s = .next (s.setDie x d)) ∧
      (g = some true → r1 = true → exec (.arbiterGrant x rg k env) s = .next (s.setDie x d)) ∧
      ((g = some false → r0 = false) → (g = some true → r1 = false) →
        (r0 = true → r1 = false → exec (.arbiterGrant x rg k env) s = .next (s.setDie x (put d (some false)))) ∧
        (r0 = false → r1 = true → exec (.arbiterGrant x rg k env) s = .next (s.setDie x (put d (some true)))) ∧
        (r0 = true → r1 = true → exec (.arbiterGrant x rg k env) s = .next (s.setDie x (put d.choose.2 (some d.choose.1)))) ∧
        (r0 = false → r1 = false → exec (.arbiterGrant x rg k env) s = .next (s.setDie x (put d none))))) ∧
    (∀ (u v : Nat) (meets : Bool) (st : StageCfg), d.stageCfg rg u = some st →
      let k := 1024 * rg + u
      let g := d.stage k
      let apply := fun (d : DieSt) => { d with fab := { d.fab with
        delay := d.fab.delay.set (fun _ => 0) k v, delayNext := d.fab.delayNext.set (fun _ => none) k none } }
      let rises := g.full && d.gateOpen rg
      let run := fun (d : DieSt) => d.setStage k { g with runs := rises }
      let go := exec (.delayChangeApply x rg u env meets) s
      let a := d.levelIn e rg u st.ackSel
      d.fab.delayNext.get (fun _ => none) k = some v →
      (g.req = false → a = false → rises = false → go = .next (s.setDie x (apply (run d)).noteStep)) ∧
      (g.req = false → a = false → g.runs = false → rises = true → meets = false → go = .next (s.setDie x (run d).noteStep)) ∧
      (g.req = false → a = false → g.runs = false → rises = true → meets = true →
        go = .next (s.setDie x (if d.choose.1 then apply (run d.choose.2) else run d.choose.2).noteStep)) ∧
      (g.req = true ∨ a = true ∨ (g.runs = true ∧ rises = true) → go = .next (s.setDie x d.noteStep)))

/-- On an accessible port, BM_READ of a word with no error answers the addressed part of the word, with an uncorrectable
error it answers ERR with the word as stored, counts and latches it; BM_W64_WRITE stores the word and answers;
BM_NARROW_WRITE of a word with no error stores the word with the part replaced, and answers; the data field of the
answer to a write is free (log entry 170); BM_SCRUB_STEP corrects a single-bit error, counts it and moves on.
Nothing else changes. (04_regions_and_memory.md R84, 04_regions_and_memory.md R85, 04_regions_and_memory.md R86,
04_regions_and_memory.md R88) -/
def Obligations.BlockMemoryAccess : Prop :=
  ∀ (s : State) (x : Die) (d : DieSt) (rg m p a upset : Nat) (v : Word64), s.has x d → d.bmUp rg m p = true →
    let wd := d.bmWidth rg m p
    let w := a * wd / 64 % 512
    let k := bmKey rg m w
    let fl := eccFlip 72 (d.bmFlips k) upset
    let o := wd * (a % (64 / wd))
    (eccClass 72 fl = 0 →
      exec (.bmRead x rg m p a upset) s = .next (s.setDie x
        ((d.bmSetFlips k fl).bmReply rg m p (BitVec.ofNat 64 ((d.bmWord k).toNat >>> o % 2 ^ wd)) false))) ∧
    (eccClass 72 fl = 2 →
      let r := (d.bmSetFlips k fl).bmRaw k
      exec (.bmRead x rg m p a upset) s = .next (s.setDie x
        (((d.bmSetFlips k fl).bmReply rg m p (BitVec.ofNat 64 (r.toNat >>> o % 2 ^ wd)) true).bmUncorr rg m p false w))) ∧
    (wd = 64 → exec (.bmW64Write x rg m p a v) s = .next (s.setDie x
      ((d.bmStore (bmKey rg m (a % 512)) v).bmWrote rg m p false))) ∧
    (wd ≠ 64 → eccClass 72 fl = 0 → exec (.bmNarrowWrite x rg m p a v upset) s = .next (s.setDie x
      (((d.bmSetFlips k fl).bmStore k (mergeBits (d.bmWord k) o wd v)).bmWrote rg m p false))) ∧
    (let n := d.fab.bmScrub.get (fun _ => 0) (4 * rg + m) % 512
     let q := bmKey rg m n
     d.ringState rg < 2 → eccClass 72 (eccFlip 72 (d.bmFlips q) upset) = 1 →
      exec (.bmScrubStep x rg m upset) s = .next (s.setDie x
        (((({ d with fab := { d.fab with bmScrub := d.fab.bmScrub.set (fun _ => 0) (4 * rg + m) ((n + 1) % 512) } } : DieSt).bmSetFlips
          q (eccFlip 72 (d.bmFlips q) upset)).bmSetFlips q 0).bmCorr rg m 2 false n)))

/-- While the ring of a region is FREEZING, CHANNEL_FREEZE of a settled channel latches its levels, or, met by a
transition, either latches or lets it pass, which is free; FORCE_FREEZE, 20 µs after the freeze began, latches the
idle levels, counts the token dropped if one was in flight and the freeze once; while the ring is FREEZING or FROZEN
a transition that reaches a frozen cell is held back. ROW_FRAME_VOTE of a row with a powered half rewrites every
frame of the row with the majority of its copies; the isolation cells keep their copies (R90).
(04_regions_and_memory.md R82, 04_regions_and_memory.md R90, 04_regions_and_memory.md R93, 04_regions_and_memory.md
R94, 04_regions_and_memory.md R96) -/
def Obligations.IsolationRingFreezes : Prop :=
  ∀ (s : State) (x : Die) (d : DieSt), s.has x d →
    (∀ (rg ch env : Nat) (meets : Bool) (c : RingChan), d.hasRegion rg = true → d.ringState rg = 2 →
      (d.design rg).ring[ch]? = some c → (d.ringCh rg ch).frozen = false →
      let e := s.fabEnv x env
      d.chSettled e rg c = true →
      let latch := fun (f : DieSt) => (f.setRingCh rg ch { d.ringCh rg ch with
        frozen := true, req := d.level e rg c.req, ack := d.level e rg c.ack, data := d.chData e rg c }).ringDone rg
      exec (.channelFreeze x rg ch env meets) s
        = .next (s.setDie x (if meets then (if d.choose.1 then latch d.choose.2 else d.choose.2) else latch d))) ∧
    (∀ (rg ch : Nat) (inFlight : Bool), d.hasRegion rg = true → d.ringState rg = 2 → ch < (d.design rg).ring.length →
      (d.ringCh rg ch).frozen = false → d.fab.freezeAt.get (fun _ => 0) rg + 20000 ≤ d.now + 1 →
      let f := d.setRingCh rg ch { d.ringCh rg ch with frozen := true, forced := true, req := false, ack := false, data := 0 }
      exec (.forceFreeze x rg ch inFlight) s
        = .next (s.setDie x (((if inFlight then f.tokenDropped rg else f).countForced rg).ringDone rg))) ∧
    (∀ (rg ch cell : Nat) (level : Bool), d.hasRegion rg = true → d.ringState rg = 2 ∨ d.ringState rg = 3 → (d.ringCh rg ch).frozen = true →
      exec (.frozenTransitionHeld x rg ch cell level) s = .next (s.setDie x (d.setRingCh rg ch
        { d.ringCh rg ch with held := (d.ringCh rg ch).held.filter (fun h => h.1 != cell) ++ [(cell, level)] }))) ∧
    (∀ (row : Nat) (u : List (Nat × Nat × Nat)), row < d.idn.rows → d.domOn (2 * row) = true ∨ d.domOn (2 * row + 1) = true →
      let t := flipRow row d.fab.rowFrames u
      exec (.rowFrameVote x row u) s = .next (s.setDie x { d with fab := { d.fab with
        rowFrames := ((t.cells.filter (fun c => c.1 / 1024 == row)).map (fun c => c.1)).foldl (fun (t : Tab Tmr) k =>
          t.upd (fun _ => Tmr.reset) k (fun v => ⟨vote v, vote v, vote v⟩)) t
        iso := flipCells row d.fab.iso u } }))

/-- For every port of a running region: a narrow write that finds an uncorrectable error leaves the stored data bits of
every word as they stand, its response carries ERR, and BM_UNCORR is raised with WR set (where RGN_EVT_EN enables it
and the collector is powered, R113 and R300); a W64 write stores its value whatever the word held, and the word then
has no error. (R86) -/
def Obligations.NarrowWriteLeavesAnUncorrectableWord : Prop :=
  ∀ (s : State) (x : Die) (d : DieSt) (rg m p a upset : Nat) (v : Word64), s.has x d → d.bmUp rg m p = true →
    let wd := d.bmWidth rg m p
    let w := a * wd / 64 % 512
    let k := bmKey rg m w
    (wd ≠ 64 → eccClass 72 (eccFlip 72 (d.bmFlips k) upset) = 2 → ∃ t, exec (.bmNarrowWrite x rg m p a v upset) s = .next t ∧
      (∀ j, (t.die x).bmWord j = d.bmWord j) ∧ (t.die x).bmRaw k = d.bmWord k ^^^ BitVec.ofNat 64 (eccFlip 72 (d.bmFlips k) upset) ∧
      ((t.die x).fab.bmResp.get (fun _ => BmResp.reset) (8 * rg + 2 * m + p)).err = true ∧
      (d.on (F.RGN_EVT_EN_UNCORR rg) = true → d.domOn 74 = true → (t.die x).raised = d.raised ++
        [⟨d.mt, d.source rg, 0x0402, (m * 2 ^ 22 + p * 2 ^ 20 + 2 ^ 19 + w) % 2 ^ 24, false, false⟩])) ∧
    (wd = 64 → ∃ t, exec (.bmW64Write x rg m p a v) s = .next t ∧
      (t.die x).bmWord (bmKey rg m (a % 512)) = v ∧ (t.die x).bmFlips (bmKey rg m (a % 512)) = 0)

/-- In a powered region, a measurement of a cluster with one leader whose margin stays inside 24 % to 32 %, above the
least margin recorded, and which is not on its way to an earlier setting, stores the canaries and changes nothing
else of the calibrators; with its margin outside the band but not below 18 %, or on its way to an earlier setting
(log entry 133), the leader also gets the setting of margin 28 %, rounded up, as its target, and a step that waits
follows it. A calibrator step of a leader with a target and no change waiting puts a change of at most 16 taps
toward it on hand, or drops the target once it is reached. Either command then notes whether a waiting step of the
governor has found every cluster converged (R126, log entry 175). (05_pace.md R117, 05_pace.md R118) -/
def Obligations.CalibratorMeasuresAndSteps : Prop :=
  ∀ (s : State) (x : Die) (d : DieSt) (rg : Nat), s.has x d → d.regionOn rg = true →
    (∀ (cl : Nat) (q : List Nat) (st : StageCfg), cl < 64 → d.leaders rg cl = [st] →
      let k := 1024 * rg + st.leader
      let req := required st.recipe (q.take 4)
      let m : DieSt := { d with pace := { d.pace with canary := d.pace.canary.set (fun _ => []) (64 * rg + cl) (q.take 4) } }
      let aim := (req * 128 + 6399) / 6400
      d.f F.PACE_MARGIN_MIN ≤ marginSteps (d.delayOf k) req → req * 118 ≤ d.delayOf k * 6400 → req * 128 ≤ 1023 * 6400 →
        (req * 124 ≤ d.delayOf k * 6400 → d.delayOf k * 6400 ≤ req * 132 → d.moving k = false →
          exec (.canaryMeasure x rg cl q) s = .next (s.setDie x m.noteStep)) ∧
        ((d.delayOf k * 6400 < req * 124 ∨ req * 132 < d.delayOf k * 6400 ∨ d.moving k = true) →
          let next : Option Nat := if d.fab.delayNext.get (fun _ => none) k = none ∨ aim = d.delayOf k then none
            else some (if d.delayOf k < aim then min aim (d.delayOf k + 16) else max aim (d.delayOf k - 16))
          exec (.canaryMeasure x rg cl q) s = .next (s.setDie x ({ m with
            pace := { m.pace with target := m.pace.target.set (fun _ => none) k (some aim) },
            fab := { m.fab with delayNext := m.fab.delayNext.set (fun _ => none) k next } } : DieSt).noteStep))) ∧
    (∀ (u t : Nat), d.pace.target.get (fun _ => none) (1024 * rg + u) = some t →
      d.fab.delayNext.get (fun _ => none) (1024 * rg + u) = none →
      let k := 1024 * rg + u
      let cur := d.delayOf k
      let wait := fun v : Nat => s.setDie x ({ d with fab := { d.fab with delayNext := d.fab.delayNext.set (fun _ => none) k (some v) } } : DieSt).noteStep
      (cur < t → exec (.calibratorStep x rg u) s = .next (wait (min t (cur + 16)))) ∧
      (t < cur → exec (.calibratorStep x rg u) s = .next (wait (max t (cur - 16)))) ∧
      (t = cur → exec (.calibratorStep x rg u) s = .next (s.setDie x
        ({ d with pace := { d.pace with target := d.pace.target.set (fun _ => none) k none } } : DieSt).noteStep)))

/-- The end of a window of a designated monitor, 10 µs after the last, starts the next, and with fewer than 16 tokens
counted, or where the monitor stands in no region that is RUNNING with its ring neither FREEZING nor FROZEN (taken
at the end of the window, log entry 171), it is void: VALID and BELOW read 0 (BELOW by log entry 134). With 16 or
more tokens in such a region VALID reads 1, CAP reads tokens over the time not stalled, in steps of 0.1 M tokens/s,
and BELOW whether it lies below the up threshold. A window of the lowest monitor that began once a step of the
governor had nothing else left to wait for ends that wait (R126). Nothing else changes. (05_pace.md R123, 05_pace.md
R124) -/
def Obligations.MonitorWindowsGiveCapacity : Prop :=
  ∀ (s : State) (x : Die) (d : DieSt) (i : Nat), s.has x d → i < 16 → d.on (F.PACE_MON_TGT_EN i) = true →
    d.pace.monAt.get (fun _ => 0) i + 10000 ≤ d.now →
    let n := (d.pace.count.get (fun _ => (0, 0)) i).1
    let st := (d.pace.count.get (fun _ => (0, 0)) i).2
    let up := ∃ rg, d.pace.monRegion.get (fun _ => none) i = some rg ∧ d.rgState rg = rgRunning ∧ d.ringState rg < 2
    let again : DieSt := { d with pace := { d.pace with
      count := d.pace.count.set (fun _ => (0, 0)) i (0, 0), monAt := d.pace.monAt.set (fun _ => 0) i d.now } }
    let waited := fun (w : DieSt) =>
      let e := w.noteStep
      if d.firstMon = some i ∧ (∃ t, e.pace.readyAt = some t ∧ t ≤ d.pace.monAt.get (fun _ => 0) i)
      then { e with pace := { e.pace with windowed := true } } else e
    (n < 16 ∨ ¬ up → exec (.monitorWindowEnd x i) s
      = .next (s.setDie x (waited ((again.put (F.PACE_MON_CAP_VALID i) 0).put (F.PACE_MON_CAP_BELOW i) 0)))) ∧
    (16 ≤ n → up →
      let cap := if 10000 ≤ st then 65535 else min 65535 (n * 10000 / (10000 - st))
      let below := decide (n * 1000000 < d.f (F.PACE_MON_TGT_TARGET i) * (100 + d.f F.PACE_HR_HR_UP) * (10000 - min 10000 st))
      let read : DieSt := { again with pace := { again.pace with window := d.pace.window.set (fun _ => (0, 0)) i (n, min 10000 st) } }
      exec (.monitorWindowEnd x i) s = .next (s.setDie x (waited
        (((read.put (F.PACE_MON_CAP_VALID i) 1).put (F.PACE_MON_CAP_CAP i) cap).put (F.PACE_MON_CAP_BELOW i) (b2n below)))))

/-- A decision of the governor in RUN that R126 does not hold back clears CEILING, FLOOR and the noted MARGIN_LOW, and
then: with a monitor below its up threshold, or MARGIN_LOW, steps up 10 mV unless that passes VMAX; at VMAX with a
monitor below, sets CEILING and reports each monitor once; with every monitor at or above its down threshold sets
FLOOR at VMIN, or steps down 10 mV if all RUNNING clusters are converged and no ring freezes; otherwise holds. In
FULL-TIME it steps toward 750 mV, held to VMIN and VMAX (log entry 135), by at most 10 mV. Where no VCORE has been
commanded yet the decision in either state commands that voltage first (log entry 172). While R126 holds it back,
and in any other state, it changes nothing. (05_pace.md R125, 05_pace.md R126, 05_pace.md R127) -/
def Obligations.GovernorDecisions : Prop :=
  ∀ (s : State) (x : Die) (d : DieSt), s.has x d →
    (d.mayDecide = false → exec (.governorDecision x) s = .next (s.setDie x d)) ∧
    (d.mayDecide = true → d.gov = 2 ∨ d.gov = 4 → d.f F.PACE_STAT_VSET = 0 →
      exec (.governorDecision x) s = .next (s.setDie x
        (((({ d with pace := d.pace.calm } : DieSt).put F.PACE_STAT_CEILING 0).put F.PACE_STAT_FLOOR 0).govStep
          (max (d.f F.PACE_LIMIT_VMIN) (min (d.f F.PACE_LIMIT_VMAX) 750))))) ∧
    (d.mayDecide = true → d.gov = 2 → d.f F.PACE_STAT_VSET ≠ 0 →
      let v := d.f F.PACE_STAT_VSET
      let below := (List.range 16).any (fun i => d.monBelow i (d.f F.PACE_HR_HR_UP))
      let above := (List.range 16).all (fun i => !d.monBelow i (d.f F.PACE_HR_HR_DN))
      let c := (d.put F.PACE_STAT_CEILING 0).put F.PACE_STAT_FLOOR 0
      let e : DieSt := { c with pace := { c.pace.calm with marginLow := false, missed := d.pace.missed.filter (fun i => c.monBelow i (d.f F.PACE_HR_HR_UP)) } }
      ((below = true ∨ d.pace.marginLow = true) → v + 10 ≤ d.f F.PACE_LIMIT_VMAX →
        exec (.governorDecision x) s = .next (s.setDie x (e.govStep (v + 10)))) ∧
      (below = true → d.f F.PACE_LIMIT_VMAX < v + 10 → exec (.governorDecision x) s = .next (s.setDie x e.ceiling)) ∧
      (below = false → d.pace.marginLow = true → d.f F.PACE_LIMIT_VMAX < v + 10 →
        exec (.governorDecision x) s = .next (s.setDie x e)) ∧
      (below = false → d.pace.marginLow = false → above = true → v < d.f F.PACE_LIMIT_VMIN + 10 →
        exec (.governorDecision x) s = .next (s.setDie x (e.put F.PACE_STAT_FLOOR 1))) ∧
      (below = false → d.pace.marginLow = false → above = true → d.f F.PACE_LIMIT_VMIN + 10 ≤ v →
        e.converged = true → e.ringsQuiet = true →
        exec (.governorDecision x) s = .next (s.setDie x (e.govStep (v - 10)))) ∧
      (below = false → d.pace.marginLow = false → (above = false ∨ (d.f F.PACE_LIMIT_VMIN + 10 ≤ v ∧ (e.converged = false ∨ e.ringsQuiet = false))) →
        exec (.governorDecision x) s = .next (s.setDie x e))) ∧
    (d.mayDecide = true → d.gov = 4 → d.f F.PACE_STAT_VSET ≠ 0 →
      let v := d.f F.PACE_STAT_VSET
      let w := max (d.f F.PACE_LIMIT_VMIN) (min (d.f F.PACE_LIMIT_VMAX) 750)
      let e : DieSt := { d with pace := d.pace.calm }
      (v < w → exec (.governorDecision x) s = .next (s.setDie x (e.govStep (min w (v + 10))))) ∧
      (w < v → exec (.governorDecision x) s = .next (s.setDie x (e.govStep (max w (v - 10))))) ∧
      (v = w → exec (.governorDecision x) s = .next (s.setDie x e))) ∧
    (d.gov ≠ 2 → d.gov ≠ 4 → exec (.governorDecision x) s = .next (s.setDie x d))

/-- SETTLE_END, the settle time after the write of VOUT_COMMAND ended, asks for READ_VOUT; CONV_TIMEOUT, 20 µs after
that, of a step that has found its clusters not converged since (log entry 175) raises its event once; either does
nothing otherwise, but that CONV_TIMEOUT notes a convergence. READ_VOUT is shown in mV (above 1,023 mV a free value,
log entry 173). A NACK before the third attempt sets its bit, counts a retry and tries again, the third of a
transaction that is no telemetry read enters FAULT with reason 1; READ_VOUT within 20 mV of the commanded code
confirms the step and outside it enters FAULT with reason 3; PMB_ALERT sets ALERT and, but in OFF, reads
STATUS_WORD; the poll in FAULT, each 10 ms, reads STATUS_WORD. (05_pace.md R126, 05_pace.md R128, 05_pace.md R130,
05_pace.md R131, 05_pace.md R132) -/
def Obligations.GovernorWaitsAndPmbus : Prop :=
  ∀ (s : State) (x : Die) (d : DieSt), s.has x d →
    (exec (.settleEnd x) s = .next (s.setDie x
      (if d.pace.stepping && !d.pace.settled && !d.pace.writing && decide (d.pace.wroteAt + 1000 * d.f F.PACE_CFG_SETTLE ≤ d.now) then
        ({ d with pace := { d.pace with settled := true, settledAt := d.now } } : DieSt).noteStep.pmbAdd [.readVout]
       else d))) ∧
    (exec (.convTimeout x) s = .next (s.setDie x
      (if d.pace.stepping && d.pace.settled && !d.pace.convTimedOut && !(d.pace.convOk || d.converged) && decide (d.pace.settledAt + 20000 ≤ d.now) then
        (({ d with pace := { d.pace with convTimedOut := true } } : DieSt).noteStep.put F.PACE_ERR_CONV_TO 1).raise 0x703 0x0502 (d.f F.PACE_STAT_VSET)
       else d.noteStep))) ∧
    (∀ op tries data, d.gov ≠ 0 → d.pace.pmb = some (op, tries) →
      (tries < 2 → exec (.pmbusTransactionEnd x .nack data) s = .next (s.setDie x
        { ((d.put F.PACE_ERR_NACK 1).bump F.PACE_ERR_RETRIES) with pace := { d.pace with pmb := some (op, tries + 1) } })) ∧
      ((∀ c, op ≠ .telemetry c) → 2 ≤ tries → d.gov ≠ 5 → exec (.pmbusTransactionEnd x .nack data) s = .next (s.setDie x ((d.put F.PACE_ERR_NACK 1).govFault 1))) ∧
      (op = .readVout → d.pace.pmbNext = [] →
        let p := 2 ^ d.pace.vexp
        let e := ({ d with pace := { d.pace with pmb := none } } : DieSt).showVout (data * 1000 / p)
        let code := voutCode d.pace.vexp (d.f F.PACE_STAT_VSET)
        (data * 1000 ≤ code * 1000 + 20 * p → code * 1000 ≤ data * 1000 + 20 * p →
          exec (.pmbusTransactionEnd x .ok data) s = .next (s.setDie x ({ e with pace := { e.pace with voutOk := true } } : DieSt).noteStep)) ∧
        (code * 1000 + 20 * p < data * 1000 ∨ data * 1000 + 20 * p < code * 1000 →
          exec (.pmbusTransactionEnd x .ok data) s = .next (s.setDie x ((e.put F.PACE_ERR_MISMATCH 1).govFault 3))))) ∧
    (d.domOn 76 = true → exec (.pmbAlert x) s = .next (s.setDie x
      (if d.gov = 0 then d.put F.PACE_ERR_ALERT 1 else (d.put F.PACE_ERR_ALERT 1).pmbAdd [.statusAlert]))) ∧
    (d.gov = 5 → d.pace.pollAt + 10000000 ≤ d.now → exec (.faultStatusPoll x) s
      = .next (s.setDie x (({ d with pace := { d.pace with pollAt := d.now } } : DieSt).pmbAdd [.statusWord])))

/-- HOLD written 1 in RUN enters HOLD, with CEILING and FLOOR 0 and no VCORE command waiting any more; HOLD written 0,
or RESUME, in HOLD while in PLAY returns to RUN; RESUME in FAULT clears the regulator's faults and reads
STATUS_WORD. PACE_HR takes headrooms in range and refuses others with an error and no effect. A telemetry request
for one of the three codes is queued next and sets BUSY, another code sets ERR with no transaction, and a GO while
BUSY has no effect. (05_pace.md R124, 05_pace.md R128, 05_pace.md R131, 05_pace.md R133) -/
def Obligations.GovernorRegisters : Prop :=
  ∀ (s : State) (x : Die) (d : DieSt) (m : Master),
    (s.takes x d m R.PACE_CTL →
      (d.gov = 2 → exec (.paceHold x m true) s
        = .next (s.setDie x ((((d.put F.PACE_CTL_HOLD 1).govTo 3).noVcore).ack m))) ∧
      (d.gov = 3 → d.dev = 4 → exec (.paceHold x m false) s
        = .next (s.setDie x (((d.put F.PACE_CTL_HOLD 0).put F.PACE_STAT_STATE 2).ack m))) ∧
      (d.gov = 3 → d.dev = 6 → exec (.paceHold x m false) s = .next (s.setDie x ((d.put F.PACE_CTL_HOLD 0).ack m))) ∧
      (d.gov = 3 → d.dev = 4 → exec (.paceResume x m) s
        = .next (s.setDie x (((d.put F.PACE_CTL_HOLD 0).put F.PACE_STAT_STATE 2).ack m))) ∧
      (d.gov = 5 → exec (.paceResume x m) s = .next (s.setDie x ((d.pmbAdd [.clearFaults, .statusResume]).ack m)))) ∧
    (∀ up dn, s.takes x d m R.PACE_HR →
      (up ≤ 25 → up + 5 ≤ dn → dn ≤ 50 → exec (.paceHrWrite x m up dn) s
        = .next (s.setDie x (((d.put F.PACE_HR_HR_UP up).put F.PACE_HR_HR_DN dn).ack m))) ∧
      ((25 < up ∨ dn < up + 5 ∨ 50 < dn) → exec (.paceHrWrite x m up dn) s = .next (s.setDie x (d.answer m 0 true)))) ∧
    (∀ code, s.takes x d m R.PACE_PMB_CMD →
      (d.on F.PACE_PMB_CMD_BUSY = true → exec (.pmbTelemetryRead x m code) s = .next (s.setDie x (d.ack m))) ∧
      (d.on F.PACE_PMB_CMD_BUSY = false →
        (code = 0x8C ∨ code = 0x8D ∨ code = 0x96 →
          let e := ((d.put F.PACE_PMB_CMD_CMD code).put F.PACE_PMB_CMD_BUSY 1).put F.PACE_PMB_CMD_ERR 0
          exec (.pmbTelemetryRead x m code) s = .next (s.setDie x
            ((({ e with pace := { e.pace with pmbNext := .telemetry code :: e.pace.pmbNext } } : DieSt).pmbPump).ack m))) ∧
        (code ≠ 0x8C → code ≠ 0x8D → code ≠ 0x96 → exec (.pmbTelemetryRead x m code) s
          = .next (s.setDie x (((d.put F.PACE_PMB_CMD_CMD code).put F.PACE_PMB_CMD_ERR 1).ack m)))))

/-- When the engine of a region runs and Execute takes an ALU instruction next, its row writes Dd and N, Z, V and C as
R160 gives for ADD, SUB, AND, OR, XOR, ASL, ASR, LSR, CMP, MIN, MAX, ADDS and SUBS, with the source register or the
sign-extended immediate; CMP writes no register; ADDS and SUBS saturate and set the sticky SAT. Everything else of
the bank is as Fetch, Decode and the commit of the cycle leave it. C of a shift by 0 is a free value (log entry 11).
(06_signal_engines.md R160, 06_signal_engines.md R145, 06_signal_engines.md R150) -/
def Obligations.SeAluInstructions : Prop :=
  ∀ (s : State) (x : Die) (d : DieSt) (rg : Nat) (u : List (Nat × Nat × Nat)) (w : ExecSt), s.has x d →
    let e := d.seNow rg u
    let fin := fun (d : DieSt) => d.seBoundary rg
    let c := d.seCounted rg u 0
    let out := fun (g : SeSt → SeSt) => s.setDie x (c.seRetire rg e w false g fin)
    (∀ (sub dd ds : Nat) (imm : Bool) (dt k : Nat), d.seAt rg u 0 w (.alu sub dd ds imm dt k) →
      let src := fun (b : BankSt) => if imm then (BitVec.ofNat 12 k).signExtend 24 else b.dr dt
      let put := fun (r : Word24 → Word24 → Word24) (v c st : Word24 → Word24 → Bool) (e : SeSt) =>
        let a := e.bk.dr ds
        let y := src e.bk
        e.setBk ((e.bk.setD dd (r a y)).setSr (srSetSat (srFlags e.bk.sr ⟨(r a y).getLsbD 23, r a y == 0, v a y, c a y⟩) (st a y)))
      let no := fun (_ _ : Word24) => false
      let sh := fun (r : Word24 → Nat → Word24) (c : Word24 → Nat → Bool) (free : Bool) (e : SeSt) =>
        let a := e.bk.dr ds
        let n := (src e.bk).toNat % 32
        e.setBk ((e.bk.setD dd (r a n)).setSr (srFlags e.bk.sr ⟨(r a n).getLsbD 23, r a n == 0, false, if n = 0 then free else c a n⟩))
      let shOut := fun (r : Word24 → Nat → Word24) (k : Word24 → Nat → Bool) =>
        let n := (src e.bk).toNat % 32
        let c' := if n = 0 then { c with free := c.free + 1 } else c
        s.setDie x (c'.seRetire rg e w false (sh r k (Config.choice c.free)) fin)
      let ovr := fun (i : Int) => decide (i < -(2 ^ 23 : Int)) || decide (i ≥ (2 ^ 23 : Int))
      let clamp := fun (i : Int) => if i ≥ (2 ^ 23 : Int) then (0x7FFFFF : Word24) else if i < -(2 ^ 23 : Int) then 0x800000 else BitVec.ofInt 24 i
      let carry := fun (a y : Word24) => decide (2 ^ 24 ≤ a.toNat + y.toNat)
      let noBorrow := fun (a y : Word24) => decide (y.toNat ≤ a.toNat)
      (sub = 0 → exec (.aluAdd x rg u) s = .next (out (put (fun a y => a + y) (fun a y => ovr (a.toInt + y.toInt)) carry no))) ∧
      (sub = 1 → exec (.aluSub x rg u) s = .next (out (put (fun a y => a - y) (fun a y => ovr (a.toInt - y.toInt)) noBorrow no))) ∧
      (sub = 2 → exec (.aluAnd x rg u) s = .next (out (put (fun a y => a &&& y) no no no))) ∧
      (sub = 3 → exec (.aluOr x rg u) s = .next (out (put (fun a y => a ||| y) no no no))) ∧
      (sub = 4 → exec (.aluXor x rg u) s = .next (out (put (fun a y => a ^^^ y) no no no))) ∧
      (sub = 5 → exec (.aluAsl x rg u) s = .next (shOut (fun a n => a <<< n) (fun a n => decide (n ≤ 24) && a.getLsbD (24 - n)))) ∧
      (sub = 6 → exec (.aluAsr x rg u) s = .next (shOut (fun a n => a.sshiftRight n) (fun a n => a.getLsbD (min 23 (n - 1))))) ∧
      (sub = 7 → exec (.aluLsr x rg u) s = .next (shOut (fun a n => a >>> n) (fun a n => decide (n ≤ 24) && a.getLsbD (n - 1)))) ∧
      (sub = 8 → exec (.aluCmp x rg u) s = .next (out (fun e =>
        let a := e.bk.dr ds
        let y := src e.bk
        e.setBk (e.bk.setSr (srFlags e.bk.sr ⟨(a - y).getLsbD 23, a - y == 0, ovr (a.toInt - y.toInt), noBorrow a y⟩))))) ∧
      (sub = 9 → exec (.aluMin x rg u) s = .next (out (put (fun a y => if a.toInt ≤ y.toInt then a else y) no no no))) ∧
      (sub = 10 → exec (.aluMax x rg u) s = .next (out (put (fun a y => if y.toInt ≤ a.toInt then a else y) no no no))) ∧
      (sub = 11 → exec (.aluAdds x rg u) s = .next (out (put (fun a y => clamp (a.toInt + y.toInt))
        (fun a y => ovr (a.toInt + y.toInt)) carry (fun a y => ovr (a.toInt + y.toInt))))) ∧
      (sub = 12 → exec (.aluSubs x rg u) s = .next (out (put (fun a y => clamp (a.toInt - y.toInt))
        (fun a y => ovr (a.toInt - y.toInt)) noBorrow (fun a y => ovr (a.toInt - y.toInt))))))

/-- SHA and SHAR shift As left, or right with the sign, by a signed count, set N, Z, V of R144 with C 0 and set OG when
the exact left shift leaves 56 bits; EXP writes the exponent and Z alone; SAT clamps to the range a store takes and
sets SAT if it clamps; EXTL, EXTH and EXTG take bits 23 to 0, 47 to 24 and the sign-extended bits 55 to 48; INSL,
INSH and INSG replace them. The last six leave the flags unchanged. (06_signal_engines.md R161, 06_signal_engines.md
R144, 06_signal_engines.md R145, 06_signal_engines.md R146) -/
def Obligations.SeAccumulatorInstructions : Prop :=
  ∀ (s : State) (x : Die) (d : DieSt) (rg : Nat) (u : List (Nat × Nat × Nat)) (w : ExecSt), s.has x d →
    let e := d.seNow rg u
    let fin := fun (d : DieSt) => d.seBoundary rg
    let c := d.seCounted rg u 0
    let out := fun (g : SeSt → SeSt) => s.setDie x (c.seRetire rg e w false g fin)
    (∀ (sub ad as dd sh : Nat), d.seAt rg u 0 w (.acc sub ad as dd sh) →
      let ovf := fun (im : Bool) (r : BitVec 56) => if im then !(r.extractLsb' 23 33 == 0 || r.extractLsb' 23 33 == BitVec.allOnes 33)
        else !(r.extractLsb' 47 9 == 0 || r.extractLsb' 47 9 == BitVec.allOnes 9)
      let acc := fun (r : BitVec 56) (og : Bool) (e : SeSt) =>
        e.setBk ((e.bk.setA ad r).setSr (srSetOg (srFlags e.bk.sr ⟨r.getLsbD 55, r == 0, ovf (srIm e.bk.sr) r, false⟩) og))
      let shift := fun (n : SeSt → Int) (e : SeSt) =>
        let a := e.bk.ar as
        if 0 ≤ n e then acc (a <<< (n e).toNat) (decide ((a <<< (n e).toNat).toInt ≠ a.toInt * 2 ^ (n e).toNat)) e
        else acc (a.sshiftRight (-(n e)).toNat) false e
      let lim : Bool → Int := fun im => if im then 2 ^ 23 else 2 ^ 47
      (sub = 0 → exec (.sha x rg u) s = .next (out (shift (fun _ => if sh % 64 < 32 then ((sh % 64 : Nat) : Int) else ((sh % 64 : Nat) : Int) - 64)))) ∧
      (sub = 1 → exec (.shar x rg u) s = .next (out (shift (fun e => ((e.bk.dr dd).setWidth 7).toInt)))) ∧
      (sub = 2 → exec (.expo x rg u) s = .next (out (fun e =>
        e.setBk ((e.bk.setD dd (BitVec.ofInt 24 (exponent (e.bk.ar as)))).setSr (srSetZ e.bk.sr (e.bk.ar as == 0)))))) ∧
      (sub = 3 → exec (.sat x rg u) s = .next (out (fun e =>
        let a := e.bk.ar as
        let l := lim (srIm e.bk.sr)
        if a.toInt > l - 1 then (acc (BitVec.ofInt 56 (l - 1)) false e).markSat true
        else if a.toInt < -l then (acc (BitVec.ofInt 56 (-l)) false e).markSat true
        else acc a false e))) ∧
      (sub = 4 → exec (.extl x rg u) s = .next (out (fun e => e.setBk (e.bk.setD dd ((e.bk.ar as).extractLsb' 0 24))))) ∧
      (sub = 5 → exec (.exth x rg u) s = .next (out (fun e => e.setBk (e.bk.setD dd ((e.bk.ar as).extractLsb' 24 24))))) ∧
      (sub = 6 → exec (.extg x rg u) s = .next (out (fun e => e.setBk (e.bk.setD dd (((e.bk.ar as).extractLsb' 48 8).signExtend 24))))) ∧
      (sub = 7 → exec (.insl x rg u) s = .next (out (fun e =>
        e.setBk (e.bk.setA ad ((e.bk.ar as).extractLsb' 24 32 ++ e.bk.dr dd))))) ∧
      (sub = 8 → exec (.insh x rg u) s = .next (out (fun e =>
        e.setBk (e.bk.setA ad ((e.bk.ar as).extractLsb' 48 8 ++ e.bk.dr dd ++ (e.bk.ar as).extractLsb' 0 24))))) ∧
      (sub = 9 → exec (.insg x rg u) s = .next (out (fun e =>
        e.setBk (e.bk.setA ad ((e.bk.dr dd).extractLsb' 0 8 ++ (e.bk.ar as).extractLsb' 0 48))))))

/-- The parallel operations write Ad from the exact product (doubled in fractional mode; MACSU takes SY unsigned and as
integer product form of the mode), the aligned SX or As, wrapped to 56 bits, set N, Z, V and C of R144 and OG when
the exact value leaves 56 bits; CLR, LDA and TFR never set OG and NOP leaves the flags. The X load, then the Y load,
write their D registers after the operation has read its own. (06_signal_engines.md R142, 06_signal_engines.md R143,
06_signal_engines.md R144, 06_signal_engines.md R159, 06_signal_engines.md R160) -/
def Obligations.SeParallelInstructions : Prop :=
  ∀ (s : State) (x : Die) (d : DieSt) (rg : Nat) (u : List (Nat × Nat × Nat)) (w : ExecSt), s.has x d →
    let e := d.seNow rg u
    let fin := fun (d : DieSt) => d.seBoundary rg
    let c := d.seCounted rg u 0
    let out := fun (g : SeSt → SeSt) => s.setDie x (c.seRetire rg e w false g fin)
    (∀ (op ad sx sy : Nat) (xl yl : Option ParLoad), d.seAt rg u 0 w (.par op ad sx sy xl yl) →
      let ld := fun (b : BankSt) =>
        let b := match xl with | some l => b.setD l.dd w.xv | none => b
        match yl with | some l => b.setD l.dd w.yv | none => b
      let ovf := fun (im : Bool) (r : BitVec 56) => if im then !(r.extractLsb' 23 33 == 0 || r.extractLsb' 23 33 == BitVec.allOnes 33)
        else !(r.extractLsb' 47 9 == 0 || r.extractLsb' 47 9 == BitVec.allOnes 9)
      let put := fun (r : BankSt → BitVec 56) (c og : BankSt → Bool) (e : SeSt) =>
        let b := e.bk
        e.setBk (ld ((b.setA ad (r b)).setSr (srSetOg (srFlags b.sr ⟨(r b).getLsbD 55, r b == 0, ovf (srIm b.sr) (r b), c b⟩) (og b))))
      let no := fun (_ : BankSt) => false
      let prod := fun (b : BankSt) => (if srIm b.sr then 1 else 2) * ((b.dr sx).toInt * (b.dr sy).toInt)
      let prodU := fun (b : BankSt) => (if srIm b.sr then 1 else 2) * ((b.dr sx).toInt * ((b.dr sy).toNat : Int))
      let al := fun (b : BankSt) => if srIm b.sr then (b.dr sx).toInt else (b.dr sx).toInt * 2 ^ 24
      let sum := fun (v : BankSt → Int) => put (fun b => b.ar ad + BitVec.ofInt 56 (v b))
        (fun b => decide (2 ^ 56 ≤ (b.ar ad).toNat + (BitVec.ofInt 56 (v b)).toNat))
        (fun b => decide ((b.ar ad + BitVec.ofInt 56 (v b)).toInt ≠ (b.ar ad).toInt + v b))
      let dif := fun (v : BankSt → Int) => put (fun b => b.ar ad - BitVec.ofInt 56 (v b))
        (fun b => decide ((BitVec.ofInt 56 (v b)).toNat ≤ (b.ar ad).toNat))
        (fun b => decide ((b.ar ad - BitVec.ofInt 56 (v b)).toInt ≠ (b.ar ad).toInt - v b))
      (op = 0 → exec (.parNop x rg u) s = .next (out (fun e => e.setBk (ld e.bk)))) ∧
      (op = 1 → exec (.mpy x rg u) s = .next (out (put (fun b => BitVec.ofInt 56 (prod b)) no no))) ∧
      (op = 2 → exec (.mac x rg u) s = .next (out (sum prod))) ∧
      (op = 3 → exec (.msu x rg u) s = .next (out (dif prod))) ∧
      (op = 4 → exec (.mpyn x rg u) s = .next (out (put (fun b => BitVec.ofInt 56 (-prod b)) no no))) ∧
      (op = 5 → exec (.clr x rg u) s = .next (out (put (fun _ => 0) no no))) ∧
      (op = 6 → exec (.parAdd x rg u) s = .next (out (sum al))) ∧
      (op = 7 → exec (.parSub x rg u) s = .next (out (dif al))) ∧
      (op = 8 → exec (.parLda x rg u) s = .next (out (put (fun b => BitVec.ofInt 56 (al b)) no no))) ∧
      (op = 9 → exec (.tfr x rg u) s = .next (out (put (fun b => b.ar (sy % 4)) no no))) ∧
      (op = 10 → exec (.adda x rg u) s = .next (out (sum (fun b => (b.ar (sy % 4)).toInt)))) ∧
      (op = 11 → exec (.suba x rg u) s = .next (out (dif (fun b => (b.ar (sy % 4)).toInt)))) ∧
      (op = 12 → exec (.abs x rg u) s = .next (out (put (fun b => if (b.ar ad).toInt < 0 then -b.ar ad else b.ar ad) no
        (fun b => b.ar ad == BitVec.intMin 56)))) ∧
      (op = 13 → exec (.neg x rg u) s = .next (out (put (fun b => -b.ar ad) no (fun b => b.ar ad == BitVec.intMin 56)))) ∧
      (op = 14 → exec (.macsu x rg u) s = .next (out (sum prodU))))

/-- LD and LDA write the register of their code with the word Decode read; ST and STA write memory with the source value
of their code; MOVE takes a source value to a destination; LDI writes the sign-extended immediate and LDIH replaces
bits 23 to 12 of Dd; a store or move of an accumulator that clamps sets SAT. A code names D, the store value or the
aligned value of an accumulator, a pointer, a step, a base, a length, a loop counter, SR or RA, each with its
extension as a source and its cut as a destination. (06_signal_engines.md R145, 06_signal_engines.md R151,
06_signal_engines.md R158, 06_signal_engines.md R162) -/
def Obligations.SeMovesAndRegisterCodes : Prop :=
  ∀ (s : State) (x : Die) (d : DieSt) (rg : Nat) (u : List (Nat × Nat × Nat)) (w : ExecSt), s.has x d →
    let e := d.seNow rg u
    let fin := fun (d : DieSt) => d.seBoundary rg
    let c := d.seCounted rg u 0
    let out := fun (g : SeSt → SeSt) => s.setDie x (c.seRetire rg e w false g fin)
    let word := fun (m : Nat) => if m = 0 then w.xv else w.yv
    (∀ m ap md rc, d.seAt rg u 0 w (.ld m ap md rc) → exec (.ld x rg u) s = .next (out (fun e => e.wrCode rc (word m)))) ∧
    (∀ m a rc, d.seAt rg u 0 w (.lda m a rc) → exec (.lda x rg u) s = .next (out (fun e => e.wrCode rc (word m)))) ∧
    (∀ m ap md rc, d.seAt rg u 0 w (.st m ap md rc) → w.yv = BitVec.ofNat 24 m → m < 2 → exec (.st x rg u) s
      = .next (out (fun e => (e.markSat (e.srcVal rc).2).wrM (m + 1) (e.mapA (m + 1) w.xv.toNat) (e.srcVal rc).1))) ∧
    (∀ m a rc, d.seAt rg u 0 w (.sta m a rc) → exec (.sta x rg u) s
      = .next (out (fun e => (e.markSat (e.srcVal rc).2).wrM (m + 1) (e.mapA (m + 1) a) (e.srcVal rc).1))) ∧
    (∀ dst src, d.seAt rg u 0 w (.move dst src) → exec (.moveReg x rg u) s
      = .next (out (fun e => (e.markSat (e.srcVal src).2).wrCode dst (e.srcVal src).1))) ∧
    (∀ dst imm, d.seAt rg u 0 w (.ldi dst imm) → exec (.ldi x rg u) s
      = .next (out (fun e => e.wrCode dst ((BitVec.ofNat 20 imm).signExtend 24)))) ∧
    (∀ dd imm, d.seAt rg u 0 w (.ldih dd imm) → exec (.ldih x rg u) s
      = .next (out (fun e => e.setBk (e.bk.setD dd (BitVec.ofNat 12 imm ++ (e.bk.dr dd).extractLsb' 0 12))))) ∧
    (∀ (e : SeSt) (c : Nat) (v : Word24), let b := e.bk
      (c < 8 → e.srcVal c = (b.dr c, false) ∧ e.wrCode c v = e.setBk (b.setD c v)) ∧
      (c < 4 →
        (let t := if srIm b.sr then (b.ar c).toInt else (b.ar c).toInt / 2 ^ 24
         e.srcVal (8 + c) = (if t > 8388607 then (0x7FFFFF, true) else if t < -8388608 then (0x800000, true) else (BitVec.ofInt 24 t, false))) ∧
        e.wrCode (8 + c) v = e.setBk (b.setA c (if srIm b.sr then v.signExtend 56 else v.signExtend 56 <<< 24))) ∧
      (c < 8 → e.srcVal (16 + c) = ((b.ap.get (fun _ => 0) c).setWidth 24, false) ∧ e.wrCode (16 + c) v = e.moveAp c (v.extractLsb' 0 12)) ∧
      (c < 8 → e.srcVal (24 + c) = ((b.am.get (fun _ => 0) c).signExtend 24, false) ∧
        e.wrCode (24 + c) v = e.setBk { b with am := b.am.set (fun _ => 0) c (v.extractLsb' 0 12) }) ∧
      (c < 8 → e.srcVal (32 + c) = ((e.ab.get (fun _ => 0) c).setWidth 24, false) ∧
        e.srcVal (40 + c) = ((e.al.get (fun _ => 0) c).setWidth 24, false)) ∧
      (c < 2 → e.srcVal (48 + c) = ((b.lc.get (fun _ => 0) c).setWidth 24, false) ∧ e.wrCode (48 + c) v = e.moveLc c (v.extractLsb' 0 16)) ∧
      e.srcVal 50 = (b.sr.setWidth 24, false) ∧ e.wrCode 50 v = e.setBk (b.setSr (v.extractLsb' 0 16 &&& 0xEF0F)) ∧
      e.srcVal 51 = (b.ra.setWidth 24, false) ∧ e.wrCode 51 v = e.moveRa (v.extractLsb' 0 12))

/-- In Decode a taken BR, a CALL, RET and JMPD set the fetch address behind the delay slot, CALL sets RA, LOOP sets
start, end, counter and activity, ADDP steps a pointer; at Execute these and NOP commit and change nothing more, and
no boundary follows the first four. ENDL makes a level inactive. HALT enters HALT, YIELD ends the run of a pooled
engine with its code, SWAP returns from the event bank. LOOP_WRAP of an engine whose fetch waits on it tests level
1, then level 0: it goes on at the start of a loop whose counter is above 1, ends a level at 1, and else goes on
behind. (06_signal_engines.md R147, 06_signal_engines.md R152, 06_signal_engines.md R153, 06_signal_engines.md R154,
06_signal_engines.md R163, 06_signal_engines.md R169, 06_signal_engines.md R171, 06_signal_engines.md R174) -/
def Obligations.SeControlInstructions : Prop :=
  ∀ (s : State) (x : Die) (d : DieSt) (rg : Nat) (u : List (Nat × Nat × Nat)) (w : ExecSt), s.has x d →
    let e := d.seNow rg u
    let fin := fun (d : DieSt) => d.seBoundary rg
    let c := d.seCounted rg u 0
    let out := fun (g : SeSt → SeSt) => s.setDie x (c.seRetire rg e w false g fin)
    let br := fun (g : SeSt → SeSt) => s.setDie x (c.seRetire rg e w true g fin)
    (d.seAt rg u 0 w .nop → exec (.seNop x rg u) s = .next (out (fun e => e))) ∧
    (∀ c t, d.seAt rg u 0 w (.br c t) → exec (.br x rg u) s = .next (br (fun e => e))) ∧
    (∀ t, d.seAt rg u 0 w (.call t) → exec (.call x rg u) s = .next (br (fun e => e))) ∧
    (d.seAt rg u 0 w .ret → exec (.ret x rg u) s = .next (br (fun e => e))) ∧
    (∀ ds, d.seAt rg u 0 w (.jmpd ds) → exec (.jmpd x rg u) s = .next (br (fun e => e))) ∧
    (∀ l r a c, d.seAt rg u 0 w (.loop l r a c) → exec (.loop x rg u) s = .next (out (fun e => e))) ∧
    (∀ n k, d.seAt rg u 0 w (.addp n k) → exec (.addp x rg u) s = .next (out (fun e => e))) ∧
    (∀ n, d.seAt rg u 0 w (.endl n) → exec (.endl x rg u) s = .next (out (fun e => e.execEndl n))) ∧
    (∀ (e : SeSt) (f : FetchSt) (i : SeInsn), e.fw = some f → seDecode f.word.toNat = some i →
      (∀ c t, i = .br c t → brTaken c e.bk.sr = true → e.front.1.fa = BitVec.ofNat 12 t ∧ (e.front.1.fw.map (fun f => f.slot)) = some true) ∧
      (∀ t, i = .call t → e.front.1.fa = BitVec.ofNat 12 t ∧ e.front.1.pra = f.addr + 2 ∧
        e.front.1.ew.bind (fun w => w.raUpd) = some (f.addr + 2)) ∧
      (i = .ret → e.front.1.fa = e.pra) ∧
      (∀ ds, i = .jmpd ds → e.front.1.fa = (e.bk.dr ds).extractLsb' 0 12) ∧
      (∀ n k, i = .addp n k → e.front.1.papOf n = e.stepAp n (e.papOf n) (sgn 12 k)) ∧
      (∀ l a c, i = .loop l false a c → e.loopBad f.addr l a = false → c % 65536 ≠ 0 →
        e.front.1.pls.get (fun _ => 0) l = f.addr + 1 ∧ e.front.1.ple.get (fun _ => 0) l = BitVec.ofNat 12 a ∧
        e.front.1.plc.get (fun _ => 0) l = BitVec.ofNat 16 c ∧ e.front.1.pact.get (fun _ => false) l = true)) ∧
    (d.seAt rg u 0 w .halt → exec (.halt x rg u) s = .next (s.setDie x (c.seRetire rg e w false (fun e => e) (fun d => (d.seHalt rg 0).seFreezeDue rg)))) ∧
    (d.seAt rg u 0 w (.yield 0) → exec (.yieldDone x rg u) s
      = .next (s.setDie x (c.seRetire rg e w false (fun e => e) (fun d => (d.runEnd rg .done).seFreezeDue rg)))) ∧
    (d.seAt rg u 0 w (.yield 1) → exec (.yieldAgain x rg u) s
      = .next (s.setDie x (c.seRetire rg e w false (fun e => e) (fun d => (d.runEnd rg .again).seFreezeDue rg)))) ∧
    (d.seAt rg u 0 w (.yield 2) → exec (.yieldError x rg u) s
      = .next (s.setDie x (c.seRetire rg e w false (fun e => e) (fun d => (d.runEnd rg .error).seFreezeDue rg)))) ∧
    (d.seAt rg u 0 w .swap → exec (.swap x rg u) s = .next (s.setDie x (c.seRetire rg e w false (fun e => e)
      (fun d => (d.setEng rg { (d.eng rg).swapBanks with ran := false }).seBoundary rg)))) ∧
    (d.seLive rg = true → (d.seNow rg []).mode = .run → (d.seNow rg []).wrap.isSome = true →
      exec (.loopWrap x rg) s = .next (s.setDie x ((d.seFounds rg 0 (d.seFill rg []).2).setEng rg (d.seNow rg []).chooseWrap))) ∧
    (∀ (e : SeSt) (r : WrapSt), e.wrap = some r →
      let t := e.chooseWrap
      let on := fun (n : Nat) => r.act.get (fun _ => false) n = true ∧ r.le.get (fun _ => 0) n = r.addr
      let lc := fun (n : Nat) => r.lc.get (fun _ => 0) n
      t.wrap = none ∧ t.b0 = e.b0 ∧ t.b1 = e.b1 ∧
        (∀ n, n = 1 ∨ (n = 0 ∧ ¬ (on 1 ∧ 1 < (lc 1).toNat)) → on n →
          (1 < (lc n).toNat → t.fa = r.ls.get (fun _ => 0) n ∧ (r.moved.contains n = false → t.plc.get (fun _ => 0) n = lc n - 1)) ∧
          ((lc n).toNat = 1 → t.pact.get (fun _ => false) n = false)) ∧
        ((∀ n, n < 2 → on n → (lc n).toNat ≤ 1) → t.fa = r.addr + 1))

/-- IN of a full port writes the token to Dd and empties it; OUT of an empty port fills it; with NB they set C and never
stall, on a port not ready they only clear C; without NB they stall the engine with nothing changed. On port 3 of a
pooled engine, with the Roster out of reset, the token is the Roster's and goes by its path, and a wait without NB
ends the run; toward or from a Roster in reset OUT3 only fills the crossing, and a wait stalls. A token arrives at
an empty holding register and the fabric takes one from a full output. A pending port event that is due swaps to the
event bank. (06_signal_engines.md R164, 06_signal_engines.md R165, 06_signal_engines.md R166, 06_signal_engines.md
R168) -/
def Obligations.SePorts : Prop :=
  ∀ (s : State) (x : Die) (d : DieSt) (rg : Nat) (u : List (Nat × Nat × Nat)) (w : ExecSt), s.has x d →
    let e := d.seNow rg u
    let fin := fun (d : DieSt) => d.seBoundary rg
    (∀ cyc,
      let c := d.seCounted rg u cyc
      let n := e.ctx.getD 0
      let bits := wordUpset u
      let done := fun (f : SeSt) (g : SeSt → SeSt) => c.seRetire rg f w false g fin
      let setC := fun (b : BankSt) (nb v : Bool) => if nb then b.setSr (srSetC b.sr v) else b
      (∀ p dd nb, d.seAt rg u cyc w (.tokIn p dd nb) →
        (c.pooled rg = false ∨ p ≠ 3 →
          (e.inFull.get (fun _ => false) p = true →
            exec (.tokIn x rg u cyc) s = .next (s.setDie x (done e (fun e =>
              { e.setBk (setC (e.bk.setD dd (e.inTok.get (fun _ => 0) p)) nb true) with inFull := e.inFull.set (fun _ => false) p false })))) ∧
          (e.inFull.get (fun _ => false) p = false → nb = true →
            exec (.tokIn x rg u cyc) s = .next (s.setDie x (done e (fun e => e.setBk (setC e.bk true false))))) ∧
          (e.inFull.get (fun _ => false) p = false → nb = false →
            let f : SeSt := { e with mode := .stall, stallOut := false, stallPort := p }
            exec (.tokIn x rg u cyc) s = .next (s.setDie x ((c.setEng rg (if c.pooled rg then f.clearPort3 else f)).seBoundary rg)))) ∧
        (c.pooled rg = true → p = 3 → (c.rosOn = true → c.inToken rg n bits = none) →
          let f : SeSt := { e with inFull := e.inFull.set (fun _ => false) 3 false }
          (nb = true → exec (.tokIn x rg u cyc) s = .next (s.setDie x (done f (fun e => e.setBk (setC e.bk true false))))) ∧
          (nb = false → c.rosOn = false → exec (.tokIn x rg u cyc) s = .next (s.setDie x
            ((c.setEng rg ({ f with mode := .stall, stallOut := false, stallPort := 3 } : SeSt).clearPort3).seBoundary rg)))) ∧
        (c.pooled rg = true → p = 3 → c.rosOn = true →
          (∀ v, c.inToken rg n bits = some v →
            let f : SeSt := { e with inFull := e.inFull.set (fun _ => false) 3 true, inTok := e.inTok.set (fun _ => 0) 3 v }
            let g := f.retired w false (fun e => { e.setBk (setC (e.bk.setD dd v) nb true) with inFull := e.inFull.set (fun _ => false) 3 false })
            exec (.tokIn x rg u cyc) s = .next (s.setDie x ((((((c.setEng rg g.clearPort3).seFounds rg 0 f.front.2).inDone rg n bits).xPass
              (rosX rg 2 false) v.toNat).seCount rg).seBoundary rg))) ∧
          (c.inToken rg n bits = none → nb = false →
            let f : SeSt := { e with inFull := e.inFull.set (fun _ => false) 3 false, mode := .stall, stallOut := false, stallPort := 3 }
            exec (.tokIn x rg u cyc) s = .next (s.setDie x (((c.setEng rg f.clearPort3).runEnd rg .waitIn).seFreezeDue rg))))) ∧
      (∀ p ds nb, d.seAt rg u cyc w (.tokOut p ds nb) →
        (c.pooled rg = false ∨ p ≠ 3 →
          (e.outFull.get (fun _ => false) p = false →
            exec (.tokOut x rg u cyc) s = .next (s.setDie x (done e (fun e =>
              { e.setBk (setC e.bk nb true) with
                outFull := e.outFull.set (fun _ => false) p true, outTok := e.outTok.set (fun _ => 0) p (e.bk.dr ds) })))) ∧
          (e.outFull.get (fun _ => false) p = true → nb = true →
            exec (.tokOut x rg u cyc) s = .next (s.setDie x (done e (fun e => e.setBk (setC e.bk true false))))) ∧
          (e.outFull.get (fun _ => false) p = true → nb = false →
            let f : SeSt := { e with mode := .stall, stallOut := true, stallPort := p }
            exec (.tokOut x rg u cyc) s = .next (s.setDie x ((c.setEng rg (if c.pooled rg then f.clearPort3 else f)).seBoundary rg)))) ∧
        (c.pooled rg = true → p = 3 →
          let held := (c.xr (rosX rg 2 true)).full
          let f : SeSt := { e with outFull := e.outFull.set (fun _ => false) 3 false }
          let v := (f.front.1.commit w).bk.dr ds
          let g := f.retired w false (fun e =>
            { e.setBk (setC e.bk nb true) with outFull := e.outFull.set (fun _ => false) 3 true, outTok := e.outTok.set (fun _ => 0) 3 v })
          let gone := (c.setEng rg g.clearPort3).seFounds rg 0 f.front.2
          let wait : SeSt := { e with outFull := e.outFull.set (fun _ => false) 3 true, mode := .stall, stallOut := true, stallPort := 3 }
          (held = false → c.rosOn = true → c.outMay rg n (e.bk.dr ds) = true →
            exec (.tokOut x rg u cyc) s = .next (s.setDie x ((((gone.outDone rg n v).xPass (rosX rg 2 true) v.toNat).seCount rg).seBoundary rg))) ∧
          (held = false → c.rosOn = false →
            exec (.tokOut x rg u cyc) s = .next (s.setDie x (((gone.xPass (rosX rg 2 true) v.toNat).seCount rg).seBoundary rg))) ∧
          (held = true ∨ (c.rosOn = true ∧ c.outMay rg n (e.bk.dr ds) = false) → nb = true →
            exec (.tokOut x rg u cyc) s = .next (s.setDie x (done { e with outFull := e.outFull.set (fun _ => false) 3 true }
              (fun e => e.setBk (setC e.bk true false))))) ∧
          (held = true → c.rosOn = false → nb = false →
            exec (.tokOut x rg u cyc) s = .next (s.setDie x ((c.setEng rg wait.clearPort3).seBoundary rg))) ∧
          (held = true ∨ c.outMay rg n (e.bk.dr ds) = false → c.rosOn = true → nb = false →
            exec (.tokOut x rg u cyc) s = .next (s.setDie x (((c.setEng rg wait.clearPort3).runEnd rg .waitOut).seFreezeDue rg)))))) ∧
    (∀ p v, p < 4 → d.seLive rg = true → (d.pooled rg = false ∨ p ≠ 3) → (d.eng rg).mode ≠ .off → (d.eng rg).mode ≠ .frozen →
      let e := d.eng rg
      let f := d.setEng rg { e with inFull := e.inFull.set (fun _ => false) p true, inTok := e.inTok.set (fun _ => 0) p v }
      (e.inFull.get (fun _ => false) p = false → exec (.seInputToken x rg p v) s = .next (s.setDie x
        (if e.mode = .stall then f.seEventDue rg else f))) ∧
      (e.outFull.get (fun _ => false) p = true → (d.xr (outX rg p)).flight = false → exec (.seOutputTaken x rg p) s = .next (s.setDie x
        (d.setEng rg { e with outFull := e.outFull.set (fun _ => false) p false, taken := e.taken.set (fun _ => 0) p (e.outTok.get (fun _ => 0) p) })))) ∧
    (d.seLive rg = true → d.pooled rg = false → (d.eng rg).portPending (d.on (F.SE_CFG_HND rg)) = true →
      (d.seBreaks rg (d.eng rg) = false ∧ ((d.eng rg).mode = .stall ∨ ((d.eng rg).mode = .run ∧ (d.eng rg).evDue = true)) ∨
        ((d.eng rg).mode = .halt ∧ (d.eng rg).haltInsn = true)) →
      exec (.portEvent x rg) s = .next (s.setDie x
        (d.setEng rg { (d.eng rg).swapBanks with mode := .run, evDue := false, haltInsn := false })))

/-- An illegal word that reaches Execute faults with cause 1 and no instruction completes. A breakpoint halts before its
instruction with reason 1. On a dedicated engine RUN and STEP leave HALT, RESTART resets the banks from HALT or
FAULT, HALT_REQ halts a stalled engine at once; on a pooled one all are refused with an error. A scrub step of a
word with one flipped bit corrects it, counts it and moves on. A window read of X in HALT answers the word; an
access in another state ends with an error. (06_signal_engines.md R135, 06_signal_engines.md R136,
06_signal_engines.md R138, 06_signal_engines.md R156, 06_signal_engines.md R173, 06_signal_engines.md R174) -/
def Obligations.SeHaltsFaultsAndService : Prop :=
  ∀ (s : State) (x : Die) (d : DieSt) (rg : Nat) (u : List (Nat × Nat × Nat)) (w : ExecSt), s.has x d →
    let e := d.seNow rg u
    (let c := d.seCounted rg u 0
     d.seReach rg u w → c.pooled rg = false → w.perr = false → w.slot = false → seDecode w.word.toNat = none →
      exec (.seNop x rg u) s = .next (s.setDie x (((c.setEng rg e).seFault rg 1).seFreezeDue rg))) ∧
    (let f := d.seNow rg []
     d.seLive rg = true → (f.mode = .run ∨ f.mode = .stall) → f.wrap = none → d.seBreaks rg f = true →
      exec (.seBreakpoint x rg) s = .next (s.setDie x
        ((((d.seFounds rg 0 (d.seFill rg []).2).setEng rg { f with brkSkip := some f.nextPc }).seHalt rg 1).seFreezeDue rg))) ∧
    (∀ m : Master, s.takes x d m (R.SE_CTL rg) →
      let e := d.eng rg
      (d.pooled rg = true →
        exec (.seRun x m rg) s = .next (s.setDie x (d.answer m 0 true)) ∧ exec (.seStep x m rg) s = .next (s.setDie x (d.answer m 0 true)) ∧
        exec (.seRestart x m rg) s = .next (s.setDie x (d.answer m 0 true)) ∧ exec (.seHaltReq x m rg) s = .next (s.setDie x (d.answer m 0 true))) ∧
      (d.pooled rg = false → e.mode = .halt →
        exec (.seRun x m rg) s = .next (s.setDie x
          ((d.setEng rg { e.discard with mode := .run, haltReq := none, haltInsn := false, haltRecov := false }).ack m)) ∧
        exec (.seStep x m rg) s = .next (s.setDie x
          ((d.setEng rg { e.discard with mode := .run, haltReq := some 2, haltInsn := false, haltRecov := false }).ack m))) ∧
      (d.pooled rg = false → (e.mode = .halt ∨ e.mode = .fault) →
        exec (.seRestart x m rg) s = .next (s.setDie x
          ((d.setEng rg { e.resetBanks false (d.f (F.SE_CFG_ENTRY0 rg)) (d.f (F.SE_CFG_ENTRY1 rg)) with mode := .run }).ack m))) ∧
      (d.pooled rg = false → (e.mode = .run ∨ (e.mode = .frozen ∧ e.before = .run)) → exec (.seHaltReq x m rg) s = .next (s.setDie x ((d.setEng rg { e with haltReq := some 3 }).ack m))) ∧
      (d.pooled rg = false → e.mode = .stall → exec (.seHaltReq x m rg) s = .next (s.setDie x ((d.seHalt rg 3).ack m))) ∧
      (d.pooled rg = false → e.mode = .fault → exec (.seRun x m rg) s = .next (s.setDie x (d.ack m)) ∧
        exec (.seStep x m rg) s = .next (s.setDie x (d.ack m)))) ∧
    (∀ m up, m < 3 → d.regionOn rg = true → d.rgState rg = rgRunning → d.ringState rg < 2 →
      let e := d.eng rg
      let a := e.scrub.get (fun _ => 0) m
      let f : SeSt := { e.upset [(m, a, up)] with scrub := e.scrub.set (fun _ => 0) m ((a + 1) % 4096) }
      (f.mclass m a = 0 → exec (.seScrubStep x rg m up) s = .next (s.setDie x (d.setEng rg f))) ∧
      (f.mclass m a = 1 → exec (.seScrubStep x rg m up) s = .next (s.setDie x
        ((d.setEng rg { f with flip := f.flip.set (fun _ => 0) (4096 * m + a) 0 }).seFound rg 1 (m, a, false)))) ∧
      (f.mclass m a = 2 → exec (.seScrubStep x rg m up) s = .next (s.setDie x ((d.setEng rg f).seFound rg 1 (m, a, true))))) ∧
    (∀ (m : Master) (a : Nat) (wr : Bool) (v : Word), d.busUp m = true → d.regionOn rg = true → a < 4096 → d.pooled rg = false →
      ((d.eng rg).mode ≠ .halt → (d.eng rg).mode ≠ .fault →
        exec (.seWindowAccess x m rg (0x8000 + 4 * a) wr v) s = .next (s.setDie x (d.answer m 0 true))) ∧
      ((d.eng rg).mode = .halt → (d.eng rg).mclass 1 a = 0 →
        exec (.seWindowAccess x m rg (0x8000 + 4 * a) false v) s = .next (s.setDie x (d.answer m (((d.eng rg).rdM 1 a).setWidth 32) false))) ∧
      ((d.eng rg).mode = .halt → (m = .referee ∨ m = .team) →
        exec (.seWindowAccess x m rg (0x8000 + 4 * a) true v) s
          = .next (s.setDie x ((d.setEng rg ((d.eng rg).wrM 1 a (v.setWidth 24))).answer m 0 false))))

/-- For every accumulator value that is not 0, shifting it by the exponent EXP writes, left for a positive and right for
a negative one, gives a value whose bits 55 to 47 are all equal and whose bit 46 differs from bit 47, and the
exponent lies between -8 and 47. (06_signal_engines.md R146) -/
def Obligations.ExponentNormalises : Prop :=
  ∀ a : BitVec 56, a ≠ 0 →
    let n := exponent a
    let r := if 0 ≤ n then a <<< n.toNat else a.sshiftRight (-n).toNat
    n ≥ -8 ∧ n ≤ 47 ∧ (r.extractLsb' 47 9 = 0 ∨ r.extractLsb' 47 9 = BitVec.allOnes 9) ∧ r.getLsbD 46 = (!r.getLsbD 47)

/-- A write of ROS_CMD while BUSY is refused with an error; a context number from 40,960 ends with RANGE. Else the
descriptor is read first. ARM: not STOPPED STATE, class 0 not admitted CLASS, then the status of the checks of R183,
QIN claimed by another CLAIMED, a new claim while the Referee restarts STATE (log entry 180); else it claims the
read end of QIN, unless the input is the inbox, and the context becomes WAITING, or READY where a trigger is
pending. STOP: admitted CLASS, outside WAITING to SAVING STATE; a WAITING context is STOPPED at once; for a RUNNING
one whose engine is not stalled the swap is ordered and the command stays BUSY. FREE of a STOPPED context removes
its claims, key and inbox words. TRIGGER fires the software trigger in WAITING to SAVING, else STATE. RESUME takes
ERROR, FAULTED, or UNAVAILABLE once its storage is readable, to STOPPED, else STATE. INSTALL: KEY_EXISTS for a key
of the profile already held; whether the buckets are full is a free choice once any key is installed (log entry 21);
else the key is the entry of the context. REMOVE: NOT_FOUND without a key. SELECT names the context of the state
window. (07_roster.md R183, 07_roster.md R185, 07_roster.md R186, 07_roster.md R202, 07_roster.md R205) -/
def Obligations.RosterCommands : Prop :=
  ∀ (s : State) (x : Die) (d : DieSt) (m : Master) (n : Nat), s.takes x d m R.ROS_CMD →
    let cmds : List Instr := [.rosArm x m n, .rosStop x m n, .rosFree x m n, .rosTrigger x m n, .rosResume x m n, .rosInstall x m n,
      .rosRemove x m n, .rosSelect x m n]
    (d.on F.ROS_CMD_RES_BUSY = true → ∀ i ∈ cmds, exec i s = .next (s.setDie x (d.answer m 0 true))) ∧
    (d.on F.ROS_CMD_RES_BUSY = false → 40960 ≤ n → ∀ i ∈ cmds, exec i s
      = .next (s.setDie x (((d.put F.ROS_CMD_RES_CTX n).put F.ROS_CMD_RES_STATUS 2).ack m))) ∧
    (d.on F.ROS_CMD_RES_BUSY = false → n < 40960 →
      let e := ((d.put F.ROS_CMD_RES_CTX n).descRead n).1
      let c := e.cx n
      let ends := fun (f : DieSt) (st : Nat) => (.next (s.setDie x ((f.put F.ROS_CMD_RES_STATUS st).ack m)) : Out)
      (e.cst n ≠ 1 → exec (.rosArm x m n) s = ends e 1) ∧
      (e.cst n = 1 → e.cClass n = 0 → e.cAdmitted n = false → exec (.rosArm x m n) s = ends e 8) ∧
      (e.cst n = 1 → (e.cClass n ≠ 0 ∨ e.cAdmitted n = true) → e.ctxRange n ≠ 0 → exec (.rosArm x m n) s = ends e (e.ctxRange n)) ∧
      (e.cst n = 1 → (e.cClass n ≠ 0 ∨ e.cAdmitted n = true) → e.ctxRange n = 0 → e.ctxOverlap n = true → exec (.rosArm x m n) s = ends e 3) ∧
      (e.cst n = 1 → (e.cClass n ≠ 0 ∨ e.cAdmitted n = true) → e.ctxRange n = 0 → e.ctxOverlap n = false →
        let held := e.claim (0x640 + e.cQin n)
        let c' : CtxSt := { c with
          wait3 := none, cont := false, endedBy := none, lost := none, descBad := false, watchFrom := e.now, watchDone := false, perK := e.firstK n }
        let armed := fun (f : DieSt) =>
          if c.pend % 64 = 0 then (f.setCx n c').setCst n 2 else (f.setCx n c').ctxReady n c' (c.pendMt + e.cDue n)
        (e.cInbox n = true → exec (.rosArm x m n) s = ends (armed e) 0) ∧
        (e.cInbox n = false →
          (held ≠ 0 → held ≠ claimContext n → exec (.rosArm x m n) s = ends e 4) ∧
          (held = 0 → e.restarting = true → exec (.rosArm x m n) s = ends e 1) ∧
          ((held = 0 ∧ e.restarting = false) ∨ held = claimContext n → exec (.rosArm x m n) s
            = ends (armed (e.setClaim (0x640 + e.cQin n) (claimContext n))) 0))) ∧
      (e.cAdmitted n = true → exec (.rosStop x m n) s = ends e 8) ∧
      (e.cAdmitted n = false → e.cst n < 2 ∨ 6 < e.cst n → exec (.rosStop x m n) s = ends e 1) ∧
      (e.cAdmitted n = false → e.cst n = 2 → ∃ t, exec (.rosStop x m n) s = .next t ∧ s.sameElse t x ∧ (t.die x).cst n = 1 ∧
        (t.die x).f F.ROS_CMD_RES_BUSY = 0 ∧ (t.die x).f F.ROS_CMD_RES_STATUS = 0 ∧ (t.die x).ros.stopCmd = none) ∧
      (∀ r, e.cAdmitted n = false → e.cst n = 5 → e.engineOf n = some r → (e.eng r).mode ≠ .stall → exec (.rosStop x m n) s
        = .next (s.setDie x (((({ e.put F.ROS_CMD_RES_BUSY 1 with ros := { e.ros with stopCmd := some n } } : DieSt).setCx n
            { c with stopping := true }).setRe r { e.re r with orders := .stop :: (e.re r).orders.filter (fun k => k != .stop) }).ack m))) ∧
      (e.cAdmitted n = true → exec (.rosFree x m n) s = ends e 8) ∧
      (e.cst n ≠ 1 → e.cAdmitted n = false → exec (.rosFree x m n) s = ends e 1) ∧
      (e.cst n = 1 → e.cAdmitted n = false → exec (.rosFree x m n) s
        = ends (((((e.ctxUnclaim n).setCx n CtxSt.reset).put (cF n 14 28 16) 0).put (cF n 14 12 0) 0).setCst n 0) 0) ∧
      (e.cst n < 2 ∨ 6 < e.cst n → exec (.rosTrigger x m n) s = ends e 1) ∧
      (2 ≤ e.cst n → e.cst n ≤ 6 → exec (.rosTrigger x m n) s = ends (e.fire n 4) 0) ∧
      (e.cAdmitted n = true → exec (.rosResume x m n) s = ends e 8) ∧
      (e.cAdmitted n = false →
        (e.cst n = 7 ∨ e.cst n = 8 ∨ (e.cst n = 9 ∧ e.ctxReadable n = true) →
          exec (.rosResume x m n) s = ends ((e.setCx n { c with lost := none, descBad := false, cont := false }).setCst n 1) 0) ∧
        (e.cst n < 7 ∨ 9 < e.cst n ∨ (e.cst n = 9 ∧ e.ctxReadable n = false) → exec (.rosResume x m n) s = ends e 1)) ∧
      (let key := (e.rd64 R.ROS_KEY_LO R.ROS_KEY_HI, e.f F.ROS_KEY_CFG_PROFILE)
       let any := e.ros.ctx.cells.any (fun k => k.2.key.isSome)
       let f : DieSt := { e with free := e.free + 1 }
       (e.keyHolder key.1 key.2 ≠ none → exec (.rosInstall x m n) s = ends e 5) ∧
       (any = false → exec (.rosInstall x m n) s = ends (e.setCx n { c with key := some key }) 0) ∧
       (any = true → e.keyHolder key.1 key.2 = none → exec (.rosInstall x m n) s
         = if Config.choice e.free then ends f 6 else ends (f.setCx n { c with key := some key }) 0)) ∧
      (c.key = none → exec (.rosRemove x m n) s = ends e 7) ∧
      (c.key ≠ none → exec (.rosRemove x m n) s = ends (e.setCx n { c with key := none }) 0) ∧
      exec (.rosSelect x m n) s = ends { e with ros := { e.ros with selected := some n } } 0)

/-- A write of any word of the descriptor of a FREE or STOPPED, not admitted context stores the RW fields of Table 07-1
and leaves the others, forms the check bits of the word anew, and, of word 0 of a FREE one, makes the context
STOPPED; one that sets CLASS 0, or of an admitted descriptor or another state, changes nothing and ends with an
error. While the selected context is STOPPED, ERROR or FAULTED the state window reads its state, a word from 4 bytes
low byte first, and Team or the Referee writes it so; words beyond the size of the state read 0 and take no write
(log entry 184); in any other state, with no context selected, or by another writer, the access ends with an error.
The background pass of a descriptor in use, with any bits flipped, corrects every word where none is uncorrectable,
and else does what an uncorrectable descriptor asks for. (07_roster.md R179, 07_roster.md R180, 07_roster.md R205) -/
def Obligations.DescriptorsAndStateWindow : Prop :=
  ∀ (s : State) (x : Die) (d : DieSt) (m : Master) (v : Word),
    (∀ n w, n < 40960 → w < 16 → s.takes x d m (R.ROS_CTX n w) →
      let rw : Word := nth 0 [0x0FFBF800, 0xBF800FFF, 0x8000003F, 0xFFFFFFFF, 0xFFFFFFFF, 0xFFFFFFFF, 0xFFFFFFFF, 0x7FF, 0xFFFFFFFF,
        0xFFFF0FFF, 0xFFFFFFFF, 0xFFFFFFFF, 0, 0, 0, 0] w
      let f := d.wr (R.ROS_CTX n w) ((d.rd (R.ROS_CTX n w) &&& ~~~rw) ||| (v &&& rw))
      let g : DieSt := { f with ros := { f.ros with descFlip := f.ros.descFlip.set (fun _ => 0) (16 * n + w) 0 } }
      let bad := 2 ≤ d.cst n ∨ d.cAdmitted n = true ∨ (w = 0 ∧ bits v.toNat 27 26 = 0)
      (¬ bad → exec (.rosDescriptorWrite x m n w v) s
        = .next (s.setDie x ((if w = 0 ∧ d.cst n = 0 then g.setCst n 1 else g).ack m))) ∧
      (bad → exec (.rosDescriptorWrite x m n w v) s = .next (s.setDie x (d.answer m 0 true)))) ∧
    (s.has x d → ∀ off,
      (d.ros.selected = none → ∀ wr, exec (.rosStateWindowAccess x m off wr v) s = .next (s.setDie x (d.answer m 0 true))) ∧
      (∀ n, d.ros.selected = some n →
        let ok := d.cst n = 1 ∨ d.cst n = 7 ∨ d.cst n = 8
        let up := d.busUp m = true ∧ d.rosOn = true ∧ off % 4 = 0 ∧ off < 4096
        (ok → up →
          (off < d.ctxSize n → exec (.rosStateWindowAccess x m off false v) s = .next (s.setDie x ((d.ctxFound n off 4).answer m
            (BitVec.ofNat 32 (ofBytes [d.ctxByte n off, d.ctxByte n (off + 1), d.ctxByte n (off + 2), d.ctxByte n (off + 3)])) false))) ∧
          (d.ctxSize n ≤ off → exec (.rosStateWindowAccess x m off false v) s = .next (s.setDie x (d.answer m 0 false))) ∧
          (m = .team ∨ m = .referee → exec (.rosStateWindowAccess x m off true v) s = .next (s.setDie x
            ((if off < d.ctxSize n then d.ctxPuts n off [bits v.toNat 7 0, bits v.toNat 15 8, bits v.toNat 23 16, bits v.toNat 31 24]
              else d).ack m))) ∧
          (m ≠ .team → m ≠ .referee → exec (.rosStateWindowAccess x m off true v) s = .next (s.setDie x (d.answer m 0 true)))) ∧
        (¬ ok ∨ ¬ up → ∀ wr, exec (.rosStateWindowAccess x m off wr v) s = .next (s.setDie x (d.answer m 0 true))))) ∧
    (∀ n u, s.has x d → n < 40960 → d.rosOn = true → d.cst n ≠ 0 →
      let f : DieSt := { d with ros := { d.ros with
        descFlip := u.foldl (fun t c => t.upd (fun _ => 0) (16 * n + c.1 % 16) (fun f => eccFlip 39 f c.2)) d.ros.descFlip } }
      let cls := fun w => eccClass 39 (f.ros.descFlip.get (fun _ => 0) (16 * n + w))
      ((∀ w, w < 16 → cls w ≠ 2) → exec (.descriptorScan x n u) s = .next (s.setDie x { f with ros := { f.ros with
        descFlip := (List.range 16).foldl (fun t w => t.set (fun _ => 0) (16 * n + w) 0) f.ros.descFlip } })) ∧
      ((∃ w, w < 16 ∧ cls w = 2) → exec (.descriptorScan x n u) s = .next (s.setDie x (f.descFault n))))

/-- A queue condition, a period, a watch deadline or a fabric event of an armed context with its trigger enabled marks
it pending with the bit of its kind; from WAITING, outside a port-3 wait and with nothing pending, it becomes READY
with the deadline MT plus DUE. The same kind again, in READY to SAVING, sets MERGED and leaves the state and the
deadline. (07_roster.md R187, 07_roster.md R188, 07_roster.md R189) -/
def Obligations.RosterTriggersMakeReady : Prop :=
  ∀ (s : State) (x : Die) (d : DieSt) (n : Nat), s.has x d → d.rosOn = true → d.descRead n = (d, true) → n < 40960 →
    let c := d.cx n
    let ready := fun (c : CtxSt) (k : Nat) =>
      ((d.setCx n { c with pend := 2 ^ k, pendMt := d.mt.toNat, dueDone := false }).setCst n 3).setDl n (d.mt.toNat + d.cDue n)
    let merged := fun (c : CtxSt) => d.setCx n { c with pend := putBit c.pend 6 true }
    (c.pend = 0 → c.wait3 = none → d.cst n = 2 →
      (d.cTrgQ n = true → d.cThresh n ≤ countWords (d.ctxInput n) → exec (.queueTrigger x n) s = .next (s.setDie x (ready c 0))) ∧
      (d.cTrgQ n = true → d.on (cF n 1 23 23) = true → (d.ctxInput n).any (fun w => w.eop) = true →
        exec (.queueTrigger x n) s = .next (s.setDie x (ready c 0))) ∧
      (d.cTrgPeriod n = true → d.cPeriod n ≠ 0 → d.cPhase n ≤ d.mt.toNat → c.perK = (d.mt.toNat - d.cPhase n) / d.cPeriod n →
        exec (.periodTrigger x n) s = .next (s.setDie x (ready { c with perK := c.perK + 1 } 1))) ∧
      (d.cTrgWatch n = true → c.watchDone = false → d.cWatch n ≤ d.now - c.watchFrom →
        exec (.watchTrigger x n) s = .next (s.setDie x (ready { c with watchDone := true } 2))) ∧
      (∀ p, d.usedCtx = [n] → d.cTrgEvent n = true → d.cEventPort n = p →
        exec (.eventTrigger x p) s = .next (s.setDie x (ready c 3)))) ∧
    (3 ≤ d.cst n → d.cst n ≤ 6 →
      (∀ p, d.usedCtx = [n] → d.cTrgEvent n = true → d.cEventPort n = p → bit c.pend 3 = true →
        exec (.eventTrigger x p) s = .next (s.setDie x (merged c))) ∧
      (d.cTrgPeriod n = true → d.cPeriod n ≠ 0 → d.cPhase n ≤ d.mt.toNat → c.perK = (d.mt.toNat - d.cPhase n) / d.cPeriod n →
        bit c.pend 1 = true → exec (.periodTrigger x n) s = .next (s.setDie x (merged { c with perK := c.perK + 1 }))))

/-- In PLAY, dispatch takes the first READY context of its group, in the order of R190, and loads it into the shadow of
the first engine of the group that is IDLE with nothing on its way into it; with none, and no class-0 preemption
open to it, into the free shadow of the engine that runs the latest context; with none, it discards the shadow of
the latest loaded context that stands behind it and loads there; and with none, or no READY context, nothing
changes. A running context of class 1 to 3 past its quantum, with a loaded context of its class or lower, is ordered
out; a shorter run is not. A READY class-0 context with no IDLE engine discards the shadow of the engine with the
latest context among those that neither run nor hold class 0, loads there and orders the swap. A run past RUN_MAX is
ordered out, another is not. An order takes effect at once in a stalled engine. A wait of IN3 or OUT3 ends with the
word or the room: the context is READY and its deadline stays; else nothing changes. DUE_MISSED of an open run whose
deadline has come is raised, where its bit is enabled, and not again in that run. (07_roster.md R190, 07_roster.md
R191, 07_roster.md R193, 07_roster.md R194, 07_roster.md R198, 07_roster.md R200, 07_roster.md R204) -/
def Obligations.RosterPlacesAndEndsRuns : Prop :=
  ∀ (s : State) (x : Die) (d : DieSt), s.has x d → d.rosOn = true →
    let order := fun (f : DieSt) (r : Nat) (o : SwapOrder) => f.setRe r { f.re r with orders := o :: (f.re r).orders.filter (fun k => k != o) }
    let orders := fun (r : Nat) (o : SwapOrder) => if (d.eng r).mode = .stall then (order d r o).rosBoundary r else order d r o
    let load := fun (f : DieSt) (r n : Nat) => f.setRe r { f.re r with loading := some n }
    let idle := fun (k : Nat) => (d.eng k).mode == .idle && (d.eng k).shadow.isNone && (d.re k).loading.isNone
    let ofGroup := fun (g : Nat) => (d.groupEngines g).filter (fun k => d.engTakes k)
    (∀ g, d.playing = true →
      let ready := d.usedCtx.filter (fun k => d.cst k == 3 && d.cGroup k == g && !d.ros.eng.cells.any (fun c => c.2.loading == some k))
      let free := d.latest ((d.runners (ofGroup g)).filter (fun k => d.shadowFree k.1))
      (d.firstOf ready = none → exec (.rosterDispatch x g) s = .next (s.setDie x d)) ∧
      (∀ n, d.firstOf ready = some n → d.descRead n = (d, true) →
        let behind := d.latest (((ofGroup g).filterMap (fun r => ((d.eng r).shadow).map (fun k => (r, k)))).filter (fun k => d.before n k.2))
        (∀ r, (ofGroup g).find? idle = some r → exec (.rosterDispatch x g) s = .next (s.setDie x (load d r n))) ∧
        ((ofGroup g).find? idle = none →
          (d.cClass n = 0 → d.expressCands (ofGroup g) ≠ [] → exec (.rosterDispatch x g) s = .next (s.setDie x d)) ∧
          (d.cClass n ≠ 0 ∨ d.expressCands (ofGroup g) = [] →
            (∀ r k, free = some (r, k) → exec (.rosterDispatch x g) s = .next (s.setDie x (load d r n))) ∧
            (∀ r k, free = none → behind = some (r, k) → exec (.rosterDispatch x g) s = .next (s.setDie x (load (d.discardShadow r) r n))) ∧
            (free = none → behind = none → exec (.rosterDispatch x g) s = .next (s.setDie x d)))))) ∧
    (∀ r n k, d.playing = true → (d.eng r).ctx = some n → (d.eng r).shadow = some k → d.f (F.ROS_GRP_CFG_QUANTUM (d.cGroup n)) ≠ 0 →
      let q := d.f (F.ROS_GRP_CFG_QUANTUM (d.cGroup n)) * 1000
      (d.cClass n ≠ 0 → d.cClass k ≤ d.cClass n → q ≤ d.now - (d.cx n).since →
        exec (.quantumPreempt x r) s = .next (s.setDie x (orders r .preempt))) ∧
      (d.cClass n = 0 ∨ d.cClass n < d.cClass k ∨ d.now - (d.cx n).since < q →
        exec (.quantumPreempt x r) s = .next (s.setDie x d))) ∧
    (∀ n, d.playing = true → d.cst n = 3 → d.cClass n = 0 → d.descRead n = (d, true) → (ofGroup (d.cGroup n)).any idle = false →
      d.ros.eng.cells.any (fun c => c.2.loading == some n) = false →
      (∀ r k, d.latest (d.expressCands (ofGroup (d.cGroup n))) = some (r, k) →
        exec (.expressPreempt x n) s = .next (s.setDie x (order (load (d.discardShadow r) r n) r .preempt))) ∧
      (d.expressCands (ofGroup (d.cGroup n)) = [] → exec (.expressPreempt x n) s = .next (s.setDie x d))) ∧
    (∀ n r, d.engineOf n = some r → d.cst n = 5 → d.cRunMax n ≠ 0 →
      (d.cRunMax n < (d.cx n).ran + (d.now - (d.cx n).since) → exec (.runOverrun x n) s = .next (s.setDie x (orders r .overrun))) ∧
      ((d.cx n).ran + (d.now - (d.cx n).since) ≤ d.cRunMax n → exec (.runOverrun x n) s = .next (s.setDie x d))) ∧
    (∀ n, d.cst n = 2 →
      let ovr := s.setDie x ((d.setCx n { d.cx n with wait3 := none }).setCst n 3)
      let staged := ofBytes [d.ctxByte n 176, d.ctxByte n 177] % 128
      ((d.cx n).wait3 = some .waitIn → exec (.port3WaitEnd x n) s = .next (if d.inReadable n = true then ovr else s.setDie x d)) ∧
      ((d.cx n).wait3 = some .waitOut →
        exec (.port3WaitEnd x n) s = .next (if d.outRoom n (staged + 1) = true then ovr else s.setDie x d))) ∧
    (∀ n,
      let opened := (3 ≤ d.cst n ∧ d.cst n ≤ 5) ∨ (d.cst n = 2 ∧ (d.cx n).wait3 ≠ none) ∨ (d.cst n = 6 ∧ (d.cx n).cont = true)
      let due := opened ∧ d.cDue n ≠ 0 ∧ d.cDl n ≤ d.mt.toNat
      let told := d.setCx n { d.cx n with dueDone := true }
      (due → (d.cx n).dueDone = false → exec (.dueMissed x n) s = .next (s.setDie x
        (if bit (d.f F.ROS_EVT_EN_EN) 3 = true then told.raise 0x702 0x0704 (n % 65536) else told))) ∧
      (¬ due ∨ (d.cx n).dueDone = true → exec (.dueMissed x n) s = .next (s.setDie x d)))

/-- When the save of a preempted resident context ends, every byte of its state image, registers, port-3 state, stage
and windows, stands in context SRAM at the granules from SLOT, the context is READY with its dispatch deadline
unchanged, and the engine no longer saves it. (07_roster.md R180, 07_roster.md R182, 07_roster.md R194) -/
def Obligations.SaveStoresTheState : Prop :=
  ∀ (s : State) (x : Die) (d : DieSt) (n r : Nat) (b : Bool) (q : EngSt), s.has x d → n < 40960 → d.rosOn = true →
    d.ros.eng.cells.find? (fun c => (c.2.saving.head?.map (fun x => x.1)) == some n) = some (r, q) → q.saving = [(n, b)] →
    d.re r = q → (∀ k, d.ros.descFlip.get (fun _ => 0) k = 0) → (d.eng r).shadow = none →
    (d.cx n).endedBy = some .preempt → (d.cx n).descBad = false → (d.cx n).lost = none → (d.cx n).stopping = false →
    d.cst n = 6 → d.cResident n = true →
    ∃ t, exec (.contextMoveEnd x n []) s = .next t ∧ s.sameElse t x ∧ (t.die x).cst n = 3 ∧ (t.die x).cDl n = d.cDl n ∧
      ((t.die x).re r).saving = [] ∧
      (let l := (d.eng r).image b (if b == (d.eng r).active then (d.eng r).p3 else (d.eng r).p3s)
       (∀ k, k < l.length → (t.die x).ros.sram.get (fun _ => 0) (d.cSlotAt n * 128 + k) = nth 0 l k % 256) ∧
       (∀ a, a < d.cSlotAt n * 128 ∨ d.cSlotAt n * 128 + l.length ≤ a →
         (t.die x).ros.sram.get (fun _ => 0) a = d.ros.sram.get (fun _ => 0) a))

/-- With the classifier enabled, a frame that no profile matches changes nothing; under the first profile that matches,
a frame whose key belongs to a context with room in its queue is appended there whole, to the inbox where its input
is one, and counted in MATCH, one of a FREE context or without room is dropped with reason 3 or 2, and one with no
entry goes to MISS_Q where MISS_EN says so and it has room, and is dropped with reason 1 or 2 otherwise (the detail
of a drop at MISS_Q by log entry 183). (07_roster.md R201, 07_roster.md R202, 07_roster.md R203) -/
def Obligations.IntakeAppendsWholeFrames : Prop :=
  ∀ (s : State) (x : Die) (d : DieSt) (p : Nat) (ts : Word64) (l : List Nat), s.has x d → d.rosOn = true → d.hubOn = true →
    d.on F.ROS_CTL_CLS_EN = true → p < 8 →
    let run := exec (.intakeFrame x p ts l) s
    ((∀ i, i < 8 → d.profMatch i p l = false) → run = .next (s.setDie x d)) ∧
    (∀ i, i < 8 → d.profMatch i p l = true → (∀ j, j < i → d.profMatch j p l = false) →
      let item := d.intakeItem i p ts l
      (∀ n, d.keyHolder (d.frameKey i p l) i = some n →
        (d.cst n = 0 → run = .next (s.setDie x (d.intakeDrop i 3 n))) ∧
        (d.cst n ≠ 0 → d.cInbox n = false → d.qWriter (d.cQin n) = some .roster → d.qRoom (d.cQin n) item.length = true →
          run = .next (s.setDie x ((d.qAppend (d.cQin n) item).bump (F.ROS_PROF_CNT_MATCH i)))) ∧
        (d.cst n ≠ 0 → d.cInbox n = false → d.qRoom (d.cQin n) item.length = false →
          run = .next (s.setDie x (d.intakeDrop i 2 n))) ∧
        (d.cst n ≠ 0 → d.cInbox n = true →
          let room := (d.cx n).inbox.length + item.length ≤ 32 * d.cIlen n ∧ d.chReady (d.inboxAt n 0).1 = true
          (room → run = .next (s.setDie x ((d.inboxAppend n item).bump (F.ROS_PROF_CNT_MATCH i)))) ∧
          (¬ room → run = .next (s.setDie x (d.intakeDrop i 2 n))))) ∧
      (d.keyHolder (d.frameKey i p l) i = none → d.on (F.ROS_PROF_PAY_MISS_EN i) = false →
        run = .next (s.setDie x (d.intakeDrop i 1 i))) ∧
      (d.keyHolder (d.frameKey i p l) i = none → d.on (F.ROS_PROF_PAY_MISS_EN i) = true →
        let q := d.f (F.ROS_PROF_PAY_MISS_Q i)
        (d.qWriter q = some .roster → d.qRoom q item.length = true →
          run = .next (s.setDie x ((d.qAppend q item).bump (F.ROS_PROF_CNT_MATCH i)))) ∧
        (d.qWriter q ≠ some .roster ∨ d.qRoom q item.length = false → run = .next (s.setDie x (d.intakeDrop i 2 i)))))

/-- A word that the bound write side offers to an enabled queue with room is stored behind the others with its parity
bits, and passes the units that watch the write side. At a queue full without a mark that yields, it is counted in
REFUSED and sets OVERRUN; a first word then stores nothing, a later word closes its item with a poisoned closing
word (where another item's waits, the item goes, log entry 143), and DISCARD stands until the refused item's EOP,
each further word of which is refused and counted so. With MARK_YIELD a queue full only of kept words stores it and
drops the mark. A disabled queue between items and an end Q_CFG does not name only count it. A check-value unit
gives the oldest result it holds for the queue. Q_WR_TAG offers the same word for Team. (08_queues_and_checks.md
R207, 08_queues_and_checks.md R209, 08_queues_and_checks.md R210, 08_queues_and_checks.md R217,
08_queues_and_checks.md R218, 08_queues_and_checks.md R221, 08_queues_and_checks.md R223) -/
def Obligations.QueueWriteSide : Prop :=
  ∀ (s : State) (x : Die) (d : DieSt) (q : Nat) (who : QEnd) (data : Word64) (tag : Nat), s.has x d → d.hubOn = true → q < 64 → tag < 64 →
    let c := d.que q
    let w : QWord := { data := data, tag := tag, par := wordParity data.toNat tag, closing := false, place := 2, slot := none, err := false }
    let shown := fun (l : List QWord) => l.map (fun w => (w.data, w.tag, w.closing))
    let run := exec (.queueWordWrite x q who data tag) s
    ((∀ u, who ≠ .checkUnit u) → d.qWriter q = some who →
      (d.on (F.Q_CFG_EN q) = true ∨ c.wIn = true) → c.discard = false → c.flushing = false →
      (c.held < d.qCap q → run = .next (s.setDie x ((d.putQue q { c with
        words := c.words ++ [w], wIn := !bit tag 5, wPrio := if c.wIn then c.wPrio else tagPrio tag }).crcWord 1 q data.toNat tag))) ∧
      (d.qCap q ≤ c.held → c.level < d.qCap q → c.mark = true → d.on (F.Q_CFG_MARK_YIELD q) = true →
        ∃ t, run = .next t ∧ s.sameElse t x ∧ (t.die x).f (F.Q_ERR_MARK_LOST q) = 1 ∧ ((t.die x).que q).mark = false ∧
          ((t.die x).que q).kept = [] ∧ shown ((t.die x).que q).words = shown (c.words ++ [w])) ∧
      (d.qCap q ≤ c.held → (c.mark = false ∨ d.on (F.Q_CFG_MARK_YIELD q) = false) →
        ∃ t, run = .next t ∧ s.sameElse t x ∧ (t.die x).f (F.Q_ERR_OVERRUN q) = 1 ∧
          (t.die x).f (F.Q_CNT_REFUSED q) = min 65535 (d.f (F.Q_CNT_REFUSED q) + 1) ∧
          ((t.die x).que q).discard = !bit tag 5 ∧ ((t.die x).que q).wIn = !bit tag 5 ∧
          (shown ((t.die x).que q).words = shown c.words ++
            (if c.wIn && !c.words.any (fun w => w.closing) then [((0 : Word64), 32 + 4 * c.wPrio, true)] else []) ∨
          (c.wIn = true ∧ c.words.any (fun w => w.closing) = true ∧ shown ((t.die x).que q).words = shown (wholeItems c.words))))) ∧
    ((∀ u, who ≠ .checkUnit u) → d.qWriter q = some who → (d.on (F.Q_CFG_EN q) = true ∨ c.wIn = true) → c.discard = true → c.flushing = false →
      ∃ t, run = .next t ∧ s.sameElse t x ∧ (t.die x).f (F.Q_ERR_OVERRUN q) = 1 ∧
        (t.die x).f (F.Q_CNT_REFUSED q) = min 65535 (d.f (F.Q_CNT_REFUSED q) + 1) ∧
        ((t.die x).que q).discard = !bit tag 5 ∧ ((t.die x).que q).words = c.words) ∧
    (∀ u v, who = .checkUnit u → (d.crcU u).offers.find? (fun v => v.1 == q) = some v →
      let e := d.setCrc u { d.crcU u with offers := (d.crcU u).offers.erase v }
      run = .next (s.setDie x (if d.qWriter q = some who then e.qOffer q v.2.toNat 32 else e))) ∧
    ((∀ u, who ≠ .checkUnit u) → d.qWriter q = some who → d.on (F.Q_CFG_EN q) = false → c.wIn = false →
      run = .next (s.setDie x (d.bump (F.Q_CNT_REFUSED q)))) ∧
    (∀ row east, who = .fabric row east → d.qWriter q ≠ some who → run = .next (s.setDie x (d.bump (F.Q_CNT_REFUSED q)))) ∧
    (∀ m, s.takes x d m (R.Q_WR_TAG q) → data.toNat = d.rd64 (R.Q_WR_LO q) (R.Q_WR_HI q) →
      (d.qWriter q = some .team → who = .team →
        ∃ t, run = .next t ∧ exec (.qWrTag x m q tag) s = .next (t.setDie x ((t.die x).ack m))) ∧
      (d.qWriter q ≠ some .team → exec (.qWrTag x m q tag) s = .next (s.setDie x (d.answer m 0 true))))

/-- From every state in which queue q holds at most its capacity of words, counted from the mark where one is held, a
word offered to any queue by any agent, a word read from any queue, a move between the stores and the window and
every command of the read side leave it so. (08_queues_and_checks.md R212, 08_queues_and_checks.md R217,
08_queues_and_checks.md R221) -/
def Obligations.QueueNeverHoldsMoreThanItsCapacity : Prop :=
  ∀ (s t : State) (x : Die) (q k : Nat), q < 64 → k < 64 → ((s.die x).que q).held ≤ (s.die x).qCap q →
    (∃ (who : QEnd) (v : Word64) (tag u n : Nat) (bad : List Nat) (src : QSrc) (m : Master),
      exec (.queueWordWrite x k who v tag) s = .next t ∨ exec (.queueWordRead x k who u) s = .next t ∨
      exec (.spillWriteEnd x k n) s = .next t ∨ exec (.spillFetchEnd x k n bad) s = .next t ∨
      exec (.qFlush x k src) s = .next t ∨ exec (.qMark x k src) s = .next t ∨ exec (.qRewind x k src) s = .next t ∨
      exec (.qClearMark x k src) s = .next t ∨ exec (.qWrTag x m k tag) s = .next t ∨ exec (.qPop x m k u) s = .next t) →
    ((t.die x).que q).held ≤ (t.die x).qCap q

/-- In FIFO mode the read side takes the oldest word, if it is on die, with its tag, and POISON when a stored bit
flipped; an empty queue gives nothing. Q_POP shows the word in the Q_RD registers. A fabric end takes its word over
its data crossing. FLUSH between items of the write side empties the queue, but for the item being read, and drops
the mark; between items of the read side MARK holds the read position, REWIND puts the kept words back or fails with
NO_MARK, inside an item both wait for its end, CLEAR_MARK frees them; a queue in priority mode answers MODE and a
disabled one DISABLED; each from the bus and from a fabric end that may send it. Q_CFG, Q_SPILL_BASE and
Q_SPILL_SIZE take a write that changes no more than EN at any time, with the claims of the ends it binds, and any
other only while the queue is disabled and empty (one that would unpin a queue of an express context, log entry 146,
or take a claim while the Referee restarts, log entry 192, is refused). Words move to the window, and back from
clean lines that hold them, with their data, tags and order kept. Q_UNBIND's wait ends with the queue empty.
(08_queues_and_checks.md R207, 08_queues_and_checks.md R208, 08_queues_and_checks.md R209, 08_queues_and_checks.md
R212, 08_queues_and_checks.md R215, 08_queues_and_checks.md R219, 08_queues_and_checks.md R220,
08_queues_and_checks.md R223) -/
def Obligations.QueueReadSideAndCommands : Prop :=
  ∀ (s : State) (x : Die) (d : DieSt) (q : Nat), s.has x d → d.hubOn = true → q < 64 →
    let c := d.que q
    let st := fun (e : DieSt) (n : Nat) => e.put (F.Q_CMD_RES_STATUS q) n
    (∀ who, d.qReader q = some who → d.qPrio q = false → c.inItem = false → c.mark = false → c.waits = [] →
      (c.words = [] → ∀ u, exec (.queueWordRead x q who u) s = .next (s.setDie x d)) ∧
      (∀ w l, c.words = w :: l → w.place ≠ 1 → w.closing = false → w.err = false → w.tag < 64 → w.par = wordParity w.data.toNat w.tag →
        let taken := ((d.putQue q { c with
          words := l, inItem := !bit w.tag 5, cur := 0, rPrio := tagPrio w.tag, waits := [], out := some ⟨w.data, w.tag, false⟩ }).crcWord 2 q
          w.data.toNat w.tag)
        (∀ row east, who = .fabric row east → d.xReset (qReadX q row east) true = false → (d.xr (qReadX q row east)).srcRst = false →
          (d.xr (qReadX q row east)).full = false →
          exec (.queueWordRead x q who 0) s = .next (s.setDie x (taken.xOffer (qReadX q row east) (w.data.toNat + w.tag * 2 ^ 64)))) ∧
        ((∀ row east, who ≠ .fabric row east) → exec (.queueWordRead x q who 0) s = .next (s.setDie x taken)) ∧
        ((∀ row east, who ≠ .fabric row east) → ∃ t, exec (.queueWordRead x q who 1) s = .next t ∧ s.sameElse t x ∧
          ((t.die x).que q).out = some ⟨w.data ^^^ 1, w.tag, true⟩ ∧ (t.die x).f (F.Q_ERR_POISON q) = 1 ∧
          (t.die x).f (F.Q_CNT_POISON q) = min 65535 (d.f (F.Q_CNT_POISON q) + 1)) ∧
        (∀ m, who = .team → s.takes x d m (R.Q_POP q) → ∃ t, exec (.qPop x m q 0) s = .next t ∧ s.sameElse t x ∧
          (t.die x).rd64 (R.Q_RD_LO q) (R.Q_RD_HI q) = w.data.toNat ∧ (t.die x).f (F.Q_RD_TAG_VALID q) = 1 ∧
          (t.die x).f (F.Q_RD_TAG_POISON q) = 0 ∧ (t.die x).f (F.Q_RD_TAG_TAG q) = w.tag))) ∧
    (∀ m, d.qReader q ≠ some .team → s.takes x d m (R.Q_POP q) →
      exec (.qPop x m q 0) s = .next (s.setDie x (d.answer m 0 true))) ∧
    (let both := fun (i : QSrc → Instr) (src : QSrc) (r : DieSt) =>
       (d.qEndMay q src (src == .writeEnd) = true → exec (i src) s = .next (s.setDie x r)) ∧
       (∀ m, s.takes x d m (R.Q_CMD q) → exec (i (.bus m)) s = .next (s.setDie x (r.ack m)))
     (∀ src, src = .writeEnd ∨ src = .readEnd →
       (c.wIn = false → both (.qFlush x q) src (((st d 0).putQue q { c with
          words := (if c.inItem then c.itemRest else []), kept := [], mark := false, cur := 0, flushing := false }).put
          (F.Q_CMD_RES_BUSY q) 0)) ∧
       (c.wIn = true → both (.qFlush x q) src (((st d 0).setQue q { c with flushing := true }).put (F.Q_CMD_RES_BUSY q) 1))) ∧
     (d.qPrio q = false → d.on (F.Q_CFG_EN q) = true →
       (c.inItem = false →
         both (.qMark x q) .readEnd (st (d.setQue q { c with mark := true, kept := [] }) 0) ∧
         (c.mark = true → both (.qRewind x q) .readEnd ((st d 0).putQue q { c with words := c.kept ++ c.words, kept := [] })) ∧
         (c.mark = false → both (.qRewind x q) .readEnd (st ((st d 0).put (F.Q_ERR_REWIND_FAIL q) 1) 1))) ∧
       (c.inItem = true →
         both (.qMark x q) .readEnd (st (d.setQue q { c with waits := c.waits ++ [.mark] }) 0) ∧
         both (.qRewind x q) .readEnd ((st d 0).setQue q { c with waits := c.waits ++ [.rewind] })) ∧
       both (.qClearMark x q) .readEnd (st (d.setQue q { c with
         mark := false, kept := [], waits := c.waits.filter (fun w => w != .mark) }) 0)) ∧
     (∀ n, (d.qPrio q = true ∧ n = 2) ∨ (d.qPrio q = false ∧ d.on (F.Q_CFG_EN q) = false ∧ n = 3) →
       both (.qMark x q) .readEnd (st d n) ∧ both (.qRewind x q) .readEnd (st d n) ∧ both (.qClearMark x q) .readEnd (st d n))) ∧
    (∀ m k v, k < 3 → s.takes x d m (if k = 0 then R.Q_CFG q else if k = 1 then R.Q_SPILL_BASE q else R.Q_SPILL_SIZE q) →
      d.rd (R.Q_CFG q) &&& 0xFF = 0 →
      let old := (d.rd (R.Q_CFG q)).toNat
      let cfg : Word := (if k = 0 then v else d.rd (R.Q_CFG q)) &&& 0xFFFFFF00
      let base : Word := (if k = 1 then v else d.rd (R.Q_SPILL_BASE q)) &&& 0xC00FFFFF
      let size : Word := (if k = 2 then v else d.rd (R.Q_SPILL_SIZE q)) &&& 0x1FFFF
      let bad := (k = 0 ∧ qCfgReserved v = true) ∨ (k = 2 ∧ 65536 < size.toNat) ∨ (bit cfg.toNat 30 = true ∧ size ≠ 0) ∨
        (d.restarting = true ∧ (d.qEndNew q old cfg.toNat claimReferee true = true ∨ d.qEndNew q old cfg.toNat claimReferee false = true))
      let same := bits cfg.toNat 30 8 = bits old 30 8 ∧ base = d.rd (R.Q_SPILL_BASE q) ∧ size = d.rd (R.Q_SPILL_SIZE q)
      let free := d.on (F.Q_CFG_EN q) = false ∧ c.words = [] ∧ (d.servesExpress q = true → bit cfg.toNat 30 = true)
      let bound := fun (f : DieSt) => (f.qEndBound q old cfg.toNat claimReferee true).qEndBound q old cfg.toNat claimReferee false
      (bad → exec (.qCfgWrite x m q k v) s = .next (s.setDie x (d.answer m 0 true))) ∧
      (¬ bad → same → exec (.qCfgWrite x m q k v) s = .next (s.setDie x ((bound (d.wr (R.Q_CFG q) cfg)).ack m))) ∧
      (¬ bad → ¬ same → free → exec (.qCfgWrite x m q k v) s = .next (s.setDie x
        ((bound ((((d.wr (R.Q_CFG q) cfg).wr (R.Q_SPILL_BASE q) base).wr (R.Q_SPILL_SIZE q) size).qFresh q)).ack m))) ∧
      (¬ bad → ¬ same → ¬ free → exec (.qCfgWrite x m q k v) s = .next (s.setDie x (d.answer m 0 true)))) ∧
    (let shown := fun (l : List QWord) => l.map (fun w => (w.data, w.tag, w.par, w.closing))
     ∀ n, (∃ t, exec (.spillWriteEnd x q n) s = .next t ∧ s.sameElse t x ∧ shown ((t.die x).que q).words = shown c.words) ∧
      (let ch := d.f (F.Q_SPILL_BASE_CH q)
       (∀ w ∈ c.words, w.place = 1 → w.closing = false → ∃ k, w.slot = some k ∧ w.tag < 64 ∧ w.par < 4 ∧ d.spillLine q + k / 7 < d.capLines ch ∧
         (d.ch ch).flips (d.physLine ch (d.spillLine q + k / 7)) = 0 ∧
         (d.ch ch).line (d.physLine ch (d.spillLine q + k / 7)) / 2 ^ (72 * (k % 7)) % 2 ^ 72 = w.stored) →
       ∃ t, exec (.spillFetchEnd x q n []) s = .next t ∧ s.sameElse t x ∧ shown ((t.die x).que q).words = shown c.words)) ∧
    (∀ k, c.unbind = some k → c.words = [] → d.on (F.Q_CFG_EN q) = false → ∃ t, exec (.qUnbindDrainEnd x q false) s = .next t ∧ s.sameElse t x ∧
      (t.die x).f (F.Q_CFG_WSRC q) = 0 ∧ (t.die x).f (F.Q_CFG_RSNK q) = 0 ∧ ((t.die x).que q).unbind = none)

/-- Over the ASCII bytes 123456789 the three parameter sets of Table 08-5 give the results the table states, and a
packet carrying its own FCS gives the stated EXP. RESTART returns the register to INIT, in a running unit that of
the present parameters, which it takes. GO of an unattached, idle unit with a range inside a bonded channel starts a
scan of that range with the present parameters; with the unit attached or busy it fails with code 1, with a bad
range with code 2. A scan that ends writes the result over its bytes and raises CRC_SCAN_DONE; an uncorrectable line
ends it with code 3; ABORT ends it with ERR, code 0 and the result unchanged. (08_queues_and_checks.md R224,
08_queues_and_checks.md R226, 08_queues_and_checks.md R227, 08_queues_and_checks.md R228, 08_queues_and_checks.md
R230) -/
def Obligations.CheckValueUnits : Prop :=
  (let digits := [0x31, 0x32, 0x33, 0x34, 0x35, 0x36, 0x37, 0x38, 0x39]
   let ovr := fun (p : CrcPar) (l : List Nat) => p.result (l.foldl p.byteIn p.start)
   let fcs : CrcPar := ⟨0x3000001F, 0x04C11DB7, 0xFFFFFFFF, 0xFFFFFFFF, 0⟩
   ovr fcs digits = 0xCBF43926 ∧ ovr fcs (digits ++ [0x26, 0x39, 0xF4, 0xCB]) = 0x2144DF1C ∧
    ovr ⟨15, 0x1021, 0xFFFF, 0, 0⟩ digits = 0x29B1 ∧ ovr ⟨63, 0x42F0E1EBA9EA3693, 0, 0, 0⟩ digits = 0x6C40DF5F0B497347) ∧
  ∀ (s : State) (x : Die) (d : DieSt) (u : Nat), s.has x d →
    let c := d.crcU u
    let r := d.scanRange u
    (∀ m, s.takes x d m (R.CRC_CMD u) →
      let p := if c.par.run then d.crcPar u else c.par
      exec (.crcRestart x m u) s = .next (s.setDie x ((d.setCrc u { c with par := p, reg := p.init % 2 ^ p.w }).ack m))) ∧
    (∀ m, s.takes x d m (R.CRC_SCAN_CTL u) →
      (let fails := fun (n : Nat) =>
        (.next (s.setDie x (((d.put (F.CRC_SCAN_STAT_ERR u) 1).put (F.CRC_SCAN_STAT_CODE u) n).ack m)) : Out)
       ((d.on (F.CRC_SCAN_STAT_BUSY u) = true ∨ d.f (F.CRC_ATTACH_KIND u) ≠ 0) → exec (.crcScanGo x m u) s = fails 1) ∧
       (d.on (F.CRC_SCAN_STAT_BUSY u) = false → d.f (F.CRC_ATTACH_KIND u) = 0 →
        (r.2.2 = 0 ∨ d.capLines r.1 * 64 < r.2.1 + r.2.2 ∨ d.idn.ddr ≤ r.1) → exec (.crcScanGo x m u) s = fails 2)) ∧
      (d.on (F.CRC_SCAN_STAT_BUSY u) = false → d.f (F.CRC_ATTACH_KIND u) = 0 → r.2.2 ≠ 0 → r.2.1 + r.2.2 ≤ d.capLines r.1 * 64 →
        r.1 < d.idn.ddr → exec (.crcScanGo x m u) s
          = .next (s.setDie x (((d.setCrc u { c with scan := some ⟨d.crcPar u, r.1, r.2.1, r.2.2⟩ }).put (F.CRC_SCAN_STAT_BUSY u) 1).ack m))) ∧
      (d.on (F.CRC_SCAN_STAT_BUSY u) = true → exec (.crcScanAbort x m u) s
        = .next (s.setDie x (((((d.setCrc u { c with scan := none }).put (F.CRC_SCAN_STAT_BUSY u) 0).put (F.CRC_SCAN_STAT_ERR u) 1).put
          (F.CRC_SCAN_STAT_CODE u) 0).ack m)))) ∧
    (∀ p, c.scan = some p →
      ((∀ k, k < p.lines → d.dramBad p.ch (64 * (p.addr / 64 + k)) = false) →
        ∃ t, exec (.crcScanEnd x u none) s = .next t ∧ s.sameElse t x ∧ ((t.die x).crcU u).scan = none ∧
        (t.die x).f (F.CRC_SCAN_STAT_DONE u) = 1 ∧ (t.die x).f (F.CRC_SCAN_STAT_BUSY u) = 0 ∧ (t.die x).f (F.CRC_SCAN_STAT_CODE u) = 0 ∧
        (t.die x).rd64 (R.CRC_SCAN_RES_LO u) (R.CRC_SCAN_RES_HI u)
          = p.par.result (((List.range p.len).map (fun k => d.dramByte p.ch (p.addr + k))).foldl p.par.byteIn p.par.start) % 2 ^ 64 ∧
        (d.domOn 74 = true → (t.die x).raised.getLast? = some ⟨d.mt, d.source (0x5C0 + u), 0x0812, 0, false, false⟩)) ∧
      (∀ a, a / 64 - p.addr / 64 < p.lines → ∃ t, exec (.crcScanEnd x u (some a)) s = .next t ∧ s.sameElse t x ∧ ((t.die x).crcU u).scan = none ∧
        (t.die x).f (F.CRC_SCAN_STAT_ERR u) = 1 ∧ (t.die x).f (F.CRC_SCAN_STAT_CODE u) = 3))

/-- An offer loads an empty holding register (cut to the register's bits) and puts the value in flight; at a full
register it waits; a source in reset (Table 09-2) offers nothing. The fabric asserts and releases the bank reset
primitive with its offer. The destination takes the value once and does with it what its kind asks for (of TIME and
UMPIRE nothing more), unless it is in reset, has a reset to be seen or holds the take back; the return empties the
register, and an engine's output register, and the next waiting value goes. A pulse with nothing in flight goes, one
behind it is counted up to 15, one more is LOST. An expired timer voids the value, empties the register, counts
TIMEOUT and gives a fabric sender the status 0b01; a void value is counted LATE and not taken. A peer's reset that
the source sees discards what is in flight, counts PEER_RESET and gives 0b10 to a fabric source, and the held offer
stays; a side that sees its peer leave reset goes on. At an engine's ports neither is counted. Below 10 µs no
interval of a class-0 kind is set while an admission stands. Where an event meets the decrease at a fabric source,
or an expiry the take, the order is a free choice. (09_crossings.md R231, 09_crossings.md R234, 09_crossings.md
R236, 09_crossings.md R237, 09_crossings.md R238, 09_crossings.md R242, 09_crossings.md R243, 09_crossings.md R245,
09_crossings.md R249) -/
def Obligations.CrossingsCarryTokensAndPulses : Prop :=
  ∀ (s : State) (x : Die) (d : DieSt) (r : XRef), s.has x d → d.xHas r = true →
    let c := d.xr r
    let leads := fun (e : DieSt) => (.next (s.setDie x e) : Out)
    (∀ v w, xToken r = true → ¬(r.kind = 9 ∧ r.inst = 0) → d.xOwn r v = some w → d.xReset r true = false → d.xStill r = false →
      let u := w % 2 ^ d.xWidth r
      (c.full = false → c.flight = false → c.wait = [] → exec (.crossingOffer x r v) s = leads (d.setXr r
        { c with full := true, value := u, flight := true, flying := u, done := false, void := false, since := d.now })) ∧
      (c.full = true → c.flight = true → r.kind ≠ 9 →
        exec (.crossingOffer x r v) s = leads (d.setXr r { c with wait := c.wait ++ [u] }))) ∧
    (∀ v, xToken r = true → d.xReset r true = true → ¬(r.kind = 9 ∧ r.inst = 0) → exec (.crossingOffer x r v) s = leads d) ∧
    (∀ v, r.kind = 11 → r.inst % 32 = 16 → r.srcFabric = true → d.xEndReset r = false →
      ∃ t, exec (.crossingOffer x r v) s = .next t ∧ s.sameElse t x ∧
        (t.die x).bankRst.get (fun _ => false) (r.inst / 32) = (v % 2 == 1) ∧ (t.die x).regs = d.regs) ∧
    (c.flight = true → c.done = false → d.xBlind r = false →
      (let taken := d.setXr r { c with done := true, out := some c.flying }
       c.void = false →
        (d.xHeld r c.flying = false → exec (.crossingTake x r) s = leads (taken.xDeliver r c.flying)) ∧
        (r.kind = 8 ∨ r.kind = 10 → exec (.crossingTake x r) s = leads taken) ∧
        (d.xHeld r c.flying = true → exec (.crossingTake x r) s = leads d)) ∧
      (c.void = true → ∃ t, exec (.crossingTake x r) s = .next t ∧ s.sameElse t x ∧
        ((t.die x).xr r) = { c with done := true } ∧
        (t.die x).f (F.XING_CNT_A_LATE r.kind) = min 65535 (d.f (F.XING_CNT_A_LATE r.kind) + 1) ∧
        (t.die x).f (F.XING_STAT_LATE r.kind) = 1 ∧ (t.die x).raised = d.raised)) ∧
    (d.xBlind r = true → exec (.crossingTake x r) s = leads d) ∧
    (r.kind = 4 → d.rosOn = true → d.usedCtx = [] → c.flight = true → c.done = false → c.void = false → d.xBlind r = false →
      c.next = false → c.pend ≠ 0 → exec (.pulseDeliver x r) s
        = leads (d.setXr r { c with out := some c.flying, full := false, pend := c.pend - 1, flight := true, flying := c.value, since := d.now })) ∧
    (c.flight = true → c.done = true → ¬(r.kind = 9 ∧ r.inst = 0) → c.dstHit = false → d.xStill r = false → c.next = false → c.pend = 0 →
      (c.void = true → c.full = true → exec (.crossingReturn x r) s = leads (d.setXr r
        { c with flight := true, flying := c.value, done := false, void := false, since := d.now })) ∧
      (c.void = false → c.wait = [] → exec (.crossingReturn x r) s = leads ((d.seEmpties r).setXr r { c with flight := false, done := false, full := false })) ∧
      (∀ v l, c.void = false → c.wait = v :: l → exec (.crossingReturn x r) s = leads ((d.seEmpties r).setXr r
        { c with flight := true, flying := v, done := false, full := true, value := v, wait := l, since := d.now }))) ∧
    (xPulseKind r = true → d.xReset r true = false → d.xStill r = false →
      (c.flight = false → exec (.pulseArrive x r false) s
        = leads (d.setXr r { c with flight := true, flying := c.value, done := false, void := false, since := d.now })) ∧
      (c.flight = true → c.pend < 15 → exec (.pulseArrive x r false) s = leads (d.setXr r { c with pend := c.pend + 1 })) ∧
      (c.flight = true → 15 ≤ c.pend → ∃ t, exec (.pulseArrive x r false) s = .next t ∧ s.sameElse t x ∧ (t.die x).xr r = c ∧
        (t.die x).f (F.XING_STAT_LOST r.kind) = 1 ∧
        (t.die x).f (F.XING_CNT_B_LOST r.kind) = min 65535 (d.f (F.XING_CNT_B_LOST r.kind) + 1)) ∧
      (c.flight = true → c.done = true → c.pend = 15 → c.next = false → c.dstHit = false → ¬(r.kind = 9 ∧ r.inst = 0) → r.srcFabric = false →
        ∃ t, exec (.pulseArrive x r true) s = .next t ∧ s.sameElse t x ∧ ((t.die x).xr r).pend = 15 ∧
          (t.die x).regs = d.regs) ∧
      (r.srcFabric = true → exec (.pulseArrive x r true) s
        = leads (if d.choose.1 then (d.choose.2.xPulse r).xReturn r else (d.choose.2.xReturn r).xPulse r))) ∧
    (d.xDue r = true → d.xBlind r = false → d.xHeld r c.flying = false → exec (.crossingTimeout x r true) s
      = leads (if d.choose.1 then d.choose.2.xTake r else d.choose.2.xExpire r)) ∧
    (∀ i, d.rd (R.XING_CFG r.kind) = BitVec.ofNat 32 i → 0 < i → i < 65536 → c.flight = true → c.done = false → c.void = false →
      d.xStill r = false → c.since + 10 * i ≤ d.now → c.wait = [] →
      ∃ t, exec (.crossingTimeout x r false) s = .next t ∧ s.sameElse t x ∧
        ((t.die x).xr r).void = true ∧ ((t.die x).xr r).full = false ∧ ((t.die x).xr r).flight = true ∧
        ((t.die x).xr r).pend = c.pend - 1 ∧ ((t.die x).xr r).status = c.status ++ d.xStatus r 1 ∧
        (t.die x).f (F.XING_CNT_A_TIMEOUTS r.kind) = min 65535 (d.f (F.XING_CNT_A_TIMEOUTS r.kind) + 1) ∧
        (t.die x).f (F.XING_STAT_TIMEOUT r.kind) = 1) ∧
    (d.xSees r true = true → d.xReset r true = false →
      let g := d.xMark.xr r
      ∃ t, exec (.peerResetSeen x r true) s = .next t ∧ s.sameElse t x ∧
        let n := (t.die x).xr r
        n.dstHit = false ∧ n.dstRst = d.xReset r false ∧ n.pend = 0 ∧ n.next = false ∧ n.void = false ∧ n.done = false ∧
        n.full = (g.full && (g.void || !g.flight) || !g.wait.isEmpty) ∧ n.flight = n.full ∧
        (r.kind ≠ 0 → n.status = g.status ++ d.xStatus r 2 ∧
          (t.die x).f (F.XING_CNT_B_PEER_RESET r.kind) = min 65535 (d.f (F.XING_CNT_B_PEER_RESET r.kind) + 1)) ∧
        (r.kind = 0 → (t.die x).regs = d.regs ∧ n.status = g.status)) ∧
    (d.xSees r false = true → d.xReset r false = false → ∃ t, exec (.peerResetSeen x r false) s = .next t ∧ s.sameElse t x ∧
      ((t.die x).xr r).srcHit = false ∧ ((t.die x).xr r).srcRst = d.xReset r true ∧
      (r.kind ≠ 0 → (t.die x).f (F.XING_CNT_B_PEER_RESET r.kind) = min 65535 (d.f (F.XING_CNT_B_PEER_RESET r.kind) + 1)) ∧
      (r.kind = 0 → (t.die x).regs = d.regs)) ∧
    (d.xReset r false = false →
      (c.full = true → c.flight = true → exec (.peerResetEnd x r true) s = leads (d.setXr r { c with dstRst := false })) ∧
      (c.full = true → c.flight = false → exec (.peerResetEnd x r true) s = leads (d.setXr r
        { c with dstRst := false, flight := true, flying := c.value, done := false, void := false, since := d.now }))) ∧
    (d.xReset r true = false → c.full = false → c.wait = [] →
      exec (.peerResetEnd x r false) s = leads (d.setXr r { c with srcRst := false })) ∧
    (∀ side, d.xReset r (!side) = true → exec (.peerResetEnd x r side) s = leads d) ∧
    (∀ m k v, s.takes x d m (R.XING_CFG k) → k < 12 →
      (k ≠ 9 → d.classZero = false → exec (.xingCfgWrite x m k v) s = leads ((d.wr (R.XING_CFG k) (v &&& 0x3FFFF)).ack m)) ∧
      (k = 1 ∨ k = 2 ∨ k = 6 ∨ k = 7 → d.classZero = true → 0 < bits v.toNat 15 0 → bits v.toNat 15 0 < 1000 → bits v.toNat 17 16 = 0 →
        exec (.xingCfgWrite x m k v) s = leads (d.answer m 0 true)) ∧
      (k = 9 → exec (.xingCfgWrite x m k v) s = leads (d.ack m)))

/-- On a READY channel the oldest offered request of a port, one of ports 8 to 13 once it stands in the offer buffer,
leaves it as an operation, a class-0 one of a fabric port only when R254 allows; at or above DMC_CAP, or on a
channel that is not READY, it ends with ERR. Issue opens the row of the best ready operation, then writes its line
or marks its read; an operation held back by an earlier one on its line is never issued. A read delivers the line
its column command found, whatever has been written since, corrected, or as stored with ERR and the counts; to a
fabric port it goes as eight tokens, the last with tag and ERR. A refresh due is issued outside panic, owed up to
four in panic, and forced beyond; the owed counts never exceed four. MR4 sets and clears the 2x rate and raises
DRAM_HOT; class 0 and panic hold its read back, past 1 ms of panic until the next refresh. (10_dram_controller.md
R252, 10_dram_controller.md R254, 10_dram_controller.md R256, 10_dram_controller.md R257, 10_dram_controller.md
R258, 10_dram_controller.md R259, 10_dram_controller.md R264, 10_dram_controller.md R269) -/
def Obligations.DramRequestsAndRefresh : Prop :=
  ∀ (s : State) (x : Die) (d : DieSt) (c : Nat), s.has x d → c < 4 →
    let h := d.ch c
    let leads := fun (e : DieSt) => (.next (s.setDie x e) : Out)
    let sent := fun (p : Nat) (a : DramAns) (e : DieSt) => if p < 8 then a.tokens.foldl (fun d v => d.xOffer (dramX c p) v) e else e
    let refused := fun (p : Nat) (r : DramReq) (l : List DramReq) =>
      let e := d.setCh c (({ h with offers := h.offers.set (fun _ => []) p l } : DmcSt).reply p ⟨0, r.tag, true⟩)
      (if r.wr then e else sent p ⟨0, r.tag, true⟩ e).chShow c
    (d.dmcOn c = true → d.chReady c = false → ∀ p r l, p < 14 → h.offered p = r :: l →
      exec (.dramRequestAccept x c p none) s = leads (refused p r l)) ∧
    (d.chReady c = true → d.on (F.DMC_STAT_SELFREF c) = false →
    let op := fun (p cls : Nat) (r : DramReq) => ({ id := h.nextId, port := p, cls := cls, req := r, issued := false, since := d.now, got := (0, 0) } : DramOp)
    (∀ (a : DramAns) (k : Nat), a.tokens.length = 8 ∧ (k < 7 → a.tokens[k]? = some (a.data / 2 ^ (64 * k) % 2 ^ 64)) ∧
      a.tokens[7]? = some (a.data / 2 ^ 448 % 2 ^ 64 + a.tag % 256 * 2 ^ 64 + b2n a.err * 2 ^ 72)) ∧
    (∀ p v, p < 8 → let r : XRef := ⟨6, 4 * c, p, true⟩
      d.xHas r = true → (d.xr r).flight = true → (d.xr r).done = false → (d.xr r).void = false → d.xBlind r = false → (d.xr r).flying = v →
      bit v 30 = false → h.partialWr.get (fun _ => none) p = none → (h.offered p).length < 32 →
      ∃ t, exec (.crossingTake x r) s = .next t ∧ s.sameElse t x ∧ ((t.die x).xr r).done = true ∧
        ((t.die x).ch c).offered p = h.offered p ++ [⟨v % 2 ^ 30, false, 0, 2 ^ 64 - 1, bits v 38 31⟩]) ∧
    (∀ p r l, p < 14 → h.offered p = r :: l →
      (d.portClass c p ≠ 0 → r.line < d.capLines c → exec (.dramRequestAccept x c p none) s
        = leads ((d.setCh c { h with offers := h.offers.set (fun _ => []) p l, ops := h.ops ++ [op p (d.portClass c p) r], nextId := h.nextId + 1 }).chShow c)) ∧
      (d.portClass c p ≠ 0 ∨ d.mayAccept c p r = true → d.capLines c ≤ r.line →
        exec (.dramRequestAccept x c p none) s = leads (refused p r l)) ∧
      (d.portClass c p = 0 → d.mayAccept c p r = false → exec (.dramRequestAccept x c p none) s = leads (d.chShow c)) ∧
      (d.portClass c p = 0 → d.mayAccept c p r = true → r.line < d.capLines c → h.ops = [] →
        exec (.dramRequestAccept x c p none) s = leads ((d.setCh c { h with
          offers := h.offers.set (fun _ => []) p l, ops := [op p 0 r], nextId := h.nextId + 1
          tokens := h.tokens.set (fun _ => (0, 0)) p (d.tokensNow c p - 1000, d.now) }).chShow c))) ∧
    (∀ p (a : DramArg), 8 ≤ p → p < 14 → h.offered p = [] → a.line < d.capLines c →
      let r : DramReq := ⟨a.line, a.wr, a.data % 2 ^ 512, if p = 12 ∨ p = 13 then a.be % 2 ^ 64 else 2 ^ 64 - 1, a.tag % 256⟩
      exec (.dramRequestAccept x c p (some a)) s = leads ((d.setCh c { h with
        offers := (h.offers.set (fun _ => []) p [r]).set (fun _ => []) p [], ops := h.ops ++ [op p (d.portClass c p) r]
        nextId := h.nextId + 1 }).chShow c)) ∧
    (∀ o, d.refreshNext c = none → h.ops = [o] → o.issued = false →
      let a := d.lineFields c o.req.line
      (h.openRow.get (fun _ => none) a.bankKey ≠ some a.row → exec (.dramCommandIssue x c [o.id]) s
        = leads ((d.setCh c { h with openRow := h.openRow.set (fun _ => none) a.bankKey (some a.row) }).chShow c)) ∧
      (h.openRow.get (fun _ => none) a.bankKey = some a.row → o.req.wr = true → o.req.be = 2 ^ 64 - 1 →
        exec (.dramCommandIssue x c [o.id]) s = leads ((d.setCh c { h with
          mem := h.mem.set (fun _ => 0) (d.physLine c o.req.line) (o.req.data % 2 ^ 512)
          flip := h.flip.set (fun _ => 0) (d.physLine c o.req.line) 0, ops := [] }).chShow c)) ∧
      (h.openRow.get (fun _ => none) a.bankKey = some a.row → o.req.wr = false →
        exec (.dramCommandIssue x c [o.id]) s = leads ((d.setCh c { h with ops := [{ o with
          issued := true, got := (h.line (d.physLine c o.req.line), h.flips (d.physLine c o.req.line)) }] }).chShow c))) ∧
    (∀ o t ready, o ∈ h.ops → o.issued = false → heldBack h.ops o = true → h.ops.Pairwise (fun e f => e.id ≠ f.id) →
      exec (.dramCommandIssue x c ready) s = .next t → o ∈ ((t.die x).ch c).ops) ∧
    (∀ o v, h.ops = [o] → o.issued = true → o.got = (v, 0) → v ≠ h.line (d.physLine c o.req.line) →
      exec (.dramReadDone x c o.id 0 none) s
        = leads (((sent o.port ⟨v, o.req.tag, false⟩ (d.setCh c (({ h with ops := [] } : DmcSt).reply o.port ⟨v, o.req.tag, false⟩))).retime c).chShow c)) ∧
    (∀ o w, h.ops = [o] → o.issued = true → w ≠ o.req.line → ∃ t, exec (.dramReadDone x c o.id 0 (some w)) s = .next t ∧
      s.sameElse t x ∧ ((((t.die x).ch c).ans.get (fun _ => []) o.port).getLast?).map (fun a => a.err) = some true ∧
      (t.die x).f (F.DMC_ECC_CNT_UNCORR c) = min 65535 (d.f (F.DMC_ECC_CNT_UNCORR c) + 1)) ∧
    (∀ o, h.ops = [o] → o.issued = true → o.got = (h.line (d.physLine c o.req.line), 0) →
      (h.flips (d.physLine c o.req.line) = 0 → exec (.dramReadDone x c o.id 0 none) s = leads (((sent o.port ⟨h.line (d.physLine c o.req.line), o.req.tag, false⟩
          (d.setCh c (({ h with flip := h.flip.set (fun _ => 0) (d.physLine c o.req.line) 0, ops := [] } : DmcSt).reply o.port
            ⟨h.line (d.physLine c o.req.line), o.req.tag, false⟩))).retime c).chShow c)) ∧
      (h.flips (d.physLine c o.req.line) = 0 → ∃ t, exec (.dramReadDone x c o.id 1 none) s = .next t ∧ s.sameElse t x ∧
        (((t.die x).ch c).ans.get (fun _ => []) o.port).getLast? = some ⟨h.line (d.physLine c o.req.line), o.req.tag, false⟩ ∧
        (t.die x).f (F.DMC_ECC_CNT_CORR c) = min 65535 (d.f (F.DMC_ECC_CNT_CORR c) + 1)) ∧
      (h.flips (d.physLine c o.req.line) = 0 → ∃ t, exec (.dramReadDone x c o.id 17 none) s = .next t ∧ s.sameElse t x ∧
        ((((t.die x).ch c).ans.get (fun _ => []) o.port).getLast?).map (fun a => a.err) = some true ∧
        (t.die x).f (F.DMC_ECC_CNT_UNCORR c) = min 65535 (d.f (F.DMC_ECC_CNT_UNCORR c) + 1) ∧ (t.die x).on (F.DMC_ERR_VALID c) = true)) ∧
    (∀ rank, rank < d.ranks c → rank < 2 →
      (d.chPanic c = false → d.refSpaced c rank = true → h.mr4Wait.get (fun _ => none) rank = none → exec (.refreshDue x c rank) s
        = leads (d.setCh c { h with lastRef := h.lastRef.set (fun _ => 0) rank (d.now + 1), openRow := h.openRow.keep (fun b => b / 32 % 2 != rank) })) ∧
      ((d.chPanic c = true ∨ d.refSpaced c rank = false) → d.owed c rank < 4 →
        ∃ t, exec (.refreshDue x c rank) s = .next t ∧ s.sameElse t x ∧ (t.die x).owed c rank = d.owed c rank + 1) ∧
      (d.chPanic c = true → d.refSpaced c rank = true → d.owed c rank = 4 → ∃ t, exec (.refreshDue x c rank) s = .next t ∧
        s.sameElse t x ∧ (t.die x).owed c rank = 4 ∧ (t.die x).f (F.DMC_REF_FORCED c) = min 65535 (d.f (F.DMC_REF_FORCED c) + 1))) ∧
    (∀ t rank ready, d.owed c 0 ≤ 4 → d.owed c 1 ≤ 4 →
      exec (.refreshDue x c rank) s = .next t ∨ exec (.dramCommandIssue x c ready) s = .next t →
      (t.die x).owed c 0 ≤ 4 ∧ (t.die x).owed c 1 ≤ 4) ∧
    (∀ ind, d.refSpaced c 0 = true → d.chPanic c = false → h.mr4Wait.get (fun _ => none) 0 = some ind →
      ∃ t, exec (.refreshDue x c 0) s = .next t ∧ s.sameElse t x ∧ (t.die x).f (F.DMC_REF_HALF0 c) = (if ind = 0 then 0 else 1) ∧
        ((t.die x).ch c).mr4Wait.get (fun _ => none) 0 = none) ∧
    (d.chPanic c = false →
      let e := d.setCh c { h with mr4Held := h.mr4Held.set (fun _ => 0) 0 0, mr4Wait := h.mr4Wait.set (fun _ => none) 0 none }
      (∀ ind, exec (.mr4Read x c 0 ind true) s = leads d) ∧
      exec (.mr4Read x c 0 0 false) s = leads (e.put (F.DMC_REF_HALF0 c) 0) ∧
      (d.on (F.DMC_REF_HALF0 c) = true → exec (.mr4Read x c 0 1 false) s = leads e) ∧
      (bit (d.f (F.DMC_EVT_EN_EN c)) 2 = true → exec (.mr4Read x c 0 2 false) s
        = leads ((e.put (F.DMC_REF_HALF0 c) 1).raise (0x5D0 + 4 * c + 3) 0x0A03 (2 ^ 21 + 2 ^ 22)))) ∧
    (∀ ind c0, d.chPanic c = true →
      let t := h.mr4Held.get (fun _ => 0) 0
      (t = 0 → exec (.mr4Read x c 0 ind c0) s = leads (d.setCh c { h with mr4Held := h.mr4Held.set (fun _ => 0) 0 (d.now + 1) })) ∧
      (t ≠ 0 → d.now + 1 ≤ t + 1000000 → exec (.mr4Read x c 0 ind c0) s = leads d) ∧
      (t ≠ 0 → t + 1000000 < d.now + 1 →
        exec (.mr4Read x c 0 ind c0) s = leads (d.setCh c { h with mr4Wait := h.mr4Wait.set (fun _ => none) 0 (some ind) }))))

/-- A patrol step reads the next line and writes a correctable one back corrected. A retraining counts failures in a row
and a success clears the count, and a new timing setting it finds waits until no request of its rank is in flight;
the third failure raises DRAM_TRAIN_FAIL. A slot of another kind changes nothing held here. DMC_CMD SPARE of a row
below the spare row takes a free entry and starts copying, or answers RANGE or STATE; a copy step moves one line;
FREE of an ACTIVE entry clears it; RETRAIN asks both ranks. Training ends in READY with the capacity without the
reserved row, or in FAILED with cause 1 or 2; VDDQ lost, or three failed slots on every rank, end in FAILED with
cause 4 or 3 (while no warm resume waits for its save). A post-package repair (entry in STATE 3) that fails leaves
the entry ACTIVE, one that succeeds frees it. (10_dram_controller.md R252, 10_dram_controller.md R260,
10_dram_controller.md R261, 10_dram_controller.md R265, 10_dram_controller.md R266, 10_dram_controller.md R267,
10_dram_controller.md R268, 10_dram_controller.md R269, 10_dram_controller.md R271) -/
def Obligations.DramBackgroundSparingAndTraining : Prop :=
  ∀ (s : State) (x : Die) (d : DieSt) (c : Nat), s.has x d → c < 4 → d.dmcOn c = true →
    let h := d.ch c
    let leads := fun (e : DieSt) => (.next (s.setDie x e) : Out)
    (d.mayBackground c false = true →
      (let l := h.patrol
       let p := d.physLine c l
       h.flips p = 0 → l + 1 < d.capLines c →
        exec (.patrolScrubStep x c 0 false) s = leads (d.setCh c { h with flip := h.flip.set (fun _ => 0) p 0, patrol := l + 1 }) ∧
        (∃ t, exec (.patrolScrubStep x c 2 false) s = .next t ∧ s.sameElse t x ∧ ((t.die x).ch c).flips p = 0 ∧
          ((t.die x).ch c).patrol = l + 1 ∧ ((t.die x).ch c).line p = h.line p % 2 ^ 512 ∧
          (t.die x).f (F.DMC_ECC_CNT_CORR c) = min 65535 (d.f (F.DMC_ECC_CNT_CORR c) + 1))) ∧
      (∀ rank, rank < d.ranks c →
        (h.trainFails.get (fun _ => 0) rank = 2 → bit (d.f (F.DMC_EVT_EN_EN c)) 4 = true →
          ∀ mv, exec (.calibrationSlot x c rank (.retrain mv) false false) s = leads (((d.setCh c { h with
            trainFails := h.trainFails.set (fun _ => 0) rank 3, retrain := h.retrain.set (fun _ => false) rank false }).retime c).raise
              (0x5D0 + 4 * c + 3) 0x0A05 (rank * 2 ^ 23))) ∧
        (h.trainFails.get (fun _ => 0) rank ≠ 2 → ∀ mv, exec (.calibrationSlot x c rank (.retrain mv) false false) s = leads ((d.setCh c { h with
            trainFails := h.trainFails.set (fun _ => 0) rank (h.trainFails.get (fun _ => 0) rank + 1)
            retrain := h.retrain.set (fun _ => false) rank false }).retime c)) ∧
        (∀ mv : Option Nat, exec (.calibrationSlot x c rank (.retrain mv) true false) s = leads ((d.setCh c { h with
          trainFails := h.trainFails.set (fun _ => 0) rank 0, retrain := h.retrain.set (fun _ => false) rank false
          timingNext := if mv = none then h.timingNext else h.timingNext.set (fun _ => none) rank mv }).retime c)) ∧
        (∀ kind ok, kind = .zq ∨ kind = .oscillator → exec (.calibrationSlot x c rank kind ok false) s = leads d)) ∧
      (h.timingNext = Tab.empty → d.retime c = d) ∧
      (∀ v, d.ranks c = 1 → h.timingNext.get (fun _ => none) 0 = some v → h.ops = [] → d.retime c = d.setCh c { h with
        timing := h.timing.set (fun _ => 0) 0 v, timingNext := h.timingNext.set (fun _ => none) 0 none }) ∧
      (∀ k, k < 64 → d.f (F.DMC_SPARE_STATE c k) = 1 →
        let n := h.copied.get (fun _ => 0) k
        let a : LineAddr := { subch := d.f (F.DMC_SPARE_SUBCH c k), bank := d.f (F.DMC_SPARE_BANK c k), col := n,
                              rank := d.f (F.DMC_SPARE_RANK c k), row := d.f (F.DMC_SPARE_ROW c k) }
        let src := d.lineOf c a
        let dst := d.lineOf c { a with row := d.dramRows c - 1 }
        d.physLine c src = src → h.flips src = 0 → n + 1 < d.rowLines c → exec (.spareCopyStep x c k 0 false) s
          = leads (d.setCh c { h with
              mem := h.mem.set (fun _ => 0) dst (h.line src % 2 ^ 512)
              flip := (h.flip.set (fun _ => 0) src 0).set (fun _ => 0) dst 0, copied := h.copied.set (fun _ => 0) k (n + 1) }))) ∧
    (∀ m, s.takes x d m (R.DMC_CMD c) →
      (∀ subch rank bank row, d.chReady c = true → (d.ranks c ≤ rank ∨ d.dramRows c - 1 ≤ row) →
        exec (.dmcSpare x m c subch rank bank row) s = leads ((d.put (F.DMC_CMD_RES_STATUS c) 2).ack m)) ∧
      (∀ subch rank bank row, d.chReady c = true → subch < 2 → bank < 32 → rank < d.ranks c → row < d.dramRows c - 1 → row < 2 ^ 17 →
        (∀ k, k < 64 → d.f (F.DMC_SPARE_STATE c k) = 0) → ∃ t, exec (.dmcSpare x m c subch rank bank row) s = .next t ∧ s.sameElse t x ∧
          (t.die x).f (F.DMC_SPARE_STATE c 0) = 1 ∧ (t.die x).f (F.DMC_SPARE_SUBCH c 0) = subch ∧
          (t.die x).f (F.DMC_SPARE_BANK c 0) = bank ∧ (t.die x).f (F.DMC_SPARE_ROW c 0) = row ∧
          ((t.die x).ch c).copied.get (fun _ => 0) 0 = 0 ∧ (t.die x).on (F.DMC_CMD_RES_BUSY c) = true ∧
          (t.die x).f (F.DMC_CMD_RES_STATUS c) = 0) ∧
      (∀ k, k < 64 → (d.f (F.DMC_SPARE_STATE c k) ≠ 2 → exec (.dmcFree x m c k) s = leads ((d.put (F.DMC_CMD_RES_STATUS c) 3).ack m)) ∧
        (d.f (F.DMC_SPARE_STATE c k) = 2 → ∃ t, exec (.dmcFree x m c k) s = .next t ∧ s.sameElse t x ∧
          (t.die x).rd (R.DMC_SPARE c k) = 0 ∧ (t.die x).f (F.DMC_CMD_RES_STATUS c) = 0)) ∧
      (d.chReady c = false → exec (.dmcRetrain x m c) s = leads ((d.put (F.DMC_CMD_RES_STATUS c) 3).ack m)) ∧
      (d.chReady c = true → ∃ t, exec (.dmcRetrain x m c) s = .next t ∧ s.sameElse t x ∧ (t.die x).f (F.DMC_CMD_RES_STATUS c) = 0 ∧
        ∀ r, r < d.ranks c → ((t.die x).ch c).retrain.get (fun _ => false) r = true)) ∧
    (d.f (F.DMC_STAT_STATE c) = 1 → s.d0.pwr.kept = none → s.d1.pwr.kept = none →
      (d.dramConfigOk c = true → ∀ hp, exec (.channelTrainingEnd x c (.ok hp)) s
        = leads (((d.setCh c { h with hppr := hp }).put (F.DMC_STAT_STATE c) 2).put (F.DMC_CAP_SIZE c) ((d.nominalLines c - d.rowStride c) / 1024))) ∧
      (d.dramConfigOk c = true → ∃ t, exec (.channelTrainingEnd x c .fail) s = .next t ∧ s.sameElse t x ∧
        (t.die x).f (F.DMC_STAT_STATE c) = 3 ∧ (t.die x).f (F.DMC_STAT_CAUSE c) = 1) ∧
      (∀ res, res = .config ∨ d.dramConfigOk c = false → ∃ t, exec (.channelTrainingEnd x c res) s = .next t ∧ s.sameElse t x ∧
        (t.die x).f (F.DMC_STAT_STATE c) = 3 ∧ (t.die x).f (F.DMC_STAT_CAUSE c) = 2)) ∧
    (∀ cause, d.f (F.DMC_STAT_STATE c) = 2 → s.d0.pwr.kept = none → s.d1.pwr.kept = none →
      (cause = 4 ∧ bit (d.f F.PWR_SUP_STAT_VDDQ) c = false) ∨
        (cause = 3 ∧ ∀ r, r < d.ranks c → 3 ≤ h.trainFails.get (fun _ => 0) r) → ∃ t, exec (.dramChFail x c cause) s = .next t ∧ s.sameElse t x ∧
      (t.die x).f (F.DMC_STAT_STATE c) = 3 ∧ (t.die x).f (F.DMC_STAT_CAUSE c) = cause ∧ ((t.die x).ch c).ops = []) ∧
    (∀ k, k < 64 → d.dev = 7 → d.f (F.DMC_SPARE_STATE c k) = 3 →
      (∃ t, exec (.postPackageRepairEnd x c k false) s = .next t ∧ s.sameElse t x ∧ (t.die x).f (F.DMC_SPARE_STATE c k) = 2) ∧
      (∃ t, exec (.postPackageRepairEnd x c k true) s = .next t ∧ s.sameElse t x ∧ (t.die x).rd (R.DMC_SPARE c k) = 0))

/-- A DOWN port that is enabled trains on a detected signal; a training that succeeds ends in HOLD before LINE-UP and in
UP or DEGRADED after, with the peer's identity shown (in a package of two dies die 1 takes the ID that die 0
learns), and one that fails, or leaves fewer than three lanes, ends in DOWN; a link-control failure takes a port
DOWN. An active lane that fails hands its traffic to a free spare, raises SLK_SPARE and keeps the port UP; with
three lanes left it is DEGRADED, with fewer DOWN. A transmission takes the oldest message of the lowest class with a
message, with MT0 the MT of that moment where the message is this device's own, and keeps it for replay under the
next number; a replay puts the messages not acknowledged on the lanes again in their order, with their numbers, and
counts REPLAYS. Each state change raises SLK_LINK. (11_links_and_time.md R273, 11_links_and_time.md R274,
11_links_and_time.md R277, 11_links_and_time.md R278, 11_links_and_time.md R281, 15_reliability.md R404) -/
def Obligations.SunislinkPortStates : Prop :=
  ∀ (s : State) (x : Die) (d : DieSt) (p : Nat), s.has x d → d.portLive p = true → p < 4 →
    let c := d.prt p
    let go := fun (e : DieSt) (st fl : Nat) => ((e.setPrt p { e.prt p with downAt := if st = 0 then e.now + 1 else 0 }).put
      (F.SLK_PORT_STAT_STATE p) st).raiseIf (bit (d.f F.SLK_EVT_EN_EN) 0) (0x5E0 + 5 * p) 0x0B01
      (st * 2 ^ 21 + fl * 2 ^ 16)
    (d.portState p = 0 → d.on (F.SLK_PORT_CTL_EN p) = true → d.pwr.pll = true → exec (.signalDetect x p) s
      = .next (s.setDie x (go ((d.put (F.SLK_PORT_STAT_FAILED p) (d.lanesOut p)).setPrt p { c with spare := none }) 1 (d.lanesOut p)))) ∧
    (d.portState p = 1 →
      (∀ peer : SlkPeer, peer.ok = false ∨ 2 < popcount 5 (Nat.lor (peer.failed % 32) (d.lanesOut p)) → exec (.portTrainingEnd x p peer) s
        = .next (s.setDie x (go d 0 (d.f (F.SLK_PORT_STAT_FAILED p)))).idPair) ∧
      (∀ id a b, d.lanesOut p = 0 → id < 2 ^ 11 → (d.on F.SLK_ID_VALID = false ∨ d.f F.SLK_ID_ID ≠ id) → c.dup = false →
        (x = .die0 ∨ s.d0.f F.CFG_STAT_MODE ≠ 4 ∨ s.d0.f F.SLK_ID_ID ≠ id) →
        ∃ t, exec (.portTrainingEnd x p ⟨true, 0, some id, false, false, none, a, b⟩) s = .next t ∧ (s.d0.f F.CFG_STAT_MODE ≠ 4 → s.sameElse t x) ∧
          (t.die x).portState p = (if d.dev < 3 ∨ d.dev = 8 then 2 else 3) ∧ (t.die x).f (F.SLK_PORT_STAT_PEER_ID p) = id ∧
          (t.die x).on (F.SLK_PORT_STAT_PEER_VALID p) = true ∧ (t.die x).f (F.SLK_PORT_STAT_FAILED p) = 0) ∧
      (∀ i a b, i < 4 → d.lanesOut p = 2 ^ i → c.dup = false → ∃ t, exec (.portTrainingEnd x p ⟨true, 0, none, false, false, none, a, b⟩) s = .next t ∧
        (s.d0.f F.CFG_STAT_MODE ≠ 4 → s.sameElse t x) ∧ (t.die x).portState p = (if d.dev < 3 ∨ d.dev = 8 then 2 else 3) ∧
        (t.die x).f (F.SLK_PORT_STAT_FAILED p) = 2 ^ i ∧ ((t.die x).prt p).spare = some i) ∧
      (d.lanesOut p = 0 → d.on F.SLK_ID_VALID = true → ∀ a b, ∃ t, exec (.portTrainingEnd x p ⟨true, 0, some (d.f F.SLK_ID_ID), false, false, none, a, b⟩) s = .next t ∧
        (s.d0.f F.CFG_STAT_MODE ≠ 4 → s.sameElse t x) ∧ (t.die x).portState p = 2 ∧ ((t.die x).prt p).dup = true)) ∧
    (d.portState p ≠ 0 → exec (.linkControlFail x p) s = .next (s.setDie x (go d 0 (d.f (F.SLK_PORT_STAT_FAILED p))))) ∧
    (d.portState p = 3 → 3 ≤ d.dev → d.dev ≠ 8 → c.dup = false → ∀ i, i < 4 →
      (d.f (F.SLK_PORT_STAT_FAILED p) = 0 → c.spare = none → ∃ t, exec (.laneFail x (5 * p + i)) s = .next t ∧ s.sameElse t x ∧
        (t.die x).portState p = 3 ∧ ((t.die x).prt p).spare = some i ∧ (t.die x).f (F.SLK_PORT_STAT_FAILED p) = 2 ^ i ∧
        (d.domOn 74 = true → bit (d.f F.SLK_EVT_EN_EN) 1 = true → (t.die x).raised
          = d.raised ++ [⟨d.mt, d.source (0x5E0 + 5 * p), 0x0B02, i * 2 ^ 21, false, false⟩])) ∧
      (d.f (F.SLK_PORT_STAT_FAILED p) = 16 → ∃ t, exec (.laneFail x (5 * p + i)) s = .next t ∧ s.sameElse t x ∧
        (t.die x).portState p = 4 ∧ (t.die x).f (F.SLK_PORT_STAT_FAILED p) = 16 + 2 ^ i)) ∧
    (d.portState p = 3 → ∀ m : SlkMsg, m.payload.length ≤ 256 → m.cls < 4 → c.unacked = [] → d.watchers 6 p = [] →
      let sent := fun (m : SlkMsg) (rest : List SlkMsg) =>
        let n : SlkMsg := if m.src = d.f F.SLK_ID_ID then { m with mt0 := d.mt.toNat } else m
        (d.setPrt p { c with out := rest, unacked := [n], lane := some n, lanes := [(c.txNum, n)], txNum := c.txNum + 1 }).xPass
          ⟨7, 5 * p + 3, 0, false⟩ (ofBytes (m.payload.take 8))
      (c.out = [m] → exec (.slkMessageTransmit x p 0 none) s = .next (s.setDie x (sent m []))) ∧
      (∀ m0 : SlkMsg, m0.payload.length ≤ 256 → c.out = [m, m0] → m.cls = 1 → m0.cls = 0 → d.watchers 6 p = [] →
        exec (.slkMessageTransmit x p 0 none) s = .next (s.setDie x (sent m0 [m])))) ∧
    (2 ≤ d.portState p → ∀ m l, c.unacked = m :: l → exec (.slkReplay x p 1) s
      = .next (s.setDie x ((d.setPrt p { c with
          unacked := l, lane := (l.getLast?).or c.lane
          lanes := ((List.range l.length).map (fun i => c.txNum - l.length + i)).zip l }).bump (F.SLK_PORT_CNT_REPLAYS p))))

/-- A message whose CRC is not that of its header and payload is counted and a replay asked for, as one is that comes
behind a missing number; one already taken is discarded. Of the next number, one with a reserved KIND or LEN above
256 is dropped; for another device it goes on by PRI, with HOPS one lower, or is dropped with HOPS 0; an EVENT
message for this device enters the collector when RX_EN is set. At LINE-UP, KICKOFF_N risen and every downstream
port of both dies READY, the root broadcasts its MT plus KLEAD as the PLAY instant and another device sends READY by
its upstream port; die 0 does it for the package. An instant already past raises KICKOFF_LATE and is not taken; one
taken holds for both dies. A whole queue item of one payload word becomes one message of its descriptor, and one
that breaks the rules of R287 is taken and dropped. A token spends a credit; a class-0 channel that has sent its
RATE in this microsecond holds the next (log entry 161); a channel without credit for 1 ms stalls until
SLK_CHAN_RST. (11_links_and_time.md R275, 11_links_and_time.md R276, 11_links_and_time.md R277, 11_links_and_time.md
R282, 11_links_and_time.md R285, 11_links_and_time.md R287, 11_links_and_time.md R288, 11_links_and_time.md R303) -/
def Obligations.SunislinkMessagesAndTokens : Prop :=
  ∀ (s : State) (x : Die) (d : DieSt), s.has x d →
    let leads := fun (e : DieSt) => (.next (s.setDie x e) : Out)
    let both := fun (e : DieSt) => (.next (s.setDie x e).kickPair.cfgPair : Out)
    let kick := fun (e : DieSt) => (.next (s.setDie x e).kickPair : Out)
    (∀ t : State, t.d0.idn.twin = false ∨ t.d1.idn.absent = true → t.kickPair = t ∧ t.cfgPair = t) ∧
    (∀ p m num crc, d.portLive p = true → p < 4 → 3 ≤ d.portState p → d.watchers 5 p = [] →
      let c := d.prt p
      let run := exec (.slkMessageReceive x p m num crc) s
      let e := d.setPrt p { c with rxNum := num + 1, ask := none }
      let g := e.xPass ⟨7, 5 * p + 2, 0, false⟩ (ofBytes (m.payload.take 8))
      (crc ≠ slkCrc m → run = both ((d.bump (F.SLK_PORT_CNT_CRC p)).setPrt p { c with ask := some c.rxNum })) ∧
      (crc = slkCrc m → num < c.rxNum → run = both d) ∧
      (crc = slkCrc m → c.rxNum < num → run = both (d.setPrt p { c with ask := some c.rxNum })) ∧
      (crc = slkCrc m → num = c.rxNum →
        ((7 ≤ m.kind ∨ 256 < m.len) → run = both (e.slkDrop p 3)) ∧
        (m.kind = 3 ∨ m.kind = 6 → m.len ≤ 256 → m.dest < 0x800 → d.on F.SLK_ID_VALID = true → m.src ≠ d.f F.SLK_ID_ID →
          (m.dest ≠ d.f F.SLK_ID_ID → m.hops = 0 → run = both (g.slkDrop p 2)) ∧
          (∀ r, m.dest ≠ d.f F.SLK_ID_ID → 0 < m.hops → (d.route m.dest).1 = r → r < 4 → d.portUp r = true →
            run = both (g.setPrt r { g.prt r with out := (g.prt r).out ++ [{ m with hops := m.hops - 1 }] })) ∧
          (m.dest = d.f F.SLK_ID_ID → m.kind = 6 → d.domOn 74 = true → d.coll.length < 256 →
            (d.on F.SYS_EVT_CFG_RX_EN = true → run = both { g with coll := g.coll ++ [EvRec.ofPayload m.payload] }) ∧
            (d.on F.SYS_EVT_CFG_RX_EN = false → run = both g))))) ∧
    (x = .die1 ∨ d.kickReady = false ∨ (s.d1.idn.absent = false ∧ s.d1.portsReady = false) → exec (.kickoffReadySend x) s = kick d) ∧
    (x = .die0 → d.kickReady = true → (s.d1.idn.absent = true ∨ s.d1.portsReady = true) →
      (d.on F.SLK_CFG_KROOT = true → d.mt.toNat + 1000 * d.f F.SLK_CFG_KLEAD < 2 ^ 64 →
        let at0 := fun (e : DieSt) => e.mtm.playAt = some (d.mt.toNat + 1000 * d.f F.SLK_CFG_KLEAD) ∧
          e.rd64 R.CFG_PLAY_LO R.CFG_PLAY_HI = d.mt.toNat + 1000 * d.f F.SLK_CFG_KLEAD
        ∃ t, exec (.kickoffReadySend x) s = .next t ∧ t.pending = s.pending ∧ at0 t.d0 ∧ t.d0.mtm.readySent = true ∧
          (d.idn.twin = false → t.d1 = s.d1) ∧ (d.idn.twin = true → s.d1.idn.absent = false → t.d1.mtm.playAt = t.d0.mtm.playAt)) ∧
      (∀ p, d.on F.SLK_CFG_KROOT = false → d.mtPort = some p → d.portLive p = true → 2 ≤ d.portState p →
        let m : SlkMsg := ⟨d.f (F.SLK_PORT_STAT_PEER_ID p), d.f F.SLK_ID_ID, 1, 0, 16, 0, 0, 0, []⟩
        exec (.kickoffReadySend x) s = kick { d.setPrt p { d.prt p with out := (d.prt p).out ++ [m] } with
          mtm := { d.mtm with readySent := true } })) ∧
    (∀ p, d.portLive p = true → p < 4 → 2 ≤ d.portState p →
      exec (.kickoffMessage x p .ready) s = kick (d.setPrt p { d.prt p with ready := true }) ∧
      (∀ t, d.dev = 3 → t < d.mt.toNat → exec (.kickoffMessage x p (.play t)) s
        = kick (d.raiseIf (d.on F.MT_EVT_EN_KICKOFF) 0x70A 0x0B06 0)) ∧
      (∀ t, d.dev = 3 → d.mt.toNat ≤ t → exec (.kickoffMessage x p (.play t)) s
        = kick { d.wr64 R.CFG_PLAY_LO R.CFG_PLAY_HI t with mtm := { d.mtm with playAt := some t } })) ∧
    (∀ q p w b, q < 64 → d.hubOn = true → d.qReader q = some (.slkPort p) → d.portUp p = true → d.qPrio q = false →
      d.linkIn.get (fun _ => []) q = [] → (d.que q).words = [w, b] → (d.que q).inItem = false → (d.que q).waits = [] →
      w.place = 0 → b.place = 0 → w.closing = false → b.closing = false → w.err = false → b.err = false → w.tag = 0 → b.tag = 32 →
      w.par = wordParity w.data.toNat 0 → b.par = wordParity b.data.toNat 32 → d.watchers 2 q = [] → d.slkAdm.get (fun _ => 0) q = 0 →
      d.on F.SLK_ID_VALID = true → p < 4 →
      let v := w.data.toNat
      let len := bits v 24 16
      let dest := bits v 11 0
      let well := v < 2 ^ 25 ∧ bits v 15 14 = 0 ∧ 1 ≤ len ∧ len ≤ 8
      (well → dest < 0x800 → dest ≠ d.f F.SLK_ID_ID → (d.route dest).1 = p →
        ∃ t, exec (.slkQueueItemSend x q []) s = .next t ∧ s.sameElse t x ∧ ((t.die x).que q).words = [] ∧
        ((t.die x).prt p).out = (d.prt p).out ++ [(⟨dest, d.f F.SLK_ID_ID, 3, max 1 (bits v 13 12), 16, len, q, 0,
          (wordBytes 8 b.data.toNat).take len⟩ : SlkMsg)]) ∧
      (¬ well → ∃ t, exec (.slkQueueItemSend x q []) s = .next t ∧ s.sameElse t x ∧ ((t.die x).que q).words = [] ∧
        ((t.die x).prt p).out = (d.prt p).out)) ∧
    (∀ c v tag, c < 256 → d.on (F.SLK_CHAN_CFG_EN c) = true → d.on (F.SLK_CHAN_CFG_DIR c) = false →
      (d.f (F.SLK_CHAN_CFG_CREDITS c) = 0 → exec (.tokenChannelSend x c v tag) s = leads d) ∧
      (d.chanPaced c = true → exec (.tokenChannelSend x c v tag) s = leads d) ∧
      (2 ≤ d.f (F.SLK_CHAN_CFG_CREDITS c) → d.chanPaced c = false → ∃ t, exec (.tokenChannelSend x c v tag) s = .next t ∧ s.sameElse t x ∧
        (t.die x).f (F.SLK_CHAN_CFG_CREDITS c) = d.f (F.SLK_CHAN_CFG_CREDITS c) - 1)) ∧
    (∀ c, c < 256 → d.f (F.SLK_CHAN_CFG_CREDITS c) = 0 → d.chanZero.get (fun _ => 0) c ≠ 0 →
      d.chanZero.get (fun _ => 0) c + 999999 ≤ d.now → d.on (F.SLK_CHAN_CFG_STALL c) = false →
      ∃ t, exec (.slkChanStall x c) s = .next t ∧ s.sameElse t x ∧ (t.die x).on (F.SLK_CHAN_CFG_STALL c) = true) ∧
    (∀ m c, c < 256 → s.takes x d m R.SLK_CHAN_RST → exec (.slkChanRst x m c) s = leads (({ (d.put (F.SLK_CHAN_CFG_CREDITS c) 8).put
      (F.SLK_CHAN_CFG_STALL c) 0 with chanZero := d.chanZero.set (fun _ => 0) c 0 } : DieSt).ack m))

/-- A live port drops and counts BAD a frame with a wrong FCS or a length outside 64 to MAXLEN, counts CTRL a MAC
control frame, and counts any other in RX_CNT and gives it to the classifier. An item of one data word of its
transmit queue leaves as one frame, padded to 60 bytes and with its FCS, and a requested timestamp enters the FIFO
with TAG while it has room; an item with reserved bits or too few bytes is counted TXERR. In RECOVERY the queue is
not read. A read of ETH_TXTS_HI removes the oldest entry. A change of the link raises ETH_LINK. An idle port does
nothing. (11_links_and_time.md R289, 11_links_and_time.md R290, 11_links_and_time.md R291, 11_links_and_time.md
R302, 11_links_and_time.md R304, 13_supplies_and_states.md R344) -/
def Obligations.EthernetFramesAndTimestamps : Prop :=
  ∀ (s : State) (x : Die) (d : DieSt) (e : Nat), s.has x d → e < 4 →
    let leads := fun (f : DieSt) => (.next (s.setDie x f) : Out)
    (∀ fr ok, d.ethLive e = false → exec (.ethFrameReceive x e fr ok) s = leads d) ∧
    (∀ fr, d.ethLive e = true → d.watchers 3 e = [] →
      let g := d.xPass ⟨7, 20 + e, 0, false⟩ (ofBytes (fr.take 8))
      exec (.ethFrameReceive x e fr false) s = leads (g.bump ⟨R.ETH_ERR_CNT e, 31, 16⟩) ∧
      ((fr.length < 64 ∨ d.ethC e % 2 ^ 14 < fr.length) → exec (.ethFrameReceive x e fr true) s = leads (g.bump ⟨R.ETH_ERR_CNT e, 31, 16⟩)) ∧
      (64 ≤ fr.length → fr.length ≤ d.ethC e % 2 ^ 14 → fr[12]? = some 0x88 → fr[13]? = some 0x08 →
        exec (.ethFrameReceive x e fr true) s = leads (g.bump ⟨R.ETH_ERR_CNT e, 15, 8⟩)) ∧
      (64 ≤ fr.length → fr.length ≤ d.ethC e % 2 ^ 14 → (fr[12]? ≠ some 0x88 ∨ fr[13]? ≠ some 0x08) →
        exec (.ethFrameReceive x e fr true) s = leads ((g.put (F.ETH_RX_CNT_FRAMES e) ((g.f (F.ETH_RX_CNT_FRAMES e) + 1) % 2 ^ 32)).intake e
          (BitVec.ofInt 64 (((d.mt.toNat : Int) * 1000 + sgn 16 (d.f (F.ETH_TS_ADJ_RX e))) / 1000)) fr))) ∧
    (∀ q, q < 64 → d.hubOn = true → d.qReader q = some (.ethernet e) → d.dev = 6 → exec (.ethFrameTransmit x q []) s = leads d) ∧
    (∀ q w b, q < 64 → d.hubOn = true → d.qReader q = some (.ethernet e) → d.ethLive e = true → d.dev ≠ 6 → d.qPrio q = false →
      d.linkIn.get (fun _ => []) q = [] → (d.que q).words = [w, b] → (d.que q).inItem = false → (d.que q).waits = [] →
      w.place = 0 → b.place = 0 → w.closing = false → b.closing = false → w.err = false → b.err = false → w.tag = 0 → b.tag = 32 →
      w.par = wordParity w.data.toNat 0 → b.par = wordParity b.data.toNat 32 → d.watchers 2 q = [] → d.watchers 4 e = [] →
      64 ≤ d.ethC e % 2 ^ 14 →
      let v := w.data.toNat
      let len := bits v 13 0
      let clean := v < 2 ^ 32 ∧ bits v 23 17 = 0 ∧ bits v 15 14 = 0
      let held := d.txts.get (fun _ => []) e
      (clean → len ≤ 8 →
        ∃ t, exec (.ethFrameTransmit x q []) s = .next t ∧ s.sameElse t x ∧
        (let body := (wordBytes 8 b.data.toNat).take len ++ List.replicate (60 - len) 0
         (t.die x).ethOut.get (fun _ => []) e = body ++ wordBytes 4 (crc32 body)) ∧
        (t.die x).f (F.ETH_TX_CNT_FRAMES e) = (d.f (F.ETH_TX_CNT_FRAMES e) + 1) % 2 ^ 32 ∧
        (bit v 16 = false → (t.die x).txts = d.txts) ∧
        (bit v 16 = true → held.length < 16 →
          ((t.die x).txts.get (fun _ => []) e).map (fun y => y.1) = held.map (fun y => y.1) ++ [bits v 31 24] ∧
          (t.die x).f (F.ETH_TXTS_STAT_LEVEL e) = held.length + 1)) ∧
      (¬ clean ∨ 8 < len → ∃ t, exec (.ethFrameTransmit x q []) s = .next t ∧ s.sameElse t x ∧
        (t.die x).f ⟨R.ETH_ERR_CNT e, 7, 0⟩ = min 255 (d.f ⟨R.ETH_ERR_CNT e, 7, 0⟩ + 1) ∧
        (t.die x).ethOut = d.ethOut)) ∧
    (∀ m y l, d.readCheck m (R.ETH_TXTS_HI e) 4 = .ok → d.txts.get (fun _ => []) e = y :: l → l.length < 16 →
      ∃ t, exec (.ethTxtsPop x m e) s = .next t ∧ s.sameElse t x ∧
        (t.die x).txts.get (fun _ => []) e = l ∧ (t.die x).f (F.ETH_TXTS_STAT_LEVEL e) = l.length ∧
        (t.die x).on (F.ETH_TXTS_STAT_VALID e) = !l.isEmpty ∧
        (∀ z k, l = z :: k → (t.die x).rd (R.ETH_TXTS_TAG e) = BitVec.ofNat 32 z.1 ∧
          (t.die x).rd64 (R.ETH_TXTS_LO e) (R.ETH_TXTS_HI e) = z.2.toNat)) ∧
    (∀ up, d.ethLive e = true →
      (d.on (F.ETH_STAT_LINK e) ≠ up → exec (.ethLinkChange x e up) s
        = leads ((d.put (F.ETH_STAT_LINK e) (b2n up)).raiseIf (d.on (F.ETH_EVT_EN_LINK e)) (0x5E0 + 20 + e) 0x0B11 (b2n up * 2 ^ 23))) ∧
      (d.on (F.ETH_STAT_LINK e) = up → exec (.ethLinkChange x e up) s = leads d)) ∧
    (∀ up, d.ethLive e = false → exec (.ethLinkChange x e up) s = leads d)

/-- An exchange's offset counts with half of ASYM (log entry 190). Before the first PLAY an exchange of the followed
port with an offset above 1 µs sets MT outright, and the root's epoch comes with it; die 1 shows die 0's MT (log
entry 149); the sixteenth small offset in a row sets LOCKED; eight misses, or from LINE-UP on an upstream port that
has left UP and DEGRADED, enter holdover, and the alternate port is taken after 1 ms with a locked peer. A root
takes a rate within ±858,993, a follower refuses it. The pulse rises once per multiple of PERIOD; an edge latches
MT, or sets MISSED while one is held. The oldest record of a source enters the collector, or is lost at 256 and sets
OVF, and leaves it as one item of two words once the bound queue has room. The rate a follower steers to is a free
value. (11_links_and_time.md R292, 11_links_and_time.md R294, 11_links_and_time.md R295, 11_links_and_time.md R296,
11_links_and_time.md R297, 11_links_and_time.md R300, 11_links_and_time.md R305) -/
def Obligations.MatchTimeAndEventCollector : Prop :=
  ∀ (s : State) (x : Die) (d : DieSt), s.has x d →
    let leads := fun (f : DieSt) => (.next (s.setDie x f) : Out)
    (d.mtm.on = false → ∀ p ok delay off v peer, exec (.mtTimingExchange x p ok delay off v peer) s = .next (s.setDie x d).mtPair) ∧
    (∀ p delay off v peer, x = .die0 → d.portLive p = true → p < 4 → 2 ≤ d.portState p → d.mtm.on = true → d.mtPort = some p →
      let one := fun (t : State) => t.pending = s.pending ∧ (d.idn.twin = false → t.d1 = s.d1) ∧
        (d.idn.twin = true → s.d1.mtm.on = true → t.d1.mt = t.d0.mt)
      let o := off + sgn 16 (d.f (F.SLK_PORT_CTL_ASYM p)) / 2
      (d.dev < 4 → d.mtm.played = false → 1000000 < o → ∃ t, exec (.mtTimingExchange x p true delay off v peer) s = .next t ∧ one t ∧
        t.d0.mt = d.mt - BitVec.ofInt 64 (o / 1000) ∧ t.d0.mtm.good = 0 ∧ t.d0.mtm.miss = 0 ∧
        t.d0.rd64 R.MT_EPOCH_LO R.MT_EPOCH_HI = v.toNat) ∧
      (o.natAbs < 1000 → d.mtm.good = 15 → ∃ t, exec (.mtTimingExchange x p true delay off v peer) s = .next t ∧ one t ∧
        t.d0.on F.MT_STAT_LOCKED = true ∧ t.d0.mt = d.mt ∧ t.d0.mtm.good = 16) ∧
      (exec (.mtTimingExchange x p false delay off v peer) s
        = .next (s.setDie x { d with mtm := { d.mtm with miss := d.mtm.miss + 1, good := 0 } }).mtPair)) ∧
    (∀ p, d.mtPort = some p → d.on F.MT_STAT_HOLDOVER = false → d.mtm.on = true → 8 ≤ d.mtm.miss ∨ (3 ≤ d.dev ∧ d.portUp p = false) →
      ∃ t, exec (.mtHoldover x) s = .next t ∧ s.sameElse t x ∧ (t.die x).on F.MT_STAT_HOLDOVER = true ∧
        (t.die x).on F.MT_STAT_LOCKED = false ∧ (t.die x).mtm.holdAt = d.now ∧ (t.die x).f F.MT_RATE_NOW_RATE = d.f F.MT_RATE_NOW_RATE) ∧
    (d.on F.MT_STAT_HOLDOVER = true → d.on F.MT_CFG_ALT_EN = true → d.on F.MT_STAT_ON_ALT = false → d.mtm.holdAt + 1000000 ≤ d.now →
      exec (.mtAltSwitch x true) s = leads { d.put F.MT_STAT_ON_ALT 1 with mtm := { d.mtm with miss := 0, good := 0 } } ∧
      exec (.mtAltSwitch x false) s = leads d) ∧
    (∀ m v, s.takes x d m R.MT_RATE →
      (d.on F.MT_CFG_ROOT = true → d.idn.die ≠ 1 → (sgn 21 v.toNat).natAbs ≤ 858993 →
        exec (.mtRateWrite x m v) s = leads ((d.put F.MT_RATE_TARGET v.toNat).ack m)) ∧
      ((d.on F.MT_CFG_ROOT = false ∨ d.idn.die = 1 ∨ 858993 < (sgn 21 v.toNat).natAbs) → exec (.mtRateWrite x m v) s = leads (d.answer m 0 true))) ∧
    (d.on F.MT_PPS_CFG_OUT_EN = true → d.mtm.on = true →
      (d.mtm.pps < d.ppsCount → exec (.mtPulseOut x) s = leads { d with mtm := { d.mtm with
        pps := d.ppsCount, ppsEnd := d.mt.toNat + min 1000000 (500000 * max 1 (d.f F.MT_PPS_CFG_PERIOD)) } }) ∧
      (d.ppsCount ≤ d.mtm.pps → exec (.mtPulseOut x) s = leads d)) ∧
    (∀ n, d.on F.MT_PPS_CFG_IN_EN = true → d.mtm.on = true → d.carriers 23 = [n] →
      (d.on F.MT_CAP_STAT_VALID = false → exec (.mtPulseCapture x n) s
        = leads ((d.wr64 R.MT_CAP_LO R.MT_CAP_HI d.mt.toNat).put F.MT_CAP_STAT_VALID 1)) ∧
      (d.on F.MT_CAP_STAT_VALID = true → exec (.mtPulseCapture x n) s = leads (d.put F.MT_CAP_STAT_MISSED 1))) ∧
    (∀ r l, d.raised = r :: l → d.domOn 74 = true → d.on F.SYS_EVT_CFG_FWD_EN = false →
      (d.coll.length < 256 → exec (.eventRecordCollect x r.src) s = leads { d with raised := l, coll := d.coll ++ [r] }) ∧
      (256 ≤ d.coll.length → exec (.eventRecordCollect x r.src) s
        = leads ((({ d with raised := l } : DieSt).bump F.SYS_EVT_STAT_LOST).put F.SYS_EVT_STAT_OVF 1))) ∧
    (∀ r l, d.coll = r :: l → d.on F.SYS_EVT_CFG_FWD_EN = false → d.hubOn = true → d.on F.SYS_EVT_CFG_EN = true →
      let q := d.f F.SYS_EVT_CFG_Q
      d.qWriter q = some .collector →
      (d.qRoom q 2 = false → exec (.eventRecordAppend x) s = leads d) ∧
      (d.qRoom q 2 = true → exec (.eventRecordAppend x) s
        = leads ((({ d with coll := l } : DieSt).qOffer q r.mt.toNat (2 + b2n r.remote)).qOffer q r.low (34 + b2n r.remote))))

/-- A PIN_CFG write that Table 12-1 or the seal forbids, that names owner 2 or a pin of owner 2, or that changes an
owner while the Referee restarts (log entry 192), is refused and changes nothing. Before PLAY an allowed write is
stored; in PLAY one that changes FUNC, SIG or OWNER latches the pad's level and drive enable (GPIO_OUT and GPIO_OE
of a function-1 pin) and sets SWITCHING, and one that changes none of them changes nothing; one to a switching pin
waits. The end of the guard clears SWITCHING, releases the latch unless the pin is held, writes the PIN_ELEC value
that came with the request, answers the call that asked and lets the waiting write take effect; a second carrier of
an input signal sets its live and latched bits and raises PIN_CONFLICT. The end of the last hold clears HELD.
PIN_ELEC is stored with DRIVE 5 to 7 as 4, and PIN_FAB takes the delays of a function-0 pin only. (12_pins.md R309,
12_pins.md R310, 12_pins.md R312, 12_pins.md R314, 12_pins.md R315, 12_pins.md R316, 12_pins.md R323, 12_pins.md
R325, 02_architecture.md R38) -/
def Obligations.PinSettingsAndSwitching : Prop :=
  ∀ (s : State) (x : Die) (d : DieSt) (n : Nat), s.has x d → n < d.pins →
    let leads := fun (e : DieSt) => (.next (s.setDie x e) : Out)
    let old := d.rd (R.PIN_CFG n)
    let pin := d.pinS n
    let lvl := bit (d.f (F.GPIO_OUT_DATA (n / 16))) (n % 16)
    let drv := bit (d.f (F.GPIO_OE_DATA (n / 16))) (n % 16)
    (∀ m v, s.takes x d m (R.PIN_CFG n) →
      let bad := d.pinRule n v = false ∨ d.pinSealed old v = true ∨ cfgOwner v = 2 ∨ cfgOwner old = 2 ∨
        (d.restarting = true ∧ cfgOwner v ≠ cfgOwner old)
      (bad → exec (.pinCfgWrite x m n v) s = leads (d.answer m 0 true)) ∧
      (¬ bad →
        (d.on (F.PIN_CFG_SWITCHING n) = true → exec (.pinCfgWrite x m n v) s
          = leads ((d.setPin n { pin with waiting := pin.waiting ++ [(v, none, none)] }).ack m)) ∧
        (d.on (F.PIN_CFG_SWITCHING n) = false → d.pinsLive = false → exec (.pinCfgWrite x m n v) s
          = leads ((((d.wr (R.PIN_CFG n) (cfgNorm v ||| (old &&& 0x00400000))).setPin n { pin with stored := true }).conflictOf n old).ack m)) ∧
        (d.on (F.PIN_CFG_SWITCHING n) = false → d.pinsLive = true → old &&& 0xCF20FF00 = cfgNorm v →
          exec (.pinCfgWrite x m n v) s = leads (d.ack m)) ∧
        (d.on (F.PIN_CFG_SWITCHING n) = false → d.pinsLive = true → old &&& 0xCF20FF00 ≠ cfgNorm v →
          let e := (d.pinDrive n).2
          let l := pin.latch.orElse (fun _ => some (d.pinDrive n).1)
          exec (.pinCfgWrite x m n v) s = leads ((((e.setPin n { pin with latch := l, elecNext := none, caller := none }).wr (R.PIN_CFG n)
              (cfgNorm v ||| (old &&& 0x00400000) ||| 0x00800000)).conflictOf n old).ack m)))) ∧
    (cfgFunc old = 1 → d.on (F.PIN_CFG_DIS n) = false → d.pinDrive n = ((lvl, drv), d)) ∧
    (∀ l, d.pinOwn n = some l → d.pinDrive n = (l, d)) ∧
    (d.on (F.PIN_CFG_SWITCHING n) = true →
      let e := d.put (F.PIN_CFG_SWITCHING n) 0
      let f := match pin.elecNext with
        | some w => e.wr (R.PIN_ELEC n) (if 4 < bits w.toNat 15 13 then (w &&& 0x0F9F0000) ||| 0x8000 else w &&& 0x0F9FE000)
        | none => e
      let g := f.setPin n { pin with elecNext := none, caller := none, latch := if pin.holds = 0 then none else pin.latch }
      let done := (g.conflictOf n old).pinCalled pin.caller
      (pin.waiting = [] → exec (.pinGuardEnd x n) s = leads done) ∧
      (∀ v w c, pin.waiting = [(v, w, c)] → exec (.pinGuardEnd x n) s
        = leads ((done.setPin n { done.pinS n with waiting := [] }).pinApply n v w c)) ∧
      (pin.caller = none → inSignal old = none → done = g) ∧
      (∀ h k, pin.waiting = [] → pin.elecNext = none → pin.caller = none → inSignal old = some h → d.pinsLive = true → d.carriers h = [k] →
        bit (d.f F.PIN_CONFLICT_LIVE_SIG) h = false →
        ∃ t, exec (.pinGuardEnd x n) s = .next t ∧ s.sameElse t x ∧ (t.die x).on (F.PIN_CFG_SWITCHING n) = false ∧
          (t.die x).f F.PIN_CONFLICT_SIG = putBit (d.f F.PIN_CONFLICT_SIG) h true ∧
          (t.die x).f F.PIN_CONFLICT_LIVE_SIG = putBit (d.f F.PIN_CONFLICT_LIVE_SIG) h true ∧
          (d.domOn 74 = true → bit (d.f F.PIN_EVT_EN_EN) 2 = true → (t.die x).raised = d.raised ++
            [⟨d.mt, d.source (0x600 + 4 * (n / 48)), 0x0C03, h * 2 ^ 19 + n, false, false⟩]))) ∧
    (d.on (F.PIN_CFG_SWITCHING n) = false →
      (pin.ending = true → exec (.pinGuardEnd x n) s
        = leads ((d.setPin n { pin with ending := false, holds := 0, latch := none, pull := none }).put (F.PIN_CFG_HELD n) 0)) ∧
      (pin.ending = false → exec (.pinGuardEnd x n) s = leads d)) ∧
    (∀ m v, s.takes x d m (R.PIN_ELEC n) →
      (d.pinSealed old old = true ∨ cfgOwner old = 2 → exec (.pinElecWrite x m n v) s = leads (d.answer m 0 true)) ∧
      (d.pinSealed old old = false → cfgOwner old ≠ 2 → exec (.pinElecWrite x m n v) s
        = leads ((d.wr (R.PIN_ELEC n) (if 4 < bits v.toNat 15 13 then (v &&& 0x0F9F0000) ||| 0x8000 else v &&& 0x0F9FE000)).ack m))) ∧
    (∀ m v, s.takes x d m (R.PIN_FAB n) →
      (cfgFunc old ≠ 0 ∨ d.on (F.PIN_CFG_DIS n) = true → exec (.pinFabWrite x m n v) s = leads (d.answer m 0 true)) ∧
      (cfgFunc old = 0 → d.on (F.PIN_CFG_DIS n) = false → exec (.pinFabWrite x m n v) s
        = leads (((d.put (F.PIN_FAB_IDLY n) (bits v.toNat 14 8)).put (F.PIN_FAB_ODLY n) (bits v.toNat 6 0)).ack m)))

/-- A masked write sets bit i to w[i] where w[16 + i] is 1, a Team write only on pins of owner 1, and leaves every other
bit and register. A sample in PLAY, in which a pin of function 15 reads 0, hits a matcher in VALUE mode when its
condition becomes true, in EDGE mode when a masked pin changes to its VALUE level and in ANY mode when a masked pin
changes; a hit sets HIT, LEVELS and COUNT; in another state it does nothing. A tick outside PLAY runs every filter
of its bank: one whose pin has DIRQ 0 holds nothing, a new one takes the level, and one changes its level, and
raises PIN_EDGE when that is enabled, on the 2^DEB-th differing tick in a row; in PLAY it does nothing. A bank PLL
sets LOCK, with PIN_PLL raised after a loss and the pins held for it released, or clears it, with PIN_PLL raised,
those pins held and the bank's crossings in reset; one not in use does nothing. Each test-port instruction loads
what Table 19-7 says, and TRST_N low resets the port. (12_pins.md R317, 12_pins.md R318, 12_pins.md R319, 12_pins.md
R320, 12_pins.md R321, 12_pins.md R324, 12_pins.md R327, 19_electrical_and_package.md R476) -/
def Obligations.PinLevelsMatchersFiltersAndTestPort : Prop :=
  ∀ (s : State) (x : Die) (d : DieSt), s.has x d →
    let leads := fun (e : DieSt) => (.next (s.setDie x e) : Out)
    let seen := fun (b lv i : Nat) => bit lv i && (d.f (F.PIN_CFG_FUNC (48 * b + i)) != 15)
    (∀ (m : Master) (l : Nat) (v : Word), l < 60 → (m = .referee ∨ m = .team) →
      (s.takes x d m (R.GPIO_OUT l) → ∃ t, exec (.gpioOutWrite x m l v) s = .next t ∧ s.sameElse t x ∧
        (∀ a, a ≠ R.GPIO_OUT l → (t.die x).rd a = d.rd a) ∧
        (∀ i, i < 16 → bit ((t.die x).f (F.GPIO_OUT_DATA l)) i =
          if bit v.toNat (16 + i) = true ∧ (m = .referee ∨ d.f (F.PIN_CFG_OWNER (16 * l + i)) = 1) then bit v.toNat i
          else bit (d.f (F.GPIO_OUT_DATA l)) i)) ∧
      (s.takes x d m (R.GPIO_OE l) → ∃ t, exec (.gpioOeWrite x m l v) s = .next t ∧ s.sameElse t x ∧
        (∀ a, a ≠ R.GPIO_OE l → (t.die x).rd a = d.rd a) ∧
        (∀ i, i < 16 → bit ((t.die x).f (F.GPIO_OE_DATA l)) i =
          if bit v.toNat (16 + i) = true ∧ (m = .referee ∨ d.f (F.PIN_CFG_OWNER (16 * l + i)) = 1) then bit v.toNat i
          else bit (d.f (F.GPIO_OE_DATA l)) i))) ∧
    (∀ b l0, b < d.idn.banks → d.dev = 4 → l0 < 2 ^ 48 →
      ∃ t lv, exec (.pmSample x b l0) s = .next t ∧ s.sameElse t x ∧ (∀ i, i < 48 → bit lv i = seen b l0 i) ∧ lv < 2 ^ 48 ∧
        (t.die x).pmPrev.get (fun _ => none) b = some lv ∧
        ∀ m, m < 4 →
          let e := t.die x
          let win := fun (l : Nat) => l / 2 ^ (8 * d.f (F.PIN_PM_CFG_WIN b m)) % 2 ^ 16
          let mode := d.f (F.PIN_PM_CFG_MODE b m)
          let sel := fun (i : Nat) => bit (d.f (F.PIN_PM_MV_MASK b m)) i
          let want := fun (i : Nat) => bit (d.f (F.PIN_PM_MV_VALUE b m)) i
          let hit := e.on (F.PIN_PM_STAT_HIT b m) = true ∧ e.f (F.PIN_PM_STAT_LEVELS b m) = win lv ∧
            e.f (F.PIN_PM_STAT_COUNT b m) = min 255 (d.f (F.PIN_PM_STAT_COUNT b m) + 1)
          let none := e.rd (R.PIN_PM_STAT b m) = d.rd (R.PIN_PM_STAT b m)
          (mode = 0 → none) ∧
          (d.pmPrev.get (fun _ => .none) b = .none →
            (mode = 1 → (∀ i, i < 16 → sel i = true → bit (win lv) i = want i) → hit) ∧ (1 < mode → none)) ∧
          (mode = 1 → (∃ i, i < 16 ∧ sel i = true ∧ bit (win lv) i ≠ want i) → none) ∧
          (∀ w, d.pmPrev.get (fun _ => .none) b = some w →
            (mode = 1 → (∀ i, i < 16 → sel i = true → bit (win lv) i = want i) →
              ((∃ i, i < 16 ∧ sel i = true ∧ bit (win w) i ≠ want i) → hit) ∧
              ((∀ i, i < 16 → sel i = true → bit (win w) i = want i) → none)) ∧
            (mode = 2 → (∃ i, i < 16 ∧ sel i = true ∧ bit (win lv) i = want i ∧ bit (win w) i ≠ want i) → hit) ∧
            (mode = 2 → (∀ i, i < 16 → sel i = true → bit (win lv) i = want i → bit (win w) i = want i) → none) ∧
            (mode = 3 → (∃ i, i < 16 ∧ sel i = true ∧ bit (win lv) i ≠ bit (win w) i) → hit) ∧
            (mode = 3 → (∀ i, i < 16 → sel i = true → bit (win lv) i = bit (win w) i) → none))) ∧
    (∀ b lv, d.dev ≠ 4 → exec (.pmSample x b lv) s = leads d) ∧
    (∀ b lv, b < d.idn.banks → d.dev ∈ [1, 2, 3, 6, 7, 8] → lv < 2 ^ 48 →
      let deb := fun (e : DieSt) (i : Nat) => e.deb.get (fun _ => none) (48 * b + i)
      let goes := fun (i : Nat) => match deb d i with
        | some (v, c) => d.on (F.PIN_ELEC_DIRQ (48 * b + i)) && seen b lv i != v && decide (2 ^ d.f (F.PIN_ELEC_DEB (48 * b + i)) ≤ c + 1)
        | none => false
      ∃ t, exec (.debounceTick x b lv) s = .next t ∧ s.sameElse t x ∧
        (∀ i, i < 48 → let dirq := d.on (F.PIN_ELEC_DIRQ (48 * b + i)) = true
          (¬ dirq → deb (t.die x) i = none) ∧
          (dirq → deb d i = none → deb (t.die x) i = some (seen b lv i, 0)) ∧
          (∀ v c, dirq → deb d i = some (v, c) → deb (t.die x) i = (if seen b lv i = v then some (v, 0)
            else if goes i then some (!v, 0) else some (v, c + 1)))) ∧
        (bit (d.f F.PIN_EVT_EN_EN) 1 = false → (t.die x).raised = d.raised) ∧
        (d.domOn 74 = true → bit (d.f F.PIN_EVT_EN_EN) 1 = true → (t.die x).raised = d.raised ++
          ((List.range 48).filter goes).map (fun i => ⟨d.mt, d.source (0x600 + 4 * b), 0x0C02, b2n (seen b lv i) * 2 ^ 23 + i, false, false⟩))) ∧
    (∀ b lv, d.dev = 0 ∨ d.dev = 4 ∨ d.dev = 5 → exec (.debounceTick x b lv) s = leads d) ∧
    (∀ b, b < d.idn.banks →
      let used := d.on (F.PIN_BANK_PLL_EN b) = true ∧ 2 ≤ d.dev
      let lock := d.on (F.PIN_BANK_STAT_LOCK b) = true
      let evt := fun (e : DieSt) (k : Nat) => e.raiseIf (bit (d.f F.PIN_EVT_EN_EN) 3) (0x600 + 4 * b) 0x0C04 (k * 2 ^ 23)
      let one := d.put (F.PIN_BANK_STAT_LOCK b) 1
      (used → ¬ lock → d.pllLost.get (fun _ => false) b = false → exec (.bankPllLock x b) s
        = leads (({ one with pllLost := d.pllLost.set (fun _ => false) b false } : DieSt).unholdAll 4 (d.clockedPins b))) ∧
      (used → ¬ lock → d.pllLost.get (fun _ => false) b = true → exec (.bankPllLock x b) s
        = leads (({ evt one 1 with pllLost := d.pllLost.set (fun _ => false) b false } : DieSt).unholdAll 4 (d.clockedPins b))) ∧
      (used → lock → exec (.bankPllUnlock x b) s
        = leads (({ evt (d.put (F.PIN_BANK_STAT_LOCK b) 0) 0 with pllLost := d.pllLost.set (fun _ => false) b true } : DieSt).holdAll 4
            (d.clockedPins b)).xMark) ∧
      (¬ used ∨ lock → exec (.bankPllLock x b) s = leads d) ∧ (¬ used ∨ ¬ lock → exec (.bankPllUnlock x b) s = leads d)) ∧
    (∀ cells cap, ∀ k, k = 0 ∨ k = 1 →
      let shifted := fun (t : Tab Bool) (l : List (Nat × Bool)) (c : Nat) => ((l.reverse.find? (fun y => y.1 == c)).map (fun y => y.2)).getD (t.get (fun _ => false) c)
      ∃ t, exec (if k = 0 then .jtagExtest x cells cap else .jtagSamplePreload x cells cap) s = .next t ∧ s.sameElse t x ∧
        t.die x = d.setJtag { (t.die x).jtag with ir := k, out := d.jtag.out, bypass := d.jtag.bypass } ∧
        ∀ c, (t.die x).jtag.preload.get (fun _ => false) c = shifted d.jtag.preload cells c ∧
          (t.die x).jtag.sampled.get (fun _ => false) c = shifted d.jtag.sampled cap c) ∧
    exec (.jtagSysid x) s = leads { d with jtag := { d.jtag with ir := 0x20, out := d.idn.sysId.toNat + d.idn.sysRes.toNat * 2 ^ 32 } } ∧
    (∀ code tdi, code < 256 → (code ∉ [0, 1, 0x20] → exec (.jtagBypass x code tdi) s
      = leads { d with jtag := { d.jtag with ir := code, out := b2n d.jtag.bypass, bypass := tdi } }) ∧
      (code ∈ [0, 1, 0x20] → exec (.jtagBypass x code tdi) s = leads d)) ∧
    (∃ t, exec .trstNLow s = .next t ∧ t.pending = s.pending ∧
      t.die x = { d with jtag := { d.jtag with ir := 0xFF, bypass := false } })

/-- Each trigger moves every die of the package to the state of Table 13-6 and records where it came from and the cause;
a trigger that the table does not allow changes nothing, and as a command gives the result STATE; one that meets a
transition in progress is latched, with PWR_CMD_RES LATCHED; in PLAY one that meets a substitution waits for its
end. A latched RECOVERY is taken when RESUME has reached PLAY. Entry to HALF-TIME and RESUME start a transition:
TRANSITION_END ends the first once every region is still and no call is BUSY, FULL-TIME once no post-package repair
runs, a wait once what it waits for has come, and RESUME_INSTANT the second at its instant. At WARM-UP domains 76 to
78 and every bonded quad are on and no half-row; in HALF-TIME none of domains 0 to 77. The silence of die 1 takes
both dies from PLAY to RECOVERY with cause 17, and is written to CAUSE in RECOVERY; without a die 1 it does nothing.
(13_supplies_and_states.md R338, 13_supplies_and_states.md R339, 13_supplies_and_states.md R340,
13_supplies_and_states.md R341, 13_supplies_and_states.md R342, 13_supplies_and_states.md R344,
13_supplies_and_states.md R345, 13_supplies_and_states.md R346, 13_supplies_and_states.md R348,
13_supplies_and_states.md R349, 13_supplies_and_states.md R354) -/
def Obligations.DeviceStatesMoveAsTableThirteenSixSays : Prop :=
  ∀ s : State, s.paired →
    let d := s.d0
    let both := fun (g : DieSt → DieSt) => (.next (onBoth s g) : Out)
    let goes := fun (o : Out) (st cause : Nat) => s.ends o (fun e f => f.dev = st ∧ f.f F.PWR_STATE_PREV = e.dev ∧ f.f F.PWR_STATE_CAUSE = cause)
    let latches := fun (t : Trig) (e : DieSt) => ({ e.put F.PWR_CMD_RES_STATUS 2 with pwr := { e.pwr with latched := e.pwr.latched ++ [t] } } : DieSt)
    let waits := fun (t : Trig) (e : DieSt) => ({ e.put F.PWR_STATE_TRANSIT 1 with pwr := { e.pwr with going := some (.wait t) } } : DieSt)
    let busy := d.pwr.going.isSome = true ∧ d.pwr.going ≠ some (.wait .wake)
    (∀ mode devid pulls, (d.pwr.good = true → exec (.pwrgoodRise mode devid pulls) s = .next s) ∧
      (d.pwr.good = false → d.dev = 0 → s.ends (exec (.pwrgoodRise mode devid pulls) s) (fun e f => f.dev = 1 ∧
        f.f F.PWR_STATE_CAUSE = 1 ∧ f.f F.CFG_STAT_MODE = mode % 8 ∧ f.f F.CFG_STAT_DEVID = devid % 16 ∧
        (∀ k, k < 64 → f.domOn k = false) ∧ (∀ q, q < 6 → f.domOn (68 + q) = e.idn.quad q) ∧
        f.domOn 76 = true ∧ f.domOn 77 = true ∧ f.domOn 78 = true))) ∧
    (d.dev ≠ 0 → goes (exec .pwrgoodFall s) 0 2) ∧
    (d.dev = 0 → exec .pwrgoodFall s = both (fun e => { e with pwr := { e.pwr with good := false, stuck := false } })) ∧
    (busy → exec .fulltimeNLow s = both (latches (.fullTime 6 false))) ∧
    (d.pwr.going = some (.wait .wake) → d.dev = 5 → goes (exec .fulltimeNLow s) 0 6) ∧
    (d.pwr.going = none →
      (d.dev = 1 → goes (exec .fulltimeNLow s) 0 6) ∧
      (d.dev ∈ [2, 3, 6] ∨ (d.dev = 4 ∧ s.subBusy = false) → goes (exec .fulltimeNLow s) 7 6) ∧
      (d.dev = 4 → s.subBusy = true → exec .fulltimeNLow s = both (waits (.fullTime 6 false))) ∧
      (d.dev = 5 → goes (exec .fulltimeNLow s) 0 6) ∧
      (d.dev ∉ [1, 2, 3, 4, 5, 6] → exec .fulltimeNLow s = .next s)) ∧
    (∀ x m, (s.die x).idn.absent = false → s.takes x (s.die x) m R.PWR_CMD →
      let done := fun (t : State) (st busy : Nat) =>
        (.next (onDie x t (fun e => ((e.put F.PWR_CMD_RES_STATUS st).put F.PWR_CMD_RES_BUSY busy).ack m)) : Out)
      (busy → ∀ half, ∀ p ∈ [(Instr.pwrFullTime x m half, Trig.fullTime 7 half), (.pwrHalfTime x m, .halfTime), (.pwrRecovery x m, .recovery 13),
        (.pwrResume x m, .resume), (.pwrRestart x m, .restart)], exec p.1 s = done (onBoth s (latches p.2)) 2 1) ∧
      (d.pwr.going = none →
        (∀ half, (d.dev ∈ [2, 3, 6] ∨ (d.dev = 4 ∧ s.subBusy = false) → goes (exec (.pwrFullTime x m half) s) 7 7) ∧
          (d.dev = 1 → goes (exec (.pwrFullTime x m half) s) 0 7) ∧
          (d.dev ∉ [1, 2, 3, 4, 5, 6] → exec (.pwrFullTime x m half) s = done s 1 0)) ∧
        (d.dev = 4 → s.subBusy = false → s.ends (exec (.pwrHalfTime x m) s) (fun _ f => f.dev = 4 ∧
          f.on F.PWR_STATE_TRANSIT = true ∧ f.pwr.going = some (.half 10)) ∧ goes (exec (.pwrRecovery x m) s) 6 13) ∧
        (d.dev = 4 → s.subBusy = true → exec (.pwrRecovery x m) s = done (onBoth s (waits (.recovery 13))) 0 1) ∧
        (d.dev ≠ 4 → exec (.pwrHalfTime x m) s = done s 1 0 ∧ exec (.pwrRecovery x m) s = done s 1 0) ∧
        (d.dev = 6 → exec (.pwrResume x m) s = done (onBoth s (fun e => { e.put F.PWR_STATE_TRANSIT 1 with
          pwr := { e.pwr with going := some (.resume (e.mt.toNat + 100000)) } })) 0 1) ∧
        (d.dev ≠ 6 → exec (.pwrResume x m) s = done s 1 0) ∧
        (d.dev ≠ 0 → d.pwr.good = true → s.ends (exec (.pwrRestart x m) s) (fun _ f => f.dev = 1 ∧
          f.f F.PWR_STATE_CAUSE = 19 ∧ f.on F.PWR_STATE_FTT_SKIPPED = true)))) ∧
    (∀ t0, d.pwr.going = some (.resume t0) →
      (d.mt.toNat < t0 → exec .resumeInstant s = .next s) ∧
      (t0 ≤ d.mt.toNat → d.pwr.latched = [] → goes (exec .resumeInstant s) 4 18) ∧
      (t0 ≤ d.mt.toNat → s.subBusy = false → ∀ c, c < 256 → d.pwr.latched = [.recovery c] → s.ends (exec .resumeInstant s) (fun _ f =>
        f.dev = 6 ∧ f.f F.PWR_STATE_PREV = 4 ∧ f.f F.PWR_STATE_CAUSE = c))) ∧
    (let due := d.pwr.recovAt + max 1 (d.f F.PWR_RECOV_LIMIT) * 100000000 ≤ d.now;
      (d.dev = 6 → d.pwr.going = none → due → goes (exec .recoveryLimit s) 7 9) ∧
      (d.dev ≠ 6 ∨ d.pwr.going.isSome = true ∨ ¬ due → exec .recoveryLimit s = .next s)) ∧
    (s.d1.idn.absent = true → exec .die1Silent s = .next s) ∧
    (s.d1.idn.absent = false → d.pwr.going = none → s.subBusy = false → (d.dev = 4 → goes (exec .die1Silent s) 6 17) ∧
      (d.dev = 6 → exec .die1Silent s = both (fun e => e.put F.PWR_STATE_CAUSE 17))) ∧
    (∀ saveOk carOk, let run := exec (.transitionEnd saveOk carOk) s
      let half := fun (c : Nat) => s.ends run (fun e f => f.dev = 5 ∧ f.f F.PWR_STATE_PREV = e.dev ∧ f.f F.PWR_STATE_CAUSE = c ∧
        (∀ k, k < 78 → f.domOn k = false) ∧ f.mt = e.mt ∧ (f.on F.PWR_STATE_SAVE_OK = true → saveOk = true))
      let moving := s.allStill = false ∨ s.callsBusy = true
      (d.pwr.going = none → run = .next s) ∧
      (d.pwr.going = some .leave → s.repairing = true ∨ (d.pwr.ftHalf = true ∧ moving) → run = .next s) ∧
      (d.pwr.latched = [] → d.pwr.going = some .leave → s.repairing = false → (d.pwr.ftHalf = false → goes run 0 11) ∧
        (d.pwr.ftHalf = true → ¬ moving → half 11)) ∧
      (∀ c, c < 2 ^ 8 → d.pwr.going = some (.half c) → (s.subBusy = true ∨ moving → run = .next s) ∧
        (d.pwr.latched = [] → s.subBusy = false → ¬ moving → half c)) ∧
      (∀ c, c < 2 ^ 8 → d.pwr.going = some (.wait (.recovery c)) → (s.subBusy = true → run = .next s) ∧
        (d.pwr.latched = [] → s.subBusy = false → goes run 6 c)) ∧
      (d.pwr.going = some (.wait .wake) → (s.vcoreUp = false → run = .next s) ∧
        (d.pwr.latched = [] → s.vcoreUp = true → goes run 1 12)))

/-- A lost supply of a die clears its PWR_SUP_STAT bit and latches PWR_SUP_LOSS; a lost lane supply takes every lane
down, VDDQ fails its channel, VCORE in PLAY ends in RECOVERY, and VAUX or VAON lost ends in COLD on every die. A
supply that returns sets its bit. PLL_LOCK starts MT and sets HOST_RDY. A right boot block whose interface fits is
taken, else its copy, else the load ends with error NVM. A verified package, the first firmware entry, its FALLBACK
or the one a host stream brought, takes the package of dies to LOAD with cause 3, and raises FW_MIN; none leaves it
in WARM-UP with FW_AUTH; a wake goes on as a warm resume only with the save, its digest and the image store good.
LOAD_DONE goes to LINE-UP only when the conditions hold on every die, and the PLAY instant to PLAY. A domain command
is refused as FIXED, ABSENT, STATE or BUSY, does nothing while another switches (log entry 197), or switches the
domain and no other. (13_supplies_and_states.md R329, 13_supplies_and_states.md R333, 13_supplies_and_states.md
R334, 13_supplies_and_states.md R335, 13_supplies_and_states.md R339, 13_supplies_and_states.md R343,
13_supplies_and_states.md R350, 11_links_and_time.md R292, 14_configuration.md R364, 14_configuration.md R366,
14_configuration.md R378, 14_configuration.md R379) -/
def Obligations.SuppliesStartUpAndDomains : Prop :=
  ∀ s : State, s.paired →
    let both := fun (g : DieSt → DieSt) => (.next (onBoth s g) : Out)
    let dev := s.d0.dev
    let sup := fun (e : DieSt) (k : Nat) (b : Bool) => e.wr R.PWR_SUP_STAT (BitVec.ofNat 32 (putBit (e.rd R.PWR_SUP_STAT).toNat k b))
    let lost := fun (d : DieSt) (k : Nat) => (((sup d k false).wr R.PWR_SUP_LOSS
      (BitVec.ofNat 32 (putBit (d.rd R.PWR_SUP_LOSS).toNat k true))).raiseIf (bit (d.f F.PWR_EVT_EN_EN) 1) 0x707 0x0D03 (k * 2 ^ 20)).xMark
    (∀ (x : Die) (d : DieSt), s.has x d →
      let leads := fun (e : DieSt) => (.next (s.setDie x e) : Out)
      exec (.supplyLoss x (.rail 10)) s = leads (lost d 10) ∧
      (d.dev = 5 → dev = 5 → ∀ k, k = 2 ∨ k = 3 ∨ k = 4 → exec (.supplyLoss x (.rail k)) s = leads (lost d k)) ∧
      (d.dev ≠ 5 → ∀ k, k = 3 ∨ k = 4 → exec (.supplyLoss x (.rail k)) s = leads (lost d k).lanesDown) ∧
      (s.every (fun e => e.on F.PWR_STATE_RESUMED = false) → ∀ c, c < 4 → exec (.supplyLoss x (.rail (5 + c))) s = leads ((lost d (5 + c)).chFail c 4)) ∧
      (dev = 4 → s.d0.pwr.going = none → s.subBusy = false → s.ends (exec (.supplyLoss x (.rail 2)) s) (fun _ f => f.dev = 6 ∧
        f.f F.PWR_STATE_CAUSE = 16)) ∧
      (∀ k, k = 1 ∨ k = 9 → s.ends (exec (.supplyLoss x (.rail k)) s) (fun _ f => f.dev = 0 ∧ bit (f.rd R.PWR_SUP_STAT).toNat k = false ∧
        bit (f.rd R.PWR_SUP_LOSS).toNat k = true)) ∧
      (∀ b, b < d.idn.banks → exec (.supplyLoss x (.vccio b)) s = leads (d.put (F.PIN_BANK_STAT_VCCIO_OK b) 0) ∧
        exec (.supplyReturn x (.vccio b)) s = leads (d.put (F.PIN_BANK_STAT_VCCIO_OK b) 1)) ∧
      (∀ k, 1 ≤ k → k ≤ 10 → k ≠ 9 → exec (.supplyReturn x (.rail k)) s = leads (sup d k true)) ∧
      exec (.supplyReturn x (.rail 9)) s = leads ((sup d 9 true).setDoms (2 ^ 78))) ∧
    (s.every (fun e => e.dev = 1 ∧ e.pwr.pll = false) → exec .pllLock s
      = both (fun e => { e.put F.CFG_STAT_HOST_RDY 1 with pwr := { e.pwr with pll := true }, mtm := { e.mtm with on := true } })) ∧
    (s.every (fun e => e.dev ≠ 1 ∨ e.pwr.pll = true) → exec .pllLock s = .next s) ∧
    (∀ a b ta tb, let run := exec (.nvmBoot a b ta tb) s
      let fits := fun (l : List Nat) (e : DieSt) => e.pwr.mode ∈ [0, 5] ∧ l[4]? = some 0 ∨ e.pwr.mode = 1 ∧ l[4]? = some 1 ∨ e.pwr.mode ∉ [0, 1, 5]
      let takes := fun (l : List Nat) => s.every (fun e => e.dev = 1 ∧ e.load.boot = false ∧ fits l e) → s.ends run (fun _ f =>
        f.load.boot = true ∧ f.load.dir = (l.drop 40).take 256)
      let fails := s.ends run (fun _ f => f.dev = 1 ∧ f.on F.CFG_ERR_VALID = true ∧ f.f F.CFG_ERR_CODE = 2 ∧ f.load.boot = false)
      let fresh := fun (P : DieSt → Prop) => s.every (fun e => e.dev = 1 ∧ e.load.boot = false ∧ e.on F.CFG_ERR_VALID = false ∧ P e)
      (bootOk a = true → takes a ∧ (fresh (fun e => ¬ fits a e) → fails)) ∧
      (bootOk a = false → bootOk b = true → takes b ∧ (fresh (fun e => ¬ fits b e) → fails)) ∧
      (bootOk a = false → bootOk b = false → fresh (fun _ => True) → fails)) ∧
    (∀ fw alt dg st, s.every (fun e => e.bootReady = true) → let run := exec (.warmUpDone fw alt dg st) s; let fw1 := s.d0.nvm.staged.getD fw
      (s.d0.pwr.mode = 7 → s.ends run (fun _ f => f.dev = 8)) ∧
      (s.d0.pwr.mode ∉ [6, 7] →
        (s.every (fun e => (e.fwPick fw1 alt).isSome = true) →
          let loads := fun (P : DieSt → Prop) => s.ends run (fun e f => f.dev = 2 ∧ f.f F.PWR_STATE_CAUSE = 3 ∧ P f ∧
            f.load.fw = e.fwPick fw1 alt ∧ ∀ p, e.fwPick fw1 alt = some p → f.fuse.fwMin = max e.fuse.fwMin p.epoch)
          (s.every (fun e => e.on F.PWR_STATE_RESUMED = false) → loads (fun _ => True)) ∧
          (s.every (fun e => e.on F.PWR_STATE_RESUMED = true) →
            (dg = true → st = true → s.every (fun e => e.pwr.kept.isSome = true ∧ e.pwr.hdr.isSome = true) →
              loads (fun f => f.on F.PWR_STATE_RESUMED = true ∧ f.load.loaded = true)) ∧
            (dg = false ∨ st = false ∨ s.d0.pwr.kept = none → loads (fun f => f.on F.PWR_STATE_RESUMED = false ∧ f.load.loaded = false)))) ∧
        (s.every (fun e => e.fwPick fw1 alt = none ∧ e.fwFromNvm = true ∧ e.on F.CFG_ERR_VALID = false) →
          s.ends run (fun _ f => f.dev = 1 ∧ f.f F.CFG_ERR_CODE = 1)) ∧
        (s.every (fun e => e.fwPick fw1 alt = none ∧ e.fwFromNvm = false) → run = .next s))) ∧
    (∀ (d : DieSt) (fw : FwPkg) (alt : Option FwPkg), d.nvmMode = true →
      (d.fwEntry.isSome = true → d.fwOk fw = true → d.fwPick fw alt = some fw) ∧
      (∀ a, d.fwEntry = none ∨ d.fwOk fw = false → d.fwFallback.isSome = true → alt = some a → d.fwOk a = true → d.fwPick fw alt = some a) ∧
      (d.fwEntry = none ∨ d.fwOk fw = false → d.fwFallback = none ∨ alt = none → d.fwPick fw alt = none)) ∧
    (s.every (fun e => e.on F.PWR_STATE_RESUMED = false) → ¬ s.every (fun e => e.lineUpReady = true) → exec .loadDone s = .next s) ∧
    (s.every (fun e => e.lineUpReady = true) → s.ends (exec .loadDone s) (fun _ f => f.dev = 3 ∧ f.f F.PWR_STATE_CAUSE = 4 ∧ f.kickoffLow = false)) ∧
    (∀ t0, s.d0.mtm.playAt = some t0 → dev = 3 →
      (s.d0.mt.toNat < t0 → exec .playInstant s = .next s) ∧
      (t0 ≤ s.d0.mt.toNat → s.ends (exec .playInstant s) (fun _ f => f.dev = 4 ∧ f.f F.PWR_STATE_CAUSE = 5 ∧ f.pwr.streak = 0))) ∧
    (s.d0.mtm.playAt = none ∨ dev ≠ 3 → exec .playInstant s = .next s) ∧
    (∀ (x : Die) (d : DieSt), s.has x d →
      let leads := fun (e : DieSt) => (.next (s.setDie x e) : Out)
      (∀ m k, s.takes x d m R.PWR_DOM_CMD → k < 128 →
        let res := fun (e : DieSt) (st : Nat) => (((e.put F.PWR_DOM_RES_DOMAIN k).put F.PWR_DOM_RES_STATUS st).put F.PWR_DOM_RES_BUSY 0).ack m
        let each := fun (st : Nat) => exec (.domainOn x m k) s = leads (res d st) ∧ exec (.domainOff x m k) s = leads (res d st)
        (76 ≤ k → k < 80 → (k = 79 → d.idn.met = true) → each 4) ∧
        (80 ≤ k ∨ (k = 79 ∧ d.idn.met = false) ∨ (k < 76 ∧ d.hasDom k = false) → each 3) ∧
        (d.hasDom k = true → k < 76 → d.dev < 2 ∨ d.dev = 5 ∨ d.dev = 8 → each 2) ∧
        (d.hasDom k = true → k < 76 → 2 ≤ d.dev → d.dev ≠ 5 → d.dev ≠ 8 →
          (d.pwr.domGoing.isSome = true → exec (.domainOn x m k) s = leads (d.ack m) ∧ exec (.domainOff x m k) s = leads (d.ack m)) ∧
          (d.pwr.domGoing = none →
            (d.domOn k = true → exec (.domainOn x m k) s = leads (res d 0)) ∧
            (d.domOn k = false → exec (.domainOff x m k) s = leads (res d 0)) ∧
            (d.domOn k = false → exec (.domainOn x m k) s = leads (({ (((d.put F.PWR_DOM_RES_DOMAIN k).put F.PWR_DOM_RES_STATUS 0).put
              F.PWR_DOM_RES_BUSY 1) with pwr := { d.pwr with domGoing := some k } } : DieSt).ack m)) ∧
            (d.domOn k = true → d.domBusy k = true → exec (.domainOff x m k) s = leads (res d 1)) ∧
            (d.domOn k = true → d.domBusy k = false → ∃ t, exec (.domainOff x m k) s = .next t ∧ s.sameElse t x ∧
              (∀ j, j < 79 → (t.die x).domOn j = (d.domOn j && j != k)) ∧ (t.die x).f F.PWR_DOM_RES_STATUS = 0)))) ∧
      (∀ k, k < 76 → d.pwr.domGoing = some k → d.pwr.domCaller = none → ∃ t, exec (.domainReady x) s = .next t ∧
        s.sameElse t x ∧ (∀ j, j < 79 → (t.die x).domOn j = (d.domOn j || j == k)) ∧ (t.die x).on F.PWR_DOM_RES_BUSY = false ∧
        (t.die x).pwr.domGoing = none) ∧
      (d.pwr.domGoing = none → exec (.domainReady x) s = leads d))

/-- A record that is its header alone acts by its TYPE: SYNC starts a stream, SELECT selects, END and STREAM_END end an
image and the stream, any other TYPE is STREAM. Outside a stream no record does anything; bytes of an image not
taken are skipped. FIRMWARE and TEAM act as R356 and R421 say. A HEADER that fails a check ends the load with that
check's error, and one that passes starts the body. A body record waits until its block has passed; a trailer whose
digest or tag fails ends the load with DIGEST or DECRYPT, else the records act up to the first refused frame and
write the frames of this die. END completes an image whose body is complete, or ends with MISMATCH where its frames
use what the die does not have. A pause over 1 s, an untaken image or a misplaced record ends the load with TIMEOUT,
NOT_SELECTED or STREAM. An error on one die ends the load on both (log entry 194). (14_configuration.md R355,
14_configuration.md R356, 14_configuration.md R357, 14_configuration.md R359, 14_configuration.md R360,
14_configuration.md R361, 14_configuration.md R366, 14_configuration.md R368, 14_configuration.md R370,
14_configuration.md R372, 16_referee_and_team.md R417, 16_referee_and_team.md R421) -/
def Obligations.StreamRecordsLoadAnImage : Prop :=
  ∀ s : State,
    let both := fun (g : DieSt → DieSt) => (.next (onBoth s g) : Out)
    let alike := s.d1.idn.absent = true ∨ (s.d0.f F.CFG_STAT_LSTATE = 6 ↔ s.d1.f F.CFG_STAT_LSTATE = 6)
    let live := fun (n : Nat) => s.every (fun e => e.streaming n = true ∧ e.load.skip = 0 ∧ e.f F.CFG_STAT_LSTATE ≠ 6)
    let fails := fun (o : Out) (y : Die) (code : Nat) => ∃ t, o = .next t ∧ t.pending = s.pending ∧ (s.d1.idn.absent = true → t.d1 = s.d1) ∧
      (∀ x, (s.die x).idn.absent = false → (t.die x).load.inStream = false ∧ (t.die x).f F.CFG_STAT_LSTATE = 6) ∧
      ((s.die y).on F.CFG_ERR_VALID = false → (t.die y).on F.CFG_ERR_VALID = true ∧ (t.die y).f F.CFG_ERR_CODE = code)
    let heads := fun (w : Word64) => [Instr.sync w, .selectDev w, .imageEnd w, .streamEnd w]
    let bodies := fun (a n v : Nat) (fs : List Nat) => [(Instr.frames a fs false, 8 + 128 * fs.length, BodyRec.frames a fs, fs.length),
      (.zeroFrames a n, 8, .zero a n, n), (.fillFrames a n v, 136, .fill a n v, n)]
    let after := fun (e : DieSt) (n : Nat) => ({ e.load with off := e.load.off + n, lastAt := e.now } : LoadSt)
    (alike → s.every (fun e => e.load.inStream = false ∨ e.dev ∉ [1, 2]) → exec .streamTimeout s = .next s ∧
      (∀ w, recType w ≠ 1 → ∀ c ∈ heads w, exec c s = .next s) ∧
      (∀ fw tm r bad ms hash nxt tag, ∀ c ∈ [Instr.firmware fw, .team tm, .header r bad ms, .bodyBlockTrailer hash nxt tag], exec c s = .next s) ∧
      (∀ a n v fs, exec (.frames a fs true) s = .next s ∧ ∀ b ∈ bodies a n v fs, exec b.1 s = .next s)) ∧
    (∀ n, s.every (fun e => e.streaming n = true ∧ 0 < e.load.skip ∧ e.f F.CFG_STAT_LSTATE ≠ 6) → ∀ c,
      ((∃ w, n = 8 ∧ c ∈ heads w) ∨ (∃ fw, n = 8 + fw.length ∧ c = .firmware fw) ∨ (∃ tm : TeamImg, n = 8 + tm.length ∧ c = .team tm) ∨
        (∃ r bad ms, n = 8 + r.bytes.length ∧ c = .header r bad ms) ∨ (∃ h k g, n = 64 ∧ c = .bodyBlockTrailer h k g) ∨
        (∃ a k v fs, ∃ b ∈ bodies a k v fs, n = b.2.1 ∧ c = b.1)) →
      (s.every (fun e => n ≤ e.load.skip) → exec c s = both (fun e => { e with load := { after e n with skip := e.load.skip - n } })) ∧
      (∀ y, (s.die y).idn.absent = false → (s.die y).load.skip < n → fails (exec c s) y 0x10)) ∧
    (∀ w, recType w = 1 → recArg w = 0x86 → ∀ c ∈ heads w,
      (alike → s.every (fun e => e.load.inStream = false ∧ (e.dev ∉ [1, 2] ∨ e.on F.CFG_STAT_HOST_RDY = false ∨ e.load.loaded = true)) → exec c s = .next s) ∧
      (s.every (fun e => (e.load.inStream = false ∨ e.load.skip = 0) ∧ e.dev ∈ [1, 2] ∧ e.on F.CFG_STAT_HOST_RDY = true ∧ e.load.loaded = false ∧
          (e.pwr.mode ≠ 4 ∨ 8 ≤ e.load.cfgBytes) ∧ (e.nvmMode = true → e.on F.CFG_STAT_ALT = false ∧ (e.selfEntry e.load.failed).isSome = true)) →
        s.ends (exec c s) (fun e f => f.load.inStream = true ∧ f.load.sel = true ∧ f.load.off = 8 ∧ f.on F.CFG_ERR_VALID = false ∧
          f.f F.CFG_STAT_LSTATE = if e.load.fw.isSome then 2 else 1))) ∧
    (live 8 → ∀ w, ∀ c ∈ heads w,
      (recType w = 2 → (s.every (fun e => e.load.teamDue = false ∧ e.load.hdr = none) → exec c s
          = both (fun e => { e with load := { after e 8 with sel := bit (recArg w) 55 || bit (recArg w % 2 ^ 16) e.pwr.devid } })) ∧
        (∀ y, (s.die y).idn.absent = false → (s.die y).load.teamDue = true ∨ (s.die y).load.hdr.isSome = true → fails (exec c s) y 0x10)) ∧
      (recType w = 6 → (s.every (fun e => e.load.hdr = none) → exec c s = both (fun e => { e with load := after e 8 })) ∧
        (∀ y h, (s.die y).idn.absent = false → (s.die y).load.hdr = some h →
          (((s.die y).load.body ≠ h.bodyLen ∨ 65536 * (s.die y).load.blk < h.bodyLen) → fails (exec c s) y 0x10) ∧
          ((s.die y).load.body = h.bodyLen → h.bodyLen ≤ 65536 * (s.die y).load.blk → (s.die y).placesFit = false → fails (exec c s) y 0x09)) ∧
        (∀ h, s.every (fun e => e.load.hdr = some h ∧ e.load.body = h.bodyLen ∧ h.bodyLen ≤ 65536 * e.load.blk ∧ e.placesFit = true) →
          s.ends (exec c s) (fun e f => f.load.loaded = true ∧ f.load.took = true ∧ f.load.hdr = none ∧ f.f F.CFG_STAT_LSTATE = 4 ∧
            f.rd R.CFG_IMG = h.imageId ∧ f.noRb = (h.noReadback || (e.noRb && !e.pwr.cold)) ∧
            f.load.teamDue = (h.teamFollows && decide (2 ≤ e.pwr.mode ∧ e.pwr.mode ≤ 4)) ∧
            ∀ p q en r, e.load.list = p ++ en :: q → en.region < 1408 → e.load.place.get (fun _ => 0) en.region = r + 1 → r < 1408 →
              e.regionOn r = true → (∀ g ∈ q, g.region ≠ en.region ∧ e.load.place.get (fun _ => 0) g.region - 1 ≠ r) →
              f.rgState r = 3 ∧ f.f (F.RGN_STAT_HOME r) = en.region % 44 ∧ f.f (F.RGN_STAT_AT en.region) = r % 44 ∧
              f.rd (R.RGN_PID r) = BitVec.ofNat 32 en.pid))) ∧
      (recType w = 7 →
        (s.every (fun e => e.load.teamDue = false ∧ e.load.hdr = none ∧ e.load.took = true) → exec c s
          = both (fun e => { e with load := { after e 8 with inStream := false } })) ∧
        (∀ y, (s.die y).idn.absent = false →
          let l := (s.die y).load
          let inside := ∃ h, l.hdr = some h ∧ (l.body ≠ h.bodyLen ∨ 65536 * l.blk < h.bodyLen)
          (l.teamDue = true ∨ inside → fails (exec c s) y 0x10) ∧
          (l.teamDue = false → ¬ inside → l.took = false ∨ l.hdr.isSome = true → fails (exec c s) y 0x15))) ∧
      (recType w ∉ [2, 6, 7] → (recType w = 1 → recArg w ≠ 0x86) → ∀ y, (s.die y).idn.absent = false → fails (exec c s) y 0x10)) ∧
    (∀ p, live (8 + p.length) → let run := exec (.firmware p) s; let host := fun (e : DieSt) => e.pwr.mode ∈ [2, 3, 4]
      (s.every (fun e => e.load.sel = false ∧ e.load.hdr = none) → run = both (fun e => { e with load := after e (8 + p.length) })) ∧
      (∀ y, (s.die y).idn.absent = false → (s.die y).load.sel = true ∨ (s.die y).load.hdr.isSome = true →
        (s.die y).load.hdrSeen = true ∨ (s.die y).load.teamDue = true ∨ ¬ host (s.die y) → fails run y 0x10) ∧
      (s.every (fun e => e.load.sel = true ∧ e.load.hdrSeen = false ∧ e.load.teamDue = false ∧ host e) →
        (s.every (fun e => e.dev = 2) → run = both (fun e => { e with load := after e (8 + p.length) })) ∧
        (s.every (fun e => e.dev = 1 ∧ e.fwOk p = true) → run = both (fun e => { e with load := { after e (8 + p.length) with fw := some p } })) ∧
        (s.every (fun e => e.dev = 1 ∧ e.fwOk p = false ∧ e.on F.CFG_ERR_VALID = false) →
          s.ends run (fun e f => f.f F.CFG_ERR_CODE = 1 ∧ f.load.fw = e.load.fw ∧ f.load.inStream = e.load.inStream)))) ∧
    (∀ r bad ms, live (8 + r.bytes.length) → let run := exec (.header r bad ms) s; let h := readHdr r
      (s.every (fun e => e.dev = 1) → run = .next s) ∧
      (s.every (fun e => e.dev = 2) →
        (∀ y, (s.die y).idn.absent = false → (s.die y).load.teamDue = true ∨ (s.die y).load.hdr.isSome = true → fails run y 0x10) ∧
        (s.every (fun e => e.load.teamDue = false ∧ e.load.hdr = none) →
          (s.every (fun e => e.load.sel = false ∨ e.load.took = true) → run
            = both (fun e => { e with load := { after e (8 + r.bytes.length) with skip := bodyOnStream h.bodyLen } })) ∧
          (s.every (fun e => e.load.sel = true ∧ e.load.took = false) →
            (∀ y, (s.die y).idn.absent = false →
              ((s.die y).hdrCode h 0 ≠ 0 → fails run y ((s.die y).hdrCode h 0)) ∧
              ((s.die y).hdrCode h 0 = 0 → (s.die y).hdrFits h = false → fails run y 0x09) ∧
              ((s.die y).hdrCode h 0 = 0 → (s.die y).hdrFits h = true → (s.die y).planOk h = false → fails run y 0x0E)) ∧
            (s.every (fun e => e.hdrCode h 0 = 0 ∧ e.hdrFits h = true ∧ e.planOk h = true ∧ ∀ en ∈ h.regions, en.die = e.idn.die →
                e.quarHas 1 en.region = false ∧ ∀ b ∈ bad, b.kind = 1 → b.index / 2 ^ 15 = e.idn.die → b.index % 2 ^ 15 ≠ en.region) →
              s.ends run (fun e f => f.load.hdr = some h ∧ f.load.want = h.digest0 ∧ f.load.body = 0 ∧ f.load.recs = [] ∧
                f.f F.CFG_STAT_LSTATE = 3 ∧ f.f F.CFG_PROG_FRAMES = 0 ∧
                ∀ en ∈ h.regions, en.die = e.idn.die → f.load.place.get (fun _ => 0) en.region = en.region + 1)))))) ∧
    (∀ a n v fs, ∀ b ∈ bodies a n v fs, live b.2.1 →
      (∀ y, (s.die y).idn.absent = false → ((s.die y).load.hdr = none ∨ b.2.2.2 = 0 ∨
        (∃ h, (s.die y).load.hdr = some h ∧ h.bodyLen < (s.die y).load.body + b.2.1)) → fails (exec b.1 s) y 0x10) ∧
      (∀ h, 0 < b.2.2.2 → s.every (fun e => e.load.hdr = some h ∧ e.load.body + b.2.1 ≤ h.bodyLen) → exec b.1 s
        = both (fun e => { e with load := { after e b.2.1 with
            body := e.load.body + b.2.1, recs := e.load.recs ++ [(e.load.body + b.2.1, b.2.2.1)] } }))) ∧
    (∀ a fs, s.every (fun e => e.pwr.mode ∈ [2, 3] ∧ e.streaming 0 = true ∧ e.f F.CFG_STAT_LSTATE ≠ 6) → ∀ y, (s.die y).idn.absent = false →
      fails (exec (.frames a fs true) s) y 0x10) ∧
    (∀ hash nxt tag, live 64 → let run := exec (.bodyBlockTrailer hash nxt tag) s
      (∀ y, (s.die y).idn.absent = false → (s.die y).load.hdr = none → fails run y 0x10) ∧
      (∀ h, s.every (fun e => e.load.hdr = some h) →
        let edge := fun (e : DieSt) => min h.bodyLen (65536 * (e.load.blk + 1))
        let due := fun (e : DieSt) => edge e ≤ e.load.body ∧ 65536 * e.load.blk < h.bodyLen
        let tagOk := fun (e : DieSt) => h.encrypted = true → e.tagRight h e.load.blk tag = true
        (∀ y, (s.die y).idn.absent = false →
          (¬ due (s.die y) → fails run y 0x10) ∧
          (due (s.die y) → hash ≠ (s.die y).load.want → fails run y 0x06) ∧
          (due (s.die y) → hash = (s.die y).load.want → ¬ tagOk (s.die y) → fails run y 0x07) ∧
          (∀ p q u f w, due (s.die y) → hash = (s.die y).load.want → tagOk (s.die y) → (s.die y).load.recs = p ++ q → (∀ x ∈ p, x.1 ≤ edge (s.die y)) →
            p.flatMap (fun x => recList x.2) = u ++ f :: w → (∀ g ∈ u, (s.die y).frameCode h g.1 g.2.1 g.2.2 = 0) →
            (s.die y).frameCode h f.1 f.2.1 f.2.2 ≠ 0 → fails run y ((s.die y).frameCode h f.1 f.2.1 f.2.2))) ∧
        (∀ p q, s.every (fun e => due e ∧ hash = e.load.want ∧ tagOk e ∧ e.load.recs = p ++ q ∧ (∀ x ∈ p, x.1 ≤ edge e ∧
            ∀ g ∈ recList x.2, e.frameCode h g.1 g.2.1 g.2.2 = 0) ∧ ∀ x, q.head? = some x → edge e < x.1) →
          s.ends run (fun e f => f.load.recs = q ∧ f.load.blk = e.load.blk + 1 ∧ f.load.want = nxt ∧ f.load.hdr = some h ∧
            ∀ u g w, (p.flatMap (fun x => recList x.2)).filter (fun g => faDie g.1 == e.idn.die) = u ++ g :: w →
              let home := fun (g : Nat × Nat × Nat) => 44 * faRow g.1 + faPos g.1
              let place := fun (g : Nat × Nat × Nat) => e.load.place.get (fun _ => 0) (home g)
              (∀ r, faPos g.1 < 44 → place g = r + 1 → (∀ k ∈ w, faPos k.1 = 44 ∨ place k ≠ r + 1 ∨ k.2.1 ≠ g.2.1) →
                f.fab.frames.get (fun _ => 0) (1024 * r + g.2.1) = g.2.2 ∧ f.rel.flip.get (fun _ => 0) (1024 * r + g.2.1) = 0 ∧
                f.load.store.get (fun _ => 0) (1024 * home g + g.2.1) = g.2.2) ∧
              (faPos g.1 = 44 → (∀ k ∈ w, faPos k.1 < 44 ∨ faRow k.1 ≠ faRow g.1 ∨ k.2.1 ≠ g.2.1) →
                f.fab.rowFrames.get (fun _ => Tmr.reset) (1024 * faRow g.1 + g.2.1) = ⟨g.2.2, g.2.2, g.2.2⟩))))) ∧
    (∀ tm : TeamImg, live (8 + tm.length) → let run := exec (.team tm) s; let mine := fun (e : DieSt) => e.load.sel = true ∨ e.load.hdr.isSome = true
      (s.every (fun e => ¬ mine e) → run = both (fun e => { e with load := after e (8 + tm.length) })) ∧
      (∀ y, (s.die y).idn.absent = false → mine (s.die y) → (s.die y).load.teamDue = false → fails run y 0x10) ∧
      (s.every (fun e => mine e ∧ e.load.teamDue = true) →
        (s.every (fun e => e.chReady tm.chan = false) → run = both (fun e => { e with load := { e.load with teamWait := true, lastAt := e.now } })) ∧
        (s.every (fun e => e.chReady tm.chan = true) → run = both (fun e =>
          let g := ({ e with load := after e (8 + tm.length) } : DieSt).portPuts tm.chan 12 tm.addr tm.bytes
          { g with load := { g.load with teamDue := false, teamWait := false, team := some tm } })))) ∧
    (alike → s.every (fun e => e.nvmMode = true ∨ e.load.teamWait = true ∨ e.now ≤ e.load.lastAt + 1000000000) → exec .streamTimeout s = .next s) ∧
    (s.every (fun e => e.load.inStream = true ∧ e.dev ∈ [1, 2] ∧ e.nvmMode = false ∧ e.load.teamWait = false ∧
      e.load.lastAt + 1000000000 < e.now) → ∀ y, (s.die y).idn.absent = false → fails (exec .streamTimeout s) y 0x11)

/-- PLOAD is refused with BUSY, RANGE or STATE, ends FAILED with BENCH on a bench that is not blank or of another row,
and else makes the bench LOADING; at its end the bench is READY, or the load ends with the first failed check.
COMMIT is refused with BUSY, RANGE or STATE, waits while a substitution or a repair is in service or a transition
under way, and else freezes the running regions of its homes; once they are still and the benches' calibrators have
converged, a COMMIT of one home moves its detour and the bench is RUNNING (as time passes, log entry 157). ABORT
ends a running PLOAD with ABORTED. READBACK and CAPTURE are refused with BUSY, RANGE, STATE or NO_READBACK, and else
place the frame in CFG_RB_DATA. A status read that its port takes gives the CFG register, in HALF-TIME a free value
(log entry 188). A lead sends the stream of a SEND entry as CONFIG messages. A rise of KICKOFF_N sets the PLAY
instant LEAD µs ahead, and KICKOFF_WAIT is raised once. (14_configuration.md R362, 14_configuration.md R367,
14_configuration.md R369, 14_configuration.md R372, 14_configuration.md R374, 14_configuration.md R375,
14_configuration.md R377, 14_configuration.md R378, 14_configuration.md R383) -/
def Obligations.LoaderCommandsReadBackAndKickoff : Prop :=
  (∀ s : State,
    let d := s.d0
    (d.dev ≠ 3 ∨ d.on F.CFG_KICK_RISEN = true ∨ d.on F.PWR_STATE_RESUMED = true → exec .kickoffRise s = .next s) ∧
    (d.dev = 3 → d.on F.CFG_KICK_RISEN = false → d.on F.PWR_STATE_RESUMED = false →
      let t0 := d.mt.toNat + 1000 * max 2 (d.f F.CFG_KICK_LEAD)
      (d.on F.CFG_KICK_KSYS = false → exec .kickoffRise s = .next (onBoth s (fun e => { (e.put F.CFG_KICK_RISEN 1).wr64 R.CFG_PLAY_LO R.CFG_PLAY_HI t0 with
        mtm := { e.mtm with playAt := some t0 } }))) ∧
      (d.on F.CFG_KICK_KSYS = true → exec .kickoffRise s = .next (onBoth s (fun e => e.put F.CFG_KICK_RISEN 1)))) ∧
    (let due := fun (e : DieSt) => e.dev = 3 ∧ e.on F.CFG_KICK_RISEN = false ∧ 0 < e.f F.CFG_KICK_WAIT ∧ e.load.kickLate = false ∧
        e.load.lineUpAt + e.f F.CFG_KICK_WAIT * 10000000 ≤ e.now;
      (s.every due → exec .kickoffWait s = .next (onBoth s (fun e =>
        { e.raiseIf (bit (e.f F.CFG_EVT_EN_EN) 1) 0x704 0x0E03 0 with load := { e.load with kickLate := true } }))) ∧
      (s.every (fun e => ¬ due e) → exec .kickoffWait s = .next s))) ∧
  ∀ (s : State) (x : Die) (d : DieSt), s.has x d → d.load.caller = none →
    let leads := fun (e : DieSt) => (.next (s.setDie x e) : Out)
    let fin := fun (e : DieSt) (st : Nat) => (e.put F.CFG_CMD_RES_STATUS st).put F.CFG_CMD_RES_BUSY 0
    let a0 := (d.rd R.CFG_ARG0).toNat
    let a1 := (d.rd R.CFG_ARG1).toNat
    let a2 := (d.rd R.CFG_ARG2).toNat
    let home := a0 % 2048
    let bench := a0 / 65536 % 2048
    let busy := d.load.pload.isSome = true ∨ d.load.commit.isSome = true
    let st := fun (o : Out) (n : Nat) (p : DieSt → Prop) => ∃ t, o = .next t ∧ s.sameElse t x ∧ (t.die x).f F.CFG_CMD_RES_STATUS = n ∧ p (t.die x)
    (∀ m, s.takes x d m R.CFG_CMD →
      (busy → ∀ c ∈ [Instr.cfgPload x m, .cfgCommit x m false, .cfgCommit x m true, .cfgReadback x m, .cfgCapture x m],
        exec c s = leads ((d.put F.CFG_CMD_RES_STATUS 1).ack m)) ∧
      (¬ busy →
        (let bad := 1408 ≤ home ∨ 1408 ≤ bench ∨ isBench bench = false ∨ a1 % 64 ≠ 0 ∨ a2 % 2 ^ 24 = 0;
          (bad → exec (.cfgPload x m) s = leads ((fin d 4).ack m)) ∧
          (¬ bad → d.dev ≠ 4 ∨ d.restarting = true → exec (.cfgPload x m) s = leads ((fin d 2).ack m)) ∧
          (¬ bad → d.dev = 4 → d.restarting = false →
            (d.rgState bench = 1 → d.regionOn bench = true → home / 44 = bench / 44 → st (exec (.cfgPload x m) s) (d.f F.CFG_CMD_RES_STATUS)
              (fun e => e.on F.CFG_CMD_RES_BUSY = true ∧ e.rgState bench = 2 ∧ e.load.pload = some (home, bench) ∧ e.f F.CFG_STAT_LSTATE = 7 ∧
                e.load.ploadAt = (bits a2 31 30, a1 + bits a2 27 24 * 2 ^ 32, 64 * (a2 % 2 ^ 24)))) ∧
            (d.rgState bench ≠ 1 ∨ d.regionOn bench = false ∨ home / 44 ≠ bench / 44 → st (exec (.cfgPload x m) s) 5 (fun e =>
              e.f F.CFG_ERR_CODE = 0x12 ∧ e.load.pload = none ∧ e.on F.CFG_CMD_RES_BUSY = false)))) ∧
        (∀ pair, let run := exec (.cfgCommit x m pair) s
          let l := if pair then [(home, bench), (a1 % 2048, a1 / 65536 % 2048)] else [(home, bench)]
          let mate := fun (h : Nat) => d.rel.pair.get (fun _ => 0) h
          let bad := (∃ y ∈ l, 1408 ≤ y.1 ∨ 1408 ≤ y.2 ∨ isBench y.2 = false ∨ y.1 / 44 ≠ y.2 / 44) ∨ (pair = false ∧ mate home ≠ 0) ∨
            (pair = true ∧ ((∃ y ∈ l, mate y.1 = 0 ∨ ∀ z ∈ l, mate y.1 ≠ z.1 + 1) ∨ bench = a1 / 65536 % 2048))
          (bad → run = leads ((fin d 4).ack m)) ∧
          (¬ bad → d.dev ≠ 4 ∨ (∃ y ∈ l, d.rgState y.2 ≠ 3 ∨ y ∉ d.load.scratch) → run = leads ((fin d 2).ack m)) ∧
          (¬ bad → d.dev = 4 → (∀ y ∈ l, d.rgState y.2 = 3 ∧ y ∈ d.load.scratch) → d.commitFreeze = false →
            (d.f F.SUB_STAT_STEP ≠ 0 ∨ d.rel.todo ≠ [] ∨ d.pwr.going.isSome = true → run
              = leads (({ d.put F.CFG_CMD_RES_BUSY 1 with load := { d.load with commit := some l } } : DieSt).ack m)) ∧
            (∀ y cur ch, d.f F.SUB_STAT_STEP = 0 → d.rel.todo = [] → d.pwr.going = none → y ∈ l → d.atOf y.1 = some cur → d.rgState cur = 4 →
              ch < 1536 → ch < (d.design cur).ring.length → (d.ringCh cur ch).drain = false → (∀ z ∈ l, z ≠ y → d.atOf z.1 ≠ some cur) →
              st run (d.f F.CFG_CMD_RES_STATUS) (fun e => e.on F.CFG_CMD_RES_BUSY = true ∧ e.load.commit = some l ∧ e.f F.SUB_STAT_STEP = 2 ∧
                e.f F.SUB_STAT_KIND = 5 ∧ e.ringState cur = 2 ∧ e.rgState cur = 4 ∧ ∀ z ∈ l, e.rgState z.2 = 3)))) ∧
        (let pos := faPos a0; let row := faRow a0; let ix := faIdx a0
          let rg := 44 * row + pos
          let bad := a0 % 1024 ≠ 0 ∨ 45 ≤ pos ∨ (d.idn.twin = true ∧ faDie a0 ≠ d.idn.die) ∨ (pos < 44 ∧ 768 ≤ ix) ∨ (pos = 44 ∧ 736 ≤ ix)
          let gone := faDie a0 ≠ d.idn.die ∨ d.idn.rows ≤ row ∨ (pos < 44 ∧ d.regionOn rg = false)
          let shows := fun (v : Nat) => st (exec (.cfgReadback x m) s) 0 (fun e => e.on F.CFG_CMD_RES_BUSY = false ∧
            ∀ k, k < 32 → e.rd (R.CFG_RB_DATA k) = BitVec.ofNat 32 (v / 2 ^ (32 * k)));
          (bad → exec (.cfgReadback x m) s = leads ((fin d 4).ack m)) ∧
          (¬ bad → gone → exec (.cfgReadback x m) s = leads ((fin d 2).ack m)) ∧
          (¬ bad → ¬ gone → d.noRb = true → exec (.cfgReadback x m) s = leads ((fin d 3).ack m)) ∧
          (¬ bad → ¬ gone → d.noRb = false →
            (pos = 44 → shows (vote (d.fab.rowFrames.get (fun _ => Tmr.reset) (1024 * row + ix)))) ∧
            (pos < 44 → shows (Nat.xor (d.fab.frames.get (fun _ => 0) (1024 * rg + ix)) (d.rel.flip.get (fun _ => 0) (1024 * rg + ix) % 2 ^ 1024))))) ∧
        (let n := a0 / 65536 % 16
          let bad := 1408 ≤ home ∨ 9 ≤ n
          let off := d.regionOn home = false ∨ (d.ringState home ≠ 3 ∧ d.dev ≠ 6);
          (bad → exec (.cfgCapture x m) s = leads ((fin d 4).ack m)) ∧
          (¬ bad → off → exec (.cfgCapture x m) s = leads ((fin d 2).ack m)) ∧
          (¬ bad → ¬ off → d.noRb = true → exec (.cfgCapture x m) s = leads ((fin d 3).ack m)) ∧
          (¬ bad → ¬ off → d.noRb = false → st (exec (.cfgCapture x m) s) 0 (fun e => e.on F.CFG_CMD_RES_BUSY = false ∧
            ∀ k, k < 32 → e.rd (R.CFG_RB_DATA k) = BitVec.ofNat 32 (d.stateBits home / 2 ^ (1024 * n) % 2 ^ 1024 / 2 ^ (32 * k)))))) ∧
      (d.load.pload = none → exec (.cfgAbort x m) s = leads ((d.put F.CFG_CMD_RES_STATUS 2).ack m)) ∧
      (∀ h b, d.load.pload = some (h, b) → st (exec (.cfgAbort x m) s) 5 (fun e => e.load.pload = none ∧ e.f F.CFG_STAT_LSTATE = 6 ∧
        (d.on F.CFG_ERR_VALID = false → e.f F.CFG_ERR_CODE = 0x14)))) ∧
    (∀ h b, s.pending = [] → d.load.commit = some [(h, b)] → d.commitFreeze = true → h < 1408 → b < 1408 → isBench b = true →
      h / 44 = b / 44 → (d.atOf h).all d.stillNow = true → (d.convergeNow b).regionConverged b = true → d.rel.todo = [] →
      ∃ t, step s = .next t ∧
        let e := t.die x
        e.load.commit = none ∧ e.rgState b = 4 ∧ e.ringState b = 1 ∧ e.f (F.RGN_STAT_AT h) = b % 44 ∧ e.f (F.RGN_STAT_HOME b) = h % 44 ∧
        e.fab.gate.get (fun _ => false) b = true ∧ e.f F.SUB_STAT_STEP = 0 ∧ e.f F.CFG_CMD_RES_STATUS = 0 ∧
        e.on F.CFG_CMD_RES_BUSY = false) ∧
    (∀ p, (d.load.pload = none → exec (.ploadEnd x p) s = leads d) ∧
      (∀ h b, d.load.pload = some (h, b) → b < 1408 →
        let hd := readHdr p.hdr
        let src := d.load.ploadAt
        let bad := p.dramErr = true ∨ d.chReady src.1 = false ∨ ∃ k, k < src.2.2 / 64 ∧ d.dramBad src.1 (src.2.1 + 64 * k) = true
        let code := d.hdrCode hd 1
        let other := hd.pkg ≠ d.idn.pkg ∨ (hd.met = true ∧ d.idn.met = false)
        let tags := hd.encrypted = true → d.tagsRight hd p.tags = true
        let sig := (hd.regions.map (fun e => e.sig)).headD 0
        let stored := d.on F.CFG_STAT_STORE_OK = true ∧ d.chReady (d.f F.SUB_STORE_CH) = true
        let fl := p.body.flatMap (fun r => recList r)
        let fits := (∀ r ∈ p.body, recList r ≠ []) ∧ (p.body.map (fun r => recBytes r)).sum = hd.bodyLen
        let fails := fun (n : Nat) => st (exec (.ploadEnd x p) s) 5 (fun e => e.load.pload = none ∧ e.f F.CFG_STAT_LSTATE = 6 ∧
          (d.on F.CFG_ERR_VALID = false → e.f F.CFG_ERR_CODE = n))
        (bad → fails 0x06) ∧
        (¬ bad →
          (code ≠ 0 → fails code) ∧
          (code = 0 → isPartial hd = false → fails 0x03) ∧
          (code = 0 → isPartial hd = true →
            (other → fails 0x09) ∧
            (¬ other → p.digestOk = false → fails 0x06) ∧
            (¬ other → p.digestOk = true → ¬ tags → fails 0x07) ∧
            (¬ other → p.digestOk = true → tags → d.load.sig.get (fun _ => 0) h ≠ sig + 1 → fails 0x0D) ∧
            (¬ other → p.digestOk = true → tags → d.load.sig.get (fun _ => 0) h = sig + 1 → ¬ stored → fails 0x13) ∧
            (¬ other → p.digestOk = true → tags → d.load.sig.get (fun _ => 0) h = sig + 1 → stored →
              (∀ u f w, fits → fl = u ++ f :: w → (∀ g ∈ u, partialFrameCode g.1 g.2.1 g.2.2 = 0) → partialFrameCode f.1 f.2.1 f.2.2 ≠ 0 →
                fails (partialFrameCode f.1 f.2.1 f.2.2)) ∧
              ((∀ g ∈ fl, partialFrameCode g.1 g.2.1 g.2.2 = 0) →
                (¬ fits → fails 0x10) ∧
                (fits → st (exec (.ploadEnd x p) s) 0 (fun e => e.load.pload = none ∧ e.rgState b = 3 ∧ e.f (F.RGN_STAT_HOME b) = h % 44 ∧
                  e.rd (R.RGN_PID b) = BitVec.ofNat 32 ((hd.regions.map (fun e => e.pid)).headD 0) ∧ (h, b) ∈ e.load.scratch ∧
                  ∀ u g w, fl = u ++ g :: w → (∀ k ∈ w, k.2.1 ≠ g.2.1) →
                    e.fab.frames.get (fun _ => 0) (1024 * b + g.2.1) = g.2.2)))))))) ∧
    (x = .die0 → ∀ psp cs cmd i,
      let run := exec (.hostStatusRead psp cs cmd i) s
      let takes := d.dev ≠ 0 ∧ i < 16 ∧ cs = true ∧ (psp = true → d.pwr.mode = 3 ∧ d.dev ∈ [1, 2]) ∧ (psp = false → cmd = 0x0B)
      let out := fun (v : Word) => if psp then [v.toNat % 2 ^ 16, v.toNat / 2 ^ 16] else wordBytes 4 v.toNat
      let gives := fun (e : DieSt) (v : Word) => leads { e.answer .host v false with load := { e.load with hostOut := out v } }
      (¬ takes → run = leads d) ∧
      (takes → d.domOn 77 = true → (i ≠ 8 → run = gives d (d.rd (0x10030000 + 4 * i))) ∧ (i = 8 → run = gives d 0)) ∧
      (takes → d.domOn 77 = false → ∃ v, run = gives (d.freeBelow (2 ^ 32)).2 v)) ∧
    (x = .die0 → ∀ dest bytes,
      let run := exec (.configStreamStart dest bytes) s
      let ready := d.pwr.mode = 5 ∧ d.dev = 2 ∧ (∀ p, p < 4 → d.portSettled p = true) ∧ d.on F.SLK_ID_VALID = true
      (¬ ready ∨ d.sendEntry dest bytes.length = none → run = leads d) ∧
      (∀ k, ready → d.sendEntry dest bytes.length = some k → ∃ ps : List (List Nat),
        ps.flatten = bytes ∧ (∀ p ∈ ps, p ≠ [] ∧ p.length ≤ 256) ∧ (∀ p ∈ ps.dropLast, p.length = 256) ∧
        (let msgs := ((List.range ps.length).zip ps).map (fun y => slkMsg dest 0 1 (y.1 % 65536) y.2)
         let e := msgs.foldl (fun e y => e.slkSend y) (d.onNvmBus [d.nvmRead (dirOffset d.load.dir k)])
         run = leads { e with
           cfgSeq := e.cfgSeq.filter (fun y => y.1 != dest) ++ [(dest, ps.length % 65536)]
           load := { e.load with
             sent := e.load.sent ++ [dest], sentEntry := e.load.sentEntry ++ [k]
             sentMsgs := e.load.sentMsgs ++ [msgs.map (fun y => { y with src := e.f F.SLK_ID_ID })] } })))

/-- On a die whose event domain is on, with no event queue and no COMMIT waiting: a reader that may sweep checks one
frame of 320 and advances; the upsets after it stand. A clean frame changes no register; a frame with at most one
error in each code word, as any burst of 8 bits leaves it, is corrected, counted and raised; a double error stays,
is counted, raises SWP_DETECT and, with the engine idle, queues the copy of a pair, or an unpaired region, for
repair. A region not swept restarts at frame 0; readers hold while the coordinator restarts. The third missed
heartbeat restarts a reader at frame 0, a miscompare the coordinator; the third within 1 s takes PLAY, with no
transition or substitution in progress, to RECOVERY with cause 15. A disagreement of two running copies queues a
check and raises PAIR_MISMATCH; the check ends in two pair resets, or in the repair of the faulty copy, of both from
initial values where both are faulty, or without AUTO in a copy FAILED. A repair begins by freezing a running engine
for the lowest free bench; without a bench a pair runs single; a pair that runs single is repaired once a bench is
free. It waits for the bench's calibrators, then moves the personality; it fails where the store is not read, and at
a second abort. (15_reliability.md R384, 15_reliability.md R385, 15_reliability.md R386, 15_reliability.md R387,
15_reliability.md R388, 15_reliability.md R389, 15_reliability.md R390, 15_reliability.md R391, 15_reliability.md
R392, 15_reliability.md R396, 15_reliability.md R398, 13_supplies_and_states.md R340) -/
def Obligations.SweeperPairsAndRepairs : Prop :=
  ∀ (s : State) (x : Die) (d : DieSt), s.has x d → d.idn.rows ≤ 32 → d.domOn 74 = true → d.on F.SUB_CFG_EVQ_EN = false →
    d.load.commit = none →
    let leads := fun (e : DieSt) => (.next (s.setDie x e) : Out)
    let evr := fun (src code data : Nat) => (⟨d.mt, d.source src, code, data, false, false⟩ : EvRec)
    let ans := fun (o : Out) (p : DieSt → Prop) => ∃ t, o = .next t ∧ s.sameElse t x ∧ p (t.die x)
    let err := fun (e : DieSt) (c : Nat) => e.on F.SUB_ERR_VALID = true ∧ (d.on F.SUB_ERR_VALID = false → e.f F.SUB_ERR_CAUSE = c)
    let small := fun (home : Nat) => d.nowAt home < 1408 ∧ ∀ m, d.partner home = some m → m < 1408 ∧ d.nowAt m < 1408
    let wordOf := fun (i : Nat) => if i < 1024 then i % 8 else (i - 1024) / 9
    let double := fun (m : Nat) => ∃ i j, i < j ∧ j < 1096 ∧ wordOf i = wordOf j ∧ bit m i = true ∧ bit m j = true
    let after := fun (l : List (Nat × Nat)) (g m : Nat) =>
      (l.filter (fun u => u.1 % 320 = g)).foldl (fun m u => Nat.xor m u.2 % 2 ^ 1096) m
    (∀ i k, 0 < k → k ≤ 8 → i + k ≤ 1024 → ¬ double ((2 ^ k - 1) * 2 ^ i)) ∧
    (∀ rg up later, let run := exec (.frameSweepStep x rg up later) s
      let rest := fun (e : DieSt) (fr m : Nat) => e.flips rg fr = after later fr m ∧
        ∀ g, g < 320 → g ≠ fr → e.flips rg g = after later g (d.flips rg g)
      (d.hasRegion rg = false → run = leads d) ∧
      (d.hasRegion rg = true → d.on F.SWP_STAT_RESTARTING = true → run = leads (d.struck rg later)) ∧
      (d.on F.SWP_STAT_RESTARTING = false → d.hasRegion rg = true →
        d.regionOn rg = false ∨ d.rgState rg ∉ [1, 3, 4, 6, 7] ∨ d.ringState rg = 3 →
        run = leads (({ d with rel := { d.rel with next := d.rel.next.set (fun _ => 0) rg 0 } } : DieSt).struck rg later)) ∧
      (d.on F.SWP_STAT_RESTARTING = false → d.regionOn rg = true → d.rgState rg ∈ [1, 3, 4, 6, 7] → d.ringState rg ≠ 3 →
        ∀ fr, d.rel.next.get (fun _ => 0) rg = fr → fr < 320 →
        let m := Nat.xor (d.flips rg fr) up % 2 ^ 1096
        let data := (rg * 2 ^ 13 + fr * 2 ^ 4) % 2 ^ 24
        let on1 := fun (e : DieSt) (a b : Nat) => e.rel.next.get (fun _ => 0) rg = (fr + 1) % 320 ∧
          e.f (F.RGN_FRAME_CNT_CORR rg) = min 65535 (d.f (F.RGN_FRAME_CNT_CORR rg) + a) ∧
          e.f (F.RGN_FRAME_CNT_DET rg) = min 65535 (d.f (F.RGN_FRAME_CNT_DET rg) + b)
        (m = 0 → ans run (fun e => on1 e 0 0 ∧ rest e fr 0 ∧ e.regs = d.regs ∧ e.raised = d.raised)) ∧
        (m ≠ 0 → ¬ double m → ans run (fun e => on1 e 1 0 ∧ rest e fr 0 ∧
          e.raised = d.raised ++ (if d.on F.SWP_EVT_EN_CORR then [evr 0x700 0x0F01 data] else []))) ∧
        (double m → ans run (fun e => on1 e 0 1 ∧ rest e fr m ∧ ∃ l, e.raised = d.raised ++ evr 0x700 0x0F02 data :: l) ∧
          (d.f F.SUB_STAT_STEP = 0 → d.dev ∈ [3, 4, 6] → d.rgState rg ∈ [3, 4] → d.f (F.RGN_STAT_HOME rg) ≠ 63 → d.on F.SUB_CFG_AUTO = true →
            let home := rg / 44 * 44 + d.f (F.RGN_STAT_HOME rg)
            d.nowAt home = rg → (∀ j ∈ d.rel.todo, j.about home = false) →
            (d.mateHome home = none → ans run (fun e => e.rel.todo = d.rel.todo ++ [.fresh home])) ∧
            (∀ h, d.mateHome home = some h → ans run (fun e => e.rel.todo = d.rel.todo ++ [.copy home])))))) ∧
    (∀ rg, let run := exec (.readerHeartbeatMiss x rg) s; let n := d.rel.rdMiss.get (fun _ => 0) rg
      (d.regionOn rg = false → run = leads d) ∧
      (d.regionOn rg = true → n < 2 → run = leads { d with rel := { d.rel with rdMiss := d.rel.rdMiss.set (fun _ => 0) rg (n + 1) } }) ∧
      (d.regionOn rg = true → 2 ≤ n → ans run (fun e => e.rel.next.get (fun _ => 0) rg = 0 ∧ e.rel.rdMiss.get (fun _ => 0) rg = 0 ∧
        e.f F.SWP_RESTART_READER = min 65535 (d.f F.SWP_RESTART_READER + 1) ∧
        e.raised = d.raised ++ (if d.on F.SWP_EVT_EN_RESTART then [evr 0x700 0x0F03 rg] else [])))) ∧
    (let run := exec (.coordinatorMiscompare x) s
     let recent := d.rel.coordAt.filter (fun a => decide (d.now + 1 < a + 1000000000))
     (d.dev = 0 ∨ d.dev = 5 → run = .next s) ∧
     (d.dev ≠ 0 → d.dev ≠ 5 → recent.length < 2 → ans run (fun e => e.dev = d.dev ∧ e.on F.SWP_STAT_RESTARTING = true ∧
       e.rel.coordAt = (d.now + 1) :: recent ∧ e.f F.SWP_RESTART_COORD = min 65535 (d.f F.SWP_RESTART_COORD + 1) ∧
       e.raised = d.raised ++ (if d.on F.SWP_EVT_EN_RESTART then [evr 0x700 0x0F03 (2 ^ 23)] else []))) ∧
     (2 ≤ recent.length → s.paired → s.d0.dev = 4 → s.d0.pwr.going = none → s.subBusy = false →
       s.ends run (fun _ f => f.dev = 6 ∧ f.f F.PWR_STATE_CAUSE = 15))) ∧
    exec (.coordinatorRestartEnd x) s = leads (d.put F.SWP_STAT_RESTARTING 0) ∧
    (∀ a b since, let run := exec (.pairMismatch x a b since) s
      (d.dev ∉ [3, 4, 6] ∨ d.mateHome a ≠ some b ∨ b ≤ a ∨ (∃ j ∈ d.rel.todo, j.about a = true ∨ j.about b = true) ∨
        d.rgState (d.nowAt a) ≠ 4 ∨ d.rgState (d.nowAt b) ≠ 4 → run = leads d) ∧
      (a < b → b < 1408 → d.dev ∈ [3, 4, 6] → d.mateHome a = some b → (∀ j ∈ d.rel.todo, j.about a = false ∧ j.about b = false) →
        d.rgState (d.nowAt a) = 4 → d.rgState (d.nowAt b) = 4 → d.f F.SUB_STAT_STEP = 0 → ans run (fun e =>
          e.rel.todo = d.rel.todo ++ [.check a b since] ∧ (d.rel.todo = [] → e.f F.SUB_STAT_STEP = 1 ∧ e.f F.SUB_STAT_HOME = a) ∧
          e.raised = d.raised ++ (if d.on F.SUB_EVT_EN_PAIR then [evr 0x701 0x0F11 (b * 2 ^ 11 + a)] else [])))) ∧
    (∀ upA upB, let run := exec (.pairCheckEnd x upA upB) s
      ((∀ a b n l, d.rel.todo ≠ .check a b n :: l) ∨ d.f F.SUB_STAT_STEP ≠ 1 → run = leads d) ∧
      (∀ a b since l, a < b → b < 1408 → small a → small b → d.nowAt a ≠ d.nowAt b → d.homeOf (d.nowAt a) = a →
        d.homeOf (d.nowAt b) = b → d.rgState (d.nowAt a) ≠ 7 → d.rgState (d.nowAt b) ≠ 7 →
        d.rel.todo = .check a b since :: l → d.f F.SUB_STAT_STEP = 1 → d.f F.SUB_STAT_KIND = 1 →
        let bad := fun (h : Nat) (up : List (Nat × Nat)) => (∃ fr, fr < 1024 ∧
          double (Nat.xor (d.flips (d.nowAt h) fr) ((up.filter (fun u => u.1 % 320 = fr)).foldl (fun m u => Nat.xor m u.2) 0) % 2 ^ 1096)) ∨
          since < d.rel.found.get (fun _ => 0) (d.nowAt h)
        let ended := fun (w : Nat) (todo : List Repair) (resets : List (Nat × Nat)) (p : DieSt → Prop) => ans run (fun e =>
          e.rel.todo = todo ++ l ∧ p e ∧ ∃ v, e.raised = d.raised ++ v ++ resets.map (fun r => evr 0x701 0x0F15 (r.1 * 2 ^ 21 + r.2)) ∧
          (d.on F.SUB_EVT_EN_PAIR = true → evr 0x701 0x0F16 (w * 2 ^ 22 + b * 2 ^ 11 + a) ∈ v))
        let failed := fun (h : Nat) (e : DieSt) => e.rgState (d.nowAt h) = 6
        let auto := d.on F.SUB_CFG_AUTO
        (¬ bad a upA → ¬ bad b upB → ended 2 [] [(2, a), (2, b)] (fun _ => True)) ∧
        (bad a upA → ¬ bad b upB → if auto then ended 0 [.copy a] [] (fun _ => True) else ended 0 [] [] (failed a)) ∧
        (¬ bad a upA → bad b upB → if auto then ended 1 [.copy b] [] (fun _ => True) else ended 1 [] [] (failed b)) ∧
        (bad a upA → bad b upB → if auto then ended 3 [.fresh a, .fresh b] [] (fun _ => True)
          else ended 3 [] [(1, a), (1, b)] (fun e => failed a e ∧ failed b e)))) ∧
    (∀ ok ab, let runP := exec (.pairedRepair x ok ab) s; let runU := exec (.unpairedRepair x ok) s
      (d.dev ∉ [3, 4, 6] ∨ d.on F.SUB_CFG_AUTO = false → runP = leads d ∧ runU = leads d) ∧
      (d.rel.todo = [] → runU = leads d ∧ (d.rel.single = [] → runP = leads d)) ∧
      (∀ home l, home < 1408 → small home → d.dev ∈ [3, 4, 6] → d.on F.SUB_CFG_AUTO = true →
        (d.subFree = true →
          let begun := fun (o : Out) (kind b frozen : Nat) => ans o (fun e => e.f F.SUB_STAT_STEP = 2 ∧ e.f F.SUB_STAT_KIND = kind ∧
            e.f F.SUB_STAT_HOME = home ∧ e.f F.SUB_STAT_BENCH = b ∧ 2 ≤ e.ringState frozen ∧ e.ringState b = 3)
          (∀ b r, d.benches (home / 44) = b :: r → b < 1408 →
            (d.rgState (d.nowAt home) = 4 → (d.eng (d.nowAt home)).mode = .run →
              (d.rel.todo = .copy home :: l → begun runP 1 b (d.nowAt home)) ∧ (d.rel.todo = .fresh home :: l → begun runU 2 b (d.nowAt home))) ∧
            (∀ m, d.rel.todo = [] → d.rel.single = [home] → d.partner home = some m → d.rgState (d.nowAt m) = 4 → (d.eng (d.nowAt m)).mode = .run →
              d.nowAt m ≠ b → begun runP 1 b (d.nowAt m) ∧ ans runP (fun e => e.rel.todo = [.copy home]))) ∧
          (d.benches (home / 44) = [] → d.load.pload = none → d.rel.todo = .copy home :: l → d.rgState (d.nowAt home) ≠ 7 →
            ans runP (fun e => e.rel.todo = l ∧ e.rgState (d.nowAt home) = 6 ∧ e.on F.SUB_STAT_SINGLE = true ∧ err e 2))) ∧
        (∀ b, d.f F.SUB_STAT_STEP = 2 → d.f F.SUB_STAT_HOME = home → d.f F.SUB_STAT_BENCH = b → b < 1408 → isBench b = true → b ≠ home →
          b ≠ d.nowAt home → b / 44 = home / 44 → d.rgState (d.nowAt home) = 4 →
          let moved := fun (e : DieSt) => e.rel.todo = l ∧ e.rgState b = 4 ∧ e.rgState (d.nowAt home) = 6 ∧
            e.f (F.RGN_STAT_AT home) = b % 44 ∧ e.f F.SUB_CNT_SUBS = min 65535 (d.f F.SUB_CNT_SUBS + 1)
          (∀ m, d.f F.SUB_STAT_KIND = 1 → d.rel.todo = .copy home :: l → d.partner home = some m → d.nowAt m ≠ b → d.nowAt m ≠ d.nowAt home →
            d.rgState (d.nowAt m) = 4 → d.subFrozen home (some m) = true →
            let ready := (d.forcedReport home).benchReady b home
            let alone := fun (e : DieSt) (c : Nat) => e.rel.todo = l ∧ e.on F.SUB_STAT_SINGLE = true ∧ e.rgState (d.nowAt home) = 6 ∧
              e.rgState b = 1 ∧ err e c
            (ok = true → d.storeUp = true → ready = false → runP = leads (d.forcedReport home)) ∧
            (ok = true → d.storeUp = true → ready = true → ab = false → ans runP moved) ∧
            (ok = false ∨ d.storeUp = false → ans runP (fun e => alone e 3)) ∧
            (ok = true → d.storeUp = true → ready = true → ab = true →
              (d.rel.aborts = 0 → ans runP (fun e => e.rel.todo = d.rel.todo ∧ e.rel.aborts = 1 ∧ e.f F.SUB_STAT_STEP = 0 ∧ e.rgState b = 1)) ∧
              (d.rel.aborts ≠ 0 → ans runP (fun e => alone e 4)))) ∧
          (d.f F.SUB_STAT_KIND = 2 → d.rel.todo = .fresh home :: l → d.subFrozen home none = true →
            (ok = true → d.storeUp = true → d.benchReady b home = true → ans runU moved) ∧
            (ok = true → d.storeUp = true → d.benchReady b home = false → runU = leads d) ∧
            (ok = false ∨ d.storeUp = false → ans runU (fun e => e.rel.todo = l ∧ e.rgState (d.nowAt home) = 6 ∧ e.rgState b = 1 ∧ err e 3))))))

/-- Drill, suspended while the image store is down, takes a due row's next position, a FAILED region first, and passes
over one that runs and holds nothing. It moves a running personality to a bench only with two benches free, tests
the vacated region, and moves the personality back; a move waits for the calibrators, is given up where the store is
not read and at its second abort. A region that fails the test becomes QUARANTINED with a record and DRILL_FAIL, and
its row is suspended. In the Full-Time Test a condition that fails skips the test at step 2 and aborts it later, the
limit aborts it, and its end writes one record for each failure of a resource that is there; the device leaves
FULL-TIME once every die has ended. The Career record goes to the next slot with SEQ one higher, every 15 minutes or
on command; a failed write sets CAR_ERR and raises CAR_FAIL; a sample adds one to a bin of each histogram and to the
seconds powered and in PLAY. (15_reliability.md R401, 15_reliability.md R402, 15_reliability.md R404,
15_reliability.md R405, 15_reliability.md R406, 15_reliability.md R408, 15_reliability.md R409, 15_reliability.md
R414) -/
def Obligations.DrillFullTimeTestAndCareerLog : Prop :=
  ∀ (s : State) (x : Die) (d : DieSt), s.has x d → d.idn.rows ≤ 32 → d.domOn 74 = true → d.on F.SUB_CFG_EVQ_EN = false →
    d.load.commit = none →
    let leads := fun (e : DieSt) => (.next (s.setDie x e) : Out)
    let evr := fun (src code data : Nat) => (⟨d.mt, d.source src, code, data, false, false⟩ : EvRec)
    let ans := fun (o : Out) (p : DieSt → Prop) => ∃ t, o = .next t ∧ s.sameElse t x ∧ p (t.die x)
    let err := fun (e : DieSt) (c : Nat) => e.on F.SUB_ERR_VALID = true ∧ (d.on F.SUB_ERR_VALID = false → e.f F.SUB_ERR_CAUSE = c)
    let small := fun (home : Nat) => d.nowAt home < 1408 ∧ ∀ m, d.partner home = some m → m < 1408 ∧ d.nowAt m < 1408
    (∀ row, let run := exec (.drillDue x row) s; let on1 := d.rel.drillOn.get (fun _ => 0) row; let bad := d.rel.drillBad.get (fun _ => 0) row
      let can := d.dev = 4 ∧ d.on F.SUB_DRILL_CFG_EN = true ∧ bit (d.f F.SUB_DRILL_ROWS_EN) row = true ∧ row < d.idn.rows
      (¬ can → run = leads d) ∧
      (can → d.storeUp = false → run = leads (d.put F.SUB_DRILL_STAT_STATE 4)) ∧
      (can → d.storeUp = true → let due := d.rel.drillAt.get (fun _ => 0) row + max 1 (d.f F.SUB_DRILL_CFG_PACE) * 60000000000
        (on1 ≠ 0 ∨ d.now < due ∨ (bad ≠ 0 ∧ (d.benches row).length < bad) → run = leads d) ∧
        (on1 = 0 → due ≤ d.now → bad = 0 ∨ bad ≤ (d.benches row).length → ∀ p, p < 44 →
          ((d.rgState (44 * row + p) = 6 ∧ ∀ q, q < p → d.rgState (44 * row + q) ≠ 6) ∨
            (d.rel.drillPos.get (fun _ => 0) row = p ∧ ∀ q, q < 44 → d.rgState (44 * row + q) ≠ 6)) →
          let r := 44 * row + p
          let runs := d.rgState r = 4 ∧ d.f (F.RGN_STAT_HOME r) ≠ 63
          (d.regionOn r = true → runs → ans run (fun e => e.rel.drillOn.get (fun _ => 0) row = r + 1 ∧ e.rel.drillDue.get (fun _ => false) row = true)) ∧
          (d.regionOn r = true → d.rgState r = 1 ∨ d.rgState r = 6 → ans run (fun e =>
            e.rel.drillOn.get (fun _ => 0) row = r + 1 ∧ e.rel.drillDue.get (fun _ => false) row = false ∧ e.f F.SUB_DRILL_STAT_STATE = 2)) ∧
          (d.regionOn r = false ∨ (¬ runs ∧ d.rgState r ≠ 1 ∧ d.rgState r ≠ 6) → ans run (fun e =>
            e.rel.drillOn.get (fun _ => 0) row = 0 ∧ e.rel.drillAt.get (fun _ => 0) row = d.now ∧ e.f F.SUB_DRILL_STAT_STATE = 0))))) ∧
    (∀ row r ok ab, d.rel.drillOn.get (fun _ => 0) row = r + 1 → r < 1408 → r / 44 = row →
      let off := fun (e : DieSt) => e.rel.drillOn.get (fun _ => 0) row = 0
      let begun := fun (o : Out) (kind home b st : Nat) => ans o (fun e => e.f F.SUB_STAT_STEP = 2 ∧ e.f F.SUB_STAT_KIND = kind ∧
        e.f F.SUB_STAT_HOME = home ∧ e.f F.SUB_STAT_BENCH = b ∧ e.f F.SUB_DRILL_STAT_STATE = st)
      let given := fun (o : Out) => ans o (fun e => e.rgState r = d.rgState r ∧ off e ∧ e.f F.SUB_DRILL_STAT_STATE = 4 ∧ err e 3)
      let aborted := fun (o : Out) (b : Nat) => (d.rel.aborts = 0 → ans o (fun e => e.rel.aborts = 1 ∧ e.rgState b = 1 ∧ ¬ off e)) ∧
        (d.rel.aborts ≠ 0 → ans o (fun e => e.rel.aborts = 0 ∧ e.rgState b = 1 ∧ off e ∧ err e 4))
      let may := d.dev = 4 ∧ d.on F.SUB_DRILL_CFG_EN = true ∧ d.rel.todo = [] ∧ d.subFree = true ∧ d.inWindow = true
      let mid := fun (kind home b : Nat) => d.f F.SUB_STAT_STEP = 2 ∧ d.f F.SUB_STAT_KIND = kind ∧ d.f F.SUB_STAT_HOME = home ∧
        d.f F.SUB_STAT_BENCH = b
      (let run := exec (.drillOut x row ok ab) s; let home := d.homeOf r; let mate := d.mateHome home
       (d.rel.drillDue.get (fun _ => false) row = false ∨ d.rgState r ≠ 4 → run = leads d) ∧
       (d.rel.drillDue.get (fun _ => false) row = true → d.rgState r = 4 → home < 1408 → small home → d.nowAt home = r →
         (may → d.storeUp = false → run = leads (d.put F.SUB_DRILL_STAT_STATE 4)) ∧
         (may → d.storeUp = true → (d.benches row).length < 2 → run = leads d) ∧
         (∀ b c l, may → d.storeUp = true → d.benches row = b :: c :: l → b < 1408 →
           (ok = false → given run) ∧ (ok = true → (d.eng r).mode = .run → begun run 3 home b 1)) ∧
         (∀ b, mid 3 home b → b < 1408 → isBench b = true → b ≠ r → b ≠ home → b / 44 = row → (∀ m, mate = some m → d.nowAt m ≠ b ∧ d.nowAt m ≠ r) →
           d.subFrozen home mate = true →
           (d.benchReady b home = false → run = leads d) ∧
           (d.benchReady b home = true → ab = true → aborted run b) ∧
           (d.benchReady b home = true → ab = false → ans run (fun e => e.rgState b = 4 ∧ e.rgState r = 1 ∧ e.f (F.RGN_STAT_AT home) = b % 44 ∧
             e.rel.drillHome.get (fun _ => none) row = some home ∧ e.f F.SUB_DRILL_STAT_STATE = 2))))) ∧
      (∀ block, let run := exec (.drillTestEnd x row block) s
        (d.rel.drillDue.get (fun _ => false) row = true ∨ d.regionOn r = false ∨ (d.rgState r ≠ 1 ∧ d.rgState r ≠ 6) → run = leads d) ∧
        (d.rel.drillDue.get (fun _ => false) row = false → d.regionOn r = true → d.rgState r = 1 ∨ d.rgState r = 6 →
          let done := fun (p : DieSt → Prop) => ans run (fun e => e.f F.SUB_DRILL_STAT_REGION = r ∧
            e.f F.SUB_DRILL_STAT_TESTED = min 65535 (d.f F.SUB_DRILL_STAT_TESTED + 1) ∧ p e)
          let back := d.rel.drillHome.get (fun _ => none) row
          (block = none → back.isSome = true ∨ d.rgState r = 6 → done (fun e =>
            e.rel.drillHome.get (fun _ => none) row = some (back.getD (d.homeOf r)) ∧ e.rel.drillBack.get (fun _ => false) row = true ∧
            e.f F.SUB_DRILL_STAT_STATE = 3)) ∧
          (block = none → back = none → d.rgState r = 1 → done (fun e => off e ∧ e.f F.SUB_DRILL_STAT_STATE = 0)) ∧
          (∀ k, block = some k → d.quar.recs.length < 4094 → done (fun e => e.rgState r = 7 ∧ e.quarHas 1 r = true ∧ off e ∧
            e.f F.SUB_DRILL_STAT_STATE = 4 ∧ e.rel.drillBad.get (fun _ => 0) row = (e.benches row).length + 1 ∧
            e.raised = d.raised ++ (if d.on F.SUB_EVT_EN_DRILL then [evr 0x701 0x0F21 (k % 256 * 2 ^ 16 + r)] else []))))) ∧
      (let run := exec (.drillBack x row ok ab) s
       (d.rel.drillHome.get (fun _ => none) row = none ∨ (d.rgState r ≠ 1 ∧ d.rgState r ≠ 6) → run = leads d) ∧
       (∀ home, d.rel.drillHome.get (fun _ => none) row = some home → d.rgState r = 1 ∨ d.rgState r = 6 → home < 1408 → home / 44 = row → small home →
         let src := d.nowAt home
         let mate := d.mateHome home
         src ≠ r → d.rgState src = 4 → (∀ m, mate = some m → d.nowAt m ≠ r ∧ d.nowAt m ≠ src) →
         (may → d.rel.drillBack.get (fun _ => false) row = true →
           (d.storeUp = false → run = leads (d.put F.SUB_DRILL_STAT_STATE 4)) ∧
           (d.storeUp = true → ok = false → given run) ∧
           (d.storeUp = true → ok = true → (d.eng src).mode = .run → begun run 4 home r 3)) ∧
         (mid 4 home r → d.subFrozen home mate = true →
           (d.benchReady r home = false → run = leads d) ∧
           (d.benchReady r home = true → ab = true → aborted run r) ∧
           (d.benchReady r home = true → ab = false → ans run (fun e => e.rgState r = 4 ∧ e.rgState src = 1 ∧
             e.f (F.RGN_STAT_AT home) = r % 44 ∧ off e)))))) ∧
    (let z := match x with
       | .die0 => s.d1
       | .die1 => s.d0
     (s.d0.dev ≠ 7 → d.dev ≠ 7 → ∀ r st l, exec (.fttConditionFail x r st) s = leads d ∧ exec (.fttLimit x st) s = leads d ∧ exec (.fttEnd x l) s = leads d) ∧
     (d.dev = 7 → d.f F.FTT_STAT_RESULT = 0 → s.d0.pwr.going = none →
       let ovr := fun (o : Out) (res : Nat) (p : DieSt → Prop) => ∃ t, o = .next t ∧ t.pending = s.pending ∧ (t.die x).f F.FTT_STAT_RESULT = res ∧
         (t.die x).dev = 7 ∧ (2 < res → (t.die x).on F.PWR_STATE_FTT_SKIPPED = true) ∧ p (t.die x) ∧
         (s.d0.idn.absent = false → z.idn.absent = true ∨ z.fttOver = true → t.every (fun e => e.pwr.going = some .leave ∧ e.on F.PWR_STATE_TRANSIT = true)) ∧
         (z.idn.absent = false → z.fttOver = false → s.sameElse t x ∧ (t.die x).pwr.going = d.pwr.going)
       (∀ r st, let why := Nat.lor (r % 8) (if d.on F.FTT_CFG_EN then 0 else 8); let run := exec (.fttConditionFail x r st) s
         (why = 0 ∨ st < 2 ∨ 6 < st → ans run (fun e => e.f F.FTT_STAT_RESULT = 0 ∧ e.pwr.going = d.pwr.going)) ∧
         (why ≠ 0 → 2 ≤ st → st ≤ 6 → ovr run (if st = 2 then 3 else 4) (fun e =>
           e.f F.FTT_STAT_STEP = st ∧ e.f F.FTT_STAT_REASON = Nat.lor (d.f F.FTT_STAT_REASON) why))) ∧
       (∀ st, let lim := d.pwr.ftAt + max 1 (d.f F.FTT_CFG_LIMIT) * 100000000; let run := exec (.fttLimit x st) s
         (d.now < lim ∨ st < 2 ∨ 6 < st → ans run (fun e => e.f F.FTT_STAT_RESULT = 0 ∧ e.pwr.going = d.pwr.going)) ∧
         (lim ≤ d.now → 2 ≤ st → st ≤ 6 → ovr run 4 (fun e => e.f F.FTT_STAT_STEP = st))) ∧
       (∀ bad, let l := bad.filter (fun f => (f.kind = 1 ∧ d.hasRegion f.index = true) ∨ (f.kind = 3 ∧ d.idn.lane f.index = true) ∨
           (f.kind = 4 ∧ (f.index < 8 ∨ (16 ≤ f.index ∧ f.index ≤ 25))))
         ovr (exec (.fttEnd x bad) s) (if l.isEmpty then 1 else 2) (fun e => e.f F.FTT_STAT_STEP = 7 ∧ e.f F.FTT_STAT_FAILS = min 65535 l.length ∧
           (d.quar.recs.length + l.length ≤ 4094 → ∀ f ∈ l, e.quarHas f.kind f.index = true))))) ∧
    (let seq := (d.rd (R.CAR_REC 1)).toNat
     let wrote := fun (e : DieSt) => (e.rd (R.CAR_REC 1)).toNat = (seq + 1) % 2 ^ 32 ∧ e.nvm.carNext = (d.nvm.carNext + 1) % 1920 ∧
       (∃ t, e.nvm.career.get (fun _ => none) d.nvm.carNext = some t ∧ (t.get (fun _ => 0) 1).toNat = (seq + 1) % 2 ^ 32) ∧
       e.f F.CAR_STAT_SEQ = (seq + 1) % 2 ^ 24
     let failed := fun (e : DieSt) => e.on F.CAR_ERR_VALID = true ∧ (d.on F.CAR_ERR_VALID = false → e.f F.CAR_ERR_CAUSE = 1) ∧ e.nvm = d.nvm ∧
       e.raised = d.raised ++ [evr 0x705 0x0F41 (2 ^ 21)]
     (d.serving = false ∨ d.now < d.rel.carAt + 900000000000 → ∀ ok, exec (.careerWrite x ok) s = leads d) ∧
     (d.serving = true → d.rel.carAt + 900000000000 ≤ d.now → ans (exec (.careerWrite x true) s) (fun e => wrote e ∧ e.rel.carAt = d.now) ∧
       ans (exec (.careerWrite x false) s) (fun e => failed e ∧ e.rel.carAt = d.now)) ∧
     (∀ m, s.takes x d m R.CAR_CMD → ans (exec (.carWrite x m true) s) wrote ∧ ans (exec (.carWrite x m false) s) failed)) ∧
    (∀ tj level armed, let run := exec (.careerSample x tj level armed) s
      (d.dev = 0 ∨ d.dev = 5 → run = leads d) ∧
      (d.dev ≠ 0 → d.dev ≠ 5 → ans run (fun e =>
        let adds := fun (k n : Nat) => (e.rd (R.CAR_REC k)).toNat = min (2 ^ 32 - 1) ((d.rd (R.CAR_REC k)).toNat + n)
        let bins := fun (base : Nat) (v : Int) => ∀ k, k < 16 → adds (base + k) (if (k : Int) = max 0 (min 15 v) then 1 else 0)
        adds 5 (if d.pwr.good then 1 else 0) ∧ adds 6 (if d.dev = 4 then 1 else 0) ∧ bins 104 ((tj + 40) / 10) ∧
        bins 120 (((d.f F.PACE_STAT_VSET : Int) - 600) / 16) ∧ bins 136 (((d.f F.PACE_MARGIN_MIN : Int) - 14) / 2) ∧
        bins 152 level ∧ bins 168 (armed / 2560) ∧ e.raised = d.raised)))

/-- A call that is not the next one does nothing; one that the policy does not allow ends DENIED and changes nothing
else. NOP and VERSION end OK. Every other call of this group ends with the status of the first check that fails, in
the order of R423, and changes nothing else; where all pass it is carried out: CLAIM_QUERY answers the claim, CLAIM
and RELEASE change it, PIN_SET and PIN_OWNER claim what the function uses and write the pin, MATCHER_SET sets a
matcher, Q_BIND configures the queue and claims its ends, Q_UNBIND frees it at once where it is empty and else
waits, CRC_ATTACH attaches a unit, EXPRESS_ADMIT gives a context a slot and arms it, EXPRESS_RELEASE stops it and
frees the slot, DRAM_ADMIT, DRAM_RELEASE, SLK_ADMIT and SLK_RELEASE set a port's, a channel's or a queue's class and
rate. (16_referee_and_team.md R422, 16_referee_and_team.md R423, 16_referee_and_team.md R424, 16_referee_and_team.md
R426, 12_pins.md R310, 12_pins.md R311, 08_queues_and_checks.md R208, 08_queues_and_checks.md R209,
08_queues_and_checks.md R224, 07_roster.md R197, 10_dram_controller.md R254, 11_links_and_time.md R288) -/
def Obligations.CallsOnClaimsPinsQueuesAndAdmissions : Prop :=
  ∀ (s : State) (x : Die) (d : DieSt) (w : Caller), s.has x d →
    let t := d.callTake w
    let a := fun (i : Nat) => t.arg w i
    let v := fun (i : Nat) => (BitVec.ofNat 32 (t.arg w i) : Word)
    let ends := fun (e : DieSt) (st : Nat) (rets : List Nat) => (.next (s.setDie x ((e.callEnd w st rets).dropUnknown 8)) : Out)
    let call := fun (o : Out) (code : Nat) (p : Prop) => (d.callNext w code = false → o = .next s) ∧ (d.callNext w code = true →
      (d.policyAllows w code = false → o = ends t 12 []) ∧ (d.policyAllows w code = true → p))
    let checks := fun (o : Out) (l : List (Prop × Nat)) (p : Prop) =>
      (∀ l1 c l2, l = l1 ++ c :: l2 → (∀ b ∈ l1, ¬ b.1) → c.1 → o = ends t c.2 []) ∧ ((∀ c ∈ l, ¬ c.1) → p)

    call (exec (.callNop x w) s) 0x00 (exec (.callNop x w) s = ends t 0 []) ∧
    call (exec (.version x w) s) 0x01 (exec (.version x w) s
      = ends t 0 [t.f F.REF_FW_VERSION, t.ref.team.elim 0 (fun i => i.version), (t.rd R.REF_STAT).toNat]) ∧
    (let there := [(isResource (a 0) = false, 2), (t.hasResource (a 0) = false, 9)]
     (let o := exec (.claimQuery x w) s; call o 0x02 (checks o there (o = ends t 0 [t.claim (a 0)]))) ∧
     (let o := exec (.claim x w) s; call o 0x03 (checks o (there ++ [(t.claim (a 0) ≠ 0, 4), (t.held (a 0) = true, 10)])
       (o = ends (t.setClaim (a 0) (2 * 2 ^ 28)) 0 []))) ∧
     (let o := exec (.release x w) s; call o 0x04 (checks o (there ++ [(t.claim (a 0) ≠ 2 * 2 ^ 28, 4), (t.held (a 0) = true, 10)])
       (o = ends (t.setClaim (a 0) 0) 0 [])))) ∧
    (let o := exec (.pinSet x w) s; let uses := (pinUses (v 1)).toList
     call o 0x10 (checks o [(0x3C0 ≤ a 0 ∨ cfgOwner (v 1) ≠ 1 ∨ t.pinMisfit (a 0) (v 1) = true, 2), (t.pins ≤ a 0 ∨ t.pinAbsent (v 1) = true, 9),
         (t.pinSealed (t.rd (R.PIN_CFG (a 0))) (v 1) = true, 11), (t.f (F.PIN_CFG_OWNER (a 0)) ≠ 1, 4),
         ((∃ r ∈ a 0 :: uses, t.mine r = false), 4), ((∃ r ∈ a 0 :: uses, t.held r = true), 10)]
       (let e := ((a 0 :: uses).foldl (fun (e : DieSt) r => e.setClaim r (2 * 2 ^ 28)) t).hold w (a 0)
        o = .next (s.setDie x ((e.pinWrite (a 0) (v 1) (some (v 2)) (some w)).1.dropUnknown 8)) ∧
        (t.pinsLive = false → t.on (F.PIN_CFG_SWITCHING (a 0)) = false → uses = [] → o
          = ends (((e.wr (R.PIN_CFG (a 0)) (cfgNorm (v 1) ||| (t.rd (R.PIN_CFG (a 0)) &&& 0x00400000))).setPin (a 0)
            { t.pinS (a 0) with stored := true }).wr (R.PIN_ELEC (a 0)) (elecNorm (v 2))) 0 [])))) ∧
    (let o := exec (.pinOwner x w) s
     let u : Word := BitVec.ofNat 32 (a 1 % 4 * 2 ^ 30 + bits (a 1) 27 24 * 2 ^ 24 + bits (a 1) 15 8 * 2 ^ 8)
     let who := if a 1 % 4 = 0 then 1 * 2 ^ 28 else 2 * 2 ^ 28
     let uses := (pinUses u).toList
     call o 0x11 (checks o [(0x3C0 ≤ a 0 ∨ cfgOwner u = 2 ∨ t.pinMisfit (a 0) u = true, 2), (t.pins ≤ a 0 ∨ t.pinAbsent u = true, 9),
         (t.pinSealed (t.rd (R.PIN_CFG (a 0))) u = true, 11),
         (t.claim (a 0) ≠ 0 ∨ t.f (F.PIN_CFG_OWNER (a 0)) = 2 ∨ (∃ r ∈ uses, t.claim r ≠ 0 ∧ t.claim r ≠ who), 4),
         ((∃ r ∈ a 0 :: uses, t.held r = true), 10)]
       (o = .next (s.setDie x ((((uses.foldl (fun (e : DieSt) r => e.setClaim r who) t).hold w (a 0)).pinWrite (a 0) u none (some w)).1.dropUnknown 8))))) ∧
    (let o := exec (.matcherSet x w) s
     call o 0x12 (checks o [(80 ≤ a 0 ∨ 4 < bits (v 1).toNat 29 27, 2), (t.idn.banks ≤ a 0 / 4, 9), (t.mine (0x500 + a 0) = false, 4), (t.held (0x500 + a 0) = true, 10)]
       (o = ends (((t.setClaim (0x500 + a 0) (2 * 2 ^ 28)).wr (R.PIN_PM_CFG (a 0 / 4) (a 0 % 4)) (v 1 &&& 0xF8000000)).wr
          (R.PIN_PM_MV (a 0 / 4) (a 0 % 4)) (v 2)) 0 []))) ∧
    (let o := exec (.qBind x w) s; let c := (v 1).toNat; let n := (v 3).toNat % 2 ^ 17
     call o 0x20 (checks o [(64 ≤ a 0 ∨ qCfgReserved (v 1) = true ∨ 65536 < n ∨ (bit c 30 = true ∧ n ≠ 0) ∨ ((qEndOf c true).1 = 4 ∧ 16 ≤ (qEndOf c true).2.2), 2),
         (t.qEndAbsent c = true ∨ (n ≠ 0 ∧ t.idn.ddr ≤ bits (v 2).toNat 31 30), 9), (t.hubOn = false, 1),
         (t.qEndTaken (a 0) c true = true ∨ t.qEndTaken (a 0) c false = true, 4),
         (t.qConfigure (a 0) (v 1) (v 2) (v 3) = none ∨ t.held (0x600 + a 0) = true, 10)]
       (∀ e, t.qConfigure (a 0) (v 1) (v 2) (v 3) = some e →
        let old := (t.rd (R.Q_CFG (a 0))).toNat
        let cl := fun (wr : Bool) (r : Nat) (e : DieSt) =>
          if qEndClaim c (2 * 2 ^ 28) wr = 0 ∨ (qEndOf c wr = qEndOf old wr ∧ t.claim r ≠ 0) then e else e.setClaim r (qEndClaim c (2 * 2 ^ 28) wr)
        o = ends (cl false (0x640 + a 0) (cl true (0x600 + a 0) e)) 0 []))) ∧
    (let o := exec (.qUnbind x w) s; let e := t.put (F.Q_CFG_EN (a 0)) 0; let f := if bit (a 1) 0 then e.qFlush (a 0) else e
     call o 0x21 (checks o [(64 ≤ a 0, 2), (t.hubOn = false, 1), (t.servesExpress (a 0) = true, 8), (t.held (0x600 + a 0) = true, 10)]
       ((f.qIdle (a 0) = true → o = ends (f.unbound (a 0)) 0 []) ∧
        (f.qIdle (a 0) = false → o = .next (s.setDie x (((f.hold w (0x600 + a 0)).setQue (a 0) { f.que (a 0) with unbind := some w }).dropUnknown 8)))))) ∧
    (let o := exec (.crcAttach x w) s; let k := bits (a 1) 31 29; let i := bits (a 1) 5 0
     call o 0x22 (checks o [(16 ≤ a 0 ∨ (if k < 3 then 64 else if k < 7 then 4 else 16) ≤ i, 2),
         ((k ∈ [3, 4] ∧ t.idn.eth ≤ i) ∨ (k ∈ [5, 6] ∧ t.idn.slk ≤ i), 9), (t.hubOn = false, 1),
         (t.mine (0x680 + a 0) = false ∨ t.on (F.CRC_SCAN_STAT_BUSY (a 0)) = true, 4), (t.held (0x680 + a 0) = true, 10)]
       (o = ends (((t.setClaim (0x680 + a 0) (2 * 2 ^ 28)).wr (R.CRC_ATTACH (a 0)) (v 1 &&& 0xE000003F)).setCrc (a 0)
         { t.crcU (a 0) with inPacket := false }) 0 []))) ∧
    (let o := exec (.expressAdmit x w) s; let n := a 0; let r := if n < 40960 then (t.descRead n).1 else t
     call o 0x30 (checks o [(40960 ≤ n ∨ r.xShort = true, 2), (r.rosOn = false, 1), (r.cst n ≠ 1, 1), (r.ctxChecks n ≠ 0, r.ctxChecks n),
         (r.cResident n = false ∨ r.cRunMax n = 0 ∨ r.expressQueues n = false, 2), (512 < r.grpWx (r.cGroup n) ∨ 512 < r.grpWy (r.cGroup n), 2),
         (r.slotFor n = none, 6), ((r.ctxArm n).2 ≠ 0, (r.ctxArm n).2)]
       (∀ k, r.slotFor n = some k → let e := (((r.put (cF n 0 27 26) 0).put (cF n 0 18 18) 1).setCx n { r.cx n with slot := some k }).ctxArm n
        o = ends e.1 0 [k, (e.1.slotsOf (r.cGroup n)).length]))) ∧
    (let o := exec (.expressRelease x w) s; let n := a 0; let r := if n < 40960 then (t.descRead n).1 else t
     let l := [(40960 ≤ n, 2), (r.rosOn = false ∨ r.cAdmitted n = false, 1)]
     (d.ros.release = none → call o 0x31 (checks o l
       (let e : DieSt := { r with ros := { r.ros with release := some (n, w) } }
        o = .next (s.setDie x ((if r.cst n ∈ [2, 3, 4, 5, 6] then e.stopBegin n else e).dropUnknown 8).releaseEnds)))) ∧
     (∀ m u, d.ros.release = some (m, u) → (d.cx m).stopping = true → call o 0x31 (checks o l (o = ends t 10 [])))) ∧
    (let o := exec (.dramAdmit x w) s; let c := a 0 % 4; let p := a 0 / 16 % 8
     call o 0x32 (checks o [(a 1 = 0 ∨ 255 < a 1 ∨ a 2 = 0 ∨ 16 < a 2 ∨ 31 < a 3 ∨ t.xShort = true, 2), (t.idn.ddr ≤ c, 9),
         (t.chReady c = false ∨ t.on (F.DMC_PORT_CFG_EN c p) = false, 1), (t.mine (0x740 + 8 * c + p) = false, 4),
         (t.dramLimit c < t.dramSum c p (fun i => t.f (F.DMC_PORT_CFG_RATE c i)) + a 1 ∨ 16 < t.dramSum c p (fun i => t.f (F.DMC_PORT_CFG_CREDITS c i)) + a 2, 6)]
       (o = ends (((((((t.admitTokens c p (a 2)).setClaim (0x740 + 8 * c + p) (2 * 2 ^ 28)).put (F.DMC_PORT_CFG_CLASS c p) 0).put
         (F.DMC_PORT_CFG_RATE c p) (a 1)).put (F.DMC_PORT_CFG_CREDITS c p) (a 2)).put (F.DMC_PORT_CFG_PANIC c p) (a 3)).chShow c) 0 []))) ∧
    (let o := exec (.dramRelease x w) s; let c := a 0 % 4; let p := a 0 / 16 % 8
     call o 0x33 (checks o [(t.idn.ddr ≤ c, 9), (t.on (F.DMC_PORT_CFG_EN c p) = false ∨ t.f (F.DMC_PORT_CFG_CLASS c p) ≠ 0, 1)]
       (o = ends ((((((t.setClaim (0x740 + 8 * c + p) 0).put (F.DMC_PORT_CFG_CLASS c p) (max 1 (t.imagePort c p))).put
         (F.DMC_PORT_CFG_RATE c p) 0).put (F.DMC_PORT_CFG_CREDITS c p) 0).put (F.DMC_PORT_CFG_PANIC c p) 0).chShow c) 0 []))) ∧
    (let o := exec (.slkAdmit x w) s; let i := a 0 % 256; let bad := a 1 = 0 ∨ 255 < a 1 ∨ t.xShort = true
     call o 0x34 (if bit (a 0) 8 then checks o [(64 ≤ i ∨ bad, 2),
         (t.hubOn = false ∨ t.on (F.Q_CFG_PINNED i) = false ∨ t.f (F.Q_CFG_RSNK i) ≠ 5, 1), (t.mine (0x640 + i) = false, 4),
         (64 < t.slkSum (t.f (F.Q_CFG_RSEL i)) 256 i + a 1, 6)]
         (o = ends { t with slkAdm := t.slkAdm.set (fun _ => 0) i (a 1 + 1) } 0 [])
       else checks o [(bad, 2), (t.on (F.SLK_CHAN_CFG_EN i) = false, 9), (t.on (F.SLK_CHAN_CFG_DIR i) = true, 1), (t.mine (0x800 + i) = false, 4),
         (64 < t.slkSum (t.route (t.f (F.SLK_CHAN_CFG_DEST i))).1 i 64 + a 1, 6)]
         (o = ends (((t.setClaim (0x800 + i) (2 * 2 ^ 28)).put (F.SLK_CHAN_CFG_CLASS i) 0).put (F.SLK_CHAN_RATE_RATE i) (a 1)) 0 []))) ∧
    (let o := exec (.slkRelease x w) s; let i := a 0 % 256
     call o 0x35 (if bit (a 0) 8 then checks o [(64 ≤ i, 2), (t.slkAdm.get (fun _ => 0) i = 0, 1)]
         (o = ends { t with slkAdm := t.slkAdm.set (fun _ => 0) i 0 } 0 [])
       else checks o [(t.on (F.SLK_CHAN_CFG_EN i) = false, 9), (t.f (F.SLK_CHAN_CFG_CLASS i) ≠ 0 ∨ t.on (F.SLK_CHAN_CFG_DIR i) = true, 1)]
         (o = ends (((t.setClaim (0x800 + i) 0).put (F.SLK_CHAN_CFG_CLASS i) (t.imageChanClass i)).put (F.SLK_CHAN_RATE_RATE i) 0) 0 [])))

/-- PLOAD, COMMIT, READBACK and CAPTURE end with the first check that fails, or put their arguments in CFG_ARG and give
the loader its command; ABORT ends a PLOAD, or ends STATE. DOMAIN follows PWR_DOM_CMD and ends BUSY while another
domain switches. NVM_WRITE stores one sector or ends FAILED. TEAM_SWITCH marks the other slot on trial for 10 s and
runs it where its image is valid, TEAM_ALIVE within them makes it permanent, and a trial that expires goes back.
TEAM_RESTART and REF_RESTART end and then restart. QUAR_CLEAR removes a record that the latest test passed. The
state calls end OK, LATCHED or STATE and fire their trigger; REF_FW_STAGE stages a package; KEY_PROGRAM, KEY_REVOKE
and AES_PROGRAM set the slot's fuses on every die, or end FAILED where a die reads back wrong; these are die 0's,
and die 1's Referee keeps one BUSY until die 0 serves. (16_referee_and_team.md R416, 16_referee_and_team.md R418,
16_referee_and_team.md R419, 16_referee_and_team.md R420, 16_referee_and_team.md R423, 16_referee_and_team.md R424,
16_referee_and_team.md R427, 16_referee_and_team.md R428, 16_referee_and_team.md R429, 14_configuration.md R375,
13_supplies_and_states.md R334, 15_reliability.md R404) -/
def Obligations.CallsToTheLoaderPowerTeamAndFuses : Prop :=
  ∀ (s : State) (x : Die) (d : DieSt) (w : Caller), s.has x d →
    let t := d.callTake w
    let a := fun (i : Nat) => t.arg w i
    let v := fun (i : Nat) => (BitVec.ofNat 32 (t.arg w i) : Word)
    let ends := fun (e : DieSt) (st : Nat) (rets : List Nat) => (.next (s.setDie x ((e.callEnd w st rets).dropUnknown 8)) : Out)
    let call := fun (o : Out) (code : Nat) (p : Prop) => (d.callNext w code = false → o = .next s) ∧ (d.callNext w code = true →
      (d.policyAllows w code = false → o = ends t 12 []) ∧ (d.policyAllows w code = true → p))
    let checks := fun (o : Out) (l : List (Prop × Nat)) (p : Prop) =>
      (∀ l1 c l2, l = l1 ++ c :: l2 → (∀ b ∈ l1, ¬ b.1) → c.1 → o = ends t c.2 []) ∧ ((∀ c ∈ l, ¬ c.1) → p)

    let runs := fun (e : DieSt) => (.next (s.setDie x (e.dropUnknown 8)) : Out)
    let loading := t.load.pload.isSome = true ∨ t.load.commit.isSome = true
    let loader := fun (o : Out) (code pre : Nat) (p : Prop) => call o code (checks o [(pre = 4, 2), (t.loaderAbsent w code = true, 9), (pre = 2, 1),
      (loading, 10), (pre = 3, 14)] p)
    let a1 := t.wr R.CFG_ARG0 (v 0)
    let a2 := a1.wr R.CFG_ARG1 (v 1)
    let a3 := a2.wr R.CFG_ARG2 (v 2)
    loader (exec (.pload x w) s) 0x40 a3.ploadPre (exec (.pload x w) s = runs (a3.ploadStart (some w))) ∧
    loader (exec (.commit x w) s) 0x41 (a2.commitPre (bit (a 2) 0)) (exec (.commit x w) s = runs (a2.commitStart (bit (a 2) 0) (some w))) ∧
    loader (exec (.readback x w) s) 0x43 a1.readbackPre (exec (.readback x w) s = runs (a1.readback (some w))) ∧
    loader (exec (.capture x w) s) 0x44 a1.capturePre (exec (.capture x w) s = runs (a1.capture' (some w))) ∧
    (let o := exec (.abortLoad x w) s
     call o 0x42 ((t.load.pload = none → o = ends (t.put F.CFG_CMD_RES_STATUS 2) 1 []) ∧
       (∀ h b, t.load.pload = some (h, b) → o = ends (t.ploadFail b 0x14 0) 0 []))) ∧
    (let o := exec (.domain x w) s; let k := a 0 % 128; let op := bits (a 0) 31 30
     call o 0x50 (checks o [(op ∉ [1, 2], 2), (t.domCheck k = 2, 1), (t.domCheck k = 3, 9), (t.domCheck k = 4, 18), (t.pwr.domGoing.isSome = true, 10),
         (op = 2 ∧ t.domOn k = true ∧ t.domBusy k = true, 10)]
       (if op = 2 then o = ends ((if t.domOn k then (t.domLose k).domEvt k false else t).domRes k 0 false) 0 []
        else if t.domOn k then o = ends (t.domRes k 0 false) 0 []
        else o = runs { t.domRes k 0 true with pwr := { t.pwr with domGoing := some k, domCaller := some w } }))) ∧
    (∀ ok, let o := exec (.nvmWrite x w ok) s; let c := bits (a 2) 31 30; let b := a 1 + a 2 % 16 * 2 ^ 32
      call o 0x60 (checks o [(a 0 % 4096 ≠ 0, 2), (t.idn.ddr ≤ c, 9), (t.chReady c = false, 1), (t.nvmDenied (a 0) = true, 12)]
        (let good := ok = true ∧ ∀ k, k < 64 → t.dramBad c (b + 64 * k) = false
         (good → ∃ u, o = .next u ∧ s.sameElse u x ∧
           (∀ k, k < 4096 → (u.die x).nvm.data.get (fun _ => 255) (a 0 + k) = (t.bytesFound c 12 b 4096).dramByte c (b + k)) ∧
           (∀ k, k < a 0 ∨ a 0 + 4096 ≤ k → (u.die x).nvm.data.get (fun _ => 255) k = d.nvm.data.get (fun _ => 255) k)) ∧
         (¬ good → ∃ u r, o = ends u 17 [r] ∧ u.nvm = d.nvm)))) ∧
    (∀ img, let o := exec (.teamSwitch x w img) s
      call o 0x61 ((d.ref.teamSlot = none ∨ d.ref.trialEnd.isSome = true → o = ends t 1 []) ∧
        (∀ k, d.ref.teamSlot = some k → d.ref.trialEnd = none →
          ((∀ i, img = some i → d.teamValid i = false) → ∃ u r, o = ends u 17 [r] ∧ u.nvm = d.nvm ∧ u.ref.team = d.ref.team) ∧
          (∀ i, img = some i → d.teamValid i = true → ∃ u, o = .next u ∧ s.sameElse u x ∧ (u.die x).ref.team = some i ∧
            (u.die x).ref.teamSlot = some (1 - k % 2) ∧ (u.die x).sel.trial = true ∧ (u.die x).sel.trialSlot = 1 - k % 2 ∧
            (u.die x).sel.slot = d.sel.slot ∧ (u.die x).ref.trialEnd = some (d.mt.toNat + 10000000000))))) ∧
    (let o := exec (.teamAlive x w) s
     call o 0x62 ((d.ref.trialEnd = none → o = ends t 1 []) ∧ (∀ e, d.ref.trialEnd = some e →
       (e ≤ d.mt.toNat → o = ends t 1 []) ∧
       (d.mt.toNat < e → o = ends { t.selWrite t.sel.trialSlot false t.sel.trialSlot with ref := { t.ref with trialEnd := none } } 0 [])))) ∧
    (let o := exec (.teamTrialExpire x) s
     (d.ref.trialEnd = none ∨ d.serving = false → o = .next s) ∧
     (∀ e, d.ref.trialEnd = some e → d.serving = true → (d.mt.toNat < e → o = .next s) ∧
       (e ≤ d.mt.toNat → let k := d.sel.slot % 2; let l := d.slotImage k; let m := d.slotImage (1 - k)
         ∃ u, o = .next u ∧ s.sameElse u x ∧ (u.die x).sel.trial = false ∧ (u.die x).ref.trialEnd = none ∧
           (u.die x).ref.team = (if l.isSome then l else m) ∧
           (u.die x).ref.teamSlot = (if l.isSome then some k else if m.isSome then some (1 - k) else none)))) ∧
    call (exec (.teamRestart x w) s) 0x63 (exec (.teamRestart x w) s = runs (((t.callEnd w 0 []).teamAgain).teamRestarted 1)) ∧
    call (exec (.refRestart x w) s) 0x65 (exec (.refRestart x w) s = runs ((t.callEnd w 0 []).refRestart 3)) ∧
    (let o := exec (.quarClear x w) s; let kind := a 0 % 256; let i := a 0 / 65536 % 2 ^ 15; let die := a 0 / 65536 / 2 ^ 15
     call o 0x80 (checks o [(kind ∉ [1, 3, 4] ∨ (die ≠ t.idn.die ∧ t.idn.twin = true), 2),
         (die ≠ t.idn.die ∨ (kind = 1 ∧ t.rowAbsent i = true) ∨ (kind = 3 ∧ i < 24 ∧ t.idn.lane i = false), 9),
         (t.rel.fttRan = false ∨ kind * 65536 + i ∈ t.rel.fttBad, 1), (t.quarHas kind i = false, 7)]
       (o = ends (t.quarDrop kind i) 0 []))) ∧
    (s.d0.idn.absent = false →
      let lead := fun (o : Out) (code : Nat) (p : Prop) =>
        (d.callNext w code = false → d.callWaits w code = false → o = .next s) ∧
        (d.callNext w code = true ∨ d.callWaits w code = true → (d.policyAllows w code = false → o = ends t 12 []) ∧
          (d.policyAllows w code = true →
            (s.d0.serving = false → d.callNext w code = true → o = runs (d.callForward w)) ∧
            (s.d0.serving = false → d.callNext w code = false → o = .next s) ∧ (s.d0.serving = true → p)))
      let state := fun (o : Out) (code : Nat) (tr : Trig) => lead o code
        (let s1 := fun (st : Nat) => s.setDie x ((t.callEnd w st []).dropUnknown 8)
         (s.d0.pwr.going.isSome = true → o = .next ((s1 19).fire tr).1) ∧
         (s.d0.pwr.going = none → tr.allowed s.d0.dev = true → o = .next ((s1 0).fire tr).1) ∧
         (s.d0.pwr.going = none → tr.allowed s.d0.dev = false → o = .next (s1 1)))
      state (exec (.fullTime x w) s) 0x51 (.fullTime 7 (bit (d.arg w 0) 0)) ∧ state (exec (.halfTime x w) s) 0x52 .halfTime ∧
      state (exec (.recovery x w) s) 0x53 (.recovery 13) ∧ state (exec (.resume x w) s) 0x54 .resume ∧
      state (exec (.restart x w) s) 0x55 .restart ∧
      (∀ p, let o := exec (.refFwStage x w p) s
        lead o 0x64 ((a 0 % 4096 ≠ 0 ∨ a 1 = 0 → o = ends t 2 []) ∧
          (a 0 % 4096 = 0 → 0 < a 1 → s.d0.fwOk p = false ∨ p.length ≠ a 1 → o = ends t 17 [0x01]) ∧
          (a 0 % 4096 = 0 → 0 < a 1 → s.d0.fwOk p = true → p.length = a 1 → o = ends { t with nvm := { t.nvm with staged := some p } } 0 []))) ∧
      (∀ r wrap warm ok0 ok1,
        let c := bits (a 2) 31 30
        let addr := [(t.idn.ddr ≤ c, 9), (t.chReady c = false, 1)]
        let unfit := warm = false ∨ s.d0.on F.PWR_SUP_STAT_VAUX = false ∨ (s.d1.idn.absent = false ∧ s.d1.on F.PWR_SUP_STAT_VAUX = false)
        let fuses := fun (o : Out) (g : DieSt → DieSt) (revokes : Bool) =>
          (ok0 = true → ok1 = true ∨ s.d1.idn.absent = true →
            o = .next (onDie x (onBoth (s.setDie x t) g) (fun e => (e.callEnd w 0 []).dropUnknown 8))) ∧
          (ok0 = false ∨ (ok1 = false ∧ s.d1.idn.absent = false) → ∃ u z, o = .next (onDie x u (fun e => (e.callEnd w 17 [z]).dropUnknown 8)) ∧
            (revokes = true → (ok0 = false → bit (u.d0.f F.REF_KEYS_REVOKED) (a 0) = true) ∧
              (ok1 = false → s.d1.idn.absent = false → bit (u.d1.f F.REF_KEYS_REVOKED) (a 0) = true)))
        let mark := fun (b : Fld) (e : DieSt) => e.put b (putBit (e.f b) (a 0) true)
        (let o := exec (.keyProgram x w r warm ok0 ok1) s
         lead o 0x70 (checks o ([(s.d0.keyAuth r = false, 13), (4 ≤ a 0, 2)] ++ addr ++ [(unfit ∨ bit (s.d0.f F.REF_KEYS_PROG) (a 0) = true ∨
             bit (s.d0.f F.REF_KEYS_REVOKED) (a 0) = true, 1)])
           (fuses o (fun e => mark F.REF_KEYS_PROG { e with fuse := { e.fuse with
             sigKey := e.fuse.sigKey.set (fun _ => none) (a 0) (some r.payload) } }) true))) ∧
        (let o := exec (.keyRevoke x w r warm ok0 ok1) s
         lead o 0x71 (checks o ([((∀ j, r.signer = some j → s.d0.keyLive j = false ∨ j = a 0), 13), (4 ≤ a 0, 2)] ++ addr ++
             [(unfit ∨ ∀ j, j < 4 → j ≠ a 0 → s.d0.keyLive j = false, 1)])
           (fuses o (mark F.REF_KEYS_REVOKED) false))) ∧
        (let o := exec (.aesProgram x w r wrap warm ok0 ok1) s
         lead o 0x72 (checks o ([(s.d0.keyAuth r = false ∨ wrap = false, 13), (2 ≤ a 0, 2)] ++ addr ++ [(unfit ∨ bit (s.d0.f F.REF_KEYS_AES) (a 0) = true, 1)])
           (fuses o (fun e => mark F.REF_KEYS_AES { e with fuse := { e.fuse with
             aesKey := e.fuse.aesKey.set (fun _ => none) (a 0) (some r.payload) } }) false)))))

/-- MGMT_SEND sends, through die 0, a MGMT message with the remote code in CHAN and stays BUSY, or ends HOLD where the
message is refused; after 10 ms without an answer it ends TIMEOUT. Die 0's Referee takes messages in order: an
answer ends the call it is for; an unlisted code is refused with UNKNOWN, one outside the group or the mask, or
never remote, with DENIED, a 17th with BUSY; else the call joins those in service. A lockstep miscompare or REF_CTL
starts a restart of a Referee that serves, with its cause and a count; a second cause during a restart counts a
failure and starts it again, and the third failure in a row takes a device in PLAY to RECOVERY with cause 14. Its
end within 50 ms reaches SERVING, completes the calls that ended meanwhile and raises REF_RESTART; an end that fails
or is late counts a failure. A staged package, or the FALLBACK one where it fails its check, runs at the end; where
neither passes, the restart fails. (16_referee_and_team.md R417, 16_referee_and_team.md R425, 16_referee_and_team.md
R428, 16_referee_and_team.md R429, 16_referee_and_team.md R430, 13_supplies_and_states.md R340, 11_links_and_time.md
R275) -/
def Obligations.RemoteCallsAndRefereeRestart : Prop :=
  ∀ (s : State) (x : Die) (d : DieSt), s.has x d →
    let leads := fun (e : DieSt) => (.next (s.setDie x e) : Out)
    (∀ w hold, s.d0.idn.absent = false →
      let o := exec (.mgmtSend x w hold) s
      let t := d.callTake w
      let a := fun (i : Nat) => t.arg w i
      let ends := fun (st : Nat) => leads ((t.callEnd w st []).dropUnknown 8)
      (d.callNext w 0x90 = false → d.callWaits w 0x90 = false → o = .next s) ∧
      (d.callNext w 0x90 = true ∨ d.callWaits w 0x90 = true → (d.policyAllows w 0x90 = false → o = ends 12) ∧
        (d.policyAllows w 0x90 = true → s.d0.serving = false → o = if d.callNext w 0x90 then leads ((d.callForward w).dropUnknown 8) else .next s) ∧
        (∀ k, w = .slot k → d.policyAllows w 0x90 = true → s.d0.serving = true → (hold = true → o = ends 15) ∧
          (hold = false → o = .next (onDie x (onDie .die0 (s.setDie x t) (fun e => e.slkSend (slkMsg (a 0 % 4096) 2 1 (bits (a 0) 23 16)
            (wordBytes 4 (a 1) ++ wordBytes 4 (a 2) ++ wordBytes 4 (a 3) ++ wordBytes 4 (a 4) ++ wordBytes 4 (a 5)))))
            (fun e => ({ e with ref := { e.ref with sends := e.ref.sends ++ [(k, e.now)] } } : DieSt).dropUnknown 8)))))) ∧
    (∀ k, let o := exec (.mgmtSendTimeout x k) s
      ((∀ p ∈ d.ref.sends, p.1 ≠ k) → o = leads d) ∧
      (∀ l t0 r, d.ref.sends = l ++ (k, t0) :: r → (∀ p ∈ l, p.1 ≠ k) →
        (d.now < t0 + 10000000 → o = leads d) ∧
        (t0 + 10000000 ≤ d.now → o = leads (({ d with ref := { d.ref with sends := d.ref.sends.filter (fun p => decide (p.1 ≠ k)) } } : DieSt).callEnd (.slot k) 16 [])))) ∧
    (x = .die0 → ∀ g, let o := exec (.mgmtRemoteCall g) s
      (d.mgmtIn = [] ∨ d.serving = false → o = .next s) ∧
      (∀ m l, d.mgmtIn = m :: l → d.serving = true →
        let e : DieSt := { d with mgmtIn := l }
        (256 ≤ m.chan →
          (∀ k, d.sendFor m.src (m.chan - 256) = some k → o = leads (({ e with ref := { d.ref with
            sends := d.ref.sends.filter (fun p => decide (p.1 ≠ k)) } } : DieSt).callEnd (.slot k) 0
              ((List.range 4).map (fun i => ofBytes ((m.payload.drop (4 * i)).take 4))))) ∧
          (∀ k, d.sendFor m.src (m.chan - 256) = none → s.d1.sendFor m.src (m.chan - 256) = some k →
            o = .next (onDie .die1 (s.setDie .die0 e) (fun f => f.sendAnswered k m.payload))) ∧
          (d.sendFor m.src (m.chan - 256) = none → s.d1.sendFor m.src (m.chan - 256) = none → o = leads e)) ∧
        (m.chan < 256 → let denied := g = false ∨ neverRemote m.chan = true ∨ ∀ i, d.ref.team = some i → i.group = 0 ∨ bit i.remote m.chan = false
          (m.chan ∉ callCodes → o = leads (e.remoteRefused m 20)) ∧
          (m.chan ∈ callCodes → denied → o = leads (e.remoteRefused m 12)) ∧
          (m.chan ∈ callCodes → ¬ denied → 16 ≤ d.ref.remotes.length → o = leads (e.remoteRefused m 10)) ∧
          (m.chan ∈ callCodes → ¬ denied → d.ref.remotes.length < 16 → o = leads { e with ref := { d.ref with
            remotes := d.ref.remotes ++ [⟨d.ref.nextKey, m.src, m.chan, (List.range 5).map (fun j => ofBytes ((m.payload.drop (4 * j)).take 4)), false⟩]
            nextKey := d.ref.nextKey + 1 } })))) ∧
    (let st := d.f F.REF_STAT_STATE
     let fails := min 255 (d.f F.REF_STAT_FAILS + 1)
     let begun := fun (o : Out) (cause n : Nat) => ∃ t, o = .next t ∧ s.sameElse t x ∧ (t.die x).f F.REF_STAT_STATE = 2 ∧
       (t.die x).f F.REF_CAUSE_CAUSE = cause ∧ (t.die x).f F.REF_STAT_RESTARTS = min 255 (d.f F.REF_STAT_RESTARTS + 1) ∧
       (t.die x).ref.restart = some (cause, d.now) ∧ (t.die x).claims = d.claims ∧ (t.die x).f F.REF_STAT_FAILS = n
     let ordered := fun (o : Out) (cause : Nat) => d.domOn 76 = true →
       (st ≠ 0 → st ≠ 2 → begun o cause (d.f F.REF_STAT_FAILS)) ∧ (st = 2 → fails < 3 → begun o cause fails) ∧
       (st = 2 → 3 ≤ fails → s.paired → s.d0.dev = 4 → s.d0.pwr.going = none → s.subBusy = false →
         s.ends o (fun _ f => f.dev = 6 ∧ f.f F.PWR_STATE_CAUSE = 14))
     (d.domOn 76 = false ∨ st = 0 → exec (.refLockstepMiscompare x) s = .next s) ∧ ordered (exec (.refLockstepMiscompare x) s) 1 ∧
     (∀ m, s.takes x d m R.REF_CTL → (d.domOn 76 = false ∨ st = 0 → exec (.refCtlRestart x m) s = leads (d.ack m)) ∧
       ordered (exec (.refCtlRestart x m) s) (if x = .die1 then 4 else 3)) ∧
     (∀ ok rl rb alt, let o := exec (.refRestartEnd x ok rl rb alt) s
       (d.ref.restart = none ∨ st ≠ 2 → o = .next s) ∧
       (∀ c t0, d.ref.restart = some (c, t0) → st = 2 → c < 8 →
         let passes := d.nvm.staged = none ∨ ∃ q, d.restartFw alt = some q
         (ok = false ∨ t0 + 50000000 < d.now → fails < 3 → begun o c fails) ∧
         (ok = true → d.now ≤ t0 + 50000000 → ¬ passes → fails < 3 → begun o c fails ∧ ∃ t, o = .next t ∧ (t.die x).nvm.staged = none) ∧
         (ok = true → d.now ≤ t0 + 50000000 → passes →
           let e := if rb then d.rebuilt else d
           let f := (((e.put F.REF_STAT_RELOADED (b2n rl)).put F.REF_STAT_FAILS 0).put F.REF_STAT_STATE 1)
           let g := (d.restartFw alt).elim f (fun q => f.runFw q)
           let h := d.ref.late.foldl (fun (e : DieSt) l => e.callOver l.1 l.2.1 l.2.2)
             { g with nvm := { g.nvm with staged := none }, ref := { g.ref with restart := none, late := [] } }
           o = leads ((h.raise 0x705 0x1001 (c * 2 ^ 20 + b2n rl * 2 ^ 19 + b2n rb * 2 ^ 18 + min (2 ^ 18 - 1) ((h.now - t0) / 1000))).dropUnknown 8)) ∧
         (∀ p, d.nvm.staged = some p → (d.fwOk p = true → d.restartFw alt = some p) ∧
           (d.fwOk p = false → (∀ q, alt = some q → d.fwOk q = true → d.restartFw alt = some q) ∧
             ((∀ q, alt = some q → d.fwOk q = false) → d.restartFw alt = none))))))

/-- Where both its supplies are in range the island starts with the energies of its checkpoint; after a loss it writes
SUPPLY_ON, and sets ROLLBACK where the checkpoint was periodic. While it measures, at a window's end of a defined
point the sign of P and the quadrant of (P, Q) choose the registers, each grows by value times window length in mWh
with 32 fraction bits, no other energy changes, and a snapshot with the time and the next SEQ is published. Demand
is the interval's import over its length. The longest-waiting spare joins the next channel; agreement, or a
disagreement with a second spare, puts it in, a first disagreement or one with the same spare abandons the exchange;
a calibration makes a spare, or retires it where it fails. A pulse's high time, its low time and the next pending
pulse follow one another. A change of the seal switch is recorded. A loss of VANA checkpoints, stops and records
SUPPLY_OFF; its return sets VANA_OK; a checkpoint copies energies and pending counts. Where its condition fails a
command leaves the die as it is. (17_metrology.md R434, 17_metrology.md R438, 17_metrology.md R439, 17_metrology.md
R441, 17_metrology.md R443, 17_metrology.md R444, 17_metrology.md R445, 17_metrology.md R447, 17_metrology.md R449,
17_metrology.md R451, 17_metrology.md R452) -/
def Obligations.IslandMeasuresExchangesAndKeepsItsEnergies : Prop :=
  ∀ (s : State) (x : Die) (d : DieSt), s.has x d →
    let leads := fun (e : DieSt) => (.next (s.setDie x e) : Out)
    let m := d.met
    let measures := d.metOn = true ∧ m.running = true
    (d.metOn = false → exec (.metStart x) s = leads d ∧ (∀ w, exec (.metWindowEnd x w) s = leads d) ∧ (∀ p, exec (.demandIntervalEnd x p) s = leads d) ∧
      exec (.spareExchange x) s = leads d ∧ (∀ k ok, exec (.modulatorCalEnd x k ok) s = leads d) ∧ (∀ b, exec (.sealNChange x b) s = leads d)) ∧
    (m.running = true → exec (.metStart x) s = leads d) ∧
    (m.running = false → (∀ w, exec (.metWindowEnd x w) s = leads d) ∧ (∀ p, exec (.demandIntervalEnd x p) s = leads d) ∧ exec (.spareExchange x) s = leads d) ∧
    (∀ w, m.point w.point = false → exec (.metWindowEnd x w) s = leads d) ∧ (∀ p, m.point p = false → exec (.demandIntervalEnd x p) s = leads d) ∧
    (d.metOn = true → m.running = false →
      ∃ t, exec (.metStart x) s = .next t ∧ s.sameElse t x ∧ (t.die x).met.running = true ∧ (t.die x).on F.MET_STAT_MEASURING = true ∧
        (∀ p g, p < 8 → g < 7 → (t.die x).met.en p g = m.ckEnergy.get (fun _ => 0) (8 * p + g) ∧
          (t.die x).rd64 (R.MET_EI_LO p + 8 * g) (R.MET_EI_HI p + 8 * g) = m.ckEnergy.get (fun _ => 0) (8 * p + g) / 2 ^ 32 % 2 ^ 64) ∧
        (t.die x).met.rollback = (m.rollback || (m.offAt.isSome && m.ckPeriodic)) ∧
        (t.die x).f F.MET_SB_COUNT_COUNT = (d.f F.MET_SB_COUNT_COUNT + b2n m.offAt.isSome) % 2 ^ 32 ∧
        (m.offAt.isSome = true → ((t.die x).rd (R.MET_SB (d.f F.MET_SB_COUNT_COUNT % 4096) 1)).toNat = 8)) ∧
    (∀ w, measures → w.point < 8 → m.point w.point = true →
      let n := if winFreqOk w then w.samples else m.rate w.point / 5
      let e := fun (v : Nat) => v * n * 2 ^ 32 / (m.rate w.point * 3600)
      let p := m.totP w
      let q := m.totQ w
      let a := if 0 ≤ p then 0 else 1
      let r := if 0 ≤ q then (if 0 ≤ p then 2 else 3) else (if 0 ≤ p then 5 else 4)
      ∃ t, exec (.metWindowEnd x w) s = .next t ∧ s.sameElse t x ∧
        (t.die x).met.en w.point a = m.en w.point a + e p.natAbs ∧ (t.die x).met.en w.point r = m.en w.point r + e q.natAbs ∧
        (t.die x).met.en w.point 6 = m.en w.point 6 + e (m.totS w) ∧
        (t.die x).rd (R.MET_P w.point) = BitVec.ofNat 32 (f32Pub p 1000) ∧ (t.die x).rd (R.MET_P w.point + 4) = BitVec.ofNat 32 (f32Pub q 1000) ∧
        (t.die x).rd (R.MET_P w.point + 8) = BitVec.ofNat 32 (f32Pub (m.totS w) 1000) ∧
        (∀ p g, g < 7 → (p ≠ w.point ∨ (g ≠ a ∧ g ≠ r ∧ g ≠ 6)) → (t.die x).met.en p g = m.en p g) ∧
        (t.die x).rd64 (R.MET_SNAP_LO) (R.MET_SNAP_HI) = d.mt.toNat ∧
        (t.die x).f F.MET_SEQ_SEQ = (d.f F.MET_SEQ_SEQ + 1) % 2 ^ 32) ∧
    (∀ k, let u := d.pulse k
      (u.phase = 1 → exec (.pulseWidthEnd x k) s = leads (d.setPulse k { u with phase := 2 })) ∧
      (u.phase = 2 → u.pend = 0 → exec (.pulseWidthEnd x k) s = leads (d.setPulse k ⟨0, 0⟩)) ∧
      (u.phase = 2 → 0 < u.pend → k < 16 → exec (.pulseWidthEnd x k) s
        = leads ((d.setPulse k ⟨u.pend - 1, 1⟩).put (F.MET_PULSES_CNT k) ((d.f (F.MET_PULSES_CNT k) + 1) % 2 ^ 32))) ∧
      (u.phase ≠ 1 → u.phase ≠ 2 → exec (.pulseWidthEnd x k) s = leads d)) ∧
    (∀ p, d.demandNo p = m.demNo.get (fun _ => 0) p → exec (.demandIntervalEnd x p) s = leads d) ∧
    (∀ p, nth 0 (m.par p 8) 0 = 0 → exec (.demandIntervalEnd x p) s = leads d) ∧
    (∀ p T, measures → p < 8 → m.point p = true → nth 0 (m.par p 8) 0 = T → 0 < T → d.demandNo p ≠ m.demNo.get (fun _ => 0) p →
      ∃ t, exec (.demandIntervalEnd x p) s = .next t ∧ s.sameElse t x ∧ (t.die x).regs = d.regs ∧ (t.die x).met.energy = m.energy ∧
        (t.die x).met.demFrom.get (fun _ => 0) p = m.en p 0 ∧ (t.die x).met.demNo.get (fun _ => 0) p = d.demandNo p ∧
        (t.die x).met.demMax.get (fun _ => 0) p = max (m.demMax.get (fun _ => 0) p) ((t.die x).met.dem.get (fun _ => 0) p) ∧
        (t.die x).met.dem.get (fun _ => 0) p = f32Clean (f32Mag ((m.en p 0 - m.demFrom.get (fun _ => 0) p) * 60) (2 ^ 32 * 1000 * T))) ∧
    (d.on F.MET_STAT_DEGRADED = true ∨ m.xchg.isSome = true → exec (.spareExchange x) s = leads d) ∧
    (measures → d.on F.MET_STAT_DEGRADED = false → m.xchg = none →
      (m.spares = [] → exec (.spareExchange x) s = leads d) ∧
      (∀ a l, m.spares = a :: l → exec (.spareExchange x) s = leads { d with met := { m with xchg := some (m.nextCh, a), spares := l } })) ∧
    (m.xchg = none → ∀ b, exec (.exchangeOverlapEnd x b) s = leads d) ∧
    (∀ c a, m.xchg = some (c, a) → c < 16 → a < 18 →
      let done := ∃ t, exec (.exchangeOverlapEnd x false) s = .next t ∧ s.sameElse t x ∧ (t.die x).met.serving c = a ∧
        (∀ k, k ≠ c → (t.die x).met.serving k = m.serving k) ∧ (t.die x).met.calib = m.calib ++ [m.serving c] ∧
        (t.die x).met.xchg = none ∧ (t.die x).met.nextCh = (c + 1) % 16 ∧ (t.die x).f F.MET_XCHG_RESULT = 0 ∧
        (t.die x).f F.MET_XCHG_COUNT = min 65535 (d.f F.MET_XCHG_COUNT + 1)
      done ∧
      (m.disagree.get (fun _ => 0) c = 0 ∨ m.disagree.get (fun _ => 0) c = a + 1 → ∃ t, exec (.exchangeOverlapEnd x true) s = .next t ∧ s.sameElse t x ∧
        (t.die x).met.xchg = none ∧ (t.die x).met.disagree.get (fun _ => 0) c = a + 1 ∧
        (∀ k, (t.die x).met.serving k = m.serving k) ∧ (t.die x).met.calib = m.calib ++ [a] ∧ (t.die x).met.nextCh = m.nextCh ∧
        (t.die x).f F.MET_XCHG_RESULT = 1) ∧
      (m.disagree.get (fun _ => 0) c ≠ 0 → m.disagree.get (fun _ => 0) c ≠ a + 1 →
        exec (.exchangeOverlapEnd x true) s = exec (.exchangeOverlapEnd x false) s)) ∧
    (∀ k ok, m.calib.contains k = false → exec (.modulatorCalEnd x k ok) s = leads d) ∧
    (∀ k, d.metOn = true → m.calib.contains k = true → k < 18 →
      let rest := m.calib.filter (fun j => j != k)
      exec (.modulatorCalEnd x k true) s = leads { d with met := { m with calib := rest, spares := m.spares ++ [k] } } ∧
      ∃ t, exec (.modulatorCalEnd x k false) s = .next t ∧ s.sameElse t x ∧ (t.die x).met.calib = rest ∧ (t.die x).met.spares = m.spares ∧
        (∀ j, j < 18 → bit ((t.die x).f F.MET_MOD_STAT_RETIRED) j = (bit (d.f F.MET_MOD_STAT_RETIRED) j || j == k)) ∧
        (t.die x).f F.MET_STAT_SPARES = 2 - (t.die x).retired ∧ (2 ≤ (t.die x).retired → (t.die x).on F.MET_STAT_DEGRADED = true) ∧
        (t.die x).f F.MET_SB_COUNT_COUNT = (d.f F.MET_SB_COUNT_COUNT + 1) % 2 ^ 32) ∧
    (∀ b, d.metOn = true →
      (d.on F.MET_STAT_SEAL_OPEN = b → exec (.sealNChange x b) s = leads d) ∧
      (d.on F.MET_STAT_SEAL_OPEN = !b → ∃ t, exec (.sealNChange x b) s = .next t ∧ s.sameElse t x ∧ (t.die x).on F.MET_STAT_SEAL_OPEN = b ∧
        (t.die x).met = m ∧ (t.die x).f F.MET_SB_COUNT_COUNT = (d.f F.MET_SB_COUNT_COUNT + 1) % 2 ^ 32 ∧
        ((t.die x).rd (R.MET_SB (d.f F.MET_SB_COUNT_COUNT % 4096) 0)).toNat = d.f F.MET_SB_COUNT_COUNT ∧
        ((t.die x).rd (R.MET_SB (d.f F.MET_SB_COUNT_COUNT % 4096) 1)).toNat = if b then 4 else 5)) ∧
    (d.idn.met = true → d.on F.PWR_SUP_STAT_VAON = true → m.running = true →
      ∃ t, exec (.vanaLoss x) s = .next t ∧ s.sameElse t x ∧ (t.die x).met.running = false ∧ (t.die x).met.ckEnergy = m.energy ∧
        (t.die x).met.ckPeriodic = false ∧ (t.die x).met.offAt = some d.now ∧ (t.die x).on F.MET_STAT_MEASURING = false ∧
        (t.die x).on F.MET_STAT_VANA_OK = false ∧ (t.die x).f F.MET_SB_COUNT_COUNT = (d.f F.MET_SB_COUNT_COUNT + 1) % 2 ^ 32 ∧
        ((t.die x).rd (R.MET_SB (d.f F.MET_SB_COUNT_COUNT % 4096) 1)).toNat = 7) ∧
    (d.on F.PWR_SUP_STAT_VAON = false → exec (.vanaLoss x) s = leads d ∧ exec (.vanaReturn x) s = leads d) ∧
    (d.on F.MET_STAT_VANA_OK = true → exec (.vanaReturn x) s = leads d) ∧
    (d.idn.met = false → exec (.vanaLoss x) s = leads d ∧ exec (.vanaReturn x) s = leads d) ∧
    (d.idn.met = true → d.on F.PWR_SUP_STAT_VAON = true → d.on F.MET_STAT_VANA_OK = false →
      let r : Word := BitVec.ofNat 32 (putBit (d.rd R.PWR_SUP_STAT).toNat 10 true)
      exec (.vanaReturn x) s = leads (((d.wr R.PWR_SUP_STAT r).put F.MET_STAT_VANA_OK 1).raise 0x708 0x1104 (2 ^ 23))) ∧
    (m.running = false → exec (.metCheckpoint x) s = leads d) ∧
    (m.running = true → ∃ t, exec (.metCheckpoint x) s = .next t ∧ s.sameElse t x ∧ (t.die x).met.ckEnergy = m.energy ∧
      (t.die x).met.ckPeriodic = true ∧ (t.die x).regs = d.regs ∧ (t.die x).met.energy = m.energy ∧
      (∀ k, k < 16 → (t.die x).met.ckPend.get (fun _ => 0) k = (d.pulse k).pend))

/-- Each call ends with the first check that fails. The record's channel must be there and READY, else ABSENT or STATE,
and read without error, else FAILED with island code 4; its magic number, UID, COUNT and signature must be right,
else AUTH; its length, operation and parameter, else RANGE; the island must be there and powered, else ABSENT or
STATE. UNSEAL needs SEALED and the seal open, SEAL needs UNSEALED, the seal closed and a key, else STATE. A
parameter other than an export setting ends SEALED while SEALED and STATE while the seal is closed; an export
setting needs no signature. Pins that another claims give CLAIMED; an image, a value or a store write that fails
gives FAILED with island code 2, 3 or 1. An accepted call writes one Scorebook record, raises MET_SEAL or MET_PARAM
and returns the record's COUNT; SEAL clears ROLLBACK and, sealing, the demand maxima; MET_PARAM stores the value,
the windows keeping the old one until the next boundary, and keeps every energy. A SEAL call of die 1 is taken once
die 0 serves, for die 0's island. (17_metrology.md R446, 17_metrology.md R447, 17_metrology.md R448, 17_metrology.md
R449, 17_metrology.md R453, 16_referee_and_team.md R429) -/
def Obligations.SealAndMetParamAcceptOnlyWhatTheSealAllows : Prop :=
  ∀ (s : State) (x : Die) (d : DieSt) (w : Caller) (i : SealIn), s.has x d → s.d0.idn.absent = false →
    let ends := fun (e : DieSt) (st : Nat) (rets : List Nat) => (.next (s.setDie x ((e.callEnd w st rets).dropUnknown 8)) : Out)
    let checks := fun (t : DieSt) (o : Out) (l : List (Prop × Nat × List Nat)) (p : Prop) =>
      (∀ l1 c l2, l = l1 ++ c :: l2 → (∀ b ∈ l1, ¬ b.1) → c.1 → o = ends t c.2.1 c.2.2) ∧ ((∀ c ∈ l, ¬ c.1) → p)
    let rec1 := fun (t isl : DieSt) (sig range : Prop) =>
      let c := (t.sealAt w).1
      let len := t.sealField w 20 4
      ([(t.idn.ddr ≤ c, 9, []), (t.chReady c = false, 1, []),
        ((∃ n, (sig ∧ n = 128 ∨ ¬ sig ∧ n = 32) ∧ t.sealBad w (n + min len 262144) = true), 17, [4, 0]),
        (t.sealField w 0 4 ≠ 0x4C414553 ∨ t.sealField w 8 8 ≠ isl.idn.uid ∨ t.sealField w 16 4 ≠ isl.f F.MET_SB_COUNT_COUNT ∨ (sig ∧ i.sigOk = false), 13, []),
        (262144 < len ∨ range, 2, []), (isl.idn.met = false, 9, []), (isl.metOn = false, 1, [])] : List (Prop × Nat × List Nat))
    (let o := exec (.seal x w i) s
     (d.callNext w 0x82 = false → d.callWaits w 0x82 = false → o = .next s) ∧
     (d.callNext w 0x82 = true ∨ d.callWaits w 0x82 = true →
       (d.policyAllows w 0x82 = false → o = ends (d.callTake w) 12 []) ∧
       (d.policyAllows w 0x82 = true → s.d0.serving = false →
         o = if d.callNext w 0x82 then .next (s.setDie x ((d.callForward w).dropUnknown 8)) else .next s) ∧
       (d.policyAllows w 0x82 = true → s.d0.serving = true →
         let t := (d.sealRead w 0x82).callTake w
         let s1 := s.setDie x t
         let isl := s1.d0
         let op := t.arg w 0
         let n := isl.f F.MET_SB_COUNT_COUNT
         let sealed := isl.met.sealed = true
         let opened := isl.on F.MET_STAT_SEAL_OPEN = true
         checks t o (rec1 t isl (isl.met.key ≠ 0) (1 < op ∨ t.sealField w 4 1 ≠ op ∨ t.sealField w 6 2 ≠ 0) ++
             [(op = 0 ∧ ¬ (sealed ∧ opened), 1, []), (op = 1 ∧ (sealed ∨ opened ∨ isl.met.key = 0), 1, []), (i.storeOk = false, 17, [1, 0])])
           (let e : DieSt := { isl with met := { isl.met with
              sealed := decide (op = 1), rollback := false, demMax := if op = 1 then Tab.empty else isl.met.demMax } }
            let f := ((e.put F.MET_STAT_SEALED op).put F.MET_STAT_ROLLBACK 0).scorebook (op + 1) 1 0 0 0 ((isl.met.key - 1) % 2 ^ 64)
            o = .next (onDie x { s1 with d0 := f.raise 0x708 0x1101 ((op + 1) * 2 ^ 20 + n % 2 ^ 20) } (fun e => (e.callEnd w 0 [0, n]).dropUnknown 8)))))) ∧
    (let o := exec (.metParam x w i) s
     d.callWaits w 0x83 = false → (d.callNext w 0x83 = false → o = .next s) ∧ (d.callNext w 0x83 = true →
       (d.policyAllows w 0x83 = false → o = ends (d.callTake w) 12 []) ∧
       (d.policyAllows w 0x83 = true →
         let t := (d.sealRead w 0x83).callTake w
         let c := t.arg w 0
         let n := t.f F.MET_SB_COUNT_COUNT
         let export1 := c ∈ [0x40, 0x41, 0x42]
         let sig := t.met.key ≠ 0 ∧ ¬ export1
         checks t o (rec1 t t sig (c ∉ [1, 2, 3, 4, 5, 6, 7, 8, 9, 10, 0x40, 0x41, 0x42] ∨ t.sealField w 4 1 ≠ 2 ∨ t.sealField w 6 2 ≠ c) ++
             [(¬ export1 ∧ t.met.sealed = true, 11, []), (¬ export1 ∧ t.on F.MET_STAT_SEAL_OPEN = false, 1, []),
              (c = 6 ∧ t.pinsTaken i.vals = true, 4, []), (c = 1 ∧ i.imgOk = false, 17, [2, 0]), (i.fits = false ∨ metFits c i.vals = false, 17, [3, 0]),
              (i.storeOk = false, 17, [1, 0])])
           (∃ e : DieSt, (∃ h old new, (h = 0 ∨ (sig ∧ h = (t.met.key - 1) % 2 ^ 64)) ∧ (sig → h = (t.met.key - 1) % 2 ^ 64) ∧
               (c ≠ 1 → old = i.oldH ∧ new = i.newH) ∧ (c = 1 → old = t.met.newId ∧ new = e.met.newId) ∧
               o = ends ((e.scorebook 3 1 c old new h).raise 0x708 0x1102 (c * 2 ^ 16 + n % 2 ^ 16)) 0 [0, n]) ∧
             e.met.param.get (fun _ => []) c = i.vals ∧ (∀ k, k ≠ c → e.met.param.get (fun _ => []) k = t.met.param.get (fun _ => []) k) ∧
             e.met.energy = t.met.energy ∧ e.met.sealed = t.met.sealed ∧ e.f F.MET_SB_COUNT_COUNT = n ∧
             e.met.key = (if c = 9 then nth 0 i.vals 0 % 2 ^ 384 + 1 else t.met.key) ∧
             (t.met.running = true → ∀ p k, p < 8 → k < 256 → e.met.par p k = t.met.par p k)))))

/-- While VAON stands a tick makes LIVE 1 and counts the round at rule 63; words that wait replace the rule first, with
empty histories and output 0. A rule that is not enabled, or has no new sample, does no more. Else its sample gives
c: an input that is not valid by INV, a bit by POL, a number by its mean and the thresholds with hysteresis, a mean
that is no integer being one of its neighbours. The boolean filter forms the output; a change is logged, and one to
1 sets the alarm bit, latches the pin, and gives a FULL-TIME or wake trigger in a state that allows it. No other
rule changes. A comparator that MT has reached fires for each rule that reads it and steps by PERIOD or clears EN.
UMP_RULE ends with the first check that fails, or stores the words for the next tick, or clears a latch and its
alarm. A pop moves the log up by one. A Referee beat starts its watch; 10 ms without one restarts it, 50 ms without
one after the order is a failed restart, and the third failure takes PLAY to RECOVERY with cause 14; four rounds
without a coordinator beat restart the coordinator. (18_umpire.md R455, 18_umpire.md R456, 18_umpire.md R457,
18_umpire.md R458, 18_umpire.md R459, 18_umpire.md R460, 18_umpire.md R463, 18_umpire.md R465, 18_umpire.md R466,
18_umpire.md R467, 16_referee_and_team.md R428, 13_supplies_and_states.md R340) -/
def Obligations.UmpireRulesComparatorsHeartbeatsAndLog : Prop :=
  ∀ (s : State) (x : Die) (d : DieSt), s.has x d →
    let leads := fun (e : DieSt) => (.next (s.setDie x e) : Out)
    let ans := fun (o : Out) (p : DieSt → Prop) => ∃ t, o = .next t ∧ s.sameElse t x ∧ p (t.die x)
    let idle := fun (b : DieSt) (r : Nat) =>
      let src := b.f (F.UMP_RULE_W0_SRC r)
      let i := b.f (F.UMP_RULE_W0_IDX r)
      let fresh := ∃ e, (b.met.param.get (fun _ => []) 0x41)[i]? = some e ∧ b.met.snaps.get (fun _ => 0) (bits e 10 8) ≠ (b.rule r).seen
      4 < src ∨ (src = 3 ∧ (i = 0 ∨ 10 < i)) ∨ (src = 1 ∧ b.idn.met = true ∧ b.on F.MET_STAT_MEASURING = true ∧ ¬ fresh)
    let gives := fun (b : DieSt) (r v : Nat) (c : Bool) =>
      let src := b.f (F.UMP_RULE_W0_SRC r)
      let i := b.f (F.UMP_RULE_W0_IDX r)
      let u := b.rule r
      let pol := b.on (F.UMP_RULE_W0_POL r)
      let fmt := b.on (F.UMP_RULE_W0_FMT r)
      let set1 := b.rd (R.UMP_RULE_W2 r)
      let clr := b.rd (R.UMP_RULE_W3 r)
      let measures := b.idn.met = true ∧ b.on F.MET_STAT_MEASURING = true
      let byInv := if b.f (F.UMP_RULE_W0_INV r) = 1 then false else if b.f (F.UMP_RULE_W0_INV r) = 2 then true else u.c
      let level := fun (z lo hi : Int) => if pol then (if z ≤ lo then true else if hi < z then false else u.c)
        else (if lo ≤ z then true else if z < hi then false else u.c)
      let kept := fun (w : Word) => (w :: u.samples).take (b.f (F.UMP_RULE_W0_AVG r) + 1)
      let whole := fun (w : Word) => ∃ z : Int, let n : Int := (kept w).length; let sum := (kept w).foldl (fun (a : Int) k => a + k.toInt) 0
        sum - n < n * z ∧ n * z < sum + n ∧ c = level z set1.toInt clr.toInt
      let single := fun (w : Word) => if f32Nan w.toNat then byInv else (meanF32 (kept w)).elim byInv (fun m =>
        if f32Nan set1.toNat || f32Nan clr.toNat then u.c else level (f32Key m) (f32Key set1.toNat) (f32Key clr.toNat))
      (src = 0 → c = if i < 48 ∧ b.f (F.PIN_CFG_FUNC (48 + i)) = 2 ∧ b.on (F.PIN_BANK_STAT_VCCIO_OK 1) = true then xor (decide (v % 2 ≠ 0)) pol else byInv) ∧
      (src = 1 → ¬ measures → c = byInv) ∧
      (src = 1 → measures → let w : Word := BitVec.ofNat 32 (b.f (F.MET_UMP_VALUE (i % 16))); if fmt then c = single w else whole w) ∧
      (src = 2 → if b.quarHas 4 (i % 8) then c = byInv else fmt = false → whole (BitVec.ofNat 32 (uns 32 (sgn 16 v)))) ∧
      (src = 3 → fmt = false → whole (BitVec.ofNat 32 (v % 65536))) ∧
      (src = 4 → c = if b.mtm.on then xor u.fired pol else byInv)
    let filtered := fun (b : DieSt) (r : Nat) (c : Bool) =>
      let was := b.ruleOut r
      let u := b.rule r
      match b.f (F.UMP_RULE_W1_BFILT r) with
        | 1 => if c = was then was else if b.f (F.UMP_RULE_W1_N r) ≤ u.differ then c else was
        | 2 => decide (b.f (F.UMP_RULE_W1_N r) + 1 ≤ (((c :: u.cs).take (b.f (F.UMP_RULE_W1_M r) + 1)).filter (fun k => k)).length)
        | _ => c
    let acts := fun (b : DieSt) (r : Nat) (run : Out) (c : Bool) =>
      let was := b.ruleOut r
      let u := b.rule r
      let out := filtered b r c
      let on1 := fun (x : Fld) => b.on x = true
      let rises := out = true ∧ was = false
      ∃ e : DieSt, (if rises ∧ on1 (F.UMP_RULE_W1_FT r) ∧ d.dev ∈ [1, 2, 3, 4, 6] then run = .next ((s.setDie x e).fire (.fullTime 8 false)).1
          else if rises ∧ on1 (F.UMP_RULE_W1_WAKE r) ∧ d.dev = 5 then run = .next ((s.setDie x e).fire .wake).1
          else run = leads e) ∧
        (e.rule r).c = c ∧ e.ruleOut r = out ∧
        (e.rule r).fired = (if b.f (F.UMP_RULE_W0_SRC r) = 4 ∧ b.mtm.on = true then false else u.fired) ∧
        (∀ k, k < 64 → k ≠ r → e.ruleOut k = d.ruleOut k ∧ e.rule k = d.rule k) ∧
        ((e.rule r).latched = true ↔ u.latched = true ∨ (rises ∧ on1 (F.UMP_RULE_W1_PIN r) ∧ on1 (F.UMP_RULE_W1_LATCH r))) ∧
        (bit (e.rd64 R.UMP_ALARM_LO R.UMP_ALARM_HI) r = true ↔ bit (d.rd64 R.UMP_ALARM_LO R.UMP_ALARM_HI) r = true ∨ (rises ∧ on1 (F.UMP_RULE_W1_ALARM r))) ∧
        e.f F.UMP_LOG_STAT_LEVEL = (if out ≠ was ∧ on1 (F.UMP_RULE_W1_LOG r) ∧ d.f F.UMP_LOG_STAT_LEVEL < 16
          then d.f F.UMP_LOG_STAT_LEVEL + 1 else d.f F.UMP_LOG_STAT_LEVEL)
    s.ends (exec .crystalStart s) (fun e f => f = if e.on F.PWR_SUP_STAT_VAON then (e.put F.UMP_STAT_LIVE 1).put F.UMP_STAT_XTAL 1 else e) ∧
    (∀ r v, exec (.ruleEvaluate x r v) s = exec (.ruleEvaluate x (r % 64) v) s ∧
      (d.on F.PWR_SUP_STAT_VAON = false → exec (.ruleEvaluate x r v) s = .next s)) ∧
    (∀ r v, d.on F.PWR_SUP_STAT_VAON = true → r < 64 →
      let run := exec (.ruleEvaluate x r v) s
      let l1 := d.put F.UMP_STAT_LIVE 1
      let b := (if r = 63 then l1.put F.UMP_STAT_ROUND ((d.f F.UMP_STAT_ROUND + 1) % 2 ^ F.UMP_STAT_ROUND.width) else l1).ruleTake r
      (∀ w, (d.rule r).next = some w → b.rule r = { RuleSt.reset with latched := (d.rule r).latched } ∧ b.ruleOut r = false ∧
        b.rd (R.UMP_RULE_W0 r) = w.1 ∧ b.rd (R.UMP_RULE_W1 r) = w.2.1 ∧ b.rd (R.UMP_RULE_W2 r) = w.2.2.1 ∧ b.rd (R.UMP_RULE_W3 r) = w.2.2.2) ∧
      ((d.rule r).next = none → ∀ k, b.rule k = d.rule k ∧ b.ruleOut k = d.ruleOut k ∧ b.rd (R.UMP_RULE_W0 k) = d.rd (R.UMP_RULE_W0 k)) ∧
      (b.on (F.UMP_RULE_W0_EN r) = false → run = leads b) ∧
      (b.on (F.UMP_RULE_W0_EN r) = true → (idle b r → run = leads b) ∧ (¬ idle b r → ∃ c, gives b r v c ∧ acts b r run c))) ∧
    (∀ k, let at' := d.rd64 (R.UMP_MTC_VALUE_LO k) (R.UMP_MTC_VALUE_HI k)
      let per := d.f (F.UMP_MTC_PERIOD_V k)
      let armed := k < 8 ∧ d.on (F.UMP_MTC_EN_EN k) = true ∧ d.mtm.on = true ∧ at' ≤ d.mt.toNat
      (¬ armed → exec (.mtcFire x k) s = leads d) ∧
      (armed → ans (exec (.mtcFire x k) s) (fun e =>
        (∀ r, r < 64 → (e.rule r).fired = ((d.rule r).fired || (d.f (F.UMP_RULE_W0_SRC r) == 4 && d.f (F.UMP_RULE_W0_IDX r) == k))) ∧
        e.on (F.UMP_MTC_EN_EN k) = decide (per ≠ 0) ∧ e.rd64 (R.UMP_MTC_VALUE_LO k) (R.UMP_MTC_VALUE_HI k) = (at' + per) % 2 ^ 64))) ∧
    (∀ m, s.takes x d m R.UMP_LOG_POP → let n := d.f F.UMP_LOG_STAT_LEVEL
      (n = 0 → exec (.umpLogPop x m) s = leads (d.ack m)) ∧
      (0 < n → ans (exec (.umpLogPop x m) s) (fun e => e.f F.UMP_LOG_STAT_LEVEL = n - 1 ∧ e.on F.UMP_LOG_STAT_OVF = d.on F.UMP_LOG_STAT_OVF ∧
        ∀ k j, k < 15 → j < 4 → e.rd (R.UMP_LOG k j) = d.rd (R.UMP_LOG (k + 1) j)))) ∧
    (∀ w, let run := exec (.umpRule x w) s
      (d.callNext w 0x81 = false → run = leads d) ∧ (d.callNext w 0x81 = true →
        let t := d.callTake w
        let g := fun (k : Nat) => (BitVec.ofNat 32 (t.arg w k) : Word)
        let ends := fun (e : DieSt) (st : Nat) => leads ((e.callEnd w st []).dropUnknown 8)
        let checks := fun (l : List (Prop × Nat)) (p : Prop) =>
          (∀ l1 c l2, l = l1 ++ c :: l2 → (∀ b ∈ l1, ¬ b.1) → c.1 → run = ends t c.2) ∧ ((∀ c ∈ l, ¬ c.1) → p)
        let pin := bit (g 2).toNat 13
        let opin := bits (g 2).toNat 11 6
        let a := t.arg w 0
        let r := a % 64
        (d.policyAllows w 0x81 = false → run = ends t 12) ∧
        (d.policyAllows w 0x81 = true → bits a 9 8 = 1 → checks [(a ≠ r + 256, 2), (t.mine (0x700 + r) = false, 4)]
          (run = ends ((t.setRule r { t.rule r with latched := false }).setAlarm r false) 0)) ∧
        (d.policyAllows w 0x81 = true → bits a 9 8 ≠ 1 → checks [(a ≠ r ∨ t.ruleRange (g 1) (g 2) (g 3) (g 4) = true, 2),
            (bits (g 1).toNat 30 28 = 1 ∧ t.idn.met = false, 9), (t.mine (0x700 + r) = false ∨ (pin = true ∧ t.mine (48 + opin) = false), 4),
            ((t.rule r).latched = true ∧ (pin ≠ t.on (F.UMP_RULE_W1_PIN r) ∨ opin ≠ t.f (F.UMP_RULE_W1_OPIN r)), 10)]
          (let c := t.setClaim (0x700 + r) (2 * 2 ^ 28)
           let e := if pin then c.setClaim (48 + opin) (2 * 2 ^ 28) else c
           run = ends (e.setRule r { e.rule r with next := some (g 1, g 2, g 3, g 4) }) 0)))) ∧
    (∀ m, s.takes x d m R.REF_HB → exec (.refHbBeat x m) s
      = leads ((({ d with ump := { d.ump with refBeat := d.now + 1, ordered := 0, fails := 0 } } : DieSt).put F.UMP_HB_REF_WATCH 1).ack m)) ∧
    (let run := exec (.refHeartbeatMiss x) s
     let missed := d.on F.UMP_HB_REF_WATCH = true ∧ d.ump.refBeat + 10000000 ≤ d.now + 1
     let late := d.ump.ordered ≠ 0 ∧ d.ump.ordered + 50000000 ≤ d.now + 1
     let st := d.f F.REF_STAT_STATE
     let restarts := fun (n k : Nat) (e : DieSt) => e.ump.fails = n ∧ e.ump.ordered = d.now + 1 ∧ e.f F.REF_STAT_FAILS = k ∧
       e.f F.REF_STAT_STATE = 2 ∧ e.f F.REF_CAUSE_CAUSE = 2
     let third := s.paired → s.d0.dev = 4 → s.d0.pwr.going = none → s.subBusy = false → s.ends run (fun _ f => f.dev = 6 ∧ f.f F.PWR_STATE_CAUSE = 14)
     let fails := min 255 (d.f F.REF_STAT_FAILS + 1)
     let fails2 := min 255 (max d.ump.fails (d.f F.REF_STAT_FAILS) + 1)
     (d.domOn 76 = false ∨ (¬ missed ∧ ¬ late) → run = .next s) ∧
     (d.domOn 76 = true → missed →
       (st ≠ 0 → st ≠ 2 ∨ fails < 3 → ans run (fun e => e.on F.UMP_HB_REF_WATCH = false ∧
         e.f F.UMP_HB_REF_MISS = min 255 (d.f F.UMP_HB_REF_MISS + 1) ∧ restarts 0 (if st = 2 then fails else d.f F.REF_STAT_FAILS) e)) ∧
       (st = 2 → 3 ≤ fails → third)) ∧
     (d.domOn 76 = true → ¬ missed → late → d.ump.fails < 255 →
       (fails2 < 3 → ans run (restarts (d.ump.fails + 1) fails2)) ∧ (3 ≤ fails2 → third))) ∧
    (d.domOn 77 = false ∨ d.on F.SWP_STAT_RESTARTING = true → exec (.coordinatorHeartbeat x) s = leads d) ∧
    (d.domOn 77 = true → d.on F.SWP_STAT_RESTARTING = false →
      exec (.coordinatorHeartbeat x) s = leads (({ d with ump := { d.ump with swpBeat := d.now + 1, swpRun := 0 } } : DieSt).put F.UMP_HB_SWP_WATCH 1)) ∧
    (let missed := d.domOn 77 = true ∧ d.on F.UMP_HB_SWP_WATCH = true ∧ d.ump.swpBeat + 256000 ≤ d.now + 1
     (¬ missed → exec (.coordHeartbeatMiss x) s = leads d) ∧
     (missed → ans (exec (.coordHeartbeatMiss x) s) (fun e => e.on F.SWP_STAT_RESTARTING = true ∧
       e.f F.UMP_HB_SWP_MISS = min (2 ^ F.UMP_HB_SWP_MISS.width - 1) (d.f F.UMP_HB_SWP_MISS + 1) ∧ e.ump.swpRun = d.ump.swpRun + 1)))

/-- A write of 1 to a counter-clear bit that passes the access checks sets the counters it names to 0 (PACE_MARGIN to
its reset value), leaves every other register and the rest of the die as it was, and is answered without an error:
the ring, broadcast, frame, pace, engine, Roster, queue, check-engine, crossing, DRAM and Sweeper counters.
(04_regions_and_memory.md R114, 04_regions_and_memory.md R115, 05_pace.md R133, 06_signal_engines.md R177,
07_roster.md R205, 08_queues_and_checks.md R223, 08_queues_and_checks.md R230, 09_crossings.md R249,
10_dram_controller.md R271, 15_reliability.md R411) -/
def Obligations.CounterClearWritesZeroTheirCounters : Prop :=
  ∀ (s : State) (x : Die) (d : DieSt) (m : Master),
    (∀ rg, s.takes x d m (R.RGN_CNT_CLR rg) →
      exec (.rgnCntClrRing x m rg) s = .next (s.setDie x ((d.wr (R.RGN_RING_CNT rg) 0).ack m)) ∧
      exec (.rgnCntClrBm x m rg) s = .next (s.setDie x ((d.wr (R.RGN_BM_CNT rg) 0).ack m)) ∧
      exec (.rgnCntClrFrame x m rg) s = .next (s.setDie x ((d.wr (R.RGN_FRAME_CNT rg) 0).ack m))) ∧
    (s.takes x d m R.PACE_CTL →
      exec (.paceCntClr x m) s = .next (s.setDie x (((d.wr R.PACE_CNT 0).wr R.PACE_MARGIN 0xFF000000).ack m))) ∧
    (∀ rg, s.takes x d m (R.SE_CNT_CLR rg) →
      exec (.seCntClrStall x m rg) s = .next (s.setDie x ((d.wr (R.SE_STALL rg) 0).ack m)) ∧
      exec (.seCntClrInsn x m rg) s = .next (s.setDie x (((d.wr (R.SE_INSN_LO rg) 0).wr (R.SE_INSN_HI rg) 0).ack m)) ∧
      exec (.seCntClrMem x m rg) s = .next (s.setDie x ((d.wr (R.SE_MEM_CNT rg) 0).ack m))) ∧
    (s.takes x d m R.ROS_CTL → exec (.rosCntClr x m) s = .next (s.setDie x (((((((((d.wr (R.ROS_PROF_CNT 0) 0).wr
      (R.ROS_PROF_CNT 1) 0).wr (R.ROS_PROF_CNT 2) 0).wr (R.ROS_PROF_CNT 3) 0).wr (R.ROS_PROF_CNT 4) 0).wr
      (R.ROS_PROF_CNT 5) 0).wr (R.ROS_PROF_CNT 6) 0).wr (R.ROS_PROF_CNT 7) 0).ack m))) ∧
    (∀ q, s.takes x d m (R.Q_CMD q) →
      exec (.qCntClear x m q) s = .next (s.setDie x (((d.wr (R.Q_CNT q) 0).put (F.Q_CMD_RES_STATUS q) 0).ack m))) ∧
    (∀ u, s.takes x d m (R.CRC_CMD u) →
      exec (.crcCntClr x m u) s = .next (s.setDie x (((d.wr (R.CRC_CNT u) 0).wr (R.CRC_MIS u) 0).ack m))) ∧
    (s.takes x d m R.XING_CNT_CLR →
      exec (.xingCntClr x m 0) s = .next (s.setDie x (d.ack m)) ∧
      ∃ t, exec (.xingCntClr x m 1) s = .next t ∧ s.sameElse t x ∧
        (∀ k, k < 12 → (t.die x).rd (R.XING_CNT_A k) = 0 ∧ (t.die x).rd (R.XING_CNT_B k) = 0) ∧
        (∀ a, (∀ k, k < 12 → a ≠ R.XING_CNT_A k ∧ a ≠ R.XING_CNT_B k) → (t.die x).rd a = d.rd a)) ∧
    (∀ c, s.takes x d m (R.DMC_CNT_CLR c) →
      exec (.dmcCntClrRef x m c) s = .next (s.setDie x ((d.put (F.DMC_REF_FORCED c) 0).ack m)) ∧
      exec (.dmcCntClrEcc x m c) s = .next (s.setDie x ((d.wr (R.DMC_ECC_CNT c) 0).ack m))) ∧
    (s.takes x d m R.SWP_CNT_CLR →
      exec (.swpCntClr x m) s = .next (s.setDie x (((d.wr R.SWP_CNT 0).wr R.SWP_RESTART 0).ack m)))
end

