-- ==== Sys2Proof/Laws/Tab.lean ====
section
/-! SUPPORT. Laws of sparse tables: what a write changes, and that every operation keeps the canonical form. -/

namespace Sys2Proof.Machine

section
variable {α : Type}

/-! ### Cells -/

theorem cellGet_drop_self (f : Nat → α) (k : Nat) (l : List (Nat × α)) : cellGet f k (cellDrop k l) = f k := by
  induction l with
  | nil => rfl
  | cons c r ih => unfold cellDrop; split <;> simp_all [cellGet]

theorem cellGet_drop_ne (f : Nat → α) {j k : Nat} (h : j ≠ k) (l : List (Nat × α)) :
    cellGet f j (cellDrop k l) = cellGet f j l := by
  induction l with
  | nil => rfl
  | cons c r ih =>
    unfold cellDrop
    split
    · next e => rw [ih]; simp [cellGet, e, Ne.symm h]
    · simp only [cellGet, ih]

/-- A list in which no cell has key `k`. -/
def NoKey (k : Nat) (l : List (Nat × α)) : Prop := ∀ c ∈ l, c.1 ≠ k

theorem noKey_drop (k : Nat) (l : List (Nat × α)) : NoKey k (cellDrop k l) := by
  induction l with
  | nil => intro c h; cases h
  | cons c r ih =>
    unfold cellDrop
    split
    · exact ih
    · next e => intro x hx; rcases List.mem_cons.1 hx with rfl | h
                · exact e
                · exact ih x h

theorem cellGet_put_self (f : Nat → α) (k : Nat) (v : α) (l : List (Nat × α)) (h : NoKey k l) :
    cellGet f k (cellPut k v l) = v := by
  induction l with
  | nil => simp [cellPut, cellGet]
  | cons c r ih =>
    unfold cellPut
    split
    · simp [cellGet]
    · have hc : c.1 ≠ k := h c (List.mem_cons_self ..)
      simp only [cellGet, if_neg hc]
      exact ih (fun x hx => h x (List.mem_cons_of_mem _ hx))

theorem cellGet_put_ne (f : Nat → α) {j k : Nat} (h : j ≠ k) (v : α) (l : List (Nat × α)) :
    cellGet f j (cellPut k v l) = cellGet f j l := by
  induction l with
  | nil => simp [cellPut, cellGet, Ne.symm h]
  | cons c r ih =>
    unfold cellPut
    split
    · simp [cellGet, Ne.symm h]
    · simp only [cellGet, ih]

theorem cellDrop_of_noKey {k : Nat} {l : List (Nat × α)} (h : NoKey k l) : cellDrop k l = l := by
  induction l with
  | nil => rfl
  | cons c r ih =>
    simp only [cellDrop, if_neg (h c (List.mem_cons_self ..)), ih (fun x hx => h x (List.mem_cons_of_mem _ hx))]

theorem cellDrop_drop (k : Nat) (l : List (Nat × α)) : cellDrop k (cellDrop k l) = cellDrop k l :=
  cellDrop_of_noKey (noKey_drop k l)

theorem cellDrop_put (k : Nat) (v : α) (l : List (Nat × α)) (h : NoKey k l) : cellDrop k (cellPut k v l) = l := by
  induction l with
  | nil => simp [cellPut, cellDrop]
  | cons c r ih =>
    unfold cellPut
    split
    · simp only [cellDrop, if_true]
      exact cellDrop_of_noKey h
    · simp only [cellDrop, if_neg (h c (List.mem_cons_self ..)), ih (fun x hx => h x (List.mem_cons_of_mem _ hx))]

@[simp] theorem Tab.get_empty (f : Nat → α) (k : Nat) : (Tab.empty : Tab α).get f k = f k := rfl

theorem Tab.get_keep (f : Nat → α) (p : Nat → Bool) (t : Tab α) (k : Nat) :
    (t.keep p).get f k = if p k then t.get f k else f k := by
  unfold Tab.keep Tab.get
  generalize t.cells = l
  induction l with
  | nil => simp [cellGet]
  | cons c r ih =>
    by_cases hp : p c.1 = true
    · simp only [List.filter_cons, hp, if_true, cellGet]
      by_cases hc : c.1 = k
      · simp [hc, hc ▸ hp]
      · simp only [if_neg hc, ih]
    · simp only [List.filter_cons, hp, cellGet]
      by_cases hc : c.1 = k
      · rw [if_pos hc]; simp only [Bool.false_eq_true, if_false, ih]; rw [← hc]; simp [hp]
      · simp only [if_neg hc, Bool.false_eq_true, if_false, ih]

variable [DecidableEq α]

/-! ### Reading after writing -/

@[simp] theorem Tab.get_set_self (f : Nat → α) (t : Tab α) (k : Nat) (v : α) : (t.set f k v).get f k = v := by
  unfold Tab.set Tab.get
  split
  · next e => simp only [cellGet_drop_self, e]
  · exact cellGet_put_self f k v _ (noKey_drop k _)

theorem Tab.get_set_ne (f : Nat → α) (t : Tab α) {j k : Nat} (h : j ≠ k) (v : α) : (t.set f k v).get f j = t.get f j := by
  unfold Tab.set Tab.get
  split
  · exact cellGet_drop_ne f h _
  · simp only [cellGet_put_ne f h, cellGet_drop_ne f h]

/-- What a write changes: key `k` and no other. -/
theorem Tab.get_set (f : Nat → α) (t : Tab α) (j k : Nat) (v : α) :
    (t.set f k v).get f j = if j = k then v else t.get f j := by
  split
  · next e => rw [e, Tab.get_set_self]
  · next e => exact Tab.get_set_ne f t e v

theorem Tab.get_upd (f : Nat → α) (t : Tab α) (j k : Nat) (g : α → α) :
    (t.upd f k g).get f j = if j = k then g (t.get f k) else t.get f j := Tab.get_set f t j k _

/-- Of two writes of one key the later stands. -/
@[simp] theorem Tab.set_set (f : Nat → α) (t : Tab α) (k : Nat) (v w : α) : (t.set f k v).set f k w = t.set f k w := by
  have h : cellDrop k (t.set f k v).cells = cellDrop k t.cells := by
    unfold Tab.set
    split
    · exact cellDrop_drop k _
    · exact cellDrop_put k v _ (noKey_drop k _)
  unfold Tab.set at h ⊢
  simp only [h]

/-! ### The canonical form -/

theorem cellsWf_mono (f : Nat → α) {b c : Nat} (h : b ≤ c) (l : List (Nat × α)) (w : cellsWf f (some c) l = true) :
    cellsWf f (some b) l = true := by
  cases l with
  | nil => rfl
  | cons x r =>
    simp only [cellsWf, Bool.and_eq_true, decide_eq_true_eq] at w ⊢
    exact ⟨⟨by omega, w.1.2⟩, w.2⟩

theorem cellsWf_drop (f : Nat → α) (k : Nat) (l : List (Nat × α)) (b : Option Nat) (w : cellsWf f b l = true) :
    cellsWf f b (cellDrop k l) = true := by
  induction l generalizing b with
  | nil => rfl
  | cons x r ih =>
    simp only [cellsWf, Bool.and_eq_true] at w
    unfold cellDrop
    split
    · cases b with
      | none =>
        have := ih (some x.1) w.2
        cases hr : cellDrop k r with
        | nil => rfl
        | cons y s =>
          rw [hr] at this
          simp only [cellsWf, Bool.and_eq_true, decide_eq_true_eq] at this ⊢
          exact ⟨⟨trivial, this.1.2⟩, this.2⟩
      | some m =>
        have hm : m < x.1 := by simpa using w.1.1
        exact cellsWf_mono f (Nat.le_of_lt hm) _ (ih (some x.1) w.2)
    · simp only [cellsWf, Bool.and_eq_true]
      exact ⟨w.1, ih _ w.2⟩

theorem cellsWf_put (f : Nat → α) (k : Nat) (v : α) (hv : v ≠ f k) (l : List (Nat × α)) (hk : NoKey k l) (b : Option Nat)
    (hb : ∀ m, b = some m → m < k) (w : cellsWf f b l = true) : cellsWf f b (cellPut k v l) = true := by
  induction l generalizing b with
  | nil => cases b <;> simp_all [cellPut, cellsWf]
  | cons x r ih =>
    have hx : x.1 ≠ k := hk x (List.mem_cons_self ..)
    simp only [cellsWf, Bool.and_eq_true, decide_eq_true_eq] at w
    unfold cellPut
    split
    · next hlt =>
      simp only [cellsWf, Bool.and_eq_true, decide_eq_true_eq]
      refine ⟨⟨?_, hv⟩, ⟨⟨hlt, w.1.2⟩, w.2⟩⟩
      cases b with
      | none => rfl
      | some m => simpa using hb m rfl
    · next hge =>
      simp only [cellsWf, Bool.and_eq_true, decide_eq_true_eq]
      refine ⟨w.1, ih (fun y hy => hk y (List.mem_cons_of_mem _ hy)) _ (fun m e => ?_) w.2⟩
      cases e
      omega

theorem Tab.wf_empty (f : Nat → α) : (Tab.empty : Tab α).wf f = true := rfl

/-- A write keeps the canonical form. -/
theorem Tab.wf_set (f : Nat → α) (t : Tab α) (k : Nat) (v : α) (h : t.wf f = true) : (t.set f k v).wf f = true := by
  unfold Tab.set
  split
  · exact cellsWf_drop f k _ _ h
  · next e => exact cellsWf_put f k v e _ (noKey_drop k _) none (fun _ h => nomatch h) (cellsWf_drop f k _ _ h)

theorem Tab.wf_upd (f : Nat → α) (t : Tab α) (k : Nat) (g : α → α) (h : t.wf f = true) : (t.upd f k g).wf f = true :=
  Tab.wf_set f t k _ h

theorem cellsWf_filter (f : Nat → α) (p : Nat × α → Bool) (l : List (Nat × α)) (b : Option Nat) (w : cellsWf f b l = true) :
    cellsWf f b (l.filter p) = true := by
  induction l generalizing b with
  | nil => rfl
  | cons x r ih =>
    simp only [cellsWf, Bool.and_eq_true, decide_eq_true_eq] at w
    rw [List.filter_cons]
    split
    · simp only [cellsWf, Bool.and_eq_true, decide_eq_true_eq]
      exact ⟨w.1, ih _ w.2⟩
    · cases b with
      | none =>
        have h := ih (some x.1) w.2
        cases hr : r.filter p with
        | nil => rfl
        | cons y s =>
          rw [hr] at h
          simp only [cellsWf, Bool.and_eq_true, decide_eq_true_eq] at h ⊢
          exact ⟨⟨trivial, h.1.2⟩, h.2⟩
      | some m =>
        have hm : m < x.1 := by simpa using w.1.1
        exact cellsWf_mono f (Nat.le_of_lt hm) _ (ih (some x.1) w.2)

/-- Taking keys out keeps the canonical form. -/
theorem Tab.wf_keep (f : Nat → α) (p : Nat → Bool) (t : Tab α) (h : t.wf f = true) : (t.keep p).wf f = true :=
  cellsWf_filter f (fun c => p c.1) _ none h

theorem cellGet_below (f : Nat → α) (l : List (Nat × α)) (b k : Nat) (h : k ≤ b) (w : cellsWf f (some b) l = true) :
    cellGet f k l = f k := by
  induction l generalizing b with
  | nil => rfl
  | cons x r ih =>
    simp only [cellsWf, Bool.and_eq_true, decide_eq_true_eq] at w
    have hx : x.1 ≠ k := by omega
    simp only [cellGet, if_neg hx]
    exact ih x.1 (by omega) w.2

theorem cells_ext (f : Nat → α) (l m : List (Nat × α)) (b : Option Nat) (wl : cellsWf f b l = true) (wm : cellsWf f b m = true)
    (h : ∀ k, cellGet f k l = cellGet f k m) : l = m := by
  induction l generalizing m b with
  | nil =>
    cases m with
    | nil => rfl
    | cons y s =>
      have e := h y.1
      simp only [cellsWf, Bool.and_eq_true, decide_eq_true_eq] at wm
      simp only [cellGet, if_true] at e
      exact absurd e.symm wm.1.2
  | cons x r ih =>
    simp only [cellsWf, Bool.and_eq_true, decide_eq_true_eq] at wl
    cases m with
    | nil =>
      have e := h x.1
      simp only [cellGet, if_true] at e
      exact absurd e wl.1.2
    | cons y s =>
      simp only [cellsWf, Bool.and_eq_true, decide_eq_true_eq] at wm
      have key : x.1 = y.1 := by
        rcases Nat.lt_trichotomy x.1 y.1 with hlt | he | hgt
        · have e := h x.1
          have hy : y.1 ≠ x.1 := by omega
          simp only [cellGet, if_true, if_neg hy, cellGet_below f s y.1 x.1 (by omega) wm.2] at e
          exact absurd e wl.1.2
        · exact he
        · have e := h y.1
          have hx : x.1 ≠ y.1 := by omega
          simp only [cellGet, if_true, if_neg hx, cellGet_below f r x.1 y.1 (by omega) wl.2] at e
          exact absurd e.symm wm.1.2
      have val : x.2 = y.2 := by
        have e := h x.1
        simpa [cellGet, key] using e
      have rest : r = s := by
        refine ih s (some x.1) wl.2 (key ▸ wm.2) (fun k => ?_)
        have e := h k
        simp only [cellGet, key] at e
        by_cases hk : y.1 = k
        · rw [cellGet_below f r x.1 k (by omega) wl.2, cellGet_below f s y.1 k (by omega) wm.2]
        · simpa [if_neg hk] using e
      rw [rest, Prod.ext key val]

/-- Tables in canonical form that read the same at every key are the same data. -/
theorem Tab.ext_get (f : Nat → α) (t u : Tab α) (ht : t.wf f = true) (hu : u.wf f = true)
    (h : ∀ k, t.get f k = u.get f k) : t = u := by
  cases t; cases u
  exact congrArg Tab.mk (cells_ext f _ _ none ht hu h)

/-- Writing what a key of a canonical table reads as changes nothing. -/
theorem Tab.set_get (f : Nat → α) (t : Tab α) (k : Nat) (h : t.wf f = true) : t.set f k (t.get f k) = t := by
  refine Tab.ext_get f _ _ (Tab.wf_set f t k _ h) h (fun j => ?_)
  rw [Tab.get_set]
  split
  · next e => rw [e]
  · rfl

end

end Sys2Proof.Machine
end

