-- ==== Sys2Proof/Laws/Regs.lean ====
section
/-! SUPPORT. Laws of register words and fields: what a register reads as after a write, and a field after a field. -/

namespace Sys2Proof.Machine

/-! ### Fields of a word -/

/-- A word split at a field: what lies below, the field, what lies above. -/
theorem Fld.split (x : Fld) (w : Word) :
    w.toNat = w.toNat % 2 ^ x.lo + 2 ^ x.lo * (x.of w + 2 ^ x.width * (w.toNat / 2 ^ x.lo / 2 ^ x.width)) := by
  unfold Fld.of
  rw [Nat.shiftRight_eq_div_pow, Nat.mod_add_div, Nat.mod_add_div]

theorem Fld.of_lt (x : Fld) (w : Word) : x.of w < 2 ^ x.width := Nat.mod_lt _ (Nat.pow_pos (by decide))

/-- Is a field one of a 32-bit register. -/
def Fld.fits (x : Fld) : Prop := x.lo ≤ x.hi ∧ x.hi < 32

theorem Fld.toNat_put (x : Fld) (hx : x.fits) (w : Word) (v : Nat) :
    (x.put w v).toNat = w.toNat % 2 ^ x.lo + 2 ^ x.lo * (v % 2 ^ x.width + 2 ^ x.width * (w.toNat / 2 ^ x.lo / 2 ^ x.width)) := by
  have hs := x.split w
  have hw : x.lo + x.width ≤ 32 := by have := hx; unfold Fld.fits at this; unfold Fld.width; omega
  have hv : v % 2 ^ x.width < 2 ^ x.width := Nat.mod_lt _ (Nat.pow_pos (by decide))
  have hb : w.toNat % 2 ^ x.lo < 2 ^ x.lo := Nat.mod_lt _ (Nat.pow_pos (by decide))
  have hpow : 2 ^ x.lo * 2 ^ x.width * 2 ^ (32 - x.lo - x.width) = 2 ^ 32 := by
    rw [← Nat.pow_add, ← Nat.pow_add]; congr 1; omega
  have ht : w.toNat / 2 ^ x.lo / 2 ^ x.width < 2 ^ (32 - x.lo - x.width) := by
    rw [Nat.div_div_eq_div_mul]
    exact Nat.div_lt_of_lt_mul (by rw [hpow]; exact w.isLt)
  generalize hA : 2 ^ x.lo = A at *
  generalize hB : 2 ^ x.width = B at *
  generalize hC : 2 ^ (32 - x.lo - x.width) = C at *
  generalize hT : w.toNat / A / B = T at *
  generalize hL : w.toNat % A = L at *
  generalize hF : x.of w = F at *
  generalize hV : v % B = V at *
  have hlt : L + A * (V + B * T) < 2 ^ 32 := by
    have h1 : V + B * T < B * C := by
      have h0 : V + B * T < B * (T + 1) := by rw [Nat.mul_add]; omega
      exact Nat.lt_of_lt_of_le h0 (Nat.mul_le_mul_left B ht)
    have h2 : L + A * (V + B * T) < A * (B * C) := by
      have h0 : L + A * (V + B * T) < A * (V + B * T + 1) := by rw [Nat.mul_add A _ 1]; omega
      exact Nat.lt_of_lt_of_le h0 (Nat.mul_le_mul_left A h1)
    rw [← Nat.mul_assoc, hpow] at h2; exact h2
  have he : w.toNat - F * A + V * A = L + A * (V + B * T) := by
    rw [hs, Nat.mul_add, Nat.mul_add, Nat.mul_comm F A, Nat.mul_comm V A]; omega
  unfold Fld.put
  rw [hA, hB, hF, hV, BitVec.toNat_ofNat, he, Nat.mod_eq_of_lt hlt]

/-- A field reads back what was put into it, cut to its width. -/
theorem Fld.of_put (x : Fld) (hx : x.fits) (w : Word) (v : Nat) : x.of (x.put w v) = v % 2 ^ x.width := by
  have hb : w.toNat % 2 ^ x.lo < 2 ^ x.lo := Nat.mod_lt _ (Nat.pow_pos (by decide))
  show ((x.put w v).toNat >>> x.lo) % 2 ^ x.width = _
  rw [x.toNat_put hx, Nat.shiftRight_eq_div_pow, Nat.add_mul_div_left _ _ (Nat.pow_pos (by decide)), Nat.div_eq_of_lt hb,
    Nat.zero_add, Nat.add_mul_mod_self_left, Nat.mod_mod]

/-- Putting a field twice leaves the later value. -/
theorem Fld.put_put (x : Fld) (hx : x.fits) (w : Word) (v u : Nat) : x.put (x.put w v) u = x.put w u := by
  have hb : w.toNat % 2 ^ x.lo < 2 ^ x.lo := Nat.mod_lt _ (Nat.pow_pos (by decide))
  have hv : v % 2 ^ x.width < 2 ^ x.width := Nat.mod_lt _ (Nat.pow_pos (by decide))
  apply BitVec.eq_of_toNat_eq
  rw [x.toNat_put hx, x.toNat_put hx w u]
  have h1 : (x.put w v).toNat % 2 ^ x.lo = w.toNat % 2 ^ x.lo := by
    rw [x.toNat_put hx, Nat.add_mul_mod_self_left, Nat.mod_mod]
  have h2 : (x.put w v).toNat / 2 ^ x.lo / 2 ^ x.width = w.toNat / 2 ^ x.lo / 2 ^ x.width := by
    rw [x.toNat_put hx, Nat.add_mul_div_left _ _ (Nat.pow_pos (by decide)), Nat.div_eq_of_lt hb, Nat.zero_add,
      Nat.add_mul_div_left _ _ (Nat.pow_pos (by decide)), Nat.div_eq_of_lt hv, Nat.zero_add]
  rw [h1, h2]

/-- The bit of a word after a field is put: the field's own from the value, every other as it was. -/
theorem Fld.testBit_put (x : Fld) (hx : x.fits) (w : Word) (v i : Nat) :
    (x.put w v).toNat.testBit i = if x.lo ≤ i ∧ i ≤ x.hi then v.testBit (i - x.lo) else w.toNat.testBit i := by
  have hwd : x.width = x.hi - x.lo + 1 := rfl
  have hlh : x.lo ≤ x.hi := hx.1
  have hb : w.toNat % 2 ^ x.lo < 2 ^ x.lo := Nat.mod_lt _ (Nat.pow_pos (by decide))
  have hv : v % 2 ^ x.width < 2 ^ x.width := Nat.mod_lt _ (Nat.pow_pos (by decide))
  rw [x.toNat_put hx, Nat.add_comm, Nat.testBit_two_pow_mul_add _ hb, Nat.add_comm, Nat.testBit_two_pow_mul_add _ hv]
  by_cases h1 : i < x.lo
  · have hn : ¬ (x.lo ≤ i ∧ i ≤ x.hi) := by omega
    simp [h1, hn, Nat.testBit_mod_two_pow]
  · by_cases h2 : i - x.lo < x.width
    · have hy : x.lo ≤ i ∧ i ≤ x.hi := by omega
      simp only [if_neg h1, if_pos h2, if_pos hy, Nat.testBit_mod_two_pow]
      simp [h2]
    · have hn : ¬ (x.lo ≤ i ∧ i ≤ x.hi) := by omega
      simp only [if_neg h1, if_neg h2, if_neg hn]
      rw [Nat.testBit_div_two_pow, Nat.testBit_div_two_pow]
      congr 1; omega

/-- A field that shares no bit with another keeps its value when the other is put. -/
theorem Fld.of_put_other (x y : Fld) (hx : x.fits) (w : Word) (v : Nat) (h : x.hi < y.lo ∨ (y.hi < x.lo ∧ y.lo ≤ y.hi)) :
    y.of (x.put w v) = y.of w := by
  have hwd : y.width = y.hi - y.lo + 1 := rfl
  unfold Fld.of
  apply Nat.eq_of_testBit_eq
  intro i
  simp only [Nat.testBit_mod_two_pow, Nat.testBit_shiftRight, x.testBit_put hx]
  by_cases hi : i < y.width
  · have hn : ¬ (x.lo ≤ y.lo + i ∧ y.lo + i ≤ x.hi) := by omega
    simp [hn]
  · simp [hi]

/-! ### Registers of a die -/

@[simp] theorem DieSt.rd_wr_self (d : DieSt) (a : Nat) (v : Word) : (d.wr a v).rd a = v := Tab.get_set_self _ _ _ _

theorem DieSt.rd_wr_ne (d : DieSt) {a b : Nat} (h : b ≠ a) (v : Word) : (d.wr a v).rd b = d.rd b := Tab.get_set_ne _ _ h _

/-- What a register write changes: the register at `a` and no other. -/
theorem DieSt.rd_wr (d : DieSt) (a b : Nat) (v : Word) : (d.wr a v).rd b = if b = a then v else d.rd b := Tab.get_set _ _ _ _ _

/-- Of two writes of one register the later stands. -/
@[simp] theorem DieSt.wr_wr (d : DieSt) (a : Nat) (v u : Word) : (d.wr a v).wr a u = d.wr a u := by
  unfold DieSt.wr
  simp

theorem DieSt.rd_put (d : DieSt) (x : Fld) (v b : Nat) :
    (d.put x v).rd b = if b = x.addr then x.put (d.rd x.addr) v else d.rd b := DieSt.rd_wr _ _ _ _

theorem DieSt.rd_put_ne (d : DieSt) (x : Fld) (v : Nat) {b : Nat} (h : b ≠ x.addr) : (d.put x v).rd b = d.rd b :=
  DieSt.rd_wr_ne _ h _

theorem DieSt.f_wr_ne (d : DieSt) {a : Nat} (y : Fld) (h : y.addr ≠ a) (v : Word) : (d.wr a v).f y = d.f y := by
  unfold DieSt.f; rw [DieSt.rd_wr_ne _ h]

/-- A field reads back what was put into it. -/
theorem DieSt.f_put_self (d : DieSt) (x : Fld) (hx : x.fits) (v : Nat) : (d.put x v).f x = v % 2 ^ x.width := by
  unfold DieSt.f; rw [DieSt.rd_put, if_pos rfl, Fld.of_put x hx]

/-- A field of another register keeps its value. -/
theorem DieSt.f_put_ne (d : DieSt) (x y : Fld) (h : y.addr ≠ x.addr) (v : Nat) : (d.put x v).f y = d.f y := by
  unfold DieSt.f; rw [DieSt.rd_put_ne _ _ _ h]

/-- A field that shares no bit with the one put keeps its value. -/
theorem DieSt.f_put_other (d : DieSt) (x y : Fld) (hx : x.fits) (h : x.hi < y.lo ∨ (y.hi < x.lo ∧ y.lo ≤ y.hi)) (v : Nat) :
    (d.put x v).f y = d.f y := by
  unfold DieSt.f
  rw [DieSt.rd_put]
  split
  · next e => rw [Fld.of_put_other x y hx _ _ h, e]
  · rfl

theorem DieSt.on_put_self (d : DieSt) (x : Fld) (hx : x.fits) (v : Nat) : (d.put x v).on x = (v % 2 ^ x.width == 1) := by
  unfold DieSt.on; rw [DieSt.f_put_self d x hx]

theorem DieSt.on_put_ne (d : DieSt) (x y : Fld) (h : y.addr ≠ x.addr) (v : Nat) : (d.put x v).on y = d.on y := by
  unfold DieSt.on; rw [DieSt.f_put_ne d x y h]

/-- A 64-bit value reads back what was stored. -/
theorem DieSt.rd64_wr64 (d : DieSt) (lo hi : Nat) (h : lo ≠ hi) (v : Nat) : (d.wr64 lo hi v).rd64 lo hi = v % 2 ^ 64 := by
  unfold DieSt.rd64 DieSt.wr64
  rw [DieSt.rd_wr_self, DieSt.rd_wr_ne _ h, DieSt.rd_wr_self]
  simp only [BitVec.toNat_ofNat, Nat.shiftRight_eq_div_pow]
  omega

/-- A counter that saturates, after one more. -/
theorem satInc_eq (w n : Nat) (h : n < 2 ^ w) : satInc w n = min (2 ^ w - 1) (n + 1) := by
  unfold satInc; split <;> omega

end Sys2Proof.Machine
end

