-- ==== Sys2Proof/Laws/State.lean ====
section
/-! SUPPORT. What each update of a die leaves as it was, field by field, and what it sets: cite these instead of unfolding a
record update. -/

namespace Sys2Proof.Machine

/-! ### A value offered to a crossing -/

/-- All an offer can do: it changes the crossings. -/
theorem DieSt.xOffer_cases (d : DieSt) (r : XRef) (v : Nat) : ∃ t, d.xOffer r v = { d with xing := t } := by
  simp only [DieSt.xOffer]
  split
  · exact ⟨d.xing, rfl⟩
  · split
    · exact ⟨d.xing, rfl⟩
    · exact ⟨_, rfl⟩

@[simp] theorem DieSt.xOffer_idn (d : DieSt) (r : XRef) (v : Nat) : (d.xOffer r v).idn = d.idn := by
  obtain ⟨t, h⟩ := d.xOffer_cases r v; rw [h]
@[simp] theorem DieSt.xOffer_regs (d : DieSt) (r : XRef) (v : Nat) : (d.xOffer r v).regs = d.regs := by
  obtain ⟨t, h⟩ := d.xOffer_cases r v; rw [h]
@[simp] theorem DieSt.xOffer_resp (d : DieSt) (r : XRef) (v : Nat) : (d.xOffer r v).resp = d.resp := by
  obtain ⟨t, h⟩ := d.xOffer_cases r v; rw [h]
@[simp] theorem DieSt.xOffer_rdLatch (d : DieSt) (r : XRef) (v : Nat) : (d.xOffer r v).rdLatch = d.rdLatch := by
  obtain ⟨t, h⟩ := d.xOffer_cases r v; rw [h]
@[simp] theorem DieSt.xOffer_wrLatch (d : DieSt) (r : XRef) (v : Nat) : (d.xOffer r v).wrLatch = d.wrLatch := by
  obtain ⟨t, h⟩ := d.xOffer_cases r v; rw [h]
@[simp] theorem DieSt.xOffer_free (d : DieSt) (r : XRef) (v : Nat) : (d.xOffer r v).free = d.free := by
  obtain ⟨t, h⟩ := d.xOffer_cases r v; rw [h]
@[simp] theorem DieSt.xOffer_now (d : DieSt) (r : XRef) (v : Nat) : (d.xOffer r v).now = d.now := by
  obtain ⟨t, h⟩ := d.xOffer_cases r v; rw [h]
@[simp] theorem DieSt.xOffer_mt (d : DieSt) (r : XRef) (v : Nat) : (d.xOffer r v).mt = d.mt := by
  obtain ⟨t, h⟩ := d.xOffer_cases r v; rw [h]
@[simp] theorem DieSt.xOffer_raised (d : DieSt) (r : XRef) (v : Nat) : (d.xOffer r v).raised = d.raised := by
  obtain ⟨t, h⟩ := d.xOffer_cases r v; rw [h]
@[simp] theorem DieSt.xOffer_coll (d : DieSt) (r : XRef) (v : Nat) : (d.xOffer r v).coll = d.coll := by
  obtain ⟨t, h⟩ := d.xOffer_cases r v; rw [h]
@[simp] theorem DieSt.xOffer_evLast (d : DieSt) (r : XRef) (v : Nat) : (d.xOffer r v).evLast = d.evLast := by
  obtain ⟨t, h⟩ := d.xOffer_cases r v; rw [h]
@[simp] theorem DieSt.xOffer_noRb (d : DieSt) (r : XRef) (v : Nat) : (d.xOffer r v).noRb = d.noRb := by
  obtain ⟨t, h⟩ := d.xOffer_cases r v; rw [h]
@[simp] theorem DieSt.xOffer_fab (d : DieSt) (r : XRef) (v : Nat) : (d.xOffer r v).fab = d.fab := by
  obtain ⟨t, h⟩ := d.xOffer_cases r v; rw [h]
@[simp] theorem DieSt.xOffer_pace (d : DieSt) (r : XRef) (v : Nat) : (d.xOffer r v).pace = d.pace := by
  obtain ⟨t, h⟩ := d.xOffer_cases r v; rw [h]
@[simp] theorem DieSt.xOffer_se (d : DieSt) (r : XRef) (v : Nat) : (d.xOffer r v).se = d.se := by
  obtain ⟨t, h⟩ := d.xOffer_cases r v; rw [h]
@[simp] theorem DieSt.xOffer_q (d : DieSt) (r : XRef) (v : Nat) : (d.xOffer r v).q = d.q := by
  obtain ⟨t, h⟩ := d.xOffer_cases r v; rw [h]
@[simp] theorem DieSt.xOffer_crc (d : DieSt) (r : XRef) (v : Nat) : (d.xOffer r v).crc = d.crc := by
  obtain ⟨t, h⟩ := d.xOffer_cases r v; rw [h]
@[simp] theorem DieSt.xOffer_claims (d : DieSt) (r : XRef) (v : Nat) : (d.xOffer r v).claims = d.claims := by
  obtain ⟨t, h⟩ := d.xOffer_cases r v; rw [h]
@[simp] theorem DieSt.xOffer_ros (d : DieSt) (r : XRef) (v : Nat) : (d.xOffer r v).ros = d.ros := by
  obtain ⟨t, h⟩ := d.xOffer_cases r v; rw [h]
@[simp] theorem DieSt.xOffer_userX (d : DieSt) (r : XRef) (v : Nat) : (d.xOffer r v).userX = d.userX := by
  obtain ⟨t, h⟩ := d.xOffer_cases r v; rw [h]
@[simp] theorem DieSt.xOffer_bankRst (d : DieSt) (r : XRef) (v : Nat) : (d.xOffer r v).bankRst = d.bankRst := by
  obtain ⟨t, h⟩ := d.xOffer_cases r v; rw [h]
@[simp] theorem DieSt.xOffer_tapAt (d : DieSt) (r : XRef) (v : Nat) : (d.xOffer r v).tapAt = d.tapAt := by
  obtain ⟨t, h⟩ := d.xOffer_cases r v; rw [h]
@[simp] theorem DieSt.xOffer_portAt (d : DieSt) (r : XRef) (v : Nat) : (d.xOffer r v).portAt = d.portAt := by
  obtain ⟨t, h⟩ := d.xOffer_cases r v; rw [h]
@[simp] theorem DieSt.xOffer_chanAt (d : DieSt) (r : XRef) (v : Nat) : (d.xOffer r v).chanAt = d.chanAt := by
  obtain ⟨t, h⟩ := d.xOffer_cases r v; rw [h]
@[simp] theorem DieSt.xOffer_slkAdm (d : DieSt) (r : XRef) (v : Nat) : (d.xOffer r v).slkAdm = d.slkAdm := by
  obtain ⟨t, h⟩ := d.xOffer_cases r v; rw [h]
@[simp] theorem DieSt.xOffer_dmc (d : DieSt) (r : XRef) (v : Nat) : (d.xOffer r v).dmc = d.dmc := by
  obtain ⟨t, h⟩ := d.xOffer_cases r v; rw [h]
@[simp] theorem DieSt.xOffer_slkHeld (d : DieSt) (r : XRef) (v : Nat) : (d.xOffer r v).slkHeld = d.slkHeld := by
  obtain ⟨t, h⟩ := d.xOffer_cases r v; rw [h]
@[simp] theorem DieSt.xOffer_port (d : DieSt) (r : XRef) (v : Nat) : (d.xOffer r v).port = d.port := by
  obtain ⟨t, h⟩ := d.xOffer_cases r v; rw [h]
@[simp] theorem DieSt.xOffer_cfgSeq (d : DieSt) (r : XRef) (v : Nat) : (d.xOffer r v).cfgSeq = d.cfgSeq := by
  obtain ⟨t, h⟩ := d.xOffer_cases r v; rw [h]
@[simp] theorem DieSt.xOffer_mgmtIn (d : DieSt) (r : XRef) (v : Nat) : (d.xOffer r v).mgmtIn = d.mgmtIn := by
  obtain ⟨t, h⟩ := d.xOffer_cases r v; rw [h]
@[simp] theorem DieSt.xOffer_chanSent (d : DieSt) (r : XRef) (v : Nat) : (d.xOffer r v).chanSent = d.chanSent := by
  obtain ⟨t, h⟩ := d.xOffer_cases r v; rw [h]
@[simp] theorem DieSt.xOffer_chanZero (d : DieSt) (r : XRef) (v : Nat) : (d.xOffer r v).chanZero = d.chanZero := by
  obtain ⟨t, h⟩ := d.xOffer_cases r v; rw [h]
@[simp] theorem DieSt.xOffer_txts (d : DieSt) (r : XRef) (v : Nat) : (d.xOffer r v).txts = d.txts := by
  obtain ⟨t, h⟩ := d.xOffer_cases r v; rw [h]
@[simp] theorem DieSt.xOffer_ethCfg (d : DieSt) (r : XRef) (v : Nat) : (d.xOffer r v).ethCfg = d.ethCfg := by
  obtain ⟨t, h⟩ := d.xOffer_cases r v; rw [h]
@[simp] theorem DieSt.xOffer_ethOut (d : DieSt) (r : XRef) (v : Nat) : (d.xOffer r v).ethOut = d.ethOut := by
  obtain ⟨t, h⟩ := d.xOffer_cases r v; rw [h]
@[simp] theorem DieSt.xOffer_mtm (d : DieSt) (r : XRef) (v : Nat) : (d.xOffer r v).mtm = d.mtm := by
  obtain ⟨t, h⟩ := d.xOffer_cases r v; rw [h]
@[simp] theorem DieSt.xOffer_hdrOk (d : DieSt) (r : XRef) (v : Nat) : (d.xOffer r v).hdrOk = d.hdrOk := by
  obtain ⟨t, h⟩ := d.xOffer_cases r v; rw [h]
@[simp] theorem DieSt.xOffer_linkIn (d : DieSt) (r : XRef) (v : Nat) : (d.xOffer r v).linkIn = d.linkIn := by
  obtain ⟨t, h⟩ := d.xOffer_cases r v; rw [h]
@[simp] theorem DieSt.xOffer_pin (d : DieSt) (r : XRef) (v : Nat) : (d.xOffer r v).pin = d.pin := by
  obtain ⟨t, h⟩ := d.xOffer_cases r v; rw [h]
@[simp] theorem DieSt.xOffer_pinLevel (d : DieSt) (r : XRef) (v : Nat) : (d.xOffer r v).pinLevel = d.pinLevel := by
  obtain ⟨t, h⟩ := d.xOffer_cases r v; rw [h]
@[simp] theorem DieSt.xOffer_plan (d : DieSt) (r : XRef) (v : Nat) : (d.xOffer r v).plan = d.plan := by
  obtain ⟨t, h⟩ := d.xOffer_cases r v; rw [h]
@[simp] theorem DieSt.xOffer_pmPrev (d : DieSt) (r : XRef) (v : Nat) : (d.xOffer r v).pmPrev = d.pmPrev := by
  obtain ⟨t, h⟩ := d.xOffer_cases r v; rw [h]
@[simp] theorem DieSt.xOffer_pmHits (d : DieSt) (r : XRef) (v : Nat) : (d.xOffer r v).pmHits = d.pmHits := by
  obtain ⟨t, h⟩ := d.xOffer_cases r v; rw [h]
@[simp] theorem DieSt.xOffer_deb (d : DieSt) (r : XRef) (v : Nat) : (d.xOffer r v).deb = d.deb := by
  obtain ⟨t, h⟩ := d.xOffer_cases r v; rw [h]
@[simp] theorem DieSt.xOffer_pllLost (d : DieSt) (r : XRef) (v : Nat) : (d.xOffer r v).pllLost = d.pllLost := by
  obtain ⟨t, h⟩ := d.xOffer_cases r v; rw [h]
@[simp] theorem DieSt.xOffer_load (d : DieSt) (r : XRef) (v : Nat) : (d.xOffer r v).load = d.load := by
  obtain ⟨t, h⟩ := d.xOffer_cases r v; rw [h]
@[simp] theorem DieSt.xOffer_nvm (d : DieSt) (r : XRef) (v : Nat) : (d.xOffer r v).nvm = d.nvm := by
  obtain ⟨t, h⟩ := d.xOffer_cases r v; rw [h]
@[simp] theorem DieSt.xOffer_rel (d : DieSt) (r : XRef) (v : Nat) : (d.xOffer r v).rel = d.rel := by
  obtain ⟨t, h⟩ := d.xOffer_cases r v; rw [h]
@[simp] theorem DieSt.xOffer_pwr (d : DieSt) (r : XRef) (v : Nat) : (d.xOffer r v).pwr = d.pwr := by
  obtain ⟨t, h⟩ := d.xOffer_cases r v; rw [h]
@[simp] theorem DieSt.xOffer_fuse (d : DieSt) (r : XRef) (v : Nat) : (d.xOffer r v).fuse = d.fuse := by
  obtain ⟨t, h⟩ := d.xOffer_cases r v; rw [h]
@[simp] theorem DieSt.xOffer_ref (d : DieSt) (r : XRef) (v : Nat) : (d.xOffer r v).ref = d.ref := by
  obtain ⟨t, h⟩ := d.xOffer_cases r v; rw [h]
@[simp] theorem DieSt.xOffer_met (d : DieSt) (r : XRef) (v : Nat) : (d.xOffer r v).met = d.met := by
  obtain ⟨t, h⟩ := d.xOffer_cases r v; rw [h]
@[simp] theorem DieSt.xOffer_ump (d : DieSt) (r : XRef) (v : Nat) : (d.xOffer r v).ump = d.ump := by
  obtain ⟨t, h⟩ := d.xOffer_cases r v; rw [h]
@[simp] theorem DieSt.xOffer_jtag (d : DieSt) (r : XRef) (v : Nat) : (d.xOffer r v).jtag = d.jtag := by
  obtain ⟨t, h⟩ := d.xOffer_cases r v; rw [h]

/-! ### wr -/

@[simp] theorem DieSt.wr_idn (d : DieSt) (a : Nat) (v : Word) : (d.wr a v).idn = d.idn := by cases d; rfl
@[simp] theorem DieSt.wr_resp (d : DieSt) (a : Nat) (v : Word) : (d.wr a v).resp = d.resp := by cases d; rfl
@[simp] theorem DieSt.wr_rdLatch (d : DieSt) (a : Nat) (v : Word) : (d.wr a v).rdLatch = d.rdLatch := by cases d; rfl
@[simp] theorem DieSt.wr_wrLatch (d : DieSt) (a : Nat) (v : Word) : (d.wr a v).wrLatch = d.wrLatch := by cases d; rfl
@[simp] theorem DieSt.wr_free (d : DieSt) (a : Nat) (v : Word) : (d.wr a v).free = d.free := by cases d; rfl
@[simp] theorem DieSt.wr_now (d : DieSt) (a : Nat) (v : Word) : (d.wr a v).now = d.now := by cases d; rfl
@[simp] theorem DieSt.wr_mt (d : DieSt) (a : Nat) (v : Word) : (d.wr a v).mt = d.mt := by cases d; rfl
@[simp] theorem DieSt.wr_raised (d : DieSt) (a : Nat) (v : Word) : (d.wr a v).raised = d.raised := by cases d; rfl
@[simp] theorem DieSt.wr_coll (d : DieSt) (a : Nat) (v : Word) : (d.wr a v).coll = d.coll := by cases d; rfl
@[simp] theorem DieSt.wr_evLast (d : DieSt) (a : Nat) (v : Word) : (d.wr a v).evLast = d.evLast := by cases d; rfl
@[simp] theorem DieSt.wr_noRb (d : DieSt) (a : Nat) (v : Word) : (d.wr a v).noRb = d.noRb := by cases d; rfl
@[simp] theorem DieSt.wr_fab (d : DieSt) (a : Nat) (v : Word) : (d.wr a v).fab = d.fab := by cases d; rfl
@[simp] theorem DieSt.wr_pace (d : DieSt) (a : Nat) (v : Word) : (d.wr a v).pace = d.pace := by cases d; rfl
@[simp] theorem DieSt.wr_se (d : DieSt) (a : Nat) (v : Word) : (d.wr a v).se = d.se := by cases d; rfl
@[simp] theorem DieSt.wr_q (d : DieSt) (a : Nat) (v : Word) : (d.wr a v).q = d.q := by cases d; rfl
@[simp] theorem DieSt.wr_crc (d : DieSt) (a : Nat) (v : Word) : (d.wr a v).crc = d.crc := by cases d; rfl
@[simp] theorem DieSt.wr_claims (d : DieSt) (a : Nat) (v : Word) : (d.wr a v).claims = d.claims := by cases d; rfl
@[simp] theorem DieSt.wr_ros (d : DieSt) (a : Nat) (v : Word) : (d.wr a v).ros = d.ros := by cases d; rfl
@[simp] theorem DieSt.wr_userX (d : DieSt) (a : Nat) (v : Word) : (d.wr a v).userX = d.userX := by cases d; rfl
@[simp] theorem DieSt.wr_bankRst (d : DieSt) (a : Nat) (v : Word) : (d.wr a v).bankRst = d.bankRst := by cases d; rfl
@[simp] theorem DieSt.wr_xing (d : DieSt) (a : Nat) (v : Word) : (d.wr a v).xing = d.xing := by cases d; rfl
@[simp] theorem DieSt.wr_tapAt (d : DieSt) (a : Nat) (v : Word) : (d.wr a v).tapAt = d.tapAt := by cases d; rfl
@[simp] theorem DieSt.wr_portAt (d : DieSt) (a : Nat) (v : Word) : (d.wr a v).portAt = d.portAt := by cases d; rfl
@[simp] theorem DieSt.wr_chanAt (d : DieSt) (a : Nat) (v : Word) : (d.wr a v).chanAt = d.chanAt := by cases d; rfl
@[simp] theorem DieSt.wr_slkAdm (d : DieSt) (a : Nat) (v : Word) : (d.wr a v).slkAdm = d.slkAdm := by cases d; rfl
@[simp] theorem DieSt.wr_dmc (d : DieSt) (a : Nat) (v : Word) : (d.wr a v).dmc = d.dmc := by cases d; rfl
@[simp] theorem DieSt.wr_slkHeld (d : DieSt) (a : Nat) (v : Word) : (d.wr a v).slkHeld = d.slkHeld := by cases d; rfl
@[simp] theorem DieSt.wr_port (d : DieSt) (a : Nat) (v : Word) : (d.wr a v).port = d.port := by cases d; rfl
@[simp] theorem DieSt.wr_cfgSeq (d : DieSt) (a : Nat) (v : Word) : (d.wr a v).cfgSeq = d.cfgSeq := by cases d; rfl
@[simp] theorem DieSt.wr_mgmtIn (d : DieSt) (a : Nat) (v : Word) : (d.wr a v).mgmtIn = d.mgmtIn := by cases d; rfl
@[simp] theorem DieSt.wr_chanSent (d : DieSt) (a : Nat) (v : Word) : (d.wr a v).chanSent = d.chanSent := by cases d; rfl
@[simp] theorem DieSt.wr_chanZero (d : DieSt) (a : Nat) (v : Word) : (d.wr a v).chanZero = d.chanZero := by cases d; rfl
@[simp] theorem DieSt.wr_txts (d : DieSt) (a : Nat) (v : Word) : (d.wr a v).txts = d.txts := by cases d; rfl
@[simp] theorem DieSt.wr_ethCfg (d : DieSt) (a : Nat) (v : Word) : (d.wr a v).ethCfg = d.ethCfg := by cases d; rfl
@[simp] theorem DieSt.wr_ethOut (d : DieSt) (a : Nat) (v : Word) : (d.wr a v).ethOut = d.ethOut := by cases d; rfl
@[simp] theorem DieSt.wr_mtm (d : DieSt) (a : Nat) (v : Word) : (d.wr a v).mtm = d.mtm := by cases d; rfl
@[simp] theorem DieSt.wr_hdrOk (d : DieSt) (a : Nat) (v : Word) : (d.wr a v).hdrOk = d.hdrOk := by cases d; rfl
@[simp] theorem DieSt.wr_linkIn (d : DieSt) (a : Nat) (v : Word) : (d.wr a v).linkIn = d.linkIn := by cases d; rfl
@[simp] theorem DieSt.wr_pin (d : DieSt) (a : Nat) (v : Word) : (d.wr a v).pin = d.pin := by cases d; rfl
@[simp] theorem DieSt.wr_pinLevel (d : DieSt) (a : Nat) (v : Word) : (d.wr a v).pinLevel = d.pinLevel := by cases d; rfl
@[simp] theorem DieSt.wr_plan (d : DieSt) (a : Nat) (v : Word) : (d.wr a v).plan = d.plan := by cases d; rfl
@[simp] theorem DieSt.wr_pmPrev (d : DieSt) (a : Nat) (v : Word) : (d.wr a v).pmPrev = d.pmPrev := by cases d; rfl
@[simp] theorem DieSt.wr_pmHits (d : DieSt) (a : Nat) (v : Word) : (d.wr a v).pmHits = d.pmHits := by cases d; rfl
@[simp] theorem DieSt.wr_deb (d : DieSt) (a : Nat) (v : Word) : (d.wr a v).deb = d.deb := by cases d; rfl
@[simp] theorem DieSt.wr_pllLost (d : DieSt) (a : Nat) (v : Word) : (d.wr a v).pllLost = d.pllLost := by cases d; rfl
@[simp] theorem DieSt.wr_load (d : DieSt) (a : Nat) (v : Word) : (d.wr a v).load = d.load := by cases d; rfl
@[simp] theorem DieSt.wr_nvm (d : DieSt) (a : Nat) (v : Word) : (d.wr a v).nvm = d.nvm := by cases d; rfl
@[simp] theorem DieSt.wr_rel (d : DieSt) (a : Nat) (v : Word) : (d.wr a v).rel = d.rel := by cases d; rfl
@[simp] theorem DieSt.wr_pwr (d : DieSt) (a : Nat) (v : Word) : (d.wr a v).pwr = d.pwr := by cases d; rfl
@[simp] theorem DieSt.wr_fuse (d : DieSt) (a : Nat) (v : Word) : (d.wr a v).fuse = d.fuse := by cases d; rfl
@[simp] theorem DieSt.wr_ref (d : DieSt) (a : Nat) (v : Word) : (d.wr a v).ref = d.ref := by cases d; rfl
@[simp] theorem DieSt.wr_met (d : DieSt) (a : Nat) (v : Word) : (d.wr a v).met = d.met := by cases d; rfl
@[simp] theorem DieSt.wr_ump (d : DieSt) (a : Nat) (v : Word) : (d.wr a v).ump = d.ump := by cases d; rfl
@[simp] theorem DieSt.wr_jtag (d : DieSt) (a : Nat) (v : Word) : (d.wr a v).jtag = d.jtag := by cases d; rfl

/-! ### put -/

@[simp] theorem DieSt.put_idn (d : DieSt) (x : Fld) (v : Nat) : (d.put x v).idn = d.idn := by cases d; rfl
@[simp] theorem DieSt.put_resp (d : DieSt) (x : Fld) (v : Nat) : (d.put x v).resp = d.resp := by cases d; rfl
@[simp] theorem DieSt.put_rdLatch (d : DieSt) (x : Fld) (v : Nat) : (d.put x v).rdLatch = d.rdLatch := by cases d; rfl
@[simp] theorem DieSt.put_wrLatch (d : DieSt) (x : Fld) (v : Nat) : (d.put x v).wrLatch = d.wrLatch := by cases d; rfl
@[simp] theorem DieSt.put_free (d : DieSt) (x : Fld) (v : Nat) : (d.put x v).free = d.free := by cases d; rfl
@[simp] theorem DieSt.put_now (d : DieSt) (x : Fld) (v : Nat) : (d.put x v).now = d.now := by cases d; rfl
@[simp] theorem DieSt.put_mt (d : DieSt) (x : Fld) (v : Nat) : (d.put x v).mt = d.mt := by cases d; rfl
@[simp] theorem DieSt.put_raised (d : DieSt) (x : Fld) (v : Nat) : (d.put x v).raised = d.raised := by cases d; rfl
@[simp] theorem DieSt.put_coll (d : DieSt) (x : Fld) (v : Nat) : (d.put x v).coll = d.coll := by cases d; rfl
@[simp] theorem DieSt.put_evLast (d : DieSt) (x : Fld) (v : Nat) : (d.put x v).evLast = d.evLast := by cases d; rfl
@[simp] theorem DieSt.put_noRb (d : DieSt) (x : Fld) (v : Nat) : (d.put x v).noRb = d.noRb := by cases d; rfl
@[simp] theorem DieSt.put_fab (d : DieSt) (x : Fld) (v : Nat) : (d.put x v).fab = d.fab := by cases d; rfl
@[simp] theorem DieSt.put_pace (d : DieSt) (x : Fld) (v : Nat) : (d.put x v).pace = d.pace := by cases d; rfl
@[simp] theorem DieSt.put_se (d : DieSt) (x : Fld) (v : Nat) : (d.put x v).se = d.se := by cases d; rfl
@[simp] theorem DieSt.put_q (d : DieSt) (x : Fld) (v : Nat) : (d.put x v).q = d.q := by cases d; rfl
@[simp] theorem DieSt.put_crc (d : DieSt) (x : Fld) (v : Nat) : (d.put x v).crc = d.crc := by cases d; rfl
@[simp] theorem DieSt.put_claims (d : DieSt) (x : Fld) (v : Nat) : (d.put x v).claims = d.claims := by cases d; rfl
@[simp] theorem DieSt.put_ros (d : DieSt) (x : Fld) (v : Nat) : (d.put x v).ros = d.ros := by cases d; rfl
@[simp] theorem DieSt.put_userX (d : DieSt) (x : Fld) (v : Nat) : (d.put x v).userX = d.userX := by cases d; rfl
@[simp] theorem DieSt.put_bankRst (d : DieSt) (x : Fld) (v : Nat) : (d.put x v).bankRst = d.bankRst := by cases d; rfl
@[simp] theorem DieSt.put_xing (d : DieSt) (x : Fld) (v : Nat) : (d.put x v).xing = d.xing := by cases d; rfl
@[simp] theorem DieSt.put_tapAt (d : DieSt) (x : Fld) (v : Nat) : (d.put x v).tapAt = d.tapAt := by cases d; rfl
@[simp] theorem DieSt.put_portAt (d : DieSt) (x : Fld) (v : Nat) : (d.put x v).portAt = d.portAt := by cases d; rfl
@[simp] theorem DieSt.put_chanAt (d : DieSt) (x : Fld) (v : Nat) : (d.put x v).chanAt = d.chanAt := by cases d; rfl
@[simp] theorem DieSt.put_slkAdm (d : DieSt) (x : Fld) (v : Nat) : (d.put x v).slkAdm = d.slkAdm := by cases d; rfl
@[simp] theorem DieSt.put_dmc (d : DieSt) (x : Fld) (v : Nat) : (d.put x v).dmc = d.dmc := by cases d; rfl
@[simp] theorem DieSt.put_slkHeld (d : DieSt) (x : Fld) (v : Nat) : (d.put x v).slkHeld = d.slkHeld := by cases d; rfl
@[simp] theorem DieSt.put_port (d : DieSt) (x : Fld) (v : Nat) : (d.put x v).port = d.port := by cases d; rfl
@[simp] theorem DieSt.put_cfgSeq (d : DieSt) (x : Fld) (v : Nat) : (d.put x v).cfgSeq = d.cfgSeq := by cases d; rfl
@[simp] theorem DieSt.put_mgmtIn (d : DieSt) (x : Fld) (v : Nat) : (d.put x v).mgmtIn = d.mgmtIn := by cases d; rfl
@[simp] theorem DieSt.put_chanSent (d : DieSt) (x : Fld) (v : Nat) : (d.put x v).chanSent = d.chanSent := by cases d; rfl
@[simp] theorem DieSt.put_chanZero (d : DieSt) (x : Fld) (v : Nat) : (d.put x v).chanZero = d.chanZero := by cases d; rfl
@[simp] theorem DieSt.put_txts (d : DieSt) (x : Fld) (v : Nat) : (d.put x v).txts = d.txts := by cases d; rfl
@[simp] theorem DieSt.put_ethCfg (d : DieSt) (x : Fld) (v : Nat) : (d.put x v).ethCfg = d.ethCfg := by cases d; rfl
@[simp] theorem DieSt.put_ethOut (d : DieSt) (x : Fld) (v : Nat) : (d.put x v).ethOut = d.ethOut := by cases d; rfl
@[simp] theorem DieSt.put_mtm (d : DieSt) (x : Fld) (v : Nat) : (d.put x v).mtm = d.mtm := by cases d; rfl
@[simp] theorem DieSt.put_hdrOk (d : DieSt) (x : Fld) (v : Nat) : (d.put x v).hdrOk = d.hdrOk := by cases d; rfl
@[simp] theorem DieSt.put_linkIn (d : DieSt) (x : Fld) (v : Nat) : (d.put x v).linkIn = d.linkIn := by cases d; rfl
@[simp] theorem DieSt.put_pin (d : DieSt) (x : Fld) (v : Nat) : (d.put x v).pin = d.pin := by cases d; rfl
@[simp] theorem DieSt.put_pinLevel (d : DieSt) (x : Fld) (v : Nat) : (d.put x v).pinLevel = d.pinLevel := by cases d; rfl
@[simp] theorem DieSt.put_plan (d : DieSt) (x : Fld) (v : Nat) : (d.put x v).plan = d.plan := by cases d; rfl
@[simp] theorem DieSt.put_pmPrev (d : DieSt) (x : Fld) (v : Nat) : (d.put x v).pmPrev = d.pmPrev := by cases d; rfl
@[simp] theorem DieSt.put_pmHits (d : DieSt) (x : Fld) (v : Nat) : (d.put x v).pmHits = d.pmHits := by cases d; rfl
@[simp] theorem DieSt.put_deb (d : DieSt) (x : Fld) (v : Nat) : (d.put x v).deb = d.deb := by cases d; rfl
@[simp] theorem DieSt.put_pllLost (d : DieSt) (x : Fld) (v : Nat) : (d.put x v).pllLost = d.pllLost := by cases d; rfl
@[simp] theorem DieSt.put_load (d : DieSt) (x : Fld) (v : Nat) : (d.put x v).load = d.load := by cases d; rfl
@[simp] theorem DieSt.put_nvm (d : DieSt) (x : Fld) (v : Nat) : (d.put x v).nvm = d.nvm := by cases d; rfl
@[simp] theorem DieSt.put_rel (d : DieSt) (x : Fld) (v : Nat) : (d.put x v).rel = d.rel := by cases d; rfl
@[simp] theorem DieSt.put_pwr (d : DieSt) (x : Fld) (v : Nat) : (d.put x v).pwr = d.pwr := by cases d; rfl
@[simp] theorem DieSt.put_fuse (d : DieSt) (x : Fld) (v : Nat) : (d.put x v).fuse = d.fuse := by cases d; rfl
@[simp] theorem DieSt.put_ref (d : DieSt) (x : Fld) (v : Nat) : (d.put x v).ref = d.ref := by cases d; rfl
@[simp] theorem DieSt.put_met (d : DieSt) (x : Fld) (v : Nat) : (d.put x v).met = d.met := by cases d; rfl
@[simp] theorem DieSt.put_ump (d : DieSt) (x : Fld) (v : Nat) : (d.put x v).ump = d.ump := by cases d; rfl
@[simp] theorem DieSt.put_jtag (d : DieSt) (x : Fld) (v : Nat) : (d.put x v).jtag = d.jtag := by cases d; rfl

/-! ### bump -/

@[simp] theorem DieSt.bump_idn (d : DieSt) (x : Fld) : (d.bump x).idn = d.idn := by cases d; rfl
@[simp] theorem DieSt.bump_resp (d : DieSt) (x : Fld) : (d.bump x).resp = d.resp := by cases d; rfl
@[simp] theorem DieSt.bump_rdLatch (d : DieSt) (x : Fld) : (d.bump x).rdLatch = d.rdLatch := by cases d; rfl
@[simp] theorem DieSt.bump_wrLatch (d : DieSt) (x : Fld) : (d.bump x).wrLatch = d.wrLatch := by cases d; rfl
@[simp] theorem DieSt.bump_free (d : DieSt) (x : Fld) : (d.bump x).free = d.free := by cases d; rfl
@[simp] theorem DieSt.bump_now (d : DieSt) (x : Fld) : (d.bump x).now = d.now := by cases d; rfl
@[simp] theorem DieSt.bump_mt (d : DieSt) (x : Fld) : (d.bump x).mt = d.mt := by cases d; rfl
@[simp] theorem DieSt.bump_raised (d : DieSt) (x : Fld) : (d.bump x).raised = d.raised := by cases d; rfl
@[simp] theorem DieSt.bump_coll (d : DieSt) (x : Fld) : (d.bump x).coll = d.coll := by cases d; rfl
@[simp] theorem DieSt.bump_evLast (d : DieSt) (x : Fld) : (d.bump x).evLast = d.evLast := by cases d; rfl
@[simp] theorem DieSt.bump_noRb (d : DieSt) (x : Fld) : (d.bump x).noRb = d.noRb := by cases d; rfl
@[simp] theorem DieSt.bump_fab (d : DieSt) (x : Fld) : (d.bump x).fab = d.fab := by cases d; rfl
@[simp] theorem DieSt.bump_pace (d : DieSt) (x : Fld) : (d.bump x).pace = d.pace := by cases d; rfl
@[simp] theorem DieSt.bump_se (d : DieSt) (x : Fld) : (d.bump x).se = d.se := by cases d; rfl
@[simp] theorem DieSt.bump_q (d : DieSt) (x : Fld) : (d.bump x).q = d.q := by cases d; rfl
@[simp] theorem DieSt.bump_crc (d : DieSt) (x : Fld) : (d.bump x).crc = d.crc := by cases d; rfl
@[simp] theorem DieSt.bump_claims (d : DieSt) (x : Fld) : (d.bump x).claims = d.claims := by cases d; rfl
@[simp] theorem DieSt.bump_ros (d : DieSt) (x : Fld) : (d.bump x).ros = d.ros := by cases d; rfl
@[simp] theorem DieSt.bump_userX (d : DieSt) (x : Fld) : (d.bump x).userX = d.userX := by cases d; rfl
@[simp] theorem DieSt.bump_bankRst (d : DieSt) (x : Fld) : (d.bump x).bankRst = d.bankRst := by cases d; rfl
@[simp] theorem DieSt.bump_xing (d : DieSt) (x : Fld) : (d.bump x).xing = d.xing := by cases d; rfl
@[simp] theorem DieSt.bump_tapAt (d : DieSt) (x : Fld) : (d.bump x).tapAt = d.tapAt := by cases d; rfl
@[simp] theorem DieSt.bump_portAt (d : DieSt) (x : Fld) : (d.bump x).portAt = d.portAt := by cases d; rfl
@[simp] theorem DieSt.bump_chanAt (d : DieSt) (x : Fld) : (d.bump x).chanAt = d.chanAt := by cases d; rfl
@[simp] theorem DieSt.bump_slkAdm (d : DieSt) (x : Fld) : (d.bump x).slkAdm = d.slkAdm := by cases d; rfl
@[simp] theorem DieSt.bump_dmc (d : DieSt) (x : Fld) : (d.bump x).dmc = d.dmc := by cases d; rfl
@[simp] theorem DieSt.bump_slkHeld (d : DieSt) (x : Fld) : (d.bump x).slkHeld = d.slkHeld := by cases d; rfl
@[simp] theorem DieSt.bump_port (d : DieSt) (x : Fld) : (d.bump x).port = d.port := by cases d; rfl
@[simp] theorem DieSt.bump_cfgSeq (d : DieSt) (x : Fld) : (d.bump x).cfgSeq = d.cfgSeq := by cases d; rfl
@[simp] theorem DieSt.bump_mgmtIn (d : DieSt) (x : Fld) : (d.bump x).mgmtIn = d.mgmtIn := by cases d; rfl
@[simp] theorem DieSt.bump_chanSent (d : DieSt) (x : Fld) : (d.bump x).chanSent = d.chanSent := by cases d; rfl
@[simp] theorem DieSt.bump_chanZero (d : DieSt) (x : Fld) : (d.bump x).chanZero = d.chanZero := by cases d; rfl
@[simp] theorem DieSt.bump_txts (d : DieSt) (x : Fld) : (d.bump x).txts = d.txts := by cases d; rfl
@[simp] theorem DieSt.bump_ethCfg (d : DieSt) (x : Fld) : (d.bump x).ethCfg = d.ethCfg := by cases d; rfl
@[simp] theorem DieSt.bump_ethOut (d : DieSt) (x : Fld) : (d.bump x).ethOut = d.ethOut := by cases d; rfl
@[simp] theorem DieSt.bump_mtm (d : DieSt) (x : Fld) : (d.bump x).mtm = d.mtm := by cases d; rfl
@[simp] theorem DieSt.bump_hdrOk (d : DieSt) (x : Fld) : (d.bump x).hdrOk = d.hdrOk := by cases d; rfl
@[simp] theorem DieSt.bump_linkIn (d : DieSt) (x : Fld) : (d.bump x).linkIn = d.linkIn := by cases d; rfl
@[simp] theorem DieSt.bump_pin (d : DieSt) (x : Fld) : (d.bump x).pin = d.pin := by cases d; rfl
@[simp] theorem DieSt.bump_pinLevel (d : DieSt) (x : Fld) : (d.bump x).pinLevel = d.pinLevel := by cases d; rfl
@[simp] theorem DieSt.bump_plan (d : DieSt) (x : Fld) : (d.bump x).plan = d.plan := by cases d; rfl
@[simp] theorem DieSt.bump_pmPrev (d : DieSt) (x : Fld) : (d.bump x).pmPrev = d.pmPrev := by cases d; rfl
@[simp] theorem DieSt.bump_pmHits (d : DieSt) (x : Fld) : (d.bump x).pmHits = d.pmHits := by cases d; rfl
@[simp] theorem DieSt.bump_deb (d : DieSt) (x : Fld) : (d.bump x).deb = d.deb := by cases d; rfl
@[simp] theorem DieSt.bump_pllLost (d : DieSt) (x : Fld) : (d.bump x).pllLost = d.pllLost := by cases d; rfl
@[simp] theorem DieSt.bump_load (d : DieSt) (x : Fld) : (d.bump x).load = d.load := by cases d; rfl
@[simp] theorem DieSt.bump_nvm (d : DieSt) (x : Fld) : (d.bump x).nvm = d.nvm := by cases d; rfl
@[simp] theorem DieSt.bump_rel (d : DieSt) (x : Fld) : (d.bump x).rel = d.rel := by cases d; rfl
@[simp] theorem DieSt.bump_pwr (d : DieSt) (x : Fld) : (d.bump x).pwr = d.pwr := by cases d; rfl
@[simp] theorem DieSt.bump_fuse (d : DieSt) (x : Fld) : (d.bump x).fuse = d.fuse := by cases d; rfl
@[simp] theorem DieSt.bump_ref (d : DieSt) (x : Fld) : (d.bump x).ref = d.ref := by cases d; rfl
@[simp] theorem DieSt.bump_met (d : DieSt) (x : Fld) : (d.bump x).met = d.met := by cases d; rfl
@[simp] theorem DieSt.bump_ump (d : DieSt) (x : Fld) : (d.bump x).ump = d.ump := by cases d; rfl
@[simp] theorem DieSt.bump_jtag (d : DieSt) (x : Fld) : (d.bump x).jtag = d.jtag := by cases d; rfl

/-! ### bumpBy -/

@[simp] theorem DieSt.bumpBy_idn (d : DieSt) (x : Fld) (n : Nat) : (d.bumpBy x n).idn = d.idn := by cases d; rfl
@[simp] theorem DieSt.bumpBy_resp (d : DieSt) (x : Fld) (n : Nat) : (d.bumpBy x n).resp = d.resp := by cases d; rfl
@[simp] theorem DieSt.bumpBy_rdLatch (d : DieSt) (x : Fld) (n : Nat) : (d.bumpBy x n).rdLatch = d.rdLatch := by cases d; rfl
@[simp] theorem DieSt.bumpBy_wrLatch (d : DieSt) (x : Fld) (n : Nat) : (d.bumpBy x n).wrLatch = d.wrLatch := by cases d; rfl
@[simp] theorem DieSt.bumpBy_free (d : DieSt) (x : Fld) (n : Nat) : (d.bumpBy x n).free = d.free := by cases d; rfl
@[simp] theorem DieSt.bumpBy_now (d : DieSt) (x : Fld) (n : Nat) : (d.bumpBy x n).now = d.now := by cases d; rfl
@[simp] theorem DieSt.bumpBy_mt (d : DieSt) (x : Fld) (n : Nat) : (d.bumpBy x n).mt = d.mt := by cases d; rfl
@[simp] theorem DieSt.bumpBy_raised (d : DieSt) (x : Fld) (n : Nat) : (d.bumpBy x n).raised = d.raised := by cases d; rfl
@[simp] theorem DieSt.bumpBy_coll (d : DieSt) (x : Fld) (n : Nat) : (d.bumpBy x n).coll = d.coll := by cases d; rfl
@[simp] theorem DieSt.bumpBy_evLast (d : DieSt) (x : Fld) (n : Nat) : (d.bumpBy x n).evLast = d.evLast := by cases d; rfl
@[simp] theorem DieSt.bumpBy_noRb (d : DieSt) (x : Fld) (n : Nat) : (d.bumpBy x n).noRb = d.noRb := by cases d; rfl
@[simp] theorem DieSt.bumpBy_fab (d : DieSt) (x : Fld) (n : Nat) : (d.bumpBy x n).fab = d.fab := by cases d; rfl
@[simp] theorem DieSt.bumpBy_pace (d : DieSt) (x : Fld) (n : Nat) : (d.bumpBy x n).pace = d.pace := by cases d; rfl
@[simp] theorem DieSt.bumpBy_se (d : DieSt) (x : Fld) (n : Nat) : (d.bumpBy x n).se = d.se := by cases d; rfl
@[simp] theorem DieSt.bumpBy_q (d : DieSt) (x : Fld) (n : Nat) : (d.bumpBy x n).q = d.q := by cases d; rfl
@[simp] theorem DieSt.bumpBy_crc (d : DieSt) (x : Fld) (n : Nat) : (d.bumpBy x n).crc = d.crc := by cases d; rfl
@[simp] theorem DieSt.bumpBy_claims (d : DieSt) (x : Fld) (n : Nat) : (d.bumpBy x n).claims = d.claims := by cases d; rfl
@[simp] theorem DieSt.bumpBy_ros (d : DieSt) (x : Fld) (n : Nat) : (d.bumpBy x n).ros = d.ros := by cases d; rfl
@[simp] theorem DieSt.bumpBy_userX (d : DieSt) (x : Fld) (n : Nat) : (d.bumpBy x n).userX = d.userX := by cases d; rfl
@[simp] theorem DieSt.bumpBy_bankRst (d : DieSt) (x : Fld) (n : Nat) : (d.bumpBy x n).bankRst = d.bankRst := by cases d; rfl
@[simp] theorem DieSt.bumpBy_xing (d : DieSt) (x : Fld) (n : Nat) : (d.bumpBy x n).xing = d.xing := by cases d; rfl
@[simp] theorem DieSt.bumpBy_tapAt (d : DieSt) (x : Fld) (n : Nat) : (d.bumpBy x n).tapAt = d.tapAt := by cases d; rfl
@[simp] theorem DieSt.bumpBy_portAt (d : DieSt) (x : Fld) (n : Nat) : (d.bumpBy x n).portAt = d.portAt := by cases d; rfl
@[simp] theorem DieSt.bumpBy_chanAt (d : DieSt) (x : Fld) (n : Nat) : (d.bumpBy x n).chanAt = d.chanAt := by cases d; rfl
@[simp] theorem DieSt.bumpBy_slkAdm (d : DieSt) (x : Fld) (n : Nat) : (d.bumpBy x n).slkAdm = d.slkAdm := by cases d; rfl
@[simp] theorem DieSt.bumpBy_dmc (d : DieSt) (x : Fld) (n : Nat) : (d.bumpBy x n).dmc = d.dmc := by cases d; rfl
@[simp] theorem DieSt.bumpBy_slkHeld (d : DieSt) (x : Fld) (n : Nat) : (d.bumpBy x n).slkHeld = d.slkHeld := by cases d; rfl
@[simp] theorem DieSt.bumpBy_port (d : DieSt) (x : Fld) (n : Nat) : (d.bumpBy x n).port = d.port := by cases d; rfl
@[simp] theorem DieSt.bumpBy_cfgSeq (d : DieSt) (x : Fld) (n : Nat) : (d.bumpBy x n).cfgSeq = d.cfgSeq := by cases d; rfl
@[simp] theorem DieSt.bumpBy_mgmtIn (d : DieSt) (x : Fld) (n : Nat) : (d.bumpBy x n).mgmtIn = d.mgmtIn := by cases d; rfl
@[simp] theorem DieSt.bumpBy_chanSent (d : DieSt) (x : Fld) (n : Nat) : (d.bumpBy x n).chanSent = d.chanSent := by cases d; rfl
@[simp] theorem DieSt.bumpBy_chanZero (d : DieSt) (x : Fld) (n : Nat) : (d.bumpBy x n).chanZero = d.chanZero := by cases d; rfl
@[simp] theorem DieSt.bumpBy_txts (d : DieSt) (x : Fld) (n : Nat) : (d.bumpBy x n).txts = d.txts := by cases d; rfl
@[simp] theorem DieSt.bumpBy_ethCfg (d : DieSt) (x : Fld) (n : Nat) : (d.bumpBy x n).ethCfg = d.ethCfg := by cases d; rfl
@[simp] theorem DieSt.bumpBy_ethOut (d : DieSt) (x : Fld) (n : Nat) : (d.bumpBy x n).ethOut = d.ethOut := by cases d; rfl
@[simp] theorem DieSt.bumpBy_mtm (d : DieSt) (x : Fld) (n : Nat) : (d.bumpBy x n).mtm = d.mtm := by cases d; rfl
@[simp] theorem DieSt.bumpBy_hdrOk (d : DieSt) (x : Fld) (n : Nat) : (d.bumpBy x n).hdrOk = d.hdrOk := by cases d; rfl
@[simp] theorem DieSt.bumpBy_linkIn (d : DieSt) (x : Fld) (n : Nat) : (d.bumpBy x n).linkIn = d.linkIn := by cases d; rfl
@[simp] theorem DieSt.bumpBy_pin (d : DieSt) (x : Fld) (n : Nat) : (d.bumpBy x n).pin = d.pin := by cases d; rfl
@[simp] theorem DieSt.bumpBy_pinLevel (d : DieSt) (x : Fld) (n : Nat) : (d.bumpBy x n).pinLevel = d.pinLevel := by cases d; rfl
@[simp] theorem DieSt.bumpBy_plan (d : DieSt) (x : Fld) (n : Nat) : (d.bumpBy x n).plan = d.plan := by cases d; rfl
@[simp] theorem DieSt.bumpBy_pmPrev (d : DieSt) (x : Fld) (n : Nat) : (d.bumpBy x n).pmPrev = d.pmPrev := by cases d; rfl
@[simp] theorem DieSt.bumpBy_pmHits (d : DieSt) (x : Fld) (n : Nat) : (d.bumpBy x n).pmHits = d.pmHits := by cases d; rfl
@[simp] theorem DieSt.bumpBy_deb (d : DieSt) (x : Fld) (n : Nat) : (d.bumpBy x n).deb = d.deb := by cases d; rfl
@[simp] theorem DieSt.bumpBy_pllLost (d : DieSt) (x : Fld) (n : Nat) : (d.bumpBy x n).pllLost = d.pllLost := by cases d; rfl
@[simp] theorem DieSt.bumpBy_load (d : DieSt) (x : Fld) (n : Nat) : (d.bumpBy x n).load = d.load := by cases d; rfl
@[simp] theorem DieSt.bumpBy_nvm (d : DieSt) (x : Fld) (n : Nat) : (d.bumpBy x n).nvm = d.nvm := by cases d; rfl
@[simp] theorem DieSt.bumpBy_rel (d : DieSt) (x : Fld) (n : Nat) : (d.bumpBy x n).rel = d.rel := by cases d; rfl
@[simp] theorem DieSt.bumpBy_pwr (d : DieSt) (x : Fld) (n : Nat) : (d.bumpBy x n).pwr = d.pwr := by cases d; rfl
@[simp] theorem DieSt.bumpBy_fuse (d : DieSt) (x : Fld) (n : Nat) : (d.bumpBy x n).fuse = d.fuse := by cases d; rfl
@[simp] theorem DieSt.bumpBy_ref (d : DieSt) (x : Fld) (n : Nat) : (d.bumpBy x n).ref = d.ref := by cases d; rfl
@[simp] theorem DieSt.bumpBy_met (d : DieSt) (x : Fld) (n : Nat) : (d.bumpBy x n).met = d.met := by cases d; rfl
@[simp] theorem DieSt.bumpBy_ump (d : DieSt) (x : Fld) (n : Nat) : (d.bumpBy x n).ump = d.ump := by cases d; rfl
@[simp] theorem DieSt.bumpBy_jtag (d : DieSt) (x : Fld) (n : Nat) : (d.bumpBy x n).jtag = d.jtag := by cases d; rfl

/-! ### wrapBy -/

@[simp] theorem DieSt.wrapBy_idn (d : DieSt) (x : Fld) (n : Nat) : (d.wrapBy x n).idn = d.idn := by cases d; rfl
@[simp] theorem DieSt.wrapBy_resp (d : DieSt) (x : Fld) (n : Nat) : (d.wrapBy x n).resp = d.resp := by cases d; rfl
@[simp] theorem DieSt.wrapBy_rdLatch (d : DieSt) (x : Fld) (n : Nat) : (d.wrapBy x n).rdLatch = d.rdLatch := by cases d; rfl
@[simp] theorem DieSt.wrapBy_wrLatch (d : DieSt) (x : Fld) (n : Nat) : (d.wrapBy x n).wrLatch = d.wrLatch := by cases d; rfl
@[simp] theorem DieSt.wrapBy_free (d : DieSt) (x : Fld) (n : Nat) : (d.wrapBy x n).free = d.free := by cases d; rfl
@[simp] theorem DieSt.wrapBy_now (d : DieSt) (x : Fld) (n : Nat) : (d.wrapBy x n).now = d.now := by cases d; rfl
@[simp] theorem DieSt.wrapBy_mt (d : DieSt) (x : Fld) (n : Nat) : (d.wrapBy x n).mt = d.mt := by cases d; rfl
@[simp] theorem DieSt.wrapBy_raised (d : DieSt) (x : Fld) (n : Nat) : (d.wrapBy x n).raised = d.raised := by cases d; rfl
@[simp] theorem DieSt.wrapBy_coll (d : DieSt) (x : Fld) (n : Nat) : (d.wrapBy x n).coll = d.coll := by cases d; rfl
@[simp] theorem DieSt.wrapBy_evLast (d : DieSt) (x : Fld) (n : Nat) : (d.wrapBy x n).evLast = d.evLast := by cases d; rfl
@[simp] theorem DieSt.wrapBy_noRb (d : DieSt) (x : Fld) (n : Nat) : (d.wrapBy x n).noRb = d.noRb := by cases d; rfl
@[simp] theorem DieSt.wrapBy_fab (d : DieSt) (x : Fld) (n : Nat) : (d.wrapBy x n).fab = d.fab := by cases d; rfl
@[simp] theorem DieSt.wrapBy_pace (d : DieSt) (x : Fld) (n : Nat) : (d.wrapBy x n).pace = d.pace := by cases d; rfl
@[simp] theorem DieSt.wrapBy_se (d : DieSt) (x : Fld) (n : Nat) : (d.wrapBy x n).se = d.se := by cases d; rfl
@[simp] theorem DieSt.wrapBy_q (d : DieSt) (x : Fld) (n : Nat) : (d.wrapBy x n).q = d.q := by cases d; rfl
@[simp] theorem DieSt.wrapBy_crc (d : DieSt) (x : Fld) (n : Nat) : (d.wrapBy x n).crc = d.crc := by cases d; rfl
@[simp] theorem DieSt.wrapBy_claims (d : DieSt) (x : Fld) (n : Nat) : (d.wrapBy x n).claims = d.claims := by cases d; rfl
@[simp] theorem DieSt.wrapBy_ros (d : DieSt) (x : Fld) (n : Nat) : (d.wrapBy x n).ros = d.ros := by cases d; rfl
@[simp] theorem DieSt.wrapBy_userX (d : DieSt) (x : Fld) (n : Nat) : (d.wrapBy x n).userX = d.userX := by cases d; rfl
@[simp] theorem DieSt.wrapBy_bankRst (d : DieSt) (x : Fld) (n : Nat) : (d.wrapBy x n).bankRst = d.bankRst := by cases d; rfl
@[simp] theorem DieSt.wrapBy_xing (d : DieSt) (x : Fld) (n : Nat) : (d.wrapBy x n).xing = d.xing := by cases d; rfl
@[simp] theorem DieSt.wrapBy_tapAt (d : DieSt) (x : Fld) (n : Nat) : (d.wrapBy x n).tapAt = d.tapAt := by cases d; rfl
@[simp] theorem DieSt.wrapBy_portAt (d : DieSt) (x : Fld) (n : Nat) : (d.wrapBy x n).portAt = d.portAt := by cases d; rfl
@[simp] theorem DieSt.wrapBy_chanAt (d : DieSt) (x : Fld) (n : Nat) : (d.wrapBy x n).chanAt = d.chanAt := by cases d; rfl
@[simp] theorem DieSt.wrapBy_slkAdm (d : DieSt) (x : Fld) (n : Nat) : (d.wrapBy x n).slkAdm = d.slkAdm := by cases d; rfl
@[simp] theorem DieSt.wrapBy_dmc (d : DieSt) (x : Fld) (n : Nat) : (d.wrapBy x n).dmc = d.dmc := by cases d; rfl
@[simp] theorem DieSt.wrapBy_slkHeld (d : DieSt) (x : Fld) (n : Nat) : (d.wrapBy x n).slkHeld = d.slkHeld := by cases d; rfl
@[simp] theorem DieSt.wrapBy_port (d : DieSt) (x : Fld) (n : Nat) : (d.wrapBy x n).port = d.port := by cases d; rfl
@[simp] theorem DieSt.wrapBy_cfgSeq (d : DieSt) (x : Fld) (n : Nat) : (d.wrapBy x n).cfgSeq = d.cfgSeq := by cases d; rfl
@[simp] theorem DieSt.wrapBy_mgmtIn (d : DieSt) (x : Fld) (n : Nat) : (d.wrapBy x n).mgmtIn = d.mgmtIn := by cases d; rfl
@[simp] theorem DieSt.wrapBy_chanSent (d : DieSt) (x : Fld) (n : Nat) : (d.wrapBy x n).chanSent = d.chanSent := by cases d; rfl
@[simp] theorem DieSt.wrapBy_chanZero (d : DieSt) (x : Fld) (n : Nat) : (d.wrapBy x n).chanZero = d.chanZero := by cases d; rfl
@[simp] theorem DieSt.wrapBy_txts (d : DieSt) (x : Fld) (n : Nat) : (d.wrapBy x n).txts = d.txts := by cases d; rfl
@[simp] theorem DieSt.wrapBy_ethCfg (d : DieSt) (x : Fld) (n : Nat) : (d.wrapBy x n).ethCfg = d.ethCfg := by cases d; rfl
@[simp] theorem DieSt.wrapBy_ethOut (d : DieSt) (x : Fld) (n : Nat) : (d.wrapBy x n).ethOut = d.ethOut := by cases d; rfl
@[simp] theorem DieSt.wrapBy_mtm (d : DieSt) (x : Fld) (n : Nat) : (d.wrapBy x n).mtm = d.mtm := by cases d; rfl
@[simp] theorem DieSt.wrapBy_hdrOk (d : DieSt) (x : Fld) (n : Nat) : (d.wrapBy x n).hdrOk = d.hdrOk := by cases d; rfl
@[simp] theorem DieSt.wrapBy_linkIn (d : DieSt) (x : Fld) (n : Nat) : (d.wrapBy x n).linkIn = d.linkIn := by cases d; rfl
@[simp] theorem DieSt.wrapBy_pin (d : DieSt) (x : Fld) (n : Nat) : (d.wrapBy x n).pin = d.pin := by cases d; rfl
@[simp] theorem DieSt.wrapBy_pinLevel (d : DieSt) (x : Fld) (n : Nat) : (d.wrapBy x n).pinLevel = d.pinLevel := by cases d; rfl
@[simp] theorem DieSt.wrapBy_plan (d : DieSt) (x : Fld) (n : Nat) : (d.wrapBy x n).plan = d.plan := by cases d; rfl
@[simp] theorem DieSt.wrapBy_pmPrev (d : DieSt) (x : Fld) (n : Nat) : (d.wrapBy x n).pmPrev = d.pmPrev := by cases d; rfl
@[simp] theorem DieSt.wrapBy_pmHits (d : DieSt) (x : Fld) (n : Nat) : (d.wrapBy x n).pmHits = d.pmHits := by cases d; rfl
@[simp] theorem DieSt.wrapBy_deb (d : DieSt) (x : Fld) (n : Nat) : (d.wrapBy x n).deb = d.deb := by cases d; rfl
@[simp] theorem DieSt.wrapBy_pllLost (d : DieSt) (x : Fld) (n : Nat) : (d.wrapBy x n).pllLost = d.pllLost := by cases d; rfl
@[simp] theorem DieSt.wrapBy_load (d : DieSt) (x : Fld) (n : Nat) : (d.wrapBy x n).load = d.load := by cases d; rfl
@[simp] theorem DieSt.wrapBy_nvm (d : DieSt) (x : Fld) (n : Nat) : (d.wrapBy x n).nvm = d.nvm := by cases d; rfl
@[simp] theorem DieSt.wrapBy_rel (d : DieSt) (x : Fld) (n : Nat) : (d.wrapBy x n).rel = d.rel := by cases d; rfl
@[simp] theorem DieSt.wrapBy_pwr (d : DieSt) (x : Fld) (n : Nat) : (d.wrapBy x n).pwr = d.pwr := by cases d; rfl
@[simp] theorem DieSt.wrapBy_fuse (d : DieSt) (x : Fld) (n : Nat) : (d.wrapBy x n).fuse = d.fuse := by cases d; rfl
@[simp] theorem DieSt.wrapBy_ref (d : DieSt) (x : Fld) (n : Nat) : (d.wrapBy x n).ref = d.ref := by cases d; rfl
@[simp] theorem DieSt.wrapBy_met (d : DieSt) (x : Fld) (n : Nat) : (d.wrapBy x n).met = d.met := by cases d; rfl
@[simp] theorem DieSt.wrapBy_ump (d : DieSt) (x : Fld) (n : Nat) : (d.wrapBy x n).ump = d.ump := by cases d; rfl
@[simp] theorem DieSt.wrapBy_jtag (d : DieSt) (x : Fld) (n : Nat) : (d.wrapBy x n).jtag = d.jtag := by cases d; rfl

/-! ### wr64 -/

@[simp] theorem DieSt.wr64_idn (d : DieSt) (l h v : Nat) : (d.wr64 l h v).idn = d.idn := by cases d; rfl
@[simp] theorem DieSt.wr64_resp (d : DieSt) (l h v : Nat) : (d.wr64 l h v).resp = d.resp := by cases d; rfl
@[simp] theorem DieSt.wr64_rdLatch (d : DieSt) (l h v : Nat) : (d.wr64 l h v).rdLatch = d.rdLatch := by cases d; rfl
@[simp] theorem DieSt.wr64_wrLatch (d : DieSt) (l h v : Nat) : (d.wr64 l h v).wrLatch = d.wrLatch := by cases d; rfl
@[simp] theorem DieSt.wr64_free (d : DieSt) (l h v : Nat) : (d.wr64 l h v).free = d.free := by cases d; rfl
@[simp] theorem DieSt.wr64_now (d : DieSt) (l h v : Nat) : (d.wr64 l h v).now = d.now := by cases d; rfl
@[simp] theorem DieSt.wr64_mt (d : DieSt) (l h v : Nat) : (d.wr64 l h v).mt = d.mt := by cases d; rfl
@[simp] theorem DieSt.wr64_raised (d : DieSt) (l h v : Nat) : (d.wr64 l h v).raised = d.raised := by cases d; rfl
@[simp] theorem DieSt.wr64_coll (d : DieSt) (l h v : Nat) : (d.wr64 l h v).coll = d.coll := by cases d; rfl
@[simp] theorem DieSt.wr64_evLast (d : DieSt) (l h v : Nat) : (d.wr64 l h v).evLast = d.evLast := by cases d; rfl
@[simp] theorem DieSt.wr64_noRb (d : DieSt) (l h v : Nat) : (d.wr64 l h v).noRb = d.noRb := by cases d; rfl
@[simp] theorem DieSt.wr64_fab (d : DieSt) (l h v : Nat) : (d.wr64 l h v).fab = d.fab := by cases d; rfl
@[simp] theorem DieSt.wr64_pace (d : DieSt) (l h v : Nat) : (d.wr64 l h v).pace = d.pace := by cases d; rfl
@[simp] theorem DieSt.wr64_se (d : DieSt) (l h v : Nat) : (d.wr64 l h v).se = d.se := by cases d; rfl
@[simp] theorem DieSt.wr64_q (d : DieSt) (l h v : Nat) : (d.wr64 l h v).q = d.q := by cases d; rfl
@[simp] theorem DieSt.wr64_crc (d : DieSt) (l h v : Nat) : (d.wr64 l h v).crc = d.crc := by cases d; rfl
@[simp] theorem DieSt.wr64_claims (d : DieSt) (l h v : Nat) : (d.wr64 l h v).claims = d.claims := by cases d; rfl
@[simp] theorem DieSt.wr64_ros (d : DieSt) (l h v : Nat) : (d.wr64 l h v).ros = d.ros := by cases d; rfl
@[simp] theorem DieSt.wr64_userX (d : DieSt) (l h v : Nat) : (d.wr64 l h v).userX = d.userX := by cases d; rfl
@[simp] theorem DieSt.wr64_bankRst (d : DieSt) (l h v : Nat) : (d.wr64 l h v).bankRst = d.bankRst := by cases d; rfl
@[simp] theorem DieSt.wr64_xing (d : DieSt) (l h v : Nat) : (d.wr64 l h v).xing = d.xing := by cases d; rfl
@[simp] theorem DieSt.wr64_tapAt (d : DieSt) (l h v : Nat) : (d.wr64 l h v).tapAt = d.tapAt := by cases d; rfl
@[simp] theorem DieSt.wr64_portAt (d : DieSt) (l h v : Nat) : (d.wr64 l h v).portAt = d.portAt := by cases d; rfl
@[simp] theorem DieSt.wr64_chanAt (d : DieSt) (l h v : Nat) : (d.wr64 l h v).chanAt = d.chanAt := by cases d; rfl
@[simp] theorem DieSt.wr64_slkAdm (d : DieSt) (l h v : Nat) : (d.wr64 l h v).slkAdm = d.slkAdm := by cases d; rfl
@[simp] theorem DieSt.wr64_dmc (d : DieSt) (l h v : Nat) : (d.wr64 l h v).dmc = d.dmc := by cases d; rfl
@[simp] theorem DieSt.wr64_slkHeld (d : DieSt) (l h v : Nat) : (d.wr64 l h v).slkHeld = d.slkHeld := by cases d; rfl
@[simp] theorem DieSt.wr64_port (d : DieSt) (l h v : Nat) : (d.wr64 l h v).port = d.port := by cases d; rfl
@[simp] theorem DieSt.wr64_cfgSeq (d : DieSt) (l h v : Nat) : (d.wr64 l h v).cfgSeq = d.cfgSeq := by cases d; rfl
@[simp] theorem DieSt.wr64_mgmtIn (d : DieSt) (l h v : Nat) : (d.wr64 l h v).mgmtIn = d.mgmtIn := by cases d; rfl
@[simp] theorem DieSt.wr64_chanSent (d : DieSt) (l h v : Nat) : (d.wr64 l h v).chanSent = d.chanSent := by cases d; rfl
@[simp] theorem DieSt.wr64_chanZero (d : DieSt) (l h v : Nat) : (d.wr64 l h v).chanZero = d.chanZero := by cases d; rfl
@[simp] theorem DieSt.wr64_txts (d : DieSt) (l h v : Nat) : (d.wr64 l h v).txts = d.txts := by cases d; rfl
@[simp] theorem DieSt.wr64_ethCfg (d : DieSt) (l h v : Nat) : (d.wr64 l h v).ethCfg = d.ethCfg := by cases d; rfl
@[simp] theorem DieSt.wr64_ethOut (d : DieSt) (l h v : Nat) : (d.wr64 l h v).ethOut = d.ethOut := by cases d; rfl
@[simp] theorem DieSt.wr64_mtm (d : DieSt) (l h v : Nat) : (d.wr64 l h v).mtm = d.mtm := by cases d; rfl
@[simp] theorem DieSt.wr64_hdrOk (d : DieSt) (l h v : Nat) : (d.wr64 l h v).hdrOk = d.hdrOk := by cases d; rfl
@[simp] theorem DieSt.wr64_linkIn (d : DieSt) (l h v : Nat) : (d.wr64 l h v).linkIn = d.linkIn := by cases d; rfl
@[simp] theorem DieSt.wr64_pin (d : DieSt) (l h v : Nat) : (d.wr64 l h v).pin = d.pin := by cases d; rfl
@[simp] theorem DieSt.wr64_pinLevel (d : DieSt) (l h v : Nat) : (d.wr64 l h v).pinLevel = d.pinLevel := by cases d; rfl
@[simp] theorem DieSt.wr64_plan (d : DieSt) (l h v : Nat) : (d.wr64 l h v).plan = d.plan := by cases d; rfl
@[simp] theorem DieSt.wr64_pmPrev (d : DieSt) (l h v : Nat) : (d.wr64 l h v).pmPrev = d.pmPrev := by cases d; rfl
@[simp] theorem DieSt.wr64_pmHits (d : DieSt) (l h v : Nat) : (d.wr64 l h v).pmHits = d.pmHits := by cases d; rfl
@[simp] theorem DieSt.wr64_deb (d : DieSt) (l h v : Nat) : (d.wr64 l h v).deb = d.deb := by cases d; rfl
@[simp] theorem DieSt.wr64_pllLost (d : DieSt) (l h v : Nat) : (d.wr64 l h v).pllLost = d.pllLost := by cases d; rfl
@[simp] theorem DieSt.wr64_load (d : DieSt) (l h v : Nat) : (d.wr64 l h v).load = d.load := by cases d; rfl
@[simp] theorem DieSt.wr64_nvm (d : DieSt) (l h v : Nat) : (d.wr64 l h v).nvm = d.nvm := by cases d; rfl
@[simp] theorem DieSt.wr64_rel (d : DieSt) (l h v : Nat) : (d.wr64 l h v).rel = d.rel := by cases d; rfl
@[simp] theorem DieSt.wr64_pwr (d : DieSt) (l h v : Nat) : (d.wr64 l h v).pwr = d.pwr := by cases d; rfl
@[simp] theorem DieSt.wr64_fuse (d : DieSt) (l h v : Nat) : (d.wr64 l h v).fuse = d.fuse := by cases d; rfl
@[simp] theorem DieSt.wr64_ref (d : DieSt) (l h v : Nat) : (d.wr64 l h v).ref = d.ref := by cases d; rfl
@[simp] theorem DieSt.wr64_met (d : DieSt) (l h v : Nat) : (d.wr64 l h v).met = d.met := by cases d; rfl
@[simp] theorem DieSt.wr64_ump (d : DieSt) (l h v : Nat) : (d.wr64 l h v).ump = d.ump := by cases d; rfl
@[simp] theorem DieSt.wr64_jtag (d : DieSt) (l h v : Nat) : (d.wr64 l h v).jtag = d.jtag := by cases d; rfl

/-! ### car -/

@[simp] theorem DieSt.car_idn (d : DieSt) (o w n : Nat) : (d.car o w n).idn = d.idn := by cases d; rfl
@[simp] theorem DieSt.car_resp (d : DieSt) (o w n : Nat) : (d.car o w n).resp = d.resp := by cases d; rfl
@[simp] theorem DieSt.car_rdLatch (d : DieSt) (o w n : Nat) : (d.car o w n).rdLatch = d.rdLatch := by cases d; rfl
@[simp] theorem DieSt.car_wrLatch (d : DieSt) (o w n : Nat) : (d.car o w n).wrLatch = d.wrLatch := by cases d; rfl
@[simp] theorem DieSt.car_free (d : DieSt) (o w n : Nat) : (d.car o w n).free = d.free := by cases d; rfl
@[simp] theorem DieSt.car_now (d : DieSt) (o w n : Nat) : (d.car o w n).now = d.now := by cases d; rfl
@[simp] theorem DieSt.car_mt (d : DieSt) (o w n : Nat) : (d.car o w n).mt = d.mt := by cases d; rfl
@[simp] theorem DieSt.car_raised (d : DieSt) (o w n : Nat) : (d.car o w n).raised = d.raised := by cases d; rfl
@[simp] theorem DieSt.car_coll (d : DieSt) (o w n : Nat) : (d.car o w n).coll = d.coll := by cases d; rfl
@[simp] theorem DieSt.car_evLast (d : DieSt) (o w n : Nat) : (d.car o w n).evLast = d.evLast := by cases d; rfl
@[simp] theorem DieSt.car_noRb (d : DieSt) (o w n : Nat) : (d.car o w n).noRb = d.noRb := by cases d; rfl
@[simp] theorem DieSt.car_fab (d : DieSt) (o w n : Nat) : (d.car o w n).fab = d.fab := by cases d; rfl
@[simp] theorem DieSt.car_pace (d : DieSt) (o w n : Nat) : (d.car o w n).pace = d.pace := by cases d; rfl
@[simp] theorem DieSt.car_se (d : DieSt) (o w n : Nat) : (d.car o w n).se = d.se := by cases d; rfl
@[simp] theorem DieSt.car_q (d : DieSt) (o w n : Nat) : (d.car o w n).q = d.q := by cases d; rfl
@[simp] theorem DieSt.car_crc (d : DieSt) (o w n : Nat) : (d.car o w n).crc = d.crc := by cases d; rfl
@[simp] theorem DieSt.car_claims (d : DieSt) (o w n : Nat) : (d.car o w n).claims = d.claims := by cases d; rfl
@[simp] theorem DieSt.car_ros (d : DieSt) (o w n : Nat) : (d.car o w n).ros = d.ros := by cases d; rfl
@[simp] theorem DieSt.car_userX (d : DieSt) (o w n : Nat) : (d.car o w n).userX = d.userX := by cases d; rfl
@[simp] theorem DieSt.car_bankRst (d : DieSt) (o w n : Nat) : (d.car o w n).bankRst = d.bankRst := by cases d; rfl
@[simp] theorem DieSt.car_xing (d : DieSt) (o w n : Nat) : (d.car o w n).xing = d.xing := by cases d; rfl
@[simp] theorem DieSt.car_tapAt (d : DieSt) (o w n : Nat) : (d.car o w n).tapAt = d.tapAt := by cases d; rfl
@[simp] theorem DieSt.car_portAt (d : DieSt) (o w n : Nat) : (d.car o w n).portAt = d.portAt := by cases d; rfl
@[simp] theorem DieSt.car_chanAt (d : DieSt) (o w n : Nat) : (d.car o w n).chanAt = d.chanAt := by cases d; rfl
@[simp] theorem DieSt.car_slkAdm (d : DieSt) (o w n : Nat) : (d.car o w n).slkAdm = d.slkAdm := by cases d; rfl
@[simp] theorem DieSt.car_dmc (d : DieSt) (o w n : Nat) : (d.car o w n).dmc = d.dmc := by cases d; rfl
@[simp] theorem DieSt.car_slkHeld (d : DieSt) (o w n : Nat) : (d.car o w n).slkHeld = d.slkHeld := by cases d; rfl
@[simp] theorem DieSt.car_port (d : DieSt) (o w n : Nat) : (d.car o w n).port = d.port := by cases d; rfl
@[simp] theorem DieSt.car_cfgSeq (d : DieSt) (o w n : Nat) : (d.car o w n).cfgSeq = d.cfgSeq := by cases d; rfl
@[simp] theorem DieSt.car_mgmtIn (d : DieSt) (o w n : Nat) : (d.car o w n).mgmtIn = d.mgmtIn := by cases d; rfl
@[simp] theorem DieSt.car_chanSent (d : DieSt) (o w n : Nat) : (d.car o w n).chanSent = d.chanSent := by cases d; rfl
@[simp] theorem DieSt.car_chanZero (d : DieSt) (o w n : Nat) : (d.car o w n).chanZero = d.chanZero := by cases d; rfl
@[simp] theorem DieSt.car_txts (d : DieSt) (o w n : Nat) : (d.car o w n).txts = d.txts := by cases d; rfl
@[simp] theorem DieSt.car_ethCfg (d : DieSt) (o w n : Nat) : (d.car o w n).ethCfg = d.ethCfg := by cases d; rfl
@[simp] theorem DieSt.car_ethOut (d : DieSt) (o w n : Nat) : (d.car o w n).ethOut = d.ethOut := by cases d; rfl
@[simp] theorem DieSt.car_mtm (d : DieSt) (o w n : Nat) : (d.car o w n).mtm = d.mtm := by cases d; rfl
@[simp] theorem DieSt.car_hdrOk (d : DieSt) (o w n : Nat) : (d.car o w n).hdrOk = d.hdrOk := by cases d; rfl
@[simp] theorem DieSt.car_linkIn (d : DieSt) (o w n : Nat) : (d.car o w n).linkIn = d.linkIn := by cases d; rfl
@[simp] theorem DieSt.car_pin (d : DieSt) (o w n : Nat) : (d.car o w n).pin = d.pin := by cases d; rfl
@[simp] theorem DieSt.car_pinLevel (d : DieSt) (o w n : Nat) : (d.car o w n).pinLevel = d.pinLevel := by cases d; rfl
@[simp] theorem DieSt.car_plan (d : DieSt) (o w n : Nat) : (d.car o w n).plan = d.plan := by cases d; rfl
@[simp] theorem DieSt.car_pmPrev (d : DieSt) (o w n : Nat) : (d.car o w n).pmPrev = d.pmPrev := by cases d; rfl
@[simp] theorem DieSt.car_pmHits (d : DieSt) (o w n : Nat) : (d.car o w n).pmHits = d.pmHits := by cases d; rfl
@[simp] theorem DieSt.car_deb (d : DieSt) (o w n : Nat) : (d.car o w n).deb = d.deb := by cases d; rfl
@[simp] theorem DieSt.car_pllLost (d : DieSt) (o w n : Nat) : (d.car o w n).pllLost = d.pllLost := by cases d; rfl
@[simp] theorem DieSt.car_load (d : DieSt) (o w n : Nat) : (d.car o w n).load = d.load := by cases d; rfl
@[simp] theorem DieSt.car_nvm (d : DieSt) (o w n : Nat) : (d.car o w n).nvm = d.nvm := by cases d; rfl
@[simp] theorem DieSt.car_rel (d : DieSt) (o w n : Nat) : (d.car o w n).rel = d.rel := by cases d; rfl
@[simp] theorem DieSt.car_pwr (d : DieSt) (o w n : Nat) : (d.car o w n).pwr = d.pwr := by cases d; rfl
@[simp] theorem DieSt.car_fuse (d : DieSt) (o w n : Nat) : (d.car o w n).fuse = d.fuse := by cases d; rfl
@[simp] theorem DieSt.car_ref (d : DieSt) (o w n : Nat) : (d.car o w n).ref = d.ref := by cases d; rfl
@[simp] theorem DieSt.car_met (d : DieSt) (o w n : Nat) : (d.car o w n).met = d.met := by cases d; rfl
@[simp] theorem DieSt.car_ump (d : DieSt) (o w n : Nat) : (d.car o w n).ump = d.ump := by cases d; rfl
@[simp] theorem DieSt.car_jtag (d : DieSt) (o w n : Nat) : (d.car o w n).jtag = d.jtag := by cases d; rfl

/-! ### setDom -/

@[simp] theorem DieSt.setDom_idn (d : DieSt) (k : Nat) (b : Bool) : (d.setDom k b).idn = d.idn := by cases d; rfl
@[simp] theorem DieSt.setDom_resp (d : DieSt) (k : Nat) (b : Bool) : (d.setDom k b).resp = d.resp := by cases d; rfl
@[simp] theorem DieSt.setDom_rdLatch (d : DieSt) (k : Nat) (b : Bool) : (d.setDom k b).rdLatch = d.rdLatch := by cases d; rfl
@[simp] theorem DieSt.setDom_wrLatch (d : DieSt) (k : Nat) (b : Bool) : (d.setDom k b).wrLatch = d.wrLatch := by cases d; rfl
@[simp] theorem DieSt.setDom_free (d : DieSt) (k : Nat) (b : Bool) : (d.setDom k b).free = d.free := by cases d; rfl
@[simp] theorem DieSt.setDom_now (d : DieSt) (k : Nat) (b : Bool) : (d.setDom k b).now = d.now := by cases d; rfl
@[simp] theorem DieSt.setDom_mt (d : DieSt) (k : Nat) (b : Bool) : (d.setDom k b).mt = d.mt := by cases d; rfl
@[simp] theorem DieSt.setDom_raised (d : DieSt) (k : Nat) (b : Bool) : (d.setDom k b).raised = d.raised := by cases d; rfl
@[simp] theorem DieSt.setDom_coll (d : DieSt) (k : Nat) (b : Bool) : (d.setDom k b).coll = d.coll := by cases d; rfl
@[simp] theorem DieSt.setDom_evLast (d : DieSt) (k : Nat) (b : Bool) : (d.setDom k b).evLast = d.evLast := by cases d; rfl
@[simp] theorem DieSt.setDom_noRb (d : DieSt) (k : Nat) (b : Bool) : (d.setDom k b).noRb = d.noRb := by cases d; rfl
@[simp] theorem DieSt.setDom_fab (d : DieSt) (k : Nat) (b : Bool) : (d.setDom k b).fab = d.fab := by cases d; rfl
@[simp] theorem DieSt.setDom_pace (d : DieSt) (k : Nat) (b : Bool) : (d.setDom k b).pace = d.pace := by cases d; rfl
@[simp] theorem DieSt.setDom_se (d : DieSt) (k : Nat) (b : Bool) : (d.setDom k b).se = d.se := by cases d; rfl
@[simp] theorem DieSt.setDom_q (d : DieSt) (k : Nat) (b : Bool) : (d.setDom k b).q = d.q := by cases d; rfl
@[simp] theorem DieSt.setDom_crc (d : DieSt) (k : Nat) (b : Bool) : (d.setDom k b).crc = d.crc := by cases d; rfl
@[simp] theorem DieSt.setDom_claims (d : DieSt) (k : Nat) (b : Bool) : (d.setDom k b).claims = d.claims := by cases d; rfl
@[simp] theorem DieSt.setDom_ros (d : DieSt) (k : Nat) (b : Bool) : (d.setDom k b).ros = d.ros := by cases d; rfl
@[simp] theorem DieSt.setDom_userX (d : DieSt) (k : Nat) (b : Bool) : (d.setDom k b).userX = d.userX := by cases d; rfl
@[simp] theorem DieSt.setDom_bankRst (d : DieSt) (k : Nat) (b : Bool) : (d.setDom k b).bankRst = d.bankRst := by cases d; rfl
@[simp] theorem DieSt.setDom_xing (d : DieSt) (k : Nat) (b : Bool) : (d.setDom k b).xing = d.xing := by cases d; rfl
@[simp] theorem DieSt.setDom_tapAt (d : DieSt) (k : Nat) (b : Bool) : (d.setDom k b).tapAt = d.tapAt := by cases d; rfl
@[simp] theorem DieSt.setDom_portAt (d : DieSt) (k : Nat) (b : Bool) : (d.setDom k b).portAt = d.portAt := by cases d; rfl
@[simp] theorem DieSt.setDom_chanAt (d : DieSt) (k : Nat) (b : Bool) : (d.setDom k b).chanAt = d.chanAt := by cases d; rfl
@[simp] theorem DieSt.setDom_slkAdm (d : DieSt) (k : Nat) (b : Bool) : (d.setDom k b).slkAdm = d.slkAdm := by cases d; rfl
@[simp] theorem DieSt.setDom_dmc (d : DieSt) (k : Nat) (b : Bool) : (d.setDom k b).dmc = d.dmc := by cases d; rfl
@[simp] theorem DieSt.setDom_slkHeld (d : DieSt) (k : Nat) (b : Bool) : (d.setDom k b).slkHeld = d.slkHeld := by cases d; rfl
@[simp] theorem DieSt.setDom_port (d : DieSt) (k : Nat) (b : Bool) : (d.setDom k b).port = d.port := by cases d; rfl
@[simp] theorem DieSt.setDom_cfgSeq (d : DieSt) (k : Nat) (b : Bool) : (d.setDom k b).cfgSeq = d.cfgSeq := by cases d; rfl
@[simp] theorem DieSt.setDom_mgmtIn (d : DieSt) (k : Nat) (b : Bool) : (d.setDom k b).mgmtIn = d.mgmtIn := by cases d; rfl
@[simp] theorem DieSt.setDom_chanSent (d : DieSt) (k : Nat) (b : Bool) : (d.setDom k b).chanSent = d.chanSent := by cases d; rfl
@[simp] theorem DieSt.setDom_chanZero (d : DieSt) (k : Nat) (b : Bool) : (d.setDom k b).chanZero = d.chanZero := by cases d; rfl
@[simp] theorem DieSt.setDom_txts (d : DieSt) (k : Nat) (b : Bool) : (d.setDom k b).txts = d.txts := by cases d; rfl
@[simp] theorem DieSt.setDom_ethCfg (d : DieSt) (k : Nat) (b : Bool) : (d.setDom k b).ethCfg = d.ethCfg := by cases d; rfl
@[simp] theorem DieSt.setDom_ethOut (d : DieSt) (k : Nat) (b : Bool) : (d.setDom k b).ethOut = d.ethOut := by cases d; rfl
@[simp] theorem DieSt.setDom_mtm (d : DieSt) (k : Nat) (b : Bool) : (d.setDom k b).mtm = d.mtm := by cases d; rfl
@[simp] theorem DieSt.setDom_hdrOk (d : DieSt) (k : Nat) (b : Bool) : (d.setDom k b).hdrOk = d.hdrOk := by cases d; rfl
@[simp] theorem DieSt.setDom_linkIn (d : DieSt) (k : Nat) (b : Bool) : (d.setDom k b).linkIn = d.linkIn := by cases d; rfl
@[simp] theorem DieSt.setDom_pin (d : DieSt) (k : Nat) (b : Bool) : (d.setDom k b).pin = d.pin := by cases d; rfl
@[simp] theorem DieSt.setDom_pinLevel (d : DieSt) (k : Nat) (b : Bool) : (d.setDom k b).pinLevel = d.pinLevel := by cases d; rfl
@[simp] theorem DieSt.setDom_plan (d : DieSt) (k : Nat) (b : Bool) : (d.setDom k b).plan = d.plan := by cases d; rfl
@[simp] theorem DieSt.setDom_pmPrev (d : DieSt) (k : Nat) (b : Bool) : (d.setDom k b).pmPrev = d.pmPrev := by cases d; rfl
@[simp] theorem DieSt.setDom_pmHits (d : DieSt) (k : Nat) (b : Bool) : (d.setDom k b).pmHits = d.pmHits := by cases d; rfl
@[simp] theorem DieSt.setDom_deb (d : DieSt) (k : Nat) (b : Bool) : (d.setDom k b).deb = d.deb := by cases d; rfl
@[simp] theorem DieSt.setDom_pllLost (d : DieSt) (k : Nat) (b : Bool) : (d.setDom k b).pllLost = d.pllLost := by cases d; rfl
@[simp] theorem DieSt.setDom_load (d : DieSt) (k : Nat) (b : Bool) : (d.setDom k b).load = d.load := by cases d; rfl
@[simp] theorem DieSt.setDom_nvm (d : DieSt) (k : Nat) (b : Bool) : (d.setDom k b).nvm = d.nvm := by cases d; rfl
@[simp] theorem DieSt.setDom_rel (d : DieSt) (k : Nat) (b : Bool) : (d.setDom k b).rel = d.rel := by cases d; rfl
@[simp] theorem DieSt.setDom_pwr (d : DieSt) (k : Nat) (b : Bool) : (d.setDom k b).pwr = d.pwr := by cases d; rfl
@[simp] theorem DieSt.setDom_fuse (d : DieSt) (k : Nat) (b : Bool) : (d.setDom k b).fuse = d.fuse := by cases d; rfl
@[simp] theorem DieSt.setDom_ref (d : DieSt) (k : Nat) (b : Bool) : (d.setDom k b).ref = d.ref := by cases d; rfl
@[simp] theorem DieSt.setDom_met (d : DieSt) (k : Nat) (b : Bool) : (d.setDom k b).met = d.met := by cases d; rfl
@[simp] theorem DieSt.setDom_ump (d : DieSt) (k : Nat) (b : Bool) : (d.setDom k b).ump = d.ump := by cases d; rfl
@[simp] theorem DieSt.setDom_jtag (d : DieSt) (k : Nat) (b : Bool) : (d.setDom k b).jtag = d.jtag := by cases d; rfl

/-! ### setCst -/

@[simp] theorem DieSt.setCst_idn (d : DieSt) (n v : Nat) : (d.setCst n v).idn = d.idn := by cases d; rfl
@[simp] theorem DieSt.setCst_resp (d : DieSt) (n v : Nat) : (d.setCst n v).resp = d.resp := by cases d; rfl
@[simp] theorem DieSt.setCst_rdLatch (d : DieSt) (n v : Nat) : (d.setCst n v).rdLatch = d.rdLatch := by cases d; rfl
@[simp] theorem DieSt.setCst_wrLatch (d : DieSt) (n v : Nat) : (d.setCst n v).wrLatch = d.wrLatch := by cases d; rfl
@[simp] theorem DieSt.setCst_free (d : DieSt) (n v : Nat) : (d.setCst n v).free = d.free := by cases d; rfl
@[simp] theorem DieSt.setCst_now (d : DieSt) (n v : Nat) : (d.setCst n v).now = d.now := by cases d; rfl
@[simp] theorem DieSt.setCst_mt (d : DieSt) (n v : Nat) : (d.setCst n v).mt = d.mt := by cases d; rfl
@[simp] theorem DieSt.setCst_raised (d : DieSt) (n v : Nat) : (d.setCst n v).raised = d.raised := by cases d; rfl
@[simp] theorem DieSt.setCst_coll (d : DieSt) (n v : Nat) : (d.setCst n v).coll = d.coll := by cases d; rfl
@[simp] theorem DieSt.setCst_evLast (d : DieSt) (n v : Nat) : (d.setCst n v).evLast = d.evLast := by cases d; rfl
@[simp] theorem DieSt.setCst_noRb (d : DieSt) (n v : Nat) : (d.setCst n v).noRb = d.noRb := by cases d; rfl
@[simp] theorem DieSt.setCst_fab (d : DieSt) (n v : Nat) : (d.setCst n v).fab = d.fab := by cases d; rfl
@[simp] theorem DieSt.setCst_pace (d : DieSt) (n v : Nat) : (d.setCst n v).pace = d.pace := by cases d; rfl
@[simp] theorem DieSt.setCst_se (d : DieSt) (n v : Nat) : (d.setCst n v).se = d.se := by cases d; rfl
@[simp] theorem DieSt.setCst_q (d : DieSt) (n v : Nat) : (d.setCst n v).q = d.q := by cases d; rfl
@[simp] theorem DieSt.setCst_crc (d : DieSt) (n v : Nat) : (d.setCst n v).crc = d.crc := by cases d; rfl
@[simp] theorem DieSt.setCst_claims (d : DieSt) (n v : Nat) : (d.setCst n v).claims = d.claims := by cases d; rfl
@[simp] theorem DieSt.setCst_ros (d : DieSt) (n v : Nat) : (d.setCst n v).ros = d.ros := by cases d; rfl
@[simp] theorem DieSt.setCst_userX (d : DieSt) (n v : Nat) : (d.setCst n v).userX = d.userX := by cases d; rfl
@[simp] theorem DieSt.setCst_bankRst (d : DieSt) (n v : Nat) : (d.setCst n v).bankRst = d.bankRst := by cases d; rfl
@[simp] theorem DieSt.setCst_xing (d : DieSt) (n v : Nat) : (d.setCst n v).xing = d.xing := by cases d; rfl
@[simp] theorem DieSt.setCst_tapAt (d : DieSt) (n v : Nat) : (d.setCst n v).tapAt = d.tapAt := by cases d; rfl
@[simp] theorem DieSt.setCst_portAt (d : DieSt) (n v : Nat) : (d.setCst n v).portAt = d.portAt := by cases d; rfl
@[simp] theorem DieSt.setCst_chanAt (d : DieSt) (n v : Nat) : (d.setCst n v).chanAt = d.chanAt := by cases d; rfl
@[simp] theorem DieSt.setCst_slkAdm (d : DieSt) (n v : Nat) : (d.setCst n v).slkAdm = d.slkAdm := by cases d; rfl
@[simp] theorem DieSt.setCst_dmc (d : DieSt) (n v : Nat) : (d.setCst n v).dmc = d.dmc := by cases d; rfl
@[simp] theorem DieSt.setCst_slkHeld (d : DieSt) (n v : Nat) : (d.setCst n v).slkHeld = d.slkHeld := by cases d; rfl
@[simp] theorem DieSt.setCst_port (d : DieSt) (n v : Nat) : (d.setCst n v).port = d.port := by cases d; rfl
@[simp] theorem DieSt.setCst_cfgSeq (d : DieSt) (n v : Nat) : (d.setCst n v).cfgSeq = d.cfgSeq := by cases d; rfl
@[simp] theorem DieSt.setCst_mgmtIn (d : DieSt) (n v : Nat) : (d.setCst n v).mgmtIn = d.mgmtIn := by cases d; rfl
@[simp] theorem DieSt.setCst_chanSent (d : DieSt) (n v : Nat) : (d.setCst n v).chanSent = d.chanSent := by cases d; rfl
@[simp] theorem DieSt.setCst_chanZero (d : DieSt) (n v : Nat) : (d.setCst n v).chanZero = d.chanZero := by cases d; rfl
@[simp] theorem DieSt.setCst_txts (d : DieSt) (n v : Nat) : (d.setCst n v).txts = d.txts := by cases d; rfl
@[simp] theorem DieSt.setCst_ethCfg (d : DieSt) (n v : Nat) : (d.setCst n v).ethCfg = d.ethCfg := by cases d; rfl
@[simp] theorem DieSt.setCst_ethOut (d : DieSt) (n v : Nat) : (d.setCst n v).ethOut = d.ethOut := by cases d; rfl
@[simp] theorem DieSt.setCst_mtm (d : DieSt) (n v : Nat) : (d.setCst n v).mtm = d.mtm := by cases d; rfl
@[simp] theorem DieSt.setCst_hdrOk (d : DieSt) (n v : Nat) : (d.setCst n v).hdrOk = d.hdrOk := by cases d; rfl
@[simp] theorem DieSt.setCst_linkIn (d : DieSt) (n v : Nat) : (d.setCst n v).linkIn = d.linkIn := by cases d; rfl
@[simp] theorem DieSt.setCst_pin (d : DieSt) (n v : Nat) : (d.setCst n v).pin = d.pin := by cases d; rfl
@[simp] theorem DieSt.setCst_pinLevel (d : DieSt) (n v : Nat) : (d.setCst n v).pinLevel = d.pinLevel := by cases d; rfl
@[simp] theorem DieSt.setCst_plan (d : DieSt) (n v : Nat) : (d.setCst n v).plan = d.plan := by cases d; rfl
@[simp] theorem DieSt.setCst_pmPrev (d : DieSt) (n v : Nat) : (d.setCst n v).pmPrev = d.pmPrev := by cases d; rfl
@[simp] theorem DieSt.setCst_pmHits (d : DieSt) (n v : Nat) : (d.setCst n v).pmHits = d.pmHits := by cases d; rfl
@[simp] theorem DieSt.setCst_deb (d : DieSt) (n v : Nat) : (d.setCst n v).deb = d.deb := by cases d; rfl
@[simp] theorem DieSt.setCst_pllLost (d : DieSt) (n v : Nat) : (d.setCst n v).pllLost = d.pllLost := by cases d; rfl
@[simp] theorem DieSt.setCst_load (d : DieSt) (n v : Nat) : (d.setCst n v).load = d.load := by cases d; rfl
@[simp] theorem DieSt.setCst_nvm (d : DieSt) (n v : Nat) : (d.setCst n v).nvm = d.nvm := by cases d; rfl
@[simp] theorem DieSt.setCst_rel (d : DieSt) (n v : Nat) : (d.setCst n v).rel = d.rel := by cases d; rfl
@[simp] theorem DieSt.setCst_pwr (d : DieSt) (n v : Nat) : (d.setCst n v).pwr = d.pwr := by cases d; rfl
@[simp] theorem DieSt.setCst_fuse (d : DieSt) (n v : Nat) : (d.setCst n v).fuse = d.fuse := by cases d; rfl
@[simp] theorem DieSt.setCst_ref (d : DieSt) (n v : Nat) : (d.setCst n v).ref = d.ref := by cases d; rfl
@[simp] theorem DieSt.setCst_met (d : DieSt) (n v : Nat) : (d.setCst n v).met = d.met := by cases d; rfl
@[simp] theorem DieSt.setCst_ump (d : DieSt) (n v : Nat) : (d.setCst n v).ump = d.ump := by cases d; rfl
@[simp] theorem DieSt.setCst_jtag (d : DieSt) (n v : Nat) : (d.setCst n v).jtag = d.jtag := by cases d; rfl

/-! ### answer -/

@[simp] theorem DieSt.answer_idn (d : DieSt) (m : Master) (v : Word) (e : Bool) : (d.answer m v e).idn = d.idn := by cases d; rfl
@[simp] theorem DieSt.answer_regs (d : DieSt) (m : Master) (v : Word) (e : Bool) : (d.answer m v e).regs = d.regs := by cases d; rfl
@[simp] theorem DieSt.answer_rdLatch (d : DieSt) (m : Master) (v : Word) (e : Bool) : (d.answer m v e).rdLatch = d.rdLatch := by cases d; rfl
@[simp] theorem DieSt.answer_wrLatch (d : DieSt) (m : Master) (v : Word) (e : Bool) : (d.answer m v e).wrLatch = d.wrLatch := by cases d; rfl
@[simp] theorem DieSt.answer_free (d : DieSt) (m : Master) (v : Word) (e : Bool) : (d.answer m v e).free = d.free := by cases d; rfl
@[simp] theorem DieSt.answer_now (d : DieSt) (m : Master) (v : Word) (e : Bool) : (d.answer m v e).now = d.now := by cases d; rfl
@[simp] theorem DieSt.answer_mt (d : DieSt) (m : Master) (v : Word) (e : Bool) : (d.answer m v e).mt = d.mt := by cases d; rfl
@[simp] theorem DieSt.answer_raised (d : DieSt) (m : Master) (v : Word) (e : Bool) : (d.answer m v e).raised = d.raised := by cases d; rfl
@[simp] theorem DieSt.answer_coll (d : DieSt) (m : Master) (v : Word) (e : Bool) : (d.answer m v e).coll = d.coll := by cases d; rfl
@[simp] theorem DieSt.answer_evLast (d : DieSt) (m : Master) (v : Word) (e : Bool) : (d.answer m v e).evLast = d.evLast := by cases d; rfl
@[simp] theorem DieSt.answer_noRb (d : DieSt) (m : Master) (v : Word) (e : Bool) : (d.answer m v e).noRb = d.noRb := by cases d; rfl
@[simp] theorem DieSt.answer_fab (d : DieSt) (m : Master) (v : Word) (e : Bool) : (d.answer m v e).fab = d.fab := by cases d; rfl
@[simp] theorem DieSt.answer_pace (d : DieSt) (m : Master) (v : Word) (e : Bool) : (d.answer m v e).pace = d.pace := by cases d; rfl
@[simp] theorem DieSt.answer_se (d : DieSt) (m : Master) (v : Word) (e : Bool) : (d.answer m v e).se = d.se := by cases d; rfl
@[simp] theorem DieSt.answer_q (d : DieSt) (m : Master) (v : Word) (e : Bool) : (d.answer m v e).q = d.q := by cases d; rfl
@[simp] theorem DieSt.answer_crc (d : DieSt) (m : Master) (v : Word) (e : Bool) : (d.answer m v e).crc = d.crc := by cases d; rfl
@[simp] theorem DieSt.answer_claims (d : DieSt) (m : Master) (v : Word) (e : Bool) : (d.answer m v e).claims = d.claims := by cases d; rfl
@[simp] theorem DieSt.answer_ros (d : DieSt) (m : Master) (v : Word) (e : Bool) : (d.answer m v e).ros = d.ros := by cases d; rfl
@[simp] theorem DieSt.answer_userX (d : DieSt) (m : Master) (v : Word) (e : Bool) : (d.answer m v e).userX = d.userX := by cases d; rfl
@[simp] theorem DieSt.answer_bankRst (d : DieSt) (m : Master) (v : Word) (e : Bool) : (d.answer m v e).bankRst = d.bankRst := by cases d; rfl
@[simp] theorem DieSt.answer_xing (d : DieSt) (m : Master) (v : Word) (e : Bool) : (d.answer m v e).xing = d.xing := by cases d; rfl
@[simp] theorem DieSt.answer_tapAt (d : DieSt) (m : Master) (v : Word) (e : Bool) : (d.answer m v e).tapAt = d.tapAt := by cases d; rfl
@[simp] theorem DieSt.answer_portAt (d : DieSt) (m : Master) (v : Word) (e : Bool) : (d.answer m v e).portAt = d.portAt := by cases d; rfl
@[simp] theorem DieSt.answer_chanAt (d : DieSt) (m : Master) (v : Word) (e : Bool) : (d.answer m v e).chanAt = d.chanAt := by cases d; rfl
@[simp] theorem DieSt.answer_slkAdm (d : DieSt) (m : Master) (v : Word) (e : Bool) : (d.answer m v e).slkAdm = d.slkAdm := by cases d; rfl
@[simp] theorem DieSt.answer_dmc (d : DieSt) (m : Master) (v : Word) (e : Bool) : (d.answer m v e).dmc = d.dmc := by cases d; rfl
@[simp] theorem DieSt.answer_slkHeld (d : DieSt) (m : Master) (v : Word) (e : Bool) : (d.answer m v e).slkHeld = d.slkHeld := by cases d; rfl
@[simp] theorem DieSt.answer_port (d : DieSt) (m : Master) (v : Word) (e : Bool) : (d.answer m v e).port = d.port := by cases d; rfl
@[simp] theorem DieSt.answer_cfgSeq (d : DieSt) (m : Master) (v : Word) (e : Bool) : (d.answer m v e).cfgSeq = d.cfgSeq := by cases d; rfl
@[simp] theorem DieSt.answer_mgmtIn (d : DieSt) (m : Master) (v : Word) (e : Bool) : (d.answer m v e).mgmtIn = d.mgmtIn := by cases d; rfl
@[simp] theorem DieSt.answer_chanSent (d : DieSt) (m : Master) (v : Word) (e : Bool) : (d.answer m v e).chanSent = d.chanSent := by cases d; rfl
@[simp] theorem DieSt.answer_chanZero (d : DieSt) (m : Master) (v : Word) (e : Bool) : (d.answer m v e).chanZero = d.chanZero := by cases d; rfl
@[simp] theorem DieSt.answer_txts (d : DieSt) (m : Master) (v : Word) (e : Bool) : (d.answer m v e).txts = d.txts := by cases d; rfl
@[simp] theorem DieSt.answer_ethCfg (d : DieSt) (m : Master) (v : Word) (e : Bool) : (d.answer m v e).ethCfg = d.ethCfg := by cases d; rfl
@[simp] theorem DieSt.answer_ethOut (d : DieSt) (m : Master) (v : Word) (e : Bool) : (d.answer m v e).ethOut = d.ethOut := by cases d; rfl
@[simp] theorem DieSt.answer_mtm (d : DieSt) (m : Master) (v : Word) (e : Bool) : (d.answer m v e).mtm = d.mtm := by cases d; rfl
@[simp] theorem DieSt.answer_hdrOk (d : DieSt) (m : Master) (v : Word) (e : Bool) : (d.answer m v e).hdrOk = d.hdrOk := by cases d; rfl
@[simp] theorem DieSt.answer_linkIn (d : DieSt) (m : Master) (v : Word) (e : Bool) : (d.answer m v e).linkIn = d.linkIn := by cases d; rfl
@[simp] theorem DieSt.answer_pin (d : DieSt) (m : Master) (v : Word) (e : Bool) : (d.answer m v e).pin = d.pin := by cases d; rfl
@[simp] theorem DieSt.answer_pinLevel (d : DieSt) (m : Master) (v : Word) (e : Bool) : (d.answer m v e).pinLevel = d.pinLevel := by cases d; rfl
@[simp] theorem DieSt.answer_plan (d : DieSt) (m : Master) (v : Word) (e : Bool) : (d.answer m v e).plan = d.plan := by cases d; rfl
@[simp] theorem DieSt.answer_pmPrev (d : DieSt) (m : Master) (v : Word) (e : Bool) : (d.answer m v e).pmPrev = d.pmPrev := by cases d; rfl
@[simp] theorem DieSt.answer_pmHits (d : DieSt) (m : Master) (v : Word) (e : Bool) : (d.answer m v e).pmHits = d.pmHits := by cases d; rfl
@[simp] theorem DieSt.answer_deb (d : DieSt) (m : Master) (v : Word) (e : Bool) : (d.answer m v e).deb = d.deb := by cases d; rfl
@[simp] theorem DieSt.answer_pllLost (d : DieSt) (m : Master) (v : Word) (e : Bool) : (d.answer m v e).pllLost = d.pllLost := by cases d; rfl
@[simp] theorem DieSt.answer_load (d : DieSt) (m : Master) (v : Word) (e : Bool) : (d.answer m v e).load = d.load := by cases d; rfl
@[simp] theorem DieSt.answer_nvm (d : DieSt) (m : Master) (v : Word) (e : Bool) : (d.answer m v e).nvm = d.nvm := by cases d; rfl
@[simp] theorem DieSt.answer_rel (d : DieSt) (m : Master) (v : Word) (e : Bool) : (d.answer m v e).rel = d.rel := by cases d; rfl
@[simp] theorem DieSt.answer_pwr (d : DieSt) (m : Master) (v : Word) (e : Bool) : (d.answer m v e).pwr = d.pwr := by cases d; rfl
@[simp] theorem DieSt.answer_fuse (d : DieSt) (m : Master) (v : Word) (e : Bool) : (d.answer m v e).fuse = d.fuse := by cases d; rfl
@[simp] theorem DieSt.answer_ref (d : DieSt) (m : Master) (v : Word) (e : Bool) : (d.answer m v e).ref = d.ref := by cases d; rfl
@[simp] theorem DieSt.answer_met (d : DieSt) (m : Master) (v : Word) (e : Bool) : (d.answer m v e).met = d.met := by cases d; rfl
@[simp] theorem DieSt.answer_ump (d : DieSt) (m : Master) (v : Word) (e : Bool) : (d.answer m v e).ump = d.ump := by cases d; rfl
@[simp] theorem DieSt.answer_jtag (d : DieSt) (m : Master) (v : Word) (e : Bool) : (d.answer m v e).jtag = d.jtag := by cases d; rfl

/-! ### setClaim -/

@[simp] theorem DieSt.setClaim_idn (d : DieSt) (r k : Nat) : (d.setClaim r k).idn = d.idn := by cases d; rfl
@[simp] theorem DieSt.setClaim_regs (d : DieSt) (r k : Nat) : (d.setClaim r k).regs = d.regs := by cases d; rfl
@[simp] theorem DieSt.setClaim_resp (d : DieSt) (r k : Nat) : (d.setClaim r k).resp = d.resp := by cases d; rfl
@[simp] theorem DieSt.setClaim_rdLatch (d : DieSt) (r k : Nat) : (d.setClaim r k).rdLatch = d.rdLatch := by cases d; rfl
@[simp] theorem DieSt.setClaim_wrLatch (d : DieSt) (r k : Nat) : (d.setClaim r k).wrLatch = d.wrLatch := by cases d; rfl
@[simp] theorem DieSt.setClaim_free (d : DieSt) (r k : Nat) : (d.setClaim r k).free = d.free := by cases d; rfl
@[simp] theorem DieSt.setClaim_now (d : DieSt) (r k : Nat) : (d.setClaim r k).now = d.now := by cases d; rfl
@[simp] theorem DieSt.setClaim_mt (d : DieSt) (r k : Nat) : (d.setClaim r k).mt = d.mt := by cases d; rfl
@[simp] theorem DieSt.setClaim_raised (d : DieSt) (r k : Nat) : (d.setClaim r k).raised = d.raised := by cases d; rfl
@[simp] theorem DieSt.setClaim_coll (d : DieSt) (r k : Nat) : (d.setClaim r k).coll = d.coll := by cases d; rfl
@[simp] theorem DieSt.setClaim_evLast (d : DieSt) (r k : Nat) : (d.setClaim r k).evLast = d.evLast := by cases d; rfl
@[simp] theorem DieSt.setClaim_noRb (d : DieSt) (r k : Nat) : (d.setClaim r k).noRb = d.noRb := by cases d; rfl
@[simp] theorem DieSt.setClaim_fab (d : DieSt) (r k : Nat) : (d.setClaim r k).fab = d.fab := by cases d; rfl
@[simp] theorem DieSt.setClaim_pace (d : DieSt) (r k : Nat) : (d.setClaim r k).pace = d.pace := by cases d; rfl
@[simp] theorem DieSt.setClaim_se (d : DieSt) (r k : Nat) : (d.setClaim r k).se = d.se := by cases d; rfl
@[simp] theorem DieSt.setClaim_q (d : DieSt) (r k : Nat) : (d.setClaim r k).q = d.q := by cases d; rfl
@[simp] theorem DieSt.setClaim_crc (d : DieSt) (r k : Nat) : (d.setClaim r k).crc = d.crc := by cases d; rfl
@[simp] theorem DieSt.setClaim_ros (d : DieSt) (r k : Nat) : (d.setClaim r k).ros = d.ros := by cases d; rfl
@[simp] theorem DieSt.setClaim_userX (d : DieSt) (r k : Nat) : (d.setClaim r k).userX = d.userX := by cases d; rfl
@[simp] theorem DieSt.setClaim_bankRst (d : DieSt) (r k : Nat) : (d.setClaim r k).bankRst = d.bankRst := by cases d; rfl
@[simp] theorem DieSt.setClaim_xing (d : DieSt) (r k : Nat) : (d.setClaim r k).xing = d.xing := by cases d; rfl
@[simp] theorem DieSt.setClaim_tapAt (d : DieSt) (r k : Nat) : (d.setClaim r k).tapAt = d.tapAt := by cases d; rfl
@[simp] theorem DieSt.setClaim_portAt (d : DieSt) (r k : Nat) : (d.setClaim r k).portAt = d.portAt := by cases d; rfl
@[simp] theorem DieSt.setClaim_chanAt (d : DieSt) (r k : Nat) : (d.setClaim r k).chanAt = d.chanAt := by cases d; rfl
@[simp] theorem DieSt.setClaim_slkAdm (d : DieSt) (r k : Nat) : (d.setClaim r k).slkAdm = d.slkAdm := by cases d; rfl
@[simp] theorem DieSt.setClaim_dmc (d : DieSt) (r k : Nat) : (d.setClaim r k).dmc = d.dmc := by cases d; rfl
@[simp] theorem DieSt.setClaim_slkHeld (d : DieSt) (r k : Nat) : (d.setClaim r k).slkHeld = d.slkHeld := by cases d; rfl
@[simp] theorem DieSt.setClaim_port (d : DieSt) (r k : Nat) : (d.setClaim r k).port = d.port := by cases d; rfl
@[simp] theorem DieSt.setClaim_cfgSeq (d : DieSt) (r k : Nat) : (d.setClaim r k).cfgSeq = d.cfgSeq := by cases d; rfl
@[simp] theorem DieSt.setClaim_mgmtIn (d : DieSt) (r k : Nat) : (d.setClaim r k).mgmtIn = d.mgmtIn := by cases d; rfl
@[simp] theorem DieSt.setClaim_chanSent (d : DieSt) (r k : Nat) : (d.setClaim r k).chanSent = d.chanSent := by cases d; rfl
@[simp] theorem DieSt.setClaim_chanZero (d : DieSt) (r k : Nat) : (d.setClaim r k).chanZero = d.chanZero := by cases d; rfl
@[simp] theorem DieSt.setClaim_txts (d : DieSt) (r k : Nat) : (d.setClaim r k).txts = d.txts := by cases d; rfl
@[simp] theorem DieSt.setClaim_ethCfg (d : DieSt) (r k : Nat) : (d.setClaim r k).ethCfg = d.ethCfg := by cases d; rfl
@[simp] theorem DieSt.setClaim_ethOut (d : DieSt) (r k : Nat) : (d.setClaim r k).ethOut = d.ethOut := by cases d; rfl
@[simp] theorem DieSt.setClaim_mtm (d : DieSt) (r k : Nat) : (d.setClaim r k).mtm = d.mtm := by cases d; rfl
@[simp] theorem DieSt.setClaim_hdrOk (d : DieSt) (r k : Nat) : (d.setClaim r k).hdrOk = d.hdrOk := by cases d; rfl
@[simp] theorem DieSt.setClaim_linkIn (d : DieSt) (r k : Nat) : (d.setClaim r k).linkIn = d.linkIn := by cases d; rfl
@[simp] theorem DieSt.setClaim_pin (d : DieSt) (r k : Nat) : (d.setClaim r k).pin = d.pin := by cases d; rfl
@[simp] theorem DieSt.setClaim_pinLevel (d : DieSt) (r k : Nat) : (d.setClaim r k).pinLevel = d.pinLevel := by cases d; rfl
@[simp] theorem DieSt.setClaim_plan (d : DieSt) (r k : Nat) : (d.setClaim r k).plan = d.plan := by cases d; rfl
@[simp] theorem DieSt.setClaim_pmPrev (d : DieSt) (r k : Nat) : (d.setClaim r k).pmPrev = d.pmPrev := by cases d; rfl
@[simp] theorem DieSt.setClaim_pmHits (d : DieSt) (r k : Nat) : (d.setClaim r k).pmHits = d.pmHits := by cases d; rfl
@[simp] theorem DieSt.setClaim_deb (d : DieSt) (r k : Nat) : (d.setClaim r k).deb = d.deb := by cases d; rfl
@[simp] theorem DieSt.setClaim_pllLost (d : DieSt) (r k : Nat) : (d.setClaim r k).pllLost = d.pllLost := by cases d; rfl
@[simp] theorem DieSt.setClaim_load (d : DieSt) (r k : Nat) : (d.setClaim r k).load = d.load := by cases d; rfl
@[simp] theorem DieSt.setClaim_nvm (d : DieSt) (r k : Nat) : (d.setClaim r k).nvm = d.nvm := by cases d; rfl
@[simp] theorem DieSt.setClaim_rel (d : DieSt) (r k : Nat) : (d.setClaim r k).rel = d.rel := by cases d; rfl
@[simp] theorem DieSt.setClaim_pwr (d : DieSt) (r k : Nat) : (d.setClaim r k).pwr = d.pwr := by cases d; rfl
@[simp] theorem DieSt.setClaim_fuse (d : DieSt) (r k : Nat) : (d.setClaim r k).fuse = d.fuse := by cases d; rfl
@[simp] theorem DieSt.setClaim_ref (d : DieSt) (r k : Nat) : (d.setClaim r k).ref = d.ref := by cases d; rfl
@[simp] theorem DieSt.setClaim_met (d : DieSt) (r k : Nat) : (d.setClaim r k).met = d.met := by cases d; rfl
@[simp] theorem DieSt.setClaim_ump (d : DieSt) (r k : Nat) : (d.setClaim r k).ump = d.ump := by cases d; rfl
@[simp] theorem DieSt.setClaim_jtag (d : DieSt) (r k : Nat) : (d.setClaim r k).jtag = d.jtag := by cases d; rfl

/-! ### setEng -/

@[simp] theorem DieSt.setEng_idn (d : DieSt) (r : Nat) (e : SeSt) : (d.setEng r e).idn = d.idn := by cases d; rfl
@[simp] theorem DieSt.setEng_regs (d : DieSt) (r : Nat) (e : SeSt) : (d.setEng r e).regs = d.regs := by cases d; rfl
@[simp] theorem DieSt.setEng_resp (d : DieSt) (r : Nat) (e : SeSt) : (d.setEng r e).resp = d.resp := by cases d; rfl
@[simp] theorem DieSt.setEng_rdLatch (d : DieSt) (r : Nat) (e : SeSt) : (d.setEng r e).rdLatch = d.rdLatch := by cases d; rfl
@[simp] theorem DieSt.setEng_wrLatch (d : DieSt) (r : Nat) (e : SeSt) : (d.setEng r e).wrLatch = d.wrLatch := by cases d; rfl
@[simp] theorem DieSt.setEng_free (d : DieSt) (r : Nat) (e : SeSt) : (d.setEng r e).free = d.free := by cases d; rfl
@[simp] theorem DieSt.setEng_now (d : DieSt) (r : Nat) (e : SeSt) : (d.setEng r e).now = d.now := by cases d; rfl
@[simp] theorem DieSt.setEng_mt (d : DieSt) (r : Nat) (e : SeSt) : (d.setEng r e).mt = d.mt := by cases d; rfl
@[simp] theorem DieSt.setEng_raised (d : DieSt) (r : Nat) (e : SeSt) : (d.setEng r e).raised = d.raised := by cases d; rfl
@[simp] theorem DieSt.setEng_coll (d : DieSt) (r : Nat) (e : SeSt) : (d.setEng r e).coll = d.coll := by cases d; rfl
@[simp] theorem DieSt.setEng_evLast (d : DieSt) (r : Nat) (e : SeSt) : (d.setEng r e).evLast = d.evLast := by cases d; rfl
@[simp] theorem DieSt.setEng_noRb (d : DieSt) (r : Nat) (e : SeSt) : (d.setEng r e).noRb = d.noRb := by cases d; rfl
@[simp] theorem DieSt.setEng_fab (d : DieSt) (r : Nat) (e : SeSt) : (d.setEng r e).fab = d.fab := by cases d; rfl
@[simp] theorem DieSt.setEng_pace (d : DieSt) (r : Nat) (e : SeSt) : (d.setEng r e).pace = d.pace := by cases d; rfl
@[simp] theorem DieSt.setEng_q (d : DieSt) (r : Nat) (e : SeSt) : (d.setEng r e).q = d.q := by cases d; rfl
@[simp] theorem DieSt.setEng_crc (d : DieSt) (r : Nat) (e : SeSt) : (d.setEng r e).crc = d.crc := by cases d; rfl
@[simp] theorem DieSt.setEng_claims (d : DieSt) (r : Nat) (e : SeSt) : (d.setEng r e).claims = d.claims := by cases d; rfl
@[simp] theorem DieSt.setEng_ros (d : DieSt) (r : Nat) (e : SeSt) : (d.setEng r e).ros = d.ros := by cases d; rfl
@[simp] theorem DieSt.setEng_userX (d : DieSt) (r : Nat) (e : SeSt) : (d.setEng r e).userX = d.userX := by cases d; rfl
@[simp] theorem DieSt.setEng_bankRst (d : DieSt) (r : Nat) (e : SeSt) : (d.setEng r e).bankRst = d.bankRst := by cases d; rfl
@[simp] theorem DieSt.setEng_xing (d : DieSt) (r : Nat) (e : SeSt) : (d.setEng r e).xing = d.xing := by cases d; rfl
@[simp] theorem DieSt.setEng_tapAt (d : DieSt) (r : Nat) (e : SeSt) : (d.setEng r e).tapAt = d.tapAt := by cases d; rfl
@[simp] theorem DieSt.setEng_portAt (d : DieSt) (r : Nat) (e : SeSt) : (d.setEng r e).portAt = d.portAt := by cases d; rfl
@[simp] theorem DieSt.setEng_chanAt (d : DieSt) (r : Nat) (e : SeSt) : (d.setEng r e).chanAt = d.chanAt := by cases d; rfl
@[simp] theorem DieSt.setEng_slkAdm (d : DieSt) (r : Nat) (e : SeSt) : (d.setEng r e).slkAdm = d.slkAdm := by cases d; rfl
@[simp] theorem DieSt.setEng_dmc (d : DieSt) (r : Nat) (e : SeSt) : (d.setEng r e).dmc = d.dmc := by cases d; rfl
@[simp] theorem DieSt.setEng_slkHeld (d : DieSt) (r : Nat) (e : SeSt) : (d.setEng r e).slkHeld = d.slkHeld := by cases d; rfl
@[simp] theorem DieSt.setEng_port (d : DieSt) (r : Nat) (e : SeSt) : (d.setEng r e).port = d.port := by cases d; rfl
@[simp] theorem DieSt.setEng_cfgSeq (d : DieSt) (r : Nat) (e : SeSt) : (d.setEng r e).cfgSeq = d.cfgSeq := by cases d; rfl
@[simp] theorem DieSt.setEng_mgmtIn (d : DieSt) (r : Nat) (e : SeSt) : (d.setEng r e).mgmtIn = d.mgmtIn := by cases d; rfl
@[simp] theorem DieSt.setEng_chanSent (d : DieSt) (r : Nat) (e : SeSt) : (d.setEng r e).chanSent = d.chanSent := by cases d; rfl
@[simp] theorem DieSt.setEng_chanZero (d : DieSt) (r : Nat) (e : SeSt) : (d.setEng r e).chanZero = d.chanZero := by cases d; rfl
@[simp] theorem DieSt.setEng_txts (d : DieSt) (r : Nat) (e : SeSt) : (d.setEng r e).txts = d.txts := by cases d; rfl
@[simp] theorem DieSt.setEng_ethCfg (d : DieSt) (r : Nat) (e : SeSt) : (d.setEng r e).ethCfg = d.ethCfg := by cases d; rfl
@[simp] theorem DieSt.setEng_ethOut (d : DieSt) (r : Nat) (e : SeSt) : (d.setEng r e).ethOut = d.ethOut := by cases d; rfl
@[simp] theorem DieSt.setEng_mtm (d : DieSt) (r : Nat) (e : SeSt) : (d.setEng r e).mtm = d.mtm := by cases d; rfl
@[simp] theorem DieSt.setEng_hdrOk (d : DieSt) (r : Nat) (e : SeSt) : (d.setEng r e).hdrOk = d.hdrOk := by cases d; rfl
@[simp] theorem DieSt.setEng_linkIn (d : DieSt) (r : Nat) (e : SeSt) : (d.setEng r e).linkIn = d.linkIn := by cases d; rfl
@[simp] theorem DieSt.setEng_pin (d : DieSt) (r : Nat) (e : SeSt) : (d.setEng r e).pin = d.pin := by cases d; rfl
@[simp] theorem DieSt.setEng_pinLevel (d : DieSt) (r : Nat) (e : SeSt) : (d.setEng r e).pinLevel = d.pinLevel := by cases d; rfl
@[simp] theorem DieSt.setEng_plan (d : DieSt) (r : Nat) (e : SeSt) : (d.setEng r e).plan = d.plan := by cases d; rfl
@[simp] theorem DieSt.setEng_pmPrev (d : DieSt) (r : Nat) (e : SeSt) : (d.setEng r e).pmPrev = d.pmPrev := by cases d; rfl
@[simp] theorem DieSt.setEng_pmHits (d : DieSt) (r : Nat) (e : SeSt) : (d.setEng r e).pmHits = d.pmHits := by cases d; rfl
@[simp] theorem DieSt.setEng_deb (d : DieSt) (r : Nat) (e : SeSt) : (d.setEng r e).deb = d.deb := by cases d; rfl
@[simp] theorem DieSt.setEng_pllLost (d : DieSt) (r : Nat) (e : SeSt) : (d.setEng r e).pllLost = d.pllLost := by cases d; rfl
@[simp] theorem DieSt.setEng_load (d : DieSt) (r : Nat) (e : SeSt) : (d.setEng r e).load = d.load := by cases d; rfl
@[simp] theorem DieSt.setEng_nvm (d : DieSt) (r : Nat) (e : SeSt) : (d.setEng r e).nvm = d.nvm := by cases d; rfl
@[simp] theorem DieSt.setEng_rel (d : DieSt) (r : Nat) (e : SeSt) : (d.setEng r e).rel = d.rel := by cases d; rfl
@[simp] theorem DieSt.setEng_pwr (d : DieSt) (r : Nat) (e : SeSt) : (d.setEng r e).pwr = d.pwr := by cases d; rfl
@[simp] theorem DieSt.setEng_fuse (d : DieSt) (r : Nat) (e : SeSt) : (d.setEng r e).fuse = d.fuse := by cases d; rfl
@[simp] theorem DieSt.setEng_ref (d : DieSt) (r : Nat) (e : SeSt) : (d.setEng r e).ref = d.ref := by cases d; rfl
@[simp] theorem DieSt.setEng_met (d : DieSt) (r : Nat) (e : SeSt) : (d.setEng r e).met = d.met := by cases d; rfl
@[simp] theorem DieSt.setEng_ump (d : DieSt) (r : Nat) (e : SeSt) : (d.setEng r e).ump = d.ump := by cases d; rfl
@[simp] theorem DieSt.setEng_jtag (d : DieSt) (r : Nat) (e : SeSt) : (d.setEng r e).jtag = d.jtag := by cases d; rfl

/-! ### setQue -/

/-- All the replacement of a queue can do: the queue is replaced, and its flags go to their crossings. -/
theorem DieSt.setQue_cases (d : DieSt) (q : Nat) (v : QSt) :
    ∃ t, d.setQue q v = { d with q := d.q.set (fun _ => QSt.reset) q v, xing := t } := by
  have h : ∀ (c : Bool) (e : DieSt) (r : XRef) (n : Nat), ∃ t, (if c then e.xOffer r n else e) = { e with xing := t } := by
    intro c e r n
    cases c
    · exact ⟨e.xing, rfl⟩
    · exact e.xOffer_cases r n
  simp only [DieSt.setQue]
  obtain ⟨t, ht⟩ := h _ { d with q := d.q.set (fun _ => QSt.reset) q v } _ _
  obtain ⟨u, hu⟩ := h _ { d with q := d.q.set (fun _ => QSt.reset) q v, xing := t } _ _
  exact ⟨u, by rw [ht]; exact hu⟩

@[simp] theorem DieSt.setQue_idn (d : DieSt) (q : Nat) (v : QSt) : (d.setQue q v).idn = d.idn := by
  obtain ⟨t, h⟩ := d.setQue_cases q v; rw [h]
@[simp] theorem DieSt.setQue_regs (d : DieSt) (q : Nat) (v : QSt) : (d.setQue q v).regs = d.regs := by
  obtain ⟨t, h⟩ := d.setQue_cases q v; rw [h]
@[simp] theorem DieSt.setQue_resp (d : DieSt) (q : Nat) (v : QSt) : (d.setQue q v).resp = d.resp := by
  obtain ⟨t, h⟩ := d.setQue_cases q v; rw [h]
@[simp] theorem DieSt.setQue_rdLatch (d : DieSt) (q : Nat) (v : QSt) : (d.setQue q v).rdLatch = d.rdLatch := by
  obtain ⟨t, h⟩ := d.setQue_cases q v; rw [h]
@[simp] theorem DieSt.setQue_wrLatch (d : DieSt) (q : Nat) (v : QSt) : (d.setQue q v).wrLatch = d.wrLatch := by
  obtain ⟨t, h⟩ := d.setQue_cases q v; rw [h]
@[simp] theorem DieSt.setQue_free (d : DieSt) (q : Nat) (v : QSt) : (d.setQue q v).free = d.free := by
  obtain ⟨t, h⟩ := d.setQue_cases q v; rw [h]
@[simp] theorem DieSt.setQue_now (d : DieSt) (q : Nat) (v : QSt) : (d.setQue q v).now = d.now := by
  obtain ⟨t, h⟩ := d.setQue_cases q v; rw [h]
@[simp] theorem DieSt.setQue_mt (d : DieSt) (q : Nat) (v : QSt) : (d.setQue q v).mt = d.mt := by
  obtain ⟨t, h⟩ := d.setQue_cases q v; rw [h]
@[simp] theorem DieSt.setQue_raised (d : DieSt) (q : Nat) (v : QSt) : (d.setQue q v).raised = d.raised := by
  obtain ⟨t, h⟩ := d.setQue_cases q v; rw [h]
@[simp] theorem DieSt.setQue_coll (d : DieSt) (q : Nat) (v : QSt) : (d.setQue q v).coll = d.coll := by
  obtain ⟨t, h⟩ := d.setQue_cases q v; rw [h]
@[simp] theorem DieSt.setQue_evLast (d : DieSt) (q : Nat) (v : QSt) : (d.setQue q v).evLast = d.evLast := by
  obtain ⟨t, h⟩ := d.setQue_cases q v; rw [h]
@[simp] theorem DieSt.setQue_noRb (d : DieSt) (q : Nat) (v : QSt) : (d.setQue q v).noRb = d.noRb := by
  obtain ⟨t, h⟩ := d.setQue_cases q v; rw [h]
@[simp] theorem DieSt.setQue_fab (d : DieSt) (q : Nat) (v : QSt) : (d.setQue q v).fab = d.fab := by
  obtain ⟨t, h⟩ := d.setQue_cases q v; rw [h]
@[simp] theorem DieSt.setQue_pace (d : DieSt) (q : Nat) (v : QSt) : (d.setQue q v).pace = d.pace := by
  obtain ⟨t, h⟩ := d.setQue_cases q v; rw [h]
@[simp] theorem DieSt.setQue_se (d : DieSt) (q : Nat) (v : QSt) : (d.setQue q v).se = d.se := by
  obtain ⟨t, h⟩ := d.setQue_cases q v; rw [h]
@[simp] theorem DieSt.setQue_crc (d : DieSt) (q : Nat) (v : QSt) : (d.setQue q v).crc = d.crc := by
  obtain ⟨t, h⟩ := d.setQue_cases q v; rw [h]
@[simp] theorem DieSt.setQue_claims (d : DieSt) (q : Nat) (v : QSt) : (d.setQue q v).claims = d.claims := by
  obtain ⟨t, h⟩ := d.setQue_cases q v; rw [h]
@[simp] theorem DieSt.setQue_ros (d : DieSt) (q : Nat) (v : QSt) : (d.setQue q v).ros = d.ros := by
  obtain ⟨t, h⟩ := d.setQue_cases q v; rw [h]
@[simp] theorem DieSt.setQue_userX (d : DieSt) (q : Nat) (v : QSt) : (d.setQue q v).userX = d.userX := by
  obtain ⟨t, h⟩ := d.setQue_cases q v; rw [h]
@[simp] theorem DieSt.setQue_bankRst (d : DieSt) (q : Nat) (v : QSt) : (d.setQue q v).bankRst = d.bankRst := by
  obtain ⟨t, h⟩ := d.setQue_cases q v; rw [h]
@[simp] theorem DieSt.setQue_tapAt (d : DieSt) (q : Nat) (v : QSt) : (d.setQue q v).tapAt = d.tapAt := by
  obtain ⟨t, h⟩ := d.setQue_cases q v; rw [h]
@[simp] theorem DieSt.setQue_portAt (d : DieSt) (q : Nat) (v : QSt) : (d.setQue q v).portAt = d.portAt := by
  obtain ⟨t, h⟩ := d.setQue_cases q v; rw [h]
@[simp] theorem DieSt.setQue_chanAt (d : DieSt) (q : Nat) (v : QSt) : (d.setQue q v).chanAt = d.chanAt := by
  obtain ⟨t, h⟩ := d.setQue_cases q v; rw [h]
@[simp] theorem DieSt.setQue_slkAdm (d : DieSt) (q : Nat) (v : QSt) : (d.setQue q v).slkAdm = d.slkAdm := by
  obtain ⟨t, h⟩ := d.setQue_cases q v; rw [h]
@[simp] theorem DieSt.setQue_dmc (d : DieSt) (q : Nat) (v : QSt) : (d.setQue q v).dmc = d.dmc := by
  obtain ⟨t, h⟩ := d.setQue_cases q v; rw [h]
@[simp] theorem DieSt.setQue_slkHeld (d : DieSt) (q : Nat) (v : QSt) : (d.setQue q v).slkHeld = d.slkHeld := by
  obtain ⟨t, h⟩ := d.setQue_cases q v; rw [h]
@[simp] theorem DieSt.setQue_port (d : DieSt) (q : Nat) (v : QSt) : (d.setQue q v).port = d.port := by
  obtain ⟨t, h⟩ := d.setQue_cases q v; rw [h]
@[simp] theorem DieSt.setQue_cfgSeq (d : DieSt) (q : Nat) (v : QSt) : (d.setQue q v).cfgSeq = d.cfgSeq := by
  obtain ⟨t, h⟩ := d.setQue_cases q v; rw [h]
@[simp] theorem DieSt.setQue_mgmtIn (d : DieSt) (q : Nat) (v : QSt) : (d.setQue q v).mgmtIn = d.mgmtIn := by
  obtain ⟨t, h⟩ := d.setQue_cases q v; rw [h]
@[simp] theorem DieSt.setQue_chanSent (d : DieSt) (q : Nat) (v : QSt) : (d.setQue q v).chanSent = d.chanSent := by
  obtain ⟨t, h⟩ := d.setQue_cases q v; rw [h]
@[simp] theorem DieSt.setQue_chanZero (d : DieSt) (q : Nat) (v : QSt) : (d.setQue q v).chanZero = d.chanZero := by
  obtain ⟨t, h⟩ := d.setQue_cases q v; rw [h]
@[simp] theorem DieSt.setQue_txts (d : DieSt) (q : Nat) (v : QSt) : (d.setQue q v).txts = d.txts := by
  obtain ⟨t, h⟩ := d.setQue_cases q v; rw [h]
@[simp] theorem DieSt.setQue_ethCfg (d : DieSt) (q : Nat) (v : QSt) : (d.setQue q v).ethCfg = d.ethCfg := by
  obtain ⟨t, h⟩ := d.setQue_cases q v; rw [h]
@[simp] theorem DieSt.setQue_ethOut (d : DieSt) (q : Nat) (v : QSt) : (d.setQue q v).ethOut = d.ethOut := by
  obtain ⟨t, h⟩ := d.setQue_cases q v; rw [h]
@[simp] theorem DieSt.setQue_mtm (d : DieSt) (q : Nat) (v : QSt) : (d.setQue q v).mtm = d.mtm := by
  obtain ⟨t, h⟩ := d.setQue_cases q v; rw [h]
@[simp] theorem DieSt.setQue_hdrOk (d : DieSt) (q : Nat) (v : QSt) : (d.setQue q v).hdrOk = d.hdrOk := by
  obtain ⟨t, h⟩ := d.setQue_cases q v; rw [h]
@[simp] theorem DieSt.setQue_linkIn (d : DieSt) (q : Nat) (v : QSt) : (d.setQue q v).linkIn = d.linkIn := by
  obtain ⟨t, h⟩ := d.setQue_cases q v; rw [h]
@[simp] theorem DieSt.setQue_pin (d : DieSt) (q : Nat) (v : QSt) : (d.setQue q v).pin = d.pin := by
  obtain ⟨t, h⟩ := d.setQue_cases q v; rw [h]
@[simp] theorem DieSt.setQue_pinLevel (d : DieSt) (q : Nat) (v : QSt) : (d.setQue q v).pinLevel = d.pinLevel := by
  obtain ⟨t, h⟩ := d.setQue_cases q v; rw [h]
@[simp] theorem DieSt.setQue_plan (d : DieSt) (q : Nat) (v : QSt) : (d.setQue q v).plan = d.plan := by
  obtain ⟨t, h⟩ := d.setQue_cases q v; rw [h]
@[simp] theorem DieSt.setQue_pmPrev (d : DieSt) (q : Nat) (v : QSt) : (d.setQue q v).pmPrev = d.pmPrev := by
  obtain ⟨t, h⟩ := d.setQue_cases q v; rw [h]
@[simp] theorem DieSt.setQue_pmHits (d : DieSt) (q : Nat) (v : QSt) : (d.setQue q v).pmHits = d.pmHits := by
  obtain ⟨t, h⟩ := d.setQue_cases q v; rw [h]
@[simp] theorem DieSt.setQue_deb (d : DieSt) (q : Nat) (v : QSt) : (d.setQue q v).deb = d.deb := by
  obtain ⟨t, h⟩ := d.setQue_cases q v; rw [h]
@[simp] theorem DieSt.setQue_pllLost (d : DieSt) (q : Nat) (v : QSt) : (d.setQue q v).pllLost = d.pllLost := by
  obtain ⟨t, h⟩ := d.setQue_cases q v; rw [h]
@[simp] theorem DieSt.setQue_load (d : DieSt) (q : Nat) (v : QSt) : (d.setQue q v).load = d.load := by
  obtain ⟨t, h⟩ := d.setQue_cases q v; rw [h]
@[simp] theorem DieSt.setQue_nvm (d : DieSt) (q : Nat) (v : QSt) : (d.setQue q v).nvm = d.nvm := by
  obtain ⟨t, h⟩ := d.setQue_cases q v; rw [h]
@[simp] theorem DieSt.setQue_rel (d : DieSt) (q : Nat) (v : QSt) : (d.setQue q v).rel = d.rel := by
  obtain ⟨t, h⟩ := d.setQue_cases q v; rw [h]
@[simp] theorem DieSt.setQue_pwr (d : DieSt) (q : Nat) (v : QSt) : (d.setQue q v).pwr = d.pwr := by
  obtain ⟨t, h⟩ := d.setQue_cases q v; rw [h]
@[simp] theorem DieSt.setQue_fuse (d : DieSt) (q : Nat) (v : QSt) : (d.setQue q v).fuse = d.fuse := by
  obtain ⟨t, h⟩ := d.setQue_cases q v; rw [h]
@[simp] theorem DieSt.setQue_ref (d : DieSt) (q : Nat) (v : QSt) : (d.setQue q v).ref = d.ref := by
  obtain ⟨t, h⟩ := d.setQue_cases q v; rw [h]
@[simp] theorem DieSt.setQue_met (d : DieSt) (q : Nat) (v : QSt) : (d.setQue q v).met = d.met := by
  obtain ⟨t, h⟩ := d.setQue_cases q v; rw [h]
@[simp] theorem DieSt.setQue_ump (d : DieSt) (q : Nat) (v : QSt) : (d.setQue q v).ump = d.ump := by
  obtain ⟨t, h⟩ := d.setQue_cases q v; rw [h]
@[simp] theorem DieSt.setQue_jtag (d : DieSt) (q : Nat) (v : QSt) : (d.setQue q v).jtag = d.jtag := by
  obtain ⟨t, h⟩ := d.setQue_cases q v; rw [h]

/-! ### setCrc -/

@[simp] theorem DieSt.setCrc_idn (d : DieSt) (u : Nat) (v : CrcSt) : (d.setCrc u v).idn = d.idn := by cases d; rfl
@[simp] theorem DieSt.setCrc_regs (d : DieSt) (u : Nat) (v : CrcSt) : (d.setCrc u v).regs = d.regs := by cases d; rfl
@[simp] theorem DieSt.setCrc_resp (d : DieSt) (u : Nat) (v : CrcSt) : (d.setCrc u v).resp = d.resp := by cases d; rfl
@[simp] theorem DieSt.setCrc_rdLatch (d : DieSt) (u : Nat) (v : CrcSt) : (d.setCrc u v).rdLatch = d.rdLatch := by cases d; rfl
@[simp] theorem DieSt.setCrc_wrLatch (d : DieSt) (u : Nat) (v : CrcSt) : (d.setCrc u v).wrLatch = d.wrLatch := by cases d; rfl
@[simp] theorem DieSt.setCrc_free (d : DieSt) (u : Nat) (v : CrcSt) : (d.setCrc u v).free = d.free := by cases d; rfl
@[simp] theorem DieSt.setCrc_now (d : DieSt) (u : Nat) (v : CrcSt) : (d.setCrc u v).now = d.now := by cases d; rfl
@[simp] theorem DieSt.setCrc_mt (d : DieSt) (u : Nat) (v : CrcSt) : (d.setCrc u v).mt = d.mt := by cases d; rfl
@[simp] theorem DieSt.setCrc_raised (d : DieSt) (u : Nat) (v : CrcSt) : (d.setCrc u v).raised = d.raised := by cases d; rfl
@[simp] theorem DieSt.setCrc_coll (d : DieSt) (u : Nat) (v : CrcSt) : (d.setCrc u v).coll = d.coll := by cases d; rfl
@[simp] theorem DieSt.setCrc_evLast (d : DieSt) (u : Nat) (v : CrcSt) : (d.setCrc u v).evLast = d.evLast := by cases d; rfl
@[simp] theorem DieSt.setCrc_noRb (d : DieSt) (u : Nat) (v : CrcSt) : (d.setCrc u v).noRb = d.noRb := by cases d; rfl
@[simp] theorem DieSt.setCrc_fab (d : DieSt) (u : Nat) (v : CrcSt) : (d.setCrc u v).fab = d.fab := by cases d; rfl
@[simp] theorem DieSt.setCrc_pace (d : DieSt) (u : Nat) (v : CrcSt) : (d.setCrc u v).pace = d.pace := by cases d; rfl
@[simp] theorem DieSt.setCrc_se (d : DieSt) (u : Nat) (v : CrcSt) : (d.setCrc u v).se = d.se := by cases d; rfl
@[simp] theorem DieSt.setCrc_q (d : DieSt) (u : Nat) (v : CrcSt) : (d.setCrc u v).q = d.q := by cases d; rfl
@[simp] theorem DieSt.setCrc_claims (d : DieSt) (u : Nat) (v : CrcSt) : (d.setCrc u v).claims = d.claims := by cases d; rfl
@[simp] theorem DieSt.setCrc_ros (d : DieSt) (u : Nat) (v : CrcSt) : (d.setCrc u v).ros = d.ros := by cases d; rfl
@[simp] theorem DieSt.setCrc_userX (d : DieSt) (u : Nat) (v : CrcSt) : (d.setCrc u v).userX = d.userX := by cases d; rfl
@[simp] theorem DieSt.setCrc_bankRst (d : DieSt) (u : Nat) (v : CrcSt) : (d.setCrc u v).bankRst = d.bankRst := by cases d; rfl
@[simp] theorem DieSt.setCrc_xing (d : DieSt) (u : Nat) (v : CrcSt) : (d.setCrc u v).xing = d.xing := by cases d; rfl
@[simp] theorem DieSt.setCrc_tapAt (d : DieSt) (u : Nat) (v : CrcSt) : (d.setCrc u v).tapAt = d.tapAt := by cases d; rfl
@[simp] theorem DieSt.setCrc_portAt (d : DieSt) (u : Nat) (v : CrcSt) : (d.setCrc u v).portAt = d.portAt := by cases d; rfl
@[simp] theorem DieSt.setCrc_chanAt (d : DieSt) (u : Nat) (v : CrcSt) : (d.setCrc u v).chanAt = d.chanAt := by cases d; rfl
@[simp] theorem DieSt.setCrc_slkAdm (d : DieSt) (u : Nat) (v : CrcSt) : (d.setCrc u v).slkAdm = d.slkAdm := by cases d; rfl
@[simp] theorem DieSt.setCrc_dmc (d : DieSt) (u : Nat) (v : CrcSt) : (d.setCrc u v).dmc = d.dmc := by cases d; rfl
@[simp] theorem DieSt.setCrc_slkHeld (d : DieSt) (u : Nat) (v : CrcSt) : (d.setCrc u v).slkHeld = d.slkHeld := by cases d; rfl
@[simp] theorem DieSt.setCrc_port (d : DieSt) (u : Nat) (v : CrcSt) : (d.setCrc u v).port = d.port := by cases d; rfl
@[simp] theorem DieSt.setCrc_cfgSeq (d : DieSt) (u : Nat) (v : CrcSt) : (d.setCrc u v).cfgSeq = d.cfgSeq := by cases d; rfl
@[simp] theorem DieSt.setCrc_mgmtIn (d : DieSt) (u : Nat) (v : CrcSt) : (d.setCrc u v).mgmtIn = d.mgmtIn := by cases d; rfl
@[simp] theorem DieSt.setCrc_chanSent (d : DieSt) (u : Nat) (v : CrcSt) : (d.setCrc u v).chanSent = d.chanSent := by cases d; rfl
@[simp] theorem DieSt.setCrc_chanZero (d : DieSt) (u : Nat) (v : CrcSt) : (d.setCrc u v).chanZero = d.chanZero := by cases d; rfl
@[simp] theorem DieSt.setCrc_txts (d : DieSt) (u : Nat) (v : CrcSt) : (d.setCrc u v).txts = d.txts := by cases d; rfl
@[simp] theorem DieSt.setCrc_ethCfg (d : DieSt) (u : Nat) (v : CrcSt) : (d.setCrc u v).ethCfg = d.ethCfg := by cases d; rfl
@[simp] theorem DieSt.setCrc_ethOut (d : DieSt) (u : Nat) (v : CrcSt) : (d.setCrc u v).ethOut = d.ethOut := by cases d; rfl
@[simp] theorem DieSt.setCrc_mtm (d : DieSt) (u : Nat) (v : CrcSt) : (d.setCrc u v).mtm = d.mtm := by cases d; rfl
@[simp] theorem DieSt.setCrc_hdrOk (d : DieSt) (u : Nat) (v : CrcSt) : (d.setCrc u v).hdrOk = d.hdrOk := by cases d; rfl
@[simp] theorem DieSt.setCrc_linkIn (d : DieSt) (u : Nat) (v : CrcSt) : (d.setCrc u v).linkIn = d.linkIn := by cases d; rfl
@[simp] theorem DieSt.setCrc_pin (d : DieSt) (u : Nat) (v : CrcSt) : (d.setCrc u v).pin = d.pin := by cases d; rfl
@[simp] theorem DieSt.setCrc_pinLevel (d : DieSt) (u : Nat) (v : CrcSt) : (d.setCrc u v).pinLevel = d.pinLevel := by cases d; rfl
@[simp] theorem DieSt.setCrc_plan (d : DieSt) (u : Nat) (v : CrcSt) : (d.setCrc u v).plan = d.plan := by cases d; rfl
@[simp] theorem DieSt.setCrc_pmPrev (d : DieSt) (u : Nat) (v : CrcSt) : (d.setCrc u v).pmPrev = d.pmPrev := by cases d; rfl
@[simp] theorem DieSt.setCrc_pmHits (d : DieSt) (u : Nat) (v : CrcSt) : (d.setCrc u v).pmHits = d.pmHits := by cases d; rfl
@[simp] theorem DieSt.setCrc_deb (d : DieSt) (u : Nat) (v : CrcSt) : (d.setCrc u v).deb = d.deb := by cases d; rfl
@[simp] theorem DieSt.setCrc_pllLost (d : DieSt) (u : Nat) (v : CrcSt) : (d.setCrc u v).pllLost = d.pllLost := by cases d; rfl
@[simp] theorem DieSt.setCrc_load (d : DieSt) (u : Nat) (v : CrcSt) : (d.setCrc u v).load = d.load := by cases d; rfl
@[simp] theorem DieSt.setCrc_nvm (d : DieSt) (u : Nat) (v : CrcSt) : (d.setCrc u v).nvm = d.nvm := by cases d; rfl
@[simp] theorem DieSt.setCrc_rel (d : DieSt) (u : Nat) (v : CrcSt) : (d.setCrc u v).rel = d.rel := by cases d; rfl
@[simp] theorem DieSt.setCrc_pwr (d : DieSt) (u : Nat) (v : CrcSt) : (d.setCrc u v).pwr = d.pwr := by cases d; rfl
@[simp] theorem DieSt.setCrc_fuse (d : DieSt) (u : Nat) (v : CrcSt) : (d.setCrc u v).fuse = d.fuse := by cases d; rfl
@[simp] theorem DieSt.setCrc_ref (d : DieSt) (u : Nat) (v : CrcSt) : (d.setCrc u v).ref = d.ref := by cases d; rfl
@[simp] theorem DieSt.setCrc_met (d : DieSt) (u : Nat) (v : CrcSt) : (d.setCrc u v).met = d.met := by cases d; rfl
@[simp] theorem DieSt.setCrc_ump (d : DieSt) (u : Nat) (v : CrcSt) : (d.setCrc u v).ump = d.ump := by cases d; rfl
@[simp] theorem DieSt.setCrc_jtag (d : DieSt) (u : Nat) (v : CrcSt) : (d.setCrc u v).jtag = d.jtag := by cases d; rfl

/-! ### setCx -/

@[simp] theorem DieSt.setCx_idn (d : DieSt) (n : Nat) (c : CtxSt) : (d.setCx n c).idn = d.idn := by cases d; rfl
@[simp] theorem DieSt.setCx_regs (d : DieSt) (n : Nat) (c : CtxSt) : (d.setCx n c).regs = d.regs := by cases d; rfl
@[simp] theorem DieSt.setCx_resp (d : DieSt) (n : Nat) (c : CtxSt) : (d.setCx n c).resp = d.resp := by cases d; rfl
@[simp] theorem DieSt.setCx_rdLatch (d : DieSt) (n : Nat) (c : CtxSt) : (d.setCx n c).rdLatch = d.rdLatch := by cases d; rfl
@[simp] theorem DieSt.setCx_wrLatch (d : DieSt) (n : Nat) (c : CtxSt) : (d.setCx n c).wrLatch = d.wrLatch := by cases d; rfl
@[simp] theorem DieSt.setCx_free (d : DieSt) (n : Nat) (c : CtxSt) : (d.setCx n c).free = d.free := by cases d; rfl
@[simp] theorem DieSt.setCx_now (d : DieSt) (n : Nat) (c : CtxSt) : (d.setCx n c).now = d.now := by cases d; rfl
@[simp] theorem DieSt.setCx_mt (d : DieSt) (n : Nat) (c : CtxSt) : (d.setCx n c).mt = d.mt := by cases d; rfl
@[simp] theorem DieSt.setCx_raised (d : DieSt) (n : Nat) (c : CtxSt) : (d.setCx n c).raised = d.raised := by cases d; rfl
@[simp] theorem DieSt.setCx_coll (d : DieSt) (n : Nat) (c : CtxSt) : (d.setCx n c).coll = d.coll := by cases d; rfl
@[simp] theorem DieSt.setCx_evLast (d : DieSt) (n : Nat) (c : CtxSt) : (d.setCx n c).evLast = d.evLast := by cases d; rfl
@[simp] theorem DieSt.setCx_noRb (d : DieSt) (n : Nat) (c : CtxSt) : (d.setCx n c).noRb = d.noRb := by cases d; rfl
@[simp] theorem DieSt.setCx_fab (d : DieSt) (n : Nat) (c : CtxSt) : (d.setCx n c).fab = d.fab := by cases d; rfl
@[simp] theorem DieSt.setCx_pace (d : DieSt) (n : Nat) (c : CtxSt) : (d.setCx n c).pace = d.pace := by cases d; rfl
@[simp] theorem DieSt.setCx_se (d : DieSt) (n : Nat) (c : CtxSt) : (d.setCx n c).se = d.se := by cases d; rfl
@[simp] theorem DieSt.setCx_q (d : DieSt) (n : Nat) (c : CtxSt) : (d.setCx n c).q = d.q := by cases d; rfl
@[simp] theorem DieSt.setCx_crc (d : DieSt) (n : Nat) (c : CtxSt) : (d.setCx n c).crc = d.crc := by cases d; rfl
@[simp] theorem DieSt.setCx_claims (d : DieSt) (n : Nat) (c : CtxSt) : (d.setCx n c).claims = d.claims := by cases d; rfl
@[simp] theorem DieSt.setCx_userX (d : DieSt) (n : Nat) (c : CtxSt) : (d.setCx n c).userX = d.userX := by cases d; rfl
@[simp] theorem DieSt.setCx_bankRst (d : DieSt) (n : Nat) (c : CtxSt) : (d.setCx n c).bankRst = d.bankRst := by cases d; rfl
@[simp] theorem DieSt.setCx_xing (d : DieSt) (n : Nat) (c : CtxSt) : (d.setCx n c).xing = d.xing := by cases d; rfl
@[simp] theorem DieSt.setCx_tapAt (d : DieSt) (n : Nat) (c : CtxSt) : (d.setCx n c).tapAt = d.tapAt := by cases d; rfl
@[simp] theorem DieSt.setCx_portAt (d : DieSt) (n : Nat) (c : CtxSt) : (d.setCx n c).portAt = d.portAt := by cases d; rfl
@[simp] theorem DieSt.setCx_chanAt (d : DieSt) (n : Nat) (c : CtxSt) : (d.setCx n c).chanAt = d.chanAt := by cases d; rfl
@[simp] theorem DieSt.setCx_slkAdm (d : DieSt) (n : Nat) (c : CtxSt) : (d.setCx n c).slkAdm = d.slkAdm := by cases d; rfl
@[simp] theorem DieSt.setCx_dmc (d : DieSt) (n : Nat) (c : CtxSt) : (d.setCx n c).dmc = d.dmc := by cases d; rfl
@[simp] theorem DieSt.setCx_slkHeld (d : DieSt) (n : Nat) (c : CtxSt) : (d.setCx n c).slkHeld = d.slkHeld := by cases d; rfl
@[simp] theorem DieSt.setCx_port (d : DieSt) (n : Nat) (c : CtxSt) : (d.setCx n c).port = d.port := by cases d; rfl
@[simp] theorem DieSt.setCx_cfgSeq (d : DieSt) (n : Nat) (c : CtxSt) : (d.setCx n c).cfgSeq = d.cfgSeq := by cases d; rfl
@[simp] theorem DieSt.setCx_mgmtIn (d : DieSt) (n : Nat) (c : CtxSt) : (d.setCx n c).mgmtIn = d.mgmtIn := by cases d; rfl
@[simp] theorem DieSt.setCx_chanSent (d : DieSt) (n : Nat) (c : CtxSt) : (d.setCx n c).chanSent = d.chanSent := by cases d; rfl
@[simp] theorem DieSt.setCx_chanZero (d : DieSt) (n : Nat) (c : CtxSt) : (d.setCx n c).chanZero = d.chanZero := by cases d; rfl
@[simp] theorem DieSt.setCx_txts (d : DieSt) (n : Nat) (c : CtxSt) : (d.setCx n c).txts = d.txts := by cases d; rfl
@[simp] theorem DieSt.setCx_ethCfg (d : DieSt) (n : Nat) (c : CtxSt) : (d.setCx n c).ethCfg = d.ethCfg := by cases d; rfl
@[simp] theorem DieSt.setCx_ethOut (d : DieSt) (n : Nat) (c : CtxSt) : (d.setCx n c).ethOut = d.ethOut := by cases d; rfl
@[simp] theorem DieSt.setCx_mtm (d : DieSt) (n : Nat) (c : CtxSt) : (d.setCx n c).mtm = d.mtm := by cases d; rfl
@[simp] theorem DieSt.setCx_hdrOk (d : DieSt) (n : Nat) (c : CtxSt) : (d.setCx n c).hdrOk = d.hdrOk := by cases d; rfl
@[simp] theorem DieSt.setCx_linkIn (d : DieSt) (n : Nat) (c : CtxSt) : (d.setCx n c).linkIn = d.linkIn := by cases d; rfl
@[simp] theorem DieSt.setCx_pin (d : DieSt) (n : Nat) (c : CtxSt) : (d.setCx n c).pin = d.pin := by cases d; rfl
@[simp] theorem DieSt.setCx_pinLevel (d : DieSt) (n : Nat) (c : CtxSt) : (d.setCx n c).pinLevel = d.pinLevel := by cases d; rfl
@[simp] theorem DieSt.setCx_plan (d : DieSt) (n : Nat) (c : CtxSt) : (d.setCx n c).plan = d.plan := by cases d; rfl
@[simp] theorem DieSt.setCx_pmPrev (d : DieSt) (n : Nat) (c : CtxSt) : (d.setCx n c).pmPrev = d.pmPrev := by cases d; rfl
@[simp] theorem DieSt.setCx_pmHits (d : DieSt) (n : Nat) (c : CtxSt) : (d.setCx n c).pmHits = d.pmHits := by cases d; rfl
@[simp] theorem DieSt.setCx_deb (d : DieSt) (n : Nat) (c : CtxSt) : (d.setCx n c).deb = d.deb := by cases d; rfl
@[simp] theorem DieSt.setCx_pllLost (d : DieSt) (n : Nat) (c : CtxSt) : (d.setCx n c).pllLost = d.pllLost := by cases d; rfl
@[simp] theorem DieSt.setCx_load (d : DieSt) (n : Nat) (c : CtxSt) : (d.setCx n c).load = d.load := by cases d; rfl
@[simp] theorem DieSt.setCx_nvm (d : DieSt) (n : Nat) (c : CtxSt) : (d.setCx n c).nvm = d.nvm := by cases d; rfl
@[simp] theorem DieSt.setCx_rel (d : DieSt) (n : Nat) (c : CtxSt) : (d.setCx n c).rel = d.rel := by cases d; rfl
@[simp] theorem DieSt.setCx_pwr (d : DieSt) (n : Nat) (c : CtxSt) : (d.setCx n c).pwr = d.pwr := by cases d; rfl
@[simp] theorem DieSt.setCx_fuse (d : DieSt) (n : Nat) (c : CtxSt) : (d.setCx n c).fuse = d.fuse := by cases d; rfl
@[simp] theorem DieSt.setCx_ref (d : DieSt) (n : Nat) (c : CtxSt) : (d.setCx n c).ref = d.ref := by cases d; rfl
@[simp] theorem DieSt.setCx_met (d : DieSt) (n : Nat) (c : CtxSt) : (d.setCx n c).met = d.met := by cases d; rfl
@[simp] theorem DieSt.setCx_ump (d : DieSt) (n : Nat) (c : CtxSt) : (d.setCx n c).ump = d.ump := by cases d; rfl
@[simp] theorem DieSt.setCx_jtag (d : DieSt) (n : Nat) (c : CtxSt) : (d.setCx n c).jtag = d.jtag := by cases d; rfl

/-! ### setRe -/

@[simp] theorem DieSt.setRe_idn (d : DieSt) (r : Nat) (e : EngSt) : (d.setRe r e).idn = d.idn := by cases d; rfl
@[simp] theorem DieSt.setRe_regs (d : DieSt) (r : Nat) (e : EngSt) : (d.setRe r e).regs = d.regs := by cases d; rfl
@[simp] theorem DieSt.setRe_resp (d : DieSt) (r : Nat) (e : EngSt) : (d.setRe r e).resp = d.resp := by cases d; rfl
@[simp] theorem DieSt.setRe_rdLatch (d : DieSt) (r : Nat) (e : EngSt) : (d.setRe r e).rdLatch = d.rdLatch := by cases d; rfl
@[simp] theorem DieSt.setRe_wrLatch (d : DieSt) (r : Nat) (e : EngSt) : (d.setRe r e).wrLatch = d.wrLatch := by cases d; rfl
@[simp] theorem DieSt.setRe_free (d : DieSt) (r : Nat) (e : EngSt) : (d.setRe r e).free = d.free := by cases d; rfl
@[simp] theorem DieSt.setRe_now (d : DieSt) (r : Nat) (e : EngSt) : (d.setRe r e).now = d.now := by cases d; rfl
@[simp] theorem DieSt.setRe_mt (d : DieSt) (r : Nat) (e : EngSt) : (d.setRe r e).mt = d.mt := by cases d; rfl
@[simp] theorem DieSt.setRe_raised (d : DieSt) (r : Nat) (e : EngSt) : (d.setRe r e).raised = d.raised := by cases d; rfl
@[simp] theorem DieSt.setRe_coll (d : DieSt) (r : Nat) (e : EngSt) : (d.setRe r e).coll = d.coll := by cases d; rfl
@[simp] theorem DieSt.setRe_evLast (d : DieSt) (r : Nat) (e : EngSt) : (d.setRe r e).evLast = d.evLast := by cases d; rfl
@[simp] theorem DieSt.setRe_noRb (d : DieSt) (r : Nat) (e : EngSt) : (d.setRe r e).noRb = d.noRb := by cases d; rfl
@[simp] theorem DieSt.setRe_fab (d : DieSt) (r : Nat) (e : EngSt) : (d.setRe r e).fab = d.fab := by cases d; rfl
@[simp] theorem DieSt.setRe_pace (d : DieSt) (r : Nat) (e : EngSt) : (d.setRe r e).pace = d.pace := by cases d; rfl
@[simp] theorem DieSt.setRe_se (d : DieSt) (r : Nat) (e : EngSt) : (d.setRe r e).se = d.se := by cases d; rfl
@[simp] theorem DieSt.setRe_q (d : DieSt) (r : Nat) (e : EngSt) : (d.setRe r e).q = d.q := by cases d; rfl
@[simp] theorem DieSt.setRe_crc (d : DieSt) (r : Nat) (e : EngSt) : (d.setRe r e).crc = d.crc := by cases d; rfl
@[simp] theorem DieSt.setRe_claims (d : DieSt) (r : Nat) (e : EngSt) : (d.setRe r e).claims = d.claims := by cases d; rfl
@[simp] theorem DieSt.setRe_userX (d : DieSt) (r : Nat) (e : EngSt) : (d.setRe r e).userX = d.userX := by cases d; rfl
@[simp] theorem DieSt.setRe_bankRst (d : DieSt) (r : Nat) (e : EngSt) : (d.setRe r e).bankRst = d.bankRst := by cases d; rfl
@[simp] theorem DieSt.setRe_xing (d : DieSt) (r : Nat) (e : EngSt) : (d.setRe r e).xing = d.xing := by cases d; rfl
@[simp] theorem DieSt.setRe_tapAt (d : DieSt) (r : Nat) (e : EngSt) : (d.setRe r e).tapAt = d.tapAt := by cases d; rfl
@[simp] theorem DieSt.setRe_portAt (d : DieSt) (r : Nat) (e : EngSt) : (d.setRe r e).portAt = d.portAt := by cases d; rfl
@[simp] theorem DieSt.setRe_chanAt (d : DieSt) (r : Nat) (e : EngSt) : (d.setRe r e).chanAt = d.chanAt := by cases d; rfl
@[simp] theorem DieSt.setRe_slkAdm (d : DieSt) (r : Nat) (e : EngSt) : (d.setRe r e).slkAdm = d.slkAdm := by cases d; rfl
@[simp] theorem DieSt.setRe_dmc (d : DieSt) (r : Nat) (e : EngSt) : (d.setRe r e).dmc = d.dmc := by cases d; rfl
@[simp] theorem DieSt.setRe_slkHeld (d : DieSt) (r : Nat) (e : EngSt) : (d.setRe r e).slkHeld = d.slkHeld := by cases d; rfl
@[simp] theorem DieSt.setRe_port (d : DieSt) (r : Nat) (e : EngSt) : (d.setRe r e).port = d.port := by cases d; rfl
@[simp] theorem DieSt.setRe_cfgSeq (d : DieSt) (r : Nat) (e : EngSt) : (d.setRe r e).cfgSeq = d.cfgSeq := by cases d; rfl
@[simp] theorem DieSt.setRe_mgmtIn (d : DieSt) (r : Nat) (e : EngSt) : (d.setRe r e).mgmtIn = d.mgmtIn := by cases d; rfl
@[simp] theorem DieSt.setRe_chanSent (d : DieSt) (r : Nat) (e : EngSt) : (d.setRe r e).chanSent = d.chanSent := by cases d; rfl
@[simp] theorem DieSt.setRe_chanZero (d : DieSt) (r : Nat) (e : EngSt) : (d.setRe r e).chanZero = d.chanZero := by cases d; rfl
@[simp] theorem DieSt.setRe_txts (d : DieSt) (r : Nat) (e : EngSt) : (d.setRe r e).txts = d.txts := by cases d; rfl
@[simp] theorem DieSt.setRe_ethCfg (d : DieSt) (r : Nat) (e : EngSt) : (d.setRe r e).ethCfg = d.ethCfg := by cases d; rfl
@[simp] theorem DieSt.setRe_ethOut (d : DieSt) (r : Nat) (e : EngSt) : (d.setRe r e).ethOut = d.ethOut := by cases d; rfl
@[simp] theorem DieSt.setRe_mtm (d : DieSt) (r : Nat) (e : EngSt) : (d.setRe r e).mtm = d.mtm := by cases d; rfl
@[simp] theorem DieSt.setRe_hdrOk (d : DieSt) (r : Nat) (e : EngSt) : (d.setRe r e).hdrOk = d.hdrOk := by cases d; rfl
@[simp] theorem DieSt.setRe_linkIn (d : DieSt) (r : Nat) (e : EngSt) : (d.setRe r e).linkIn = d.linkIn := by cases d; rfl
@[simp] theorem DieSt.setRe_pin (d : DieSt) (r : Nat) (e : EngSt) : (d.setRe r e).pin = d.pin := by cases d; rfl
@[simp] theorem DieSt.setRe_pinLevel (d : DieSt) (r : Nat) (e : EngSt) : (d.setRe r e).pinLevel = d.pinLevel := by cases d; rfl
@[simp] theorem DieSt.setRe_plan (d : DieSt) (r : Nat) (e : EngSt) : (d.setRe r e).plan = d.plan := by cases d; rfl
@[simp] theorem DieSt.setRe_pmPrev (d : DieSt) (r : Nat) (e : EngSt) : (d.setRe r e).pmPrev = d.pmPrev := by cases d; rfl
@[simp] theorem DieSt.setRe_pmHits (d : DieSt) (r : Nat) (e : EngSt) : (d.setRe r e).pmHits = d.pmHits := by cases d; rfl
@[simp] theorem DieSt.setRe_deb (d : DieSt) (r : Nat) (e : EngSt) : (d.setRe r e).deb = d.deb := by cases d; rfl
@[simp] theorem DieSt.setRe_pllLost (d : DieSt) (r : Nat) (e : EngSt) : (d.setRe r e).pllLost = d.pllLost := by cases d; rfl
@[simp] theorem DieSt.setRe_load (d : DieSt) (r : Nat) (e : EngSt) : (d.setRe r e).load = d.load := by cases d; rfl
@[simp] theorem DieSt.setRe_nvm (d : DieSt) (r : Nat) (e : EngSt) : (d.setRe r e).nvm = d.nvm := by cases d; rfl
@[simp] theorem DieSt.setRe_rel (d : DieSt) (r : Nat) (e : EngSt) : (d.setRe r e).rel = d.rel := by cases d; rfl
@[simp] theorem DieSt.setRe_pwr (d : DieSt) (r : Nat) (e : EngSt) : (d.setRe r e).pwr = d.pwr := by cases d; rfl
@[simp] theorem DieSt.setRe_fuse (d : DieSt) (r : Nat) (e : EngSt) : (d.setRe r e).fuse = d.fuse := by cases d; rfl
@[simp] theorem DieSt.setRe_ref (d : DieSt) (r : Nat) (e : EngSt) : (d.setRe r e).ref = d.ref := by cases d; rfl
@[simp] theorem DieSt.setRe_met (d : DieSt) (r : Nat) (e : EngSt) : (d.setRe r e).met = d.met := by cases d; rfl
@[simp] theorem DieSt.setRe_ump (d : DieSt) (r : Nat) (e : EngSt) : (d.setRe r e).ump = d.ump := by cases d; rfl
@[simp] theorem DieSt.setRe_jtag (d : DieSt) (r : Nat) (e : EngSt) : (d.setRe r e).jtag = d.jtag := by cases d; rfl

/-! ### setCh -/

@[simp] theorem DieSt.setCh_idn (d : DieSt) (c : Nat) (v : DmcSt) : (d.setCh c v).idn = d.idn := by cases d; rfl
@[simp] theorem DieSt.setCh_regs (d : DieSt) (c : Nat) (v : DmcSt) : (d.setCh c v).regs = d.regs := by cases d; rfl
@[simp] theorem DieSt.setCh_resp (d : DieSt) (c : Nat) (v : DmcSt) : (d.setCh c v).resp = d.resp := by cases d; rfl
@[simp] theorem DieSt.setCh_rdLatch (d : DieSt) (c : Nat) (v : DmcSt) : (d.setCh c v).rdLatch = d.rdLatch := by cases d; rfl
@[simp] theorem DieSt.setCh_wrLatch (d : DieSt) (c : Nat) (v : DmcSt) : (d.setCh c v).wrLatch = d.wrLatch := by cases d; rfl
@[simp] theorem DieSt.setCh_free (d : DieSt) (c : Nat) (v : DmcSt) : (d.setCh c v).free = d.free := by cases d; rfl
@[simp] theorem DieSt.setCh_now (d : DieSt) (c : Nat) (v : DmcSt) : (d.setCh c v).now = d.now := by cases d; rfl
@[simp] theorem DieSt.setCh_mt (d : DieSt) (c : Nat) (v : DmcSt) : (d.setCh c v).mt = d.mt := by cases d; rfl
@[simp] theorem DieSt.setCh_raised (d : DieSt) (c : Nat) (v : DmcSt) : (d.setCh c v).raised = d.raised := by cases d; rfl
@[simp] theorem DieSt.setCh_coll (d : DieSt) (c : Nat) (v : DmcSt) : (d.setCh c v).coll = d.coll := by cases d; rfl
@[simp] theorem DieSt.setCh_evLast (d : DieSt) (c : Nat) (v : DmcSt) : (d.setCh c v).evLast = d.evLast := by cases d; rfl
@[simp] theorem DieSt.setCh_noRb (d : DieSt) (c : Nat) (v : DmcSt) : (d.setCh c v).noRb = d.noRb := by cases d; rfl
@[simp] theorem DieSt.setCh_fab (d : DieSt) (c : Nat) (v : DmcSt) : (d.setCh c v).fab = d.fab := by cases d; rfl
@[simp] theorem DieSt.setCh_pace (d : DieSt) (c : Nat) (v : DmcSt) : (d.setCh c v).pace = d.pace := by cases d; rfl
@[simp] theorem DieSt.setCh_se (d : DieSt) (c : Nat) (v : DmcSt) : (d.setCh c v).se = d.se := by cases d; rfl
@[simp] theorem DieSt.setCh_q (d : DieSt) (c : Nat) (v : DmcSt) : (d.setCh c v).q = d.q := by cases d; rfl
@[simp] theorem DieSt.setCh_crc (d : DieSt) (c : Nat) (v : DmcSt) : (d.setCh c v).crc = d.crc := by cases d; rfl
@[simp] theorem DieSt.setCh_claims (d : DieSt) (c : Nat) (v : DmcSt) : (d.setCh c v).claims = d.claims := by cases d; rfl
@[simp] theorem DieSt.setCh_ros (d : DieSt) (c : Nat) (v : DmcSt) : (d.setCh c v).ros = d.ros := by cases d; rfl
@[simp] theorem DieSt.setCh_userX (d : DieSt) (c : Nat) (v : DmcSt) : (d.setCh c v).userX = d.userX := by cases d; rfl
@[simp] theorem DieSt.setCh_bankRst (d : DieSt) (c : Nat) (v : DmcSt) : (d.setCh c v).bankRst = d.bankRst := by cases d; rfl
@[simp] theorem DieSt.setCh_xing (d : DieSt) (c : Nat) (v : DmcSt) : (d.setCh c v).xing = d.xing := by cases d; rfl
@[simp] theorem DieSt.setCh_tapAt (d : DieSt) (c : Nat) (v : DmcSt) : (d.setCh c v).tapAt = d.tapAt := by cases d; rfl
@[simp] theorem DieSt.setCh_portAt (d : DieSt) (c : Nat) (v : DmcSt) : (d.setCh c v).portAt = d.portAt := by cases d; rfl
@[simp] theorem DieSt.setCh_chanAt (d : DieSt) (c : Nat) (v : DmcSt) : (d.setCh c v).chanAt = d.chanAt := by cases d; rfl
@[simp] theorem DieSt.setCh_slkAdm (d : DieSt) (c : Nat) (v : DmcSt) : (d.setCh c v).slkAdm = d.slkAdm := by cases d; rfl
@[simp] theorem DieSt.setCh_slkHeld (d : DieSt) (c : Nat) (v : DmcSt) : (d.setCh c v).slkHeld = d.slkHeld := by cases d; rfl
@[simp] theorem DieSt.setCh_port (d : DieSt) (c : Nat) (v : DmcSt) : (d.setCh c v).port = d.port := by cases d; rfl
@[simp] theorem DieSt.setCh_cfgSeq (d : DieSt) (c : Nat) (v : DmcSt) : (d.setCh c v).cfgSeq = d.cfgSeq := by cases d; rfl
@[simp] theorem DieSt.setCh_mgmtIn (d : DieSt) (c : Nat) (v : DmcSt) : (d.setCh c v).mgmtIn = d.mgmtIn := by cases d; rfl
@[simp] theorem DieSt.setCh_chanSent (d : DieSt) (c : Nat) (v : DmcSt) : (d.setCh c v).chanSent = d.chanSent := by cases d; rfl
@[simp] theorem DieSt.setCh_chanZero (d : DieSt) (c : Nat) (v : DmcSt) : (d.setCh c v).chanZero = d.chanZero := by cases d; rfl
@[simp] theorem DieSt.setCh_txts (d : DieSt) (c : Nat) (v : DmcSt) : (d.setCh c v).txts = d.txts := by cases d; rfl
@[simp] theorem DieSt.setCh_ethCfg (d : DieSt) (c : Nat) (v : DmcSt) : (d.setCh c v).ethCfg = d.ethCfg := by cases d; rfl
@[simp] theorem DieSt.setCh_ethOut (d : DieSt) (c : Nat) (v : DmcSt) : (d.setCh c v).ethOut = d.ethOut := by cases d; rfl
@[simp] theorem DieSt.setCh_mtm (d : DieSt) (c : Nat) (v : DmcSt) : (d.setCh c v).mtm = d.mtm := by cases d; rfl
@[simp] theorem DieSt.setCh_hdrOk (d : DieSt) (c : Nat) (v : DmcSt) : (d.setCh c v).hdrOk = d.hdrOk := by cases d; rfl
@[simp] theorem DieSt.setCh_linkIn (d : DieSt) (c : Nat) (v : DmcSt) : (d.setCh c v).linkIn = d.linkIn := by cases d; rfl
@[simp] theorem DieSt.setCh_pin (d : DieSt) (c : Nat) (v : DmcSt) : (d.setCh c v).pin = d.pin := by cases d; rfl
@[simp] theorem DieSt.setCh_pinLevel (d : DieSt) (c : Nat) (v : DmcSt) : (d.setCh c v).pinLevel = d.pinLevel := by cases d; rfl
@[simp] theorem DieSt.setCh_plan (d : DieSt) (c : Nat) (v : DmcSt) : (d.setCh c v).plan = d.plan := by cases d; rfl
@[simp] theorem DieSt.setCh_pmPrev (d : DieSt) (c : Nat) (v : DmcSt) : (d.setCh c v).pmPrev = d.pmPrev := by cases d; rfl
@[simp] theorem DieSt.setCh_pmHits (d : DieSt) (c : Nat) (v : DmcSt) : (d.setCh c v).pmHits = d.pmHits := by cases d; rfl
@[simp] theorem DieSt.setCh_deb (d : DieSt) (c : Nat) (v : DmcSt) : (d.setCh c v).deb = d.deb := by cases d; rfl
@[simp] theorem DieSt.setCh_pllLost (d : DieSt) (c : Nat) (v : DmcSt) : (d.setCh c v).pllLost = d.pllLost := by cases d; rfl
@[simp] theorem DieSt.setCh_load (d : DieSt) (c : Nat) (v : DmcSt) : (d.setCh c v).load = d.load := by cases d; rfl
@[simp] theorem DieSt.setCh_nvm (d : DieSt) (c : Nat) (v : DmcSt) : (d.setCh c v).nvm = d.nvm := by cases d; rfl
@[simp] theorem DieSt.setCh_rel (d : DieSt) (c : Nat) (v : DmcSt) : (d.setCh c v).rel = d.rel := by cases d; rfl
@[simp] theorem DieSt.setCh_pwr (d : DieSt) (c : Nat) (v : DmcSt) : (d.setCh c v).pwr = d.pwr := by cases d; rfl
@[simp] theorem DieSt.setCh_fuse (d : DieSt) (c : Nat) (v : DmcSt) : (d.setCh c v).fuse = d.fuse := by cases d; rfl
@[simp] theorem DieSt.setCh_ref (d : DieSt) (c : Nat) (v : DmcSt) : (d.setCh c v).ref = d.ref := by cases d; rfl
@[simp] theorem DieSt.setCh_met (d : DieSt) (c : Nat) (v : DmcSt) : (d.setCh c v).met = d.met := by cases d; rfl
@[simp] theorem DieSt.setCh_ump (d : DieSt) (c : Nat) (v : DmcSt) : (d.setCh c v).ump = d.ump := by cases d; rfl
@[simp] theorem DieSt.setCh_jtag (d : DieSt) (c : Nat) (v : DmcSt) : (d.setCh c v).jtag = d.jtag := by cases d; rfl

/-! ### setPrt -/

@[simp] theorem DieSt.setPrt_idn (d : DieSt) (p : Nat) (v : PortSt) : (d.setPrt p v).idn = d.idn := by cases d; rfl
@[simp] theorem DieSt.setPrt_regs (d : DieSt) (p : Nat) (v : PortSt) : (d.setPrt p v).regs = d.regs := by cases d; rfl
@[simp] theorem DieSt.setPrt_resp (d : DieSt) (p : Nat) (v : PortSt) : (d.setPrt p v).resp = d.resp := by cases d; rfl
@[simp] theorem DieSt.setPrt_rdLatch (d : DieSt) (p : Nat) (v : PortSt) : (d.setPrt p v).rdLatch = d.rdLatch := by cases d; rfl
@[simp] theorem DieSt.setPrt_wrLatch (d : DieSt) (p : Nat) (v : PortSt) : (d.setPrt p v).wrLatch = d.wrLatch := by cases d; rfl
@[simp] theorem DieSt.setPrt_free (d : DieSt) (p : Nat) (v : PortSt) : (d.setPrt p v).free = d.free := by cases d; rfl
@[simp] theorem DieSt.setPrt_now (d : DieSt) (p : Nat) (v : PortSt) : (d.setPrt p v).now = d.now := by cases d; rfl
@[simp] theorem DieSt.setPrt_mt (d : DieSt) (p : Nat) (v : PortSt) : (d.setPrt p v).mt = d.mt := by cases d; rfl
@[simp] theorem DieSt.setPrt_raised (d : DieSt) (p : Nat) (v : PortSt) : (d.setPrt p v).raised = d.raised := by cases d; rfl
@[simp] theorem DieSt.setPrt_coll (d : DieSt) (p : Nat) (v : PortSt) : (d.setPrt p v).coll = d.coll := by cases d; rfl
@[simp] theorem DieSt.setPrt_evLast (d : DieSt) (p : Nat) (v : PortSt) : (d.setPrt p v).evLast = d.evLast := by cases d; rfl
@[simp] theorem DieSt.setPrt_noRb (d : DieSt) (p : Nat) (v : PortSt) : (d.setPrt p v).noRb = d.noRb := by cases d; rfl
@[simp] theorem DieSt.setPrt_fab (d : DieSt) (p : Nat) (v : PortSt) : (d.setPrt p v).fab = d.fab := by cases d; rfl
@[simp] theorem DieSt.setPrt_pace (d : DieSt) (p : Nat) (v : PortSt) : (d.setPrt p v).pace = d.pace := by cases d; rfl
@[simp] theorem DieSt.setPrt_se (d : DieSt) (p : Nat) (v : PortSt) : (d.setPrt p v).se = d.se := by cases d; rfl
@[simp] theorem DieSt.setPrt_q (d : DieSt) (p : Nat) (v : PortSt) : (d.setPrt p v).q = d.q := by cases d; rfl
@[simp] theorem DieSt.setPrt_crc (d : DieSt) (p : Nat) (v : PortSt) : (d.setPrt p v).crc = d.crc := by cases d; rfl
@[simp] theorem DieSt.setPrt_claims (d : DieSt) (p : Nat) (v : PortSt) : (d.setPrt p v).claims = d.claims := by cases d; rfl
@[simp] theorem DieSt.setPrt_ros (d : DieSt) (p : Nat) (v : PortSt) : (d.setPrt p v).ros = d.ros := by cases d; rfl
@[simp] theorem DieSt.setPrt_userX (d : DieSt) (p : Nat) (v : PortSt) : (d.setPrt p v).userX = d.userX := by cases d; rfl
@[simp] theorem DieSt.setPrt_bankRst (d : DieSt) (p : Nat) (v : PortSt) : (d.setPrt p v).bankRst = d.bankRst := by cases d; rfl
@[simp] theorem DieSt.setPrt_xing (d : DieSt) (p : Nat) (v : PortSt) : (d.setPrt p v).xing = d.xing := by cases d; rfl
@[simp] theorem DieSt.setPrt_tapAt (d : DieSt) (p : Nat) (v : PortSt) : (d.setPrt p v).tapAt = d.tapAt := by cases d; rfl
@[simp] theorem DieSt.setPrt_portAt (d : DieSt) (p : Nat) (v : PortSt) : (d.setPrt p v).portAt = d.portAt := by cases d; rfl
@[simp] theorem DieSt.setPrt_chanAt (d : DieSt) (p : Nat) (v : PortSt) : (d.setPrt p v).chanAt = d.chanAt := by cases d; rfl
@[simp] theorem DieSt.setPrt_slkAdm (d : DieSt) (p : Nat) (v : PortSt) : (d.setPrt p v).slkAdm = d.slkAdm := by cases d; rfl
@[simp] theorem DieSt.setPrt_dmc (d : DieSt) (p : Nat) (v : PortSt) : (d.setPrt p v).dmc = d.dmc := by cases d; rfl
@[simp] theorem DieSt.setPrt_slkHeld (d : DieSt) (p : Nat) (v : PortSt) : (d.setPrt p v).slkHeld = d.slkHeld := by cases d; rfl
@[simp] theorem DieSt.setPrt_cfgSeq (d : DieSt) (p : Nat) (v : PortSt) : (d.setPrt p v).cfgSeq = d.cfgSeq := by cases d; rfl
@[simp] theorem DieSt.setPrt_mgmtIn (d : DieSt) (p : Nat) (v : PortSt) : (d.setPrt p v).mgmtIn = d.mgmtIn := by cases d; rfl
@[simp] theorem DieSt.setPrt_chanSent (d : DieSt) (p : Nat) (v : PortSt) : (d.setPrt p v).chanSent = d.chanSent := by cases d; rfl
@[simp] theorem DieSt.setPrt_chanZero (d : DieSt) (p : Nat) (v : PortSt) : (d.setPrt p v).chanZero = d.chanZero := by cases d; rfl
@[simp] theorem DieSt.setPrt_txts (d : DieSt) (p : Nat) (v : PortSt) : (d.setPrt p v).txts = d.txts := by cases d; rfl
@[simp] theorem DieSt.setPrt_ethCfg (d : DieSt) (p : Nat) (v : PortSt) : (d.setPrt p v).ethCfg = d.ethCfg := by cases d; rfl
@[simp] theorem DieSt.setPrt_ethOut (d : DieSt) (p : Nat) (v : PortSt) : (d.setPrt p v).ethOut = d.ethOut := by cases d; rfl
@[simp] theorem DieSt.setPrt_mtm (d : DieSt) (p : Nat) (v : PortSt) : (d.setPrt p v).mtm = d.mtm := by cases d; rfl
@[simp] theorem DieSt.setPrt_hdrOk (d : DieSt) (p : Nat) (v : PortSt) : (d.setPrt p v).hdrOk = d.hdrOk := by cases d; rfl
@[simp] theorem DieSt.setPrt_linkIn (d : DieSt) (p : Nat) (v : PortSt) : (d.setPrt p v).linkIn = d.linkIn := by cases d; rfl
@[simp] theorem DieSt.setPrt_pin (d : DieSt) (p : Nat) (v : PortSt) : (d.setPrt p v).pin = d.pin := by cases d; rfl
@[simp] theorem DieSt.setPrt_pinLevel (d : DieSt) (p : Nat) (v : PortSt) : (d.setPrt p v).pinLevel = d.pinLevel := by cases d; rfl
@[simp] theorem DieSt.setPrt_plan (d : DieSt) (p : Nat) (v : PortSt) : (d.setPrt p v).plan = d.plan := by cases d; rfl
@[simp] theorem DieSt.setPrt_pmPrev (d : DieSt) (p : Nat) (v : PortSt) : (d.setPrt p v).pmPrev = d.pmPrev := by cases d; rfl
@[simp] theorem DieSt.setPrt_pmHits (d : DieSt) (p : Nat) (v : PortSt) : (d.setPrt p v).pmHits = d.pmHits := by cases d; rfl
@[simp] theorem DieSt.setPrt_deb (d : DieSt) (p : Nat) (v : PortSt) : (d.setPrt p v).deb = d.deb := by cases d; rfl
@[simp] theorem DieSt.setPrt_pllLost (d : DieSt) (p : Nat) (v : PortSt) : (d.setPrt p v).pllLost = d.pllLost := by cases d; rfl
@[simp] theorem DieSt.setPrt_load (d : DieSt) (p : Nat) (v : PortSt) : (d.setPrt p v).load = d.load := by cases d; rfl
@[simp] theorem DieSt.setPrt_nvm (d : DieSt) (p : Nat) (v : PortSt) : (d.setPrt p v).nvm = d.nvm := by cases d; rfl
@[simp] theorem DieSt.setPrt_rel (d : DieSt) (p : Nat) (v : PortSt) : (d.setPrt p v).rel = d.rel := by cases d; rfl
@[simp] theorem DieSt.setPrt_pwr (d : DieSt) (p : Nat) (v : PortSt) : (d.setPrt p v).pwr = d.pwr := by cases d; rfl
@[simp] theorem DieSt.setPrt_fuse (d : DieSt) (p : Nat) (v : PortSt) : (d.setPrt p v).fuse = d.fuse := by cases d; rfl
@[simp] theorem DieSt.setPrt_ref (d : DieSt) (p : Nat) (v : PortSt) : (d.setPrt p v).ref = d.ref := by cases d; rfl
@[simp] theorem DieSt.setPrt_met (d : DieSt) (p : Nat) (v : PortSt) : (d.setPrt p v).met = d.met := by cases d; rfl
@[simp] theorem DieSt.setPrt_ump (d : DieSt) (p : Nat) (v : PortSt) : (d.setPrt p v).ump = d.ump := by cases d; rfl
@[simp] theorem DieSt.setPrt_jtag (d : DieSt) (p : Nat) (v : PortSt) : (d.setPrt p v).jtag = d.jtag := by cases d; rfl

/-! ### setPin -/

@[simp] theorem DieSt.setPin_idn (d : DieSt) (n : Nat) (v : PinSt) : (d.setPin n v).idn = d.idn := by cases d; rfl
@[simp] theorem DieSt.setPin_regs (d : DieSt) (n : Nat) (v : PinSt) : (d.setPin n v).regs = d.regs := by cases d; rfl
@[simp] theorem DieSt.setPin_resp (d : DieSt) (n : Nat) (v : PinSt) : (d.setPin n v).resp = d.resp := by cases d; rfl
@[simp] theorem DieSt.setPin_rdLatch (d : DieSt) (n : Nat) (v : PinSt) : (d.setPin n v).rdLatch = d.rdLatch := by cases d; rfl
@[simp] theorem DieSt.setPin_wrLatch (d : DieSt) (n : Nat) (v : PinSt) : (d.setPin n v).wrLatch = d.wrLatch := by cases d; rfl
@[simp] theorem DieSt.setPin_free (d : DieSt) (n : Nat) (v : PinSt) : (d.setPin n v).free = d.free := by cases d; rfl
@[simp] theorem DieSt.setPin_now (d : DieSt) (n : Nat) (v : PinSt) : (d.setPin n v).now = d.now := by cases d; rfl
@[simp] theorem DieSt.setPin_mt (d : DieSt) (n : Nat) (v : PinSt) : (d.setPin n v).mt = d.mt := by cases d; rfl
@[simp] theorem DieSt.setPin_raised (d : DieSt) (n : Nat) (v : PinSt) : (d.setPin n v).raised = d.raised := by cases d; rfl
@[simp] theorem DieSt.setPin_coll (d : DieSt) (n : Nat) (v : PinSt) : (d.setPin n v).coll = d.coll := by cases d; rfl
@[simp] theorem DieSt.setPin_evLast (d : DieSt) (n : Nat) (v : PinSt) : (d.setPin n v).evLast = d.evLast := by cases d; rfl
@[simp] theorem DieSt.setPin_noRb (d : DieSt) (n : Nat) (v : PinSt) : (d.setPin n v).noRb = d.noRb := by cases d; rfl
@[simp] theorem DieSt.setPin_fab (d : DieSt) (n : Nat) (v : PinSt) : (d.setPin n v).fab = d.fab := by cases d; rfl
@[simp] theorem DieSt.setPin_pace (d : DieSt) (n : Nat) (v : PinSt) : (d.setPin n v).pace = d.pace := by cases d; rfl
@[simp] theorem DieSt.setPin_se (d : DieSt) (n : Nat) (v : PinSt) : (d.setPin n v).se = d.se := by cases d; rfl
@[simp] theorem DieSt.setPin_q (d : DieSt) (n : Nat) (v : PinSt) : (d.setPin n v).q = d.q := by cases d; rfl
@[simp] theorem DieSt.setPin_crc (d : DieSt) (n : Nat) (v : PinSt) : (d.setPin n v).crc = d.crc := by cases d; rfl
@[simp] theorem DieSt.setPin_claims (d : DieSt) (n : Nat) (v : PinSt) : (d.setPin n v).claims = d.claims := by cases d; rfl
@[simp] theorem DieSt.setPin_ros (d : DieSt) (n : Nat) (v : PinSt) : (d.setPin n v).ros = d.ros := by cases d; rfl
@[simp] theorem DieSt.setPin_userX (d : DieSt) (n : Nat) (v : PinSt) : (d.setPin n v).userX = d.userX := by cases d; rfl
@[simp] theorem DieSt.setPin_bankRst (d : DieSt) (n : Nat) (v : PinSt) : (d.setPin n v).bankRst = d.bankRst := by cases d; rfl
@[simp] theorem DieSt.setPin_xing (d : DieSt) (n : Nat) (v : PinSt) : (d.setPin n v).xing = d.xing := by cases d; rfl
@[simp] theorem DieSt.setPin_tapAt (d : DieSt) (n : Nat) (v : PinSt) : (d.setPin n v).tapAt = d.tapAt := by cases d; rfl
@[simp] theorem DieSt.setPin_portAt (d : DieSt) (n : Nat) (v : PinSt) : (d.setPin n v).portAt = d.portAt := by cases d; rfl
@[simp] theorem DieSt.setPin_chanAt (d : DieSt) (n : Nat) (v : PinSt) : (d.setPin n v).chanAt = d.chanAt := by cases d; rfl
@[simp] theorem DieSt.setPin_slkAdm (d : DieSt) (n : Nat) (v : PinSt) : (d.setPin n v).slkAdm = d.slkAdm := by cases d; rfl
@[simp] theorem DieSt.setPin_dmc (d : DieSt) (n : Nat) (v : PinSt) : (d.setPin n v).dmc = d.dmc := by cases d; rfl
@[simp] theorem DieSt.setPin_slkHeld (d : DieSt) (n : Nat) (v : PinSt) : (d.setPin n v).slkHeld = d.slkHeld := by cases d; rfl
@[simp] theorem DieSt.setPin_port (d : DieSt) (n : Nat) (v : PinSt) : (d.setPin n v).port = d.port := by cases d; rfl
@[simp] theorem DieSt.setPin_cfgSeq (d : DieSt) (n : Nat) (v : PinSt) : (d.setPin n v).cfgSeq = d.cfgSeq := by cases d; rfl
@[simp] theorem DieSt.setPin_mgmtIn (d : DieSt) (n : Nat) (v : PinSt) : (d.setPin n v).mgmtIn = d.mgmtIn := by cases d; rfl
@[simp] theorem DieSt.setPin_chanSent (d : DieSt) (n : Nat) (v : PinSt) : (d.setPin n v).chanSent = d.chanSent := by cases d; rfl
@[simp] theorem DieSt.setPin_chanZero (d : DieSt) (n : Nat) (v : PinSt) : (d.setPin n v).chanZero = d.chanZero := by cases d; rfl
@[simp] theorem DieSt.setPin_txts (d : DieSt) (n : Nat) (v : PinSt) : (d.setPin n v).txts = d.txts := by cases d; rfl
@[simp] theorem DieSt.setPin_ethCfg (d : DieSt) (n : Nat) (v : PinSt) : (d.setPin n v).ethCfg = d.ethCfg := by cases d; rfl
@[simp] theorem DieSt.setPin_ethOut (d : DieSt) (n : Nat) (v : PinSt) : (d.setPin n v).ethOut = d.ethOut := by cases d; rfl
@[simp] theorem DieSt.setPin_mtm (d : DieSt) (n : Nat) (v : PinSt) : (d.setPin n v).mtm = d.mtm := by cases d; rfl
@[simp] theorem DieSt.setPin_hdrOk (d : DieSt) (n : Nat) (v : PinSt) : (d.setPin n v).hdrOk = d.hdrOk := by cases d; rfl
@[simp] theorem DieSt.setPin_linkIn (d : DieSt) (n : Nat) (v : PinSt) : (d.setPin n v).linkIn = d.linkIn := by cases d; rfl
@[simp] theorem DieSt.setPin_pinLevel (d : DieSt) (n : Nat) (v : PinSt) : (d.setPin n v).pinLevel = d.pinLevel := by cases d; rfl
@[simp] theorem DieSt.setPin_plan (d : DieSt) (n : Nat) (v : PinSt) : (d.setPin n v).plan = d.plan := by cases d; rfl
@[simp] theorem DieSt.setPin_pmPrev (d : DieSt) (n : Nat) (v : PinSt) : (d.setPin n v).pmPrev = d.pmPrev := by cases d; rfl
@[simp] theorem DieSt.setPin_pmHits (d : DieSt) (n : Nat) (v : PinSt) : (d.setPin n v).pmHits = d.pmHits := by cases d; rfl
@[simp] theorem DieSt.setPin_deb (d : DieSt) (n : Nat) (v : PinSt) : (d.setPin n v).deb = d.deb := by cases d; rfl
@[simp] theorem DieSt.setPin_pllLost (d : DieSt) (n : Nat) (v : PinSt) : (d.setPin n v).pllLost = d.pllLost := by cases d; rfl
@[simp] theorem DieSt.setPin_load (d : DieSt) (n : Nat) (v : PinSt) : (d.setPin n v).load = d.load := by cases d; rfl
@[simp] theorem DieSt.setPin_nvm (d : DieSt) (n : Nat) (v : PinSt) : (d.setPin n v).nvm = d.nvm := by cases d; rfl
@[simp] theorem DieSt.setPin_rel (d : DieSt) (n : Nat) (v : PinSt) : (d.setPin n v).rel = d.rel := by cases d; rfl
@[simp] theorem DieSt.setPin_pwr (d : DieSt) (n : Nat) (v : PinSt) : (d.setPin n v).pwr = d.pwr := by cases d; rfl
@[simp] theorem DieSt.setPin_fuse (d : DieSt) (n : Nat) (v : PinSt) : (d.setPin n v).fuse = d.fuse := by cases d; rfl
@[simp] theorem DieSt.setPin_ref (d : DieSt) (n : Nat) (v : PinSt) : (d.setPin n v).ref = d.ref := by cases d; rfl
@[simp] theorem DieSt.setPin_met (d : DieSt) (n : Nat) (v : PinSt) : (d.setPin n v).met = d.met := by cases d; rfl
@[simp] theorem DieSt.setPin_ump (d : DieSt) (n : Nat) (v : PinSt) : (d.setPin n v).ump = d.ump := by cases d; rfl
@[simp] theorem DieSt.setPin_jtag (d : DieSt) (n : Nat) (v : PinSt) : (d.setPin n v).jtag = d.jtag := by cases d; rfl

/-! ### setXr -/

@[simp] theorem DieSt.setXr_idn (d : DieSt) (r : XRef) (v : XSt) : (d.setXr r v).idn = d.idn := by cases d; rfl
@[simp] theorem DieSt.setXr_regs (d : DieSt) (r : XRef) (v : XSt) : (d.setXr r v).regs = d.regs := by cases d; rfl
@[simp] theorem DieSt.setXr_resp (d : DieSt) (r : XRef) (v : XSt) : (d.setXr r v).resp = d.resp := by cases d; rfl
@[simp] theorem DieSt.setXr_rdLatch (d : DieSt) (r : XRef) (v : XSt) : (d.setXr r v).rdLatch = d.rdLatch := by cases d; rfl
@[simp] theorem DieSt.setXr_wrLatch (d : DieSt) (r : XRef) (v : XSt) : (d.setXr r v).wrLatch = d.wrLatch := by cases d; rfl
@[simp] theorem DieSt.setXr_free (d : DieSt) (r : XRef) (v : XSt) : (d.setXr r v).free = d.free := by cases d; rfl
@[simp] theorem DieSt.setXr_now (d : DieSt) (r : XRef) (v : XSt) : (d.setXr r v).now = d.now := by cases d; rfl
@[simp] theorem DieSt.setXr_mt (d : DieSt) (r : XRef) (v : XSt) : (d.setXr r v).mt = d.mt := by cases d; rfl
@[simp] theorem DieSt.setXr_raised (d : DieSt) (r : XRef) (v : XSt) : (d.setXr r v).raised = d.raised := by cases d; rfl
@[simp] theorem DieSt.setXr_coll (d : DieSt) (r : XRef) (v : XSt) : (d.setXr r v).coll = d.coll := by cases d; rfl
@[simp] theorem DieSt.setXr_evLast (d : DieSt) (r : XRef) (v : XSt) : (d.setXr r v).evLast = d.evLast := by cases d; rfl
@[simp] theorem DieSt.setXr_noRb (d : DieSt) (r : XRef) (v : XSt) : (d.setXr r v).noRb = d.noRb := by cases d; rfl
@[simp] theorem DieSt.setXr_fab (d : DieSt) (r : XRef) (v : XSt) : (d.setXr r v).fab = d.fab := by cases d; rfl
@[simp] theorem DieSt.setXr_pace (d : DieSt) (r : XRef) (v : XSt) : (d.setXr r v).pace = d.pace := by cases d; rfl
@[simp] theorem DieSt.setXr_se (d : DieSt) (r : XRef) (v : XSt) : (d.setXr r v).se = d.se := by cases d; rfl
@[simp] theorem DieSt.setXr_q (d : DieSt) (r : XRef) (v : XSt) : (d.setXr r v).q = d.q := by cases d; rfl
@[simp] theorem DieSt.setXr_crc (d : DieSt) (r : XRef) (v : XSt) : (d.setXr r v).crc = d.crc := by cases d; rfl
@[simp] theorem DieSt.setXr_claims (d : DieSt) (r : XRef) (v : XSt) : (d.setXr r v).claims = d.claims := by cases d; rfl
@[simp] theorem DieSt.setXr_ros (d : DieSt) (r : XRef) (v : XSt) : (d.setXr r v).ros = d.ros := by cases d; rfl
@[simp] theorem DieSt.setXr_userX (d : DieSt) (r : XRef) (v : XSt) : (d.setXr r v).userX = d.userX := by cases d; rfl
@[simp] theorem DieSt.setXr_bankRst (d : DieSt) (r : XRef) (v : XSt) : (d.setXr r v).bankRst = d.bankRst := by cases d; rfl
@[simp] theorem DieSt.setXr_tapAt (d : DieSt) (r : XRef) (v : XSt) : (d.setXr r v).tapAt = d.tapAt := by cases d; rfl
@[simp] theorem DieSt.setXr_portAt (d : DieSt) (r : XRef) (v : XSt) : (d.setXr r v).portAt = d.portAt := by cases d; rfl
@[simp] theorem DieSt.setXr_chanAt (d : DieSt) (r : XRef) (v : XSt) : (d.setXr r v).chanAt = d.chanAt := by cases d; rfl
@[simp] theorem DieSt.setXr_slkAdm (d : DieSt) (r : XRef) (v : XSt) : (d.setXr r v).slkAdm = d.slkAdm := by cases d; rfl
@[simp] theorem DieSt.setXr_dmc (d : DieSt) (r : XRef) (v : XSt) : (d.setXr r v).dmc = d.dmc := by cases d; rfl
@[simp] theorem DieSt.setXr_slkHeld (d : DieSt) (r : XRef) (v : XSt) : (d.setXr r v).slkHeld = d.slkHeld := by cases d; rfl
@[simp] theorem DieSt.setXr_port (d : DieSt) (r : XRef) (v : XSt) : (d.setXr r v).port = d.port := by cases d; rfl
@[simp] theorem DieSt.setXr_cfgSeq (d : DieSt) (r : XRef) (v : XSt) : (d.setXr r v).cfgSeq = d.cfgSeq := by cases d; rfl
@[simp] theorem DieSt.setXr_mgmtIn (d : DieSt) (r : XRef) (v : XSt) : (d.setXr r v).mgmtIn = d.mgmtIn := by cases d; rfl
@[simp] theorem DieSt.setXr_chanSent (d : DieSt) (r : XRef) (v : XSt) : (d.setXr r v).chanSent = d.chanSent := by cases d; rfl
@[simp] theorem DieSt.setXr_chanZero (d : DieSt) (r : XRef) (v : XSt) : (d.setXr r v).chanZero = d.chanZero := by cases d; rfl
@[simp] theorem DieSt.setXr_txts (d : DieSt) (r : XRef) (v : XSt) : (d.setXr r v).txts = d.txts := by cases d; rfl
@[simp] theorem DieSt.setXr_ethCfg (d : DieSt) (r : XRef) (v : XSt) : (d.setXr r v).ethCfg = d.ethCfg := by cases d; rfl
@[simp] theorem DieSt.setXr_ethOut (d : DieSt) (r : XRef) (v : XSt) : (d.setXr r v).ethOut = d.ethOut := by cases d; rfl
@[simp] theorem DieSt.setXr_mtm (d : DieSt) (r : XRef) (v : XSt) : (d.setXr r v).mtm = d.mtm := by cases d; rfl
@[simp] theorem DieSt.setXr_hdrOk (d : DieSt) (r : XRef) (v : XSt) : (d.setXr r v).hdrOk = d.hdrOk := by cases d; rfl
@[simp] theorem DieSt.setXr_linkIn (d : DieSt) (r : XRef) (v : XSt) : (d.setXr r v).linkIn = d.linkIn := by cases d; rfl
@[simp] theorem DieSt.setXr_pin (d : DieSt) (r : XRef) (v : XSt) : (d.setXr r v).pin = d.pin := by cases d; rfl
@[simp] theorem DieSt.setXr_pinLevel (d : DieSt) (r : XRef) (v : XSt) : (d.setXr r v).pinLevel = d.pinLevel := by cases d; rfl
@[simp] theorem DieSt.setXr_plan (d : DieSt) (r : XRef) (v : XSt) : (d.setXr r v).plan = d.plan := by cases d; rfl
@[simp] theorem DieSt.setXr_pmPrev (d : DieSt) (r : XRef) (v : XSt) : (d.setXr r v).pmPrev = d.pmPrev := by cases d; rfl
@[simp] theorem DieSt.setXr_pmHits (d : DieSt) (r : XRef) (v : XSt) : (d.setXr r v).pmHits = d.pmHits := by cases d; rfl
@[simp] theorem DieSt.setXr_deb (d : DieSt) (r : XRef) (v : XSt) : (d.setXr r v).deb = d.deb := by cases d; rfl
@[simp] theorem DieSt.setXr_pllLost (d : DieSt) (r : XRef) (v : XSt) : (d.setXr r v).pllLost = d.pllLost := by cases d; rfl
@[simp] theorem DieSt.setXr_load (d : DieSt) (r : XRef) (v : XSt) : (d.setXr r v).load = d.load := by cases d; rfl
@[simp] theorem DieSt.setXr_nvm (d : DieSt) (r : XRef) (v : XSt) : (d.setXr r v).nvm = d.nvm := by cases d; rfl
@[simp] theorem DieSt.setXr_rel (d : DieSt) (r : XRef) (v : XSt) : (d.setXr r v).rel = d.rel := by cases d; rfl
@[simp] theorem DieSt.setXr_pwr (d : DieSt) (r : XRef) (v : XSt) : (d.setXr r v).pwr = d.pwr := by cases d; rfl
@[simp] theorem DieSt.setXr_fuse (d : DieSt) (r : XRef) (v : XSt) : (d.setXr r v).fuse = d.fuse := by cases d; rfl
@[simp] theorem DieSt.setXr_ref (d : DieSt) (r : XRef) (v : XSt) : (d.setXr r v).ref = d.ref := by cases d; rfl
@[simp] theorem DieSt.setXr_met (d : DieSt) (r : XRef) (v : XSt) : (d.setXr r v).met = d.met := by cases d; rfl
@[simp] theorem DieSt.setXr_ump (d : DieSt) (r : XRef) (v : XSt) : (d.setXr r v).ump = d.ump := by cases d; rfl
@[simp] theorem DieSt.setXr_jtag (d : DieSt) (r : XRef) (v : XSt) : (d.setXr r v).jtag = d.jtag := by cases d; rfl

/-! ### setRule -/

@[simp] theorem DieSt.setRule_idn (d : DieSt) (r : Nat) (v : RuleSt) : (d.setRule r v).idn = d.idn := by cases d; rfl
@[simp] theorem DieSt.setRule_regs (d : DieSt) (r : Nat) (v : RuleSt) : (d.setRule r v).regs = d.regs := by cases d; rfl
@[simp] theorem DieSt.setRule_resp (d : DieSt) (r : Nat) (v : RuleSt) : (d.setRule r v).resp = d.resp := by cases d; rfl
@[simp] theorem DieSt.setRule_rdLatch (d : DieSt) (r : Nat) (v : RuleSt) : (d.setRule r v).rdLatch = d.rdLatch := by cases d; rfl
@[simp] theorem DieSt.setRule_wrLatch (d : DieSt) (r : Nat) (v : RuleSt) : (d.setRule r v).wrLatch = d.wrLatch := by cases d; rfl
@[simp] theorem DieSt.setRule_free (d : DieSt) (r : Nat) (v : RuleSt) : (d.setRule r v).free = d.free := by cases d; rfl
@[simp] theorem DieSt.setRule_now (d : DieSt) (r : Nat) (v : RuleSt) : (d.setRule r v).now = d.now := by cases d; rfl
@[simp] theorem DieSt.setRule_mt (d : DieSt) (r : Nat) (v : RuleSt) : (d.setRule r v).mt = d.mt := by cases d; rfl
@[simp] theorem DieSt.setRule_raised (d : DieSt) (r : Nat) (v : RuleSt) : (d.setRule r v).raised = d.raised := by cases d; rfl
@[simp] theorem DieSt.setRule_coll (d : DieSt) (r : Nat) (v : RuleSt) : (d.setRule r v).coll = d.coll := by cases d; rfl
@[simp] theorem DieSt.setRule_evLast (d : DieSt) (r : Nat) (v : RuleSt) : (d.setRule r v).evLast = d.evLast := by cases d; rfl
@[simp] theorem DieSt.setRule_noRb (d : DieSt) (r : Nat) (v : RuleSt) : (d.setRule r v).noRb = d.noRb := by cases d; rfl
@[simp] theorem DieSt.setRule_fab (d : DieSt) (r : Nat) (v : RuleSt) : (d.setRule r v).fab = d.fab := by cases d; rfl
@[simp] theorem DieSt.setRule_pace (d : DieSt) (r : Nat) (v : RuleSt) : (d.setRule r v).pace = d.pace := by cases d; rfl
@[simp] theorem DieSt.setRule_se (d : DieSt) (r : Nat) (v : RuleSt) : (d.setRule r v).se = d.se := by cases d; rfl
@[simp] theorem DieSt.setRule_q (d : DieSt) (r : Nat) (v : RuleSt) : (d.setRule r v).q = d.q := by cases d; rfl
@[simp] theorem DieSt.setRule_crc (d : DieSt) (r : Nat) (v : RuleSt) : (d.setRule r v).crc = d.crc := by cases d; rfl
@[simp] theorem DieSt.setRule_claims (d : DieSt) (r : Nat) (v : RuleSt) : (d.setRule r v).claims = d.claims := by cases d; rfl
@[simp] theorem DieSt.setRule_ros (d : DieSt) (r : Nat) (v : RuleSt) : (d.setRule r v).ros = d.ros := by cases d; rfl
@[simp] theorem DieSt.setRule_userX (d : DieSt) (r : Nat) (v : RuleSt) : (d.setRule r v).userX = d.userX := by cases d; rfl
@[simp] theorem DieSt.setRule_bankRst (d : DieSt) (r : Nat) (v : RuleSt) : (d.setRule r v).bankRst = d.bankRst := by cases d; rfl
@[simp] theorem DieSt.setRule_xing (d : DieSt) (r : Nat) (v : RuleSt) : (d.setRule r v).xing = d.xing := by cases d; rfl
@[simp] theorem DieSt.setRule_tapAt (d : DieSt) (r : Nat) (v : RuleSt) : (d.setRule r v).tapAt = d.tapAt := by cases d; rfl
@[simp] theorem DieSt.setRule_portAt (d : DieSt) (r : Nat) (v : RuleSt) : (d.setRule r v).portAt = d.portAt := by cases d; rfl
@[simp] theorem DieSt.setRule_chanAt (d : DieSt) (r : Nat) (v : RuleSt) : (d.setRule r v).chanAt = d.chanAt := by cases d; rfl
@[simp] theorem DieSt.setRule_slkAdm (d : DieSt) (r : Nat) (v : RuleSt) : (d.setRule r v).slkAdm = d.slkAdm := by cases d; rfl
@[simp] theorem DieSt.setRule_dmc (d : DieSt) (r : Nat) (v : RuleSt) : (d.setRule r v).dmc = d.dmc := by cases d; rfl
@[simp] theorem DieSt.setRule_slkHeld (d : DieSt) (r : Nat) (v : RuleSt) : (d.setRule r v).slkHeld = d.slkHeld := by cases d; rfl
@[simp] theorem DieSt.setRule_port (d : DieSt) (r : Nat) (v : RuleSt) : (d.setRule r v).port = d.port := by cases d; rfl
@[simp] theorem DieSt.setRule_cfgSeq (d : DieSt) (r : Nat) (v : RuleSt) : (d.setRule r v).cfgSeq = d.cfgSeq := by cases d; rfl
@[simp] theorem DieSt.setRule_mgmtIn (d : DieSt) (r : Nat) (v : RuleSt) : (d.setRule r v).mgmtIn = d.mgmtIn := by cases d; rfl
@[simp] theorem DieSt.setRule_chanSent (d : DieSt) (r : Nat) (v : RuleSt) : (d.setRule r v).chanSent = d.chanSent := by cases d; rfl
@[simp] theorem DieSt.setRule_chanZero (d : DieSt) (r : Nat) (v : RuleSt) : (d.setRule r v).chanZero = d.chanZero := by cases d; rfl
@[simp] theorem DieSt.setRule_txts (d : DieSt) (r : Nat) (v : RuleSt) : (d.setRule r v).txts = d.txts := by cases d; rfl
@[simp] theorem DieSt.setRule_ethCfg (d : DieSt) (r : Nat) (v : RuleSt) : (d.setRule r v).ethCfg = d.ethCfg := by cases d; rfl
@[simp] theorem DieSt.setRule_ethOut (d : DieSt) (r : Nat) (v : RuleSt) : (d.setRule r v).ethOut = d.ethOut := by cases d; rfl
@[simp] theorem DieSt.setRule_mtm (d : DieSt) (r : Nat) (v : RuleSt) : (d.setRule r v).mtm = d.mtm := by cases d; rfl
@[simp] theorem DieSt.setRule_hdrOk (d : DieSt) (r : Nat) (v : RuleSt) : (d.setRule r v).hdrOk = d.hdrOk := by cases d; rfl
@[simp] theorem DieSt.setRule_linkIn (d : DieSt) (r : Nat) (v : RuleSt) : (d.setRule r v).linkIn = d.linkIn := by cases d; rfl
@[simp] theorem DieSt.setRule_pin (d : DieSt) (r : Nat) (v : RuleSt) : (d.setRule r v).pin = d.pin := by cases d; rfl
@[simp] theorem DieSt.setRule_pinLevel (d : DieSt) (r : Nat) (v : RuleSt) : (d.setRule r v).pinLevel = d.pinLevel := by cases d; rfl
@[simp] theorem DieSt.setRule_plan (d : DieSt) (r : Nat) (v : RuleSt) : (d.setRule r v).plan = d.plan := by cases d; rfl
@[simp] theorem DieSt.setRule_pmPrev (d : DieSt) (r : Nat) (v : RuleSt) : (d.setRule r v).pmPrev = d.pmPrev := by cases d; rfl
@[simp] theorem DieSt.setRule_pmHits (d : DieSt) (r : Nat) (v : RuleSt) : (d.setRule r v).pmHits = d.pmHits := by cases d; rfl
@[simp] theorem DieSt.setRule_deb (d : DieSt) (r : Nat) (v : RuleSt) : (d.setRule r v).deb = d.deb := by cases d; rfl
@[simp] theorem DieSt.setRule_pllLost (d : DieSt) (r : Nat) (v : RuleSt) : (d.setRule r v).pllLost = d.pllLost := by cases d; rfl
@[simp] theorem DieSt.setRule_load (d : DieSt) (r : Nat) (v : RuleSt) : (d.setRule r v).load = d.load := by cases d; rfl
@[simp] theorem DieSt.setRule_nvm (d : DieSt) (r : Nat) (v : RuleSt) : (d.setRule r v).nvm = d.nvm := by cases d; rfl
@[simp] theorem DieSt.setRule_rel (d : DieSt) (r : Nat) (v : RuleSt) : (d.setRule r v).rel = d.rel := by cases d; rfl
@[simp] theorem DieSt.setRule_pwr (d : DieSt) (r : Nat) (v : RuleSt) : (d.setRule r v).pwr = d.pwr := by cases d; rfl
@[simp] theorem DieSt.setRule_fuse (d : DieSt) (r : Nat) (v : RuleSt) : (d.setRule r v).fuse = d.fuse := by cases d; rfl
@[simp] theorem DieSt.setRule_ref (d : DieSt) (r : Nat) (v : RuleSt) : (d.setRule r v).ref = d.ref := by cases d; rfl
@[simp] theorem DieSt.setRule_met (d : DieSt) (r : Nat) (v : RuleSt) : (d.setRule r v).met = d.met := by cases d; rfl
@[simp] theorem DieSt.setRule_jtag (d : DieSt) (r : Nat) (v : RuleSt) : (d.setRule r v).jtag = d.jtag := by cases d; rfl

/-! ### setPulse -/

@[simp] theorem DieSt.setPulse_idn (d : DieSt) (k : Nat) (v : PulseSt) : (d.setPulse k v).idn = d.idn := by cases d; rfl
@[simp] theorem DieSt.setPulse_regs (d : DieSt) (k : Nat) (v : PulseSt) : (d.setPulse k v).regs = d.regs := by cases d; rfl
@[simp] theorem DieSt.setPulse_resp (d : DieSt) (k : Nat) (v : PulseSt) : (d.setPulse k v).resp = d.resp := by cases d; rfl
@[simp] theorem DieSt.setPulse_rdLatch (d : DieSt) (k : Nat) (v : PulseSt) : (d.setPulse k v).rdLatch = d.rdLatch := by cases d; rfl
@[simp] theorem DieSt.setPulse_wrLatch (d : DieSt) (k : Nat) (v : PulseSt) : (d.setPulse k v).wrLatch = d.wrLatch := by cases d; rfl
@[simp] theorem DieSt.setPulse_free (d : DieSt) (k : Nat) (v : PulseSt) : (d.setPulse k v).free = d.free := by cases d; rfl
@[simp] theorem DieSt.setPulse_now (d : DieSt) (k : Nat) (v : PulseSt) : (d.setPulse k v).now = d.now := by cases d; rfl
@[simp] theorem DieSt.setPulse_mt (d : DieSt) (k : Nat) (v : PulseSt) : (d.setPulse k v).mt = d.mt := by cases d; rfl
@[simp] theorem DieSt.setPulse_raised (d : DieSt) (k : Nat) (v : PulseSt) : (d.setPulse k v).raised = d.raised := by cases d; rfl
@[simp] theorem DieSt.setPulse_coll (d : DieSt) (k : Nat) (v : PulseSt) : (d.setPulse k v).coll = d.coll := by cases d; rfl
@[simp] theorem DieSt.setPulse_evLast (d : DieSt) (k : Nat) (v : PulseSt) : (d.setPulse k v).evLast = d.evLast := by cases d; rfl
@[simp] theorem DieSt.setPulse_noRb (d : DieSt) (k : Nat) (v : PulseSt) : (d.setPulse k v).noRb = d.noRb := by cases d; rfl
@[simp] theorem DieSt.setPulse_fab (d : DieSt) (k : Nat) (v : PulseSt) : (d.setPulse k v).fab = d.fab := by cases d; rfl
@[simp] theorem DieSt.setPulse_pace (d : DieSt) (k : Nat) (v : PulseSt) : (d.setPulse k v).pace = d.pace := by cases d; rfl
@[simp] theorem DieSt.setPulse_se (d : DieSt) (k : Nat) (v : PulseSt) : (d.setPulse k v).se = d.se := by cases d; rfl
@[simp] theorem DieSt.setPulse_q (d : DieSt) (k : Nat) (v : PulseSt) : (d.setPulse k v).q = d.q := by cases d; rfl
@[simp] theorem DieSt.setPulse_crc (d : DieSt) (k : Nat) (v : PulseSt) : (d.setPulse k v).crc = d.crc := by cases d; rfl
@[simp] theorem DieSt.setPulse_claims (d : DieSt) (k : Nat) (v : PulseSt) : (d.setPulse k v).claims = d.claims := by cases d; rfl
@[simp] theorem DieSt.setPulse_ros (d : DieSt) (k : Nat) (v : PulseSt) : (d.setPulse k v).ros = d.ros := by cases d; rfl
@[simp] theorem DieSt.setPulse_userX (d : DieSt) (k : Nat) (v : PulseSt) : (d.setPulse k v).userX = d.userX := by cases d; rfl
@[simp] theorem DieSt.setPulse_bankRst (d : DieSt) (k : Nat) (v : PulseSt) : (d.setPulse k v).bankRst = d.bankRst := by cases d; rfl
@[simp] theorem DieSt.setPulse_xing (d : DieSt) (k : Nat) (v : PulseSt) : (d.setPulse k v).xing = d.xing := by cases d; rfl
@[simp] theorem DieSt.setPulse_tapAt (d : DieSt) (k : Nat) (v : PulseSt) : (d.setPulse k v).tapAt = d.tapAt := by cases d; rfl
@[simp] theorem DieSt.setPulse_portAt (d : DieSt) (k : Nat) (v : PulseSt) : (d.setPulse k v).portAt = d.portAt := by cases d; rfl
@[simp] theorem DieSt.setPulse_chanAt (d : DieSt) (k : Nat) (v : PulseSt) : (d.setPulse k v).chanAt = d.chanAt := by cases d; rfl
@[simp] theorem DieSt.setPulse_slkAdm (d : DieSt) (k : Nat) (v : PulseSt) : (d.setPulse k v).slkAdm = d.slkAdm := by cases d; rfl
@[simp] theorem DieSt.setPulse_dmc (d : DieSt) (k : Nat) (v : PulseSt) : (d.setPulse k v).dmc = d.dmc := by cases d; rfl
@[simp] theorem DieSt.setPulse_slkHeld (d : DieSt) (k : Nat) (v : PulseSt) : (d.setPulse k v).slkHeld = d.slkHeld := by cases d; rfl
@[simp] theorem DieSt.setPulse_port (d : DieSt) (k : Nat) (v : PulseSt) : (d.setPulse k v).port = d.port := by cases d; rfl
@[simp] theorem DieSt.setPulse_cfgSeq (d : DieSt) (k : Nat) (v : PulseSt) : (d.setPulse k v).cfgSeq = d.cfgSeq := by cases d; rfl
@[simp] theorem DieSt.setPulse_mgmtIn (d : DieSt) (k : Nat) (v : PulseSt) : (d.setPulse k v).mgmtIn = d.mgmtIn := by cases d; rfl
@[simp] theorem DieSt.setPulse_chanSent (d : DieSt) (k : Nat) (v : PulseSt) : (d.setPulse k v).chanSent = d.chanSent := by cases d; rfl
@[simp] theorem DieSt.setPulse_chanZero (d : DieSt) (k : Nat) (v : PulseSt) : (d.setPulse k v).chanZero = d.chanZero := by cases d; rfl
@[simp] theorem DieSt.setPulse_txts (d : DieSt) (k : Nat) (v : PulseSt) : (d.setPulse k v).txts = d.txts := by cases d; rfl
@[simp] theorem DieSt.setPulse_ethCfg (d : DieSt) (k : Nat) (v : PulseSt) : (d.setPulse k v).ethCfg = d.ethCfg := by cases d; rfl
@[simp] theorem DieSt.setPulse_ethOut (d : DieSt) (k : Nat) (v : PulseSt) : (d.setPulse k v).ethOut = d.ethOut := by cases d; rfl
@[simp] theorem DieSt.setPulse_mtm (d : DieSt) (k : Nat) (v : PulseSt) : (d.setPulse k v).mtm = d.mtm := by cases d; rfl
@[simp] theorem DieSt.setPulse_hdrOk (d : DieSt) (k : Nat) (v : PulseSt) : (d.setPulse k v).hdrOk = d.hdrOk := by cases d; rfl
@[simp] theorem DieSt.setPulse_linkIn (d : DieSt) (k : Nat) (v : PulseSt) : (d.setPulse k v).linkIn = d.linkIn := by cases d; rfl
@[simp] theorem DieSt.setPulse_pin (d : DieSt) (k : Nat) (v : PulseSt) : (d.setPulse k v).pin = d.pin := by cases d; rfl
@[simp] theorem DieSt.setPulse_pinLevel (d : DieSt) (k : Nat) (v : PulseSt) : (d.setPulse k v).pinLevel = d.pinLevel := by cases d; rfl
@[simp] theorem DieSt.setPulse_plan (d : DieSt) (k : Nat) (v : PulseSt) : (d.setPulse k v).plan = d.plan := by cases d; rfl
@[simp] theorem DieSt.setPulse_pmPrev (d : DieSt) (k : Nat) (v : PulseSt) : (d.setPulse k v).pmPrev = d.pmPrev := by cases d; rfl
@[simp] theorem DieSt.setPulse_pmHits (d : DieSt) (k : Nat) (v : PulseSt) : (d.setPulse k v).pmHits = d.pmHits := by cases d; rfl
@[simp] theorem DieSt.setPulse_deb (d : DieSt) (k : Nat) (v : PulseSt) : (d.setPulse k v).deb = d.deb := by cases d; rfl
@[simp] theorem DieSt.setPulse_pllLost (d : DieSt) (k : Nat) (v : PulseSt) : (d.setPulse k v).pllLost = d.pllLost := by cases d; rfl
@[simp] theorem DieSt.setPulse_load (d : DieSt) (k : Nat) (v : PulseSt) : (d.setPulse k v).load = d.load := by cases d; rfl
@[simp] theorem DieSt.setPulse_nvm (d : DieSt) (k : Nat) (v : PulseSt) : (d.setPulse k v).nvm = d.nvm := by cases d; rfl
@[simp] theorem DieSt.setPulse_rel (d : DieSt) (k : Nat) (v : PulseSt) : (d.setPulse k v).rel = d.rel := by cases d; rfl
@[simp] theorem DieSt.setPulse_pwr (d : DieSt) (k : Nat) (v : PulseSt) : (d.setPulse k v).pwr = d.pwr := by cases d; rfl
@[simp] theorem DieSt.setPulse_fuse (d : DieSt) (k : Nat) (v : PulseSt) : (d.setPulse k v).fuse = d.fuse := by cases d; rfl
@[simp] theorem DieSt.setPulse_ref (d : DieSt) (k : Nat) (v : PulseSt) : (d.setPulse k v).ref = d.ref := by cases d; rfl
@[simp] theorem DieSt.setPulse_ump (d : DieSt) (k : Nat) (v : PulseSt) : (d.setPulse k v).ump = d.ump := by cases d; rfl
@[simp] theorem DieSt.setPulse_jtag (d : DieSt) (k : Nat) (v : PulseSt) : (d.setPulse k v).jtag = d.jtag := by cases d; rfl

/-! ### finding -/

@[simp] theorem DieSt.finding_idn (d : DieSt) (r : Nat) : (d.finding r).idn = d.idn := by cases d; rfl
@[simp] theorem DieSt.finding_regs (d : DieSt) (r : Nat) : (d.finding r).regs = d.regs := by cases d; rfl
@[simp] theorem DieSt.finding_resp (d : DieSt) (r : Nat) : (d.finding r).resp = d.resp := by cases d; rfl
@[simp] theorem DieSt.finding_rdLatch (d : DieSt) (r : Nat) : (d.finding r).rdLatch = d.rdLatch := by cases d; rfl
@[simp] theorem DieSt.finding_wrLatch (d : DieSt) (r : Nat) : (d.finding r).wrLatch = d.wrLatch := by cases d; rfl
@[simp] theorem DieSt.finding_free (d : DieSt) (r : Nat) : (d.finding r).free = d.free := by cases d; rfl
@[simp] theorem DieSt.finding_now (d : DieSt) (r : Nat) : (d.finding r).now = d.now := by cases d; rfl
@[simp] theorem DieSt.finding_mt (d : DieSt) (r : Nat) : (d.finding r).mt = d.mt := by cases d; rfl
@[simp] theorem DieSt.finding_raised (d : DieSt) (r : Nat) : (d.finding r).raised = d.raised := by cases d; rfl
@[simp] theorem DieSt.finding_coll (d : DieSt) (r : Nat) : (d.finding r).coll = d.coll := by cases d; rfl
@[simp] theorem DieSt.finding_evLast (d : DieSt) (r : Nat) : (d.finding r).evLast = d.evLast := by cases d; rfl
@[simp] theorem DieSt.finding_noRb (d : DieSt) (r : Nat) : (d.finding r).noRb = d.noRb := by cases d; rfl
@[simp] theorem DieSt.finding_fab (d : DieSt) (r : Nat) : (d.finding r).fab = d.fab := by cases d; rfl
@[simp] theorem DieSt.finding_pace (d : DieSt) (r : Nat) : (d.finding r).pace = d.pace := by cases d; rfl
@[simp] theorem DieSt.finding_se (d : DieSt) (r : Nat) : (d.finding r).se = d.se := by cases d; rfl
@[simp] theorem DieSt.finding_q (d : DieSt) (r : Nat) : (d.finding r).q = d.q := by cases d; rfl
@[simp] theorem DieSt.finding_crc (d : DieSt) (r : Nat) : (d.finding r).crc = d.crc := by cases d; rfl
@[simp] theorem DieSt.finding_claims (d : DieSt) (r : Nat) : (d.finding r).claims = d.claims := by cases d; rfl
@[simp] theorem DieSt.finding_ros (d : DieSt) (r : Nat) : (d.finding r).ros = d.ros := by cases d; rfl
@[simp] theorem DieSt.finding_userX (d : DieSt) (r : Nat) : (d.finding r).userX = d.userX := by cases d; rfl
@[simp] theorem DieSt.finding_bankRst (d : DieSt) (r : Nat) : (d.finding r).bankRst = d.bankRst := by cases d; rfl
@[simp] theorem DieSt.finding_xing (d : DieSt) (r : Nat) : (d.finding r).xing = d.xing := by cases d; rfl
@[simp] theorem DieSt.finding_tapAt (d : DieSt) (r : Nat) : (d.finding r).tapAt = d.tapAt := by cases d; rfl
@[simp] theorem DieSt.finding_portAt (d : DieSt) (r : Nat) : (d.finding r).portAt = d.portAt := by cases d; rfl
@[simp] theorem DieSt.finding_chanAt (d : DieSt) (r : Nat) : (d.finding r).chanAt = d.chanAt := by cases d; rfl
@[simp] theorem DieSt.finding_slkAdm (d : DieSt) (r : Nat) : (d.finding r).slkAdm = d.slkAdm := by cases d; rfl
@[simp] theorem DieSt.finding_dmc (d : DieSt) (r : Nat) : (d.finding r).dmc = d.dmc := by cases d; rfl
@[simp] theorem DieSt.finding_slkHeld (d : DieSt) (r : Nat) : (d.finding r).slkHeld = d.slkHeld := by cases d; rfl
@[simp] theorem DieSt.finding_port (d : DieSt) (r : Nat) : (d.finding r).port = d.port := by cases d; rfl
@[simp] theorem DieSt.finding_cfgSeq (d : DieSt) (r : Nat) : (d.finding r).cfgSeq = d.cfgSeq := by cases d; rfl
@[simp] theorem DieSt.finding_mgmtIn (d : DieSt) (r : Nat) : (d.finding r).mgmtIn = d.mgmtIn := by cases d; rfl
@[simp] theorem DieSt.finding_chanSent (d : DieSt) (r : Nat) : (d.finding r).chanSent = d.chanSent := by cases d; rfl
@[simp] theorem DieSt.finding_chanZero (d : DieSt) (r : Nat) : (d.finding r).chanZero = d.chanZero := by cases d; rfl
@[simp] theorem DieSt.finding_txts (d : DieSt) (r : Nat) : (d.finding r).txts = d.txts := by cases d; rfl
@[simp] theorem DieSt.finding_ethCfg (d : DieSt) (r : Nat) : (d.finding r).ethCfg = d.ethCfg := by cases d; rfl
@[simp] theorem DieSt.finding_ethOut (d : DieSt) (r : Nat) : (d.finding r).ethOut = d.ethOut := by cases d; rfl
@[simp] theorem DieSt.finding_mtm (d : DieSt) (r : Nat) : (d.finding r).mtm = d.mtm := by cases d; rfl
@[simp] theorem DieSt.finding_hdrOk (d : DieSt) (r : Nat) : (d.finding r).hdrOk = d.hdrOk := by cases d; rfl
@[simp] theorem DieSt.finding_linkIn (d : DieSt) (r : Nat) : (d.finding r).linkIn = d.linkIn := by cases d; rfl
@[simp] theorem DieSt.finding_pin (d : DieSt) (r : Nat) : (d.finding r).pin = d.pin := by cases d; rfl
@[simp] theorem DieSt.finding_pinLevel (d : DieSt) (r : Nat) : (d.finding r).pinLevel = d.pinLevel := by cases d; rfl
@[simp] theorem DieSt.finding_plan (d : DieSt) (r : Nat) : (d.finding r).plan = d.plan := by cases d; rfl
@[simp] theorem DieSt.finding_pmPrev (d : DieSt) (r : Nat) : (d.finding r).pmPrev = d.pmPrev := by cases d; rfl
@[simp] theorem DieSt.finding_pmHits (d : DieSt) (r : Nat) : (d.finding r).pmHits = d.pmHits := by cases d; rfl
@[simp] theorem DieSt.finding_deb (d : DieSt) (r : Nat) : (d.finding r).deb = d.deb := by cases d; rfl
@[simp] theorem DieSt.finding_pllLost (d : DieSt) (r : Nat) : (d.finding r).pllLost = d.pllLost := by cases d; rfl
@[simp] theorem DieSt.finding_load (d : DieSt) (r : Nat) : (d.finding r).load = d.load := by cases d; rfl
@[simp] theorem DieSt.finding_nvm (d : DieSt) (r : Nat) : (d.finding r).nvm = d.nvm := by cases d; rfl
@[simp] theorem DieSt.finding_pwr (d : DieSt) (r : Nat) : (d.finding r).pwr = d.pwr := by cases d; rfl
@[simp] theorem DieSt.finding_fuse (d : DieSt) (r : Nat) : (d.finding r).fuse = d.fuse := by cases d; rfl
@[simp] theorem DieSt.finding_ref (d : DieSt) (r : Nat) : (d.finding r).ref = d.ref := by cases d; rfl
@[simp] theorem DieSt.finding_met (d : DieSt) (r : Nat) : (d.finding r).met = d.met := by cases d; rfl
@[simp] theorem DieSt.finding_ump (d : DieSt) (r : Nat) : (d.finding r).ump = d.ump := by cases d; rfl
@[simp] theorem DieSt.finding_jtag (d : DieSt) (r : Nat) : (d.finding r).jtag = d.jtag := by cases d; rfl

/-! ### raise -/

@[simp] theorem DieSt.raise_idn (d : DieSt) (l c v : Nat) : (d.raise l c v).idn = d.idn := by cases d; unfold DieSt.raise; split <;> rfl
@[simp] theorem DieSt.raise_regs (d : DieSt) (l c v : Nat) : (d.raise l c v).regs = d.regs := by cases d; unfold DieSt.raise; split <;> rfl
@[simp] theorem DieSt.raise_resp (d : DieSt) (l c v : Nat) : (d.raise l c v).resp = d.resp := by cases d; unfold DieSt.raise; split <;> rfl
@[simp] theorem DieSt.raise_rdLatch (d : DieSt) (l c v : Nat) : (d.raise l c v).rdLatch = d.rdLatch := by cases d; unfold DieSt.raise; split <;> rfl
@[simp] theorem DieSt.raise_wrLatch (d : DieSt) (l c v : Nat) : (d.raise l c v).wrLatch = d.wrLatch := by cases d; unfold DieSt.raise; split <;> rfl
@[simp] theorem DieSt.raise_free (d : DieSt) (l c v : Nat) : (d.raise l c v).free = d.free := by cases d; unfold DieSt.raise; split <;> rfl
@[simp] theorem DieSt.raise_now (d : DieSt) (l c v : Nat) : (d.raise l c v).now = d.now := by cases d; unfold DieSt.raise; split <;> rfl
@[simp] theorem DieSt.raise_mt (d : DieSt) (l c v : Nat) : (d.raise l c v).mt = d.mt := by cases d; unfold DieSt.raise; split <;> rfl
@[simp] theorem DieSt.raise_coll (d : DieSt) (l c v : Nat) : (d.raise l c v).coll = d.coll := by cases d; unfold DieSt.raise; split <;> rfl
@[simp] theorem DieSt.raise_evLast (d : DieSt) (l c v : Nat) : (d.raise l c v).evLast = d.evLast := by cases d; unfold DieSt.raise; split <;> rfl
@[simp] theorem DieSt.raise_noRb (d : DieSt) (l c v : Nat) : (d.raise l c v).noRb = d.noRb := by cases d; unfold DieSt.raise; split <;> rfl
@[simp] theorem DieSt.raise_fab (d : DieSt) (l c v : Nat) : (d.raise l c v).fab = d.fab := by cases d; unfold DieSt.raise; split <;> rfl
@[simp] theorem DieSt.raise_pace (d : DieSt) (l c v : Nat) : (d.raise l c v).pace = d.pace := by cases d; unfold DieSt.raise; split <;> rfl
@[simp] theorem DieSt.raise_se (d : DieSt) (l c v : Nat) : (d.raise l c v).se = d.se := by cases d; unfold DieSt.raise; split <;> rfl
@[simp] theorem DieSt.raise_q (d : DieSt) (l c v : Nat) : (d.raise l c v).q = d.q := by cases d; unfold DieSt.raise; split <;> rfl
@[simp] theorem DieSt.raise_crc (d : DieSt) (l c v : Nat) : (d.raise l c v).crc = d.crc := by cases d; unfold DieSt.raise; split <;> rfl
@[simp] theorem DieSt.raise_claims (d : DieSt) (l c v : Nat) : (d.raise l c v).claims = d.claims := by cases d; unfold DieSt.raise; split <;> rfl
@[simp] theorem DieSt.raise_ros (d : DieSt) (l c v : Nat) : (d.raise l c v).ros = d.ros := by cases d; unfold DieSt.raise; split <;> rfl
@[simp] theorem DieSt.raise_userX (d : DieSt) (l c v : Nat) : (d.raise l c v).userX = d.userX := by cases d; unfold DieSt.raise; split <;> rfl
@[simp] theorem DieSt.raise_bankRst (d : DieSt) (l c v : Nat) : (d.raise l c v).bankRst = d.bankRst := by cases d; unfold DieSt.raise; split <;> rfl
@[simp] theorem DieSt.raise_xing (d : DieSt) (l c v : Nat) : (d.raise l c v).xing = d.xing := by cases d; unfold DieSt.raise; split <;> rfl
@[simp] theorem DieSt.raise_tapAt (d : DieSt) (l c v : Nat) : (d.raise l c v).tapAt = d.tapAt := by cases d; unfold DieSt.raise; split <;> rfl
@[simp] theorem DieSt.raise_portAt (d : DieSt) (l c v : Nat) : (d.raise l c v).portAt = d.portAt := by cases d; unfold DieSt.raise; split <;> rfl
@[simp] theorem DieSt.raise_chanAt (d : DieSt) (l c v : Nat) : (d.raise l c v).chanAt = d.chanAt := by cases d; unfold DieSt.raise; split <;> rfl
@[simp] theorem DieSt.raise_slkAdm (d : DieSt) (l c v : Nat) : (d.raise l c v).slkAdm = d.slkAdm := by cases d; unfold DieSt.raise; split <;> rfl
@[simp] theorem DieSt.raise_dmc (d : DieSt) (l c v : Nat) : (d.raise l c v).dmc = d.dmc := by cases d; unfold DieSt.raise; split <;> rfl
@[simp] theorem DieSt.raise_slkHeld (d : DieSt) (l c v : Nat) : (d.raise l c v).slkHeld = d.slkHeld := by cases d; unfold DieSt.raise; split <;> rfl
@[simp] theorem DieSt.raise_port (d : DieSt) (l c v : Nat) : (d.raise l c v).port = d.port := by cases d; unfold DieSt.raise; split <;> rfl
@[simp] theorem DieSt.raise_cfgSeq (d : DieSt) (l c v : Nat) : (d.raise l c v).cfgSeq = d.cfgSeq := by cases d; unfold DieSt.raise; split <;> rfl
@[simp] theorem DieSt.raise_mgmtIn (d : DieSt) (l c v : Nat) : (d.raise l c v).mgmtIn = d.mgmtIn := by cases d; unfold DieSt.raise; split <;> rfl
@[simp] theorem DieSt.raise_chanSent (d : DieSt) (l c v : Nat) : (d.raise l c v).chanSent = d.chanSent := by cases d; unfold DieSt.raise; split <;> rfl
@[simp] theorem DieSt.raise_chanZero (d : DieSt) (l c v : Nat) : (d.raise l c v).chanZero = d.chanZero := by cases d; unfold DieSt.raise; split <;> rfl
@[simp] theorem DieSt.raise_txts (d : DieSt) (l c v : Nat) : (d.raise l c v).txts = d.txts := by cases d; unfold DieSt.raise; split <;> rfl
@[simp] theorem DieSt.raise_ethCfg (d : DieSt) (l c v : Nat) : (d.raise l c v).ethCfg = d.ethCfg := by cases d; unfold DieSt.raise; split <;> rfl
@[simp] theorem DieSt.raise_ethOut (d : DieSt) (l c v : Nat) : (d.raise l c v).ethOut = d.ethOut := by cases d; unfold DieSt.raise; split <;> rfl
@[simp] theorem DieSt.raise_mtm (d : DieSt) (l c v : Nat) : (d.raise l c v).mtm = d.mtm := by cases d; unfold DieSt.raise; split <;> rfl
@[simp] theorem DieSt.raise_hdrOk (d : DieSt) (l c v : Nat) : (d.raise l c v).hdrOk = d.hdrOk := by cases d; unfold DieSt.raise; split <;> rfl
@[simp] theorem DieSt.raise_linkIn (d : DieSt) (l c v : Nat) : (d.raise l c v).linkIn = d.linkIn := by cases d; unfold DieSt.raise; split <;> rfl
@[simp] theorem DieSt.raise_pin (d : DieSt) (l c v : Nat) : (d.raise l c v).pin = d.pin := by cases d; unfold DieSt.raise; split <;> rfl
@[simp] theorem DieSt.raise_pinLevel (d : DieSt) (l c v : Nat) : (d.raise l c v).pinLevel = d.pinLevel := by cases d; unfold DieSt.raise; split <;> rfl
@[simp] theorem DieSt.raise_plan (d : DieSt) (l c v : Nat) : (d.raise l c v).plan = d.plan := by cases d; unfold DieSt.raise; split <;> rfl
@[simp] theorem DieSt.raise_pmPrev (d : DieSt) (l c v : Nat) : (d.raise l c v).pmPrev = d.pmPrev := by cases d; unfold DieSt.raise; split <;> rfl
@[simp] theorem DieSt.raise_pmHits (d : DieSt) (l c v : Nat) : (d.raise l c v).pmHits = d.pmHits := by cases d; unfold DieSt.raise; split <;> rfl
@[simp] theorem DieSt.raise_deb (d : DieSt) (l c v : Nat) : (d.raise l c v).deb = d.deb := by cases d; unfold DieSt.raise; split <;> rfl
@[simp] theorem DieSt.raise_pllLost (d : DieSt) (l c v : Nat) : (d.raise l c v).pllLost = d.pllLost := by cases d; unfold DieSt.raise; split <;> rfl
@[simp] theorem DieSt.raise_load (d : DieSt) (l c v : Nat) : (d.raise l c v).load = d.load := by cases d; unfold DieSt.raise; split <;> rfl
@[simp] theorem DieSt.raise_nvm (d : DieSt) (l c v : Nat) : (d.raise l c v).nvm = d.nvm := by cases d; unfold DieSt.raise; split <;> rfl
@[simp] theorem DieSt.raise_rel (d : DieSt) (l c v : Nat) : (d.raise l c v).rel = d.rel := by cases d; unfold DieSt.raise; split <;> rfl
@[simp] theorem DieSt.raise_pwr (d : DieSt) (l c v : Nat) : (d.raise l c v).pwr = d.pwr := by cases d; unfold DieSt.raise; split <;> rfl
@[simp] theorem DieSt.raise_fuse (d : DieSt) (l c v : Nat) : (d.raise l c v).fuse = d.fuse := by cases d; unfold DieSt.raise; split <;> rfl
@[simp] theorem DieSt.raise_ref (d : DieSt) (l c v : Nat) : (d.raise l c v).ref = d.ref := by cases d; unfold DieSt.raise; split <;> rfl
@[simp] theorem DieSt.raise_met (d : DieSt) (l c v : Nat) : (d.raise l c v).met = d.met := by cases d; unfold DieSt.raise; split <;> rfl
@[simp] theorem DieSt.raise_ump (d : DieSt) (l c v : Nat) : (d.raise l c v).ump = d.ump := by cases d; unfold DieSt.raise; split <;> rfl
@[simp] theorem DieSt.raise_jtag (d : DieSt) (l c v : Nat) : (d.raise l c v).jtag = d.jtag := by cases d; unfold DieSt.raise; split <;> rfl
@[simp] theorem DieSt.raiseIf_idn (d : DieSt) (b : Bool) (l c v : Nat) : (d.raiseIf b l c v).idn = d.idn := by cases b <;> simp [DieSt.raiseIf]
@[simp] theorem DieSt.raiseIf_regs (d : DieSt) (b : Bool) (l c v : Nat) : (d.raiseIf b l c v).regs = d.regs := by cases b <;> simp [DieSt.raiseIf]
@[simp] theorem DieSt.raiseIf_resp (d : DieSt) (b : Bool) (l c v : Nat) : (d.raiseIf b l c v).resp = d.resp := by cases b <;> simp [DieSt.raiseIf]
@[simp] theorem DieSt.raiseIf_rdLatch (d : DieSt) (b : Bool) (l c v : Nat) : (d.raiseIf b l c v).rdLatch = d.rdLatch := by cases b <;> simp [DieSt.raiseIf]
@[simp] theorem DieSt.raiseIf_wrLatch (d : DieSt) (b : Bool) (l c v : Nat) : (d.raiseIf b l c v).wrLatch = d.wrLatch := by cases b <;> simp [DieSt.raiseIf]
@[simp] theorem DieSt.raiseIf_free (d : DieSt) (b : Bool) (l c v : Nat) : (d.raiseIf b l c v).free = d.free := by cases b <;> simp [DieSt.raiseIf]
@[simp] theorem DieSt.raiseIf_now (d : DieSt) (b : Bool) (l c v : Nat) : (d.raiseIf b l c v).now = d.now := by cases b <;> simp [DieSt.raiseIf]
@[simp] theorem DieSt.raiseIf_mt (d : DieSt) (b : Bool) (l c v : Nat) : (d.raiseIf b l c v).mt = d.mt := by cases b <;> simp [DieSt.raiseIf]
@[simp] theorem DieSt.raiseIf_coll (d : DieSt) (b : Bool) (l c v : Nat) : (d.raiseIf b l c v).coll = d.coll := by cases b <;> simp [DieSt.raiseIf]
@[simp] theorem DieSt.raiseIf_evLast (d : DieSt) (b : Bool) (l c v : Nat) : (d.raiseIf b l c v).evLast = d.evLast := by cases b <;> simp [DieSt.raiseIf]
@[simp] theorem DieSt.raiseIf_noRb (d : DieSt) (b : Bool) (l c v : Nat) : (d.raiseIf b l c v).noRb = d.noRb := by cases b <;> simp [DieSt.raiseIf]
@[simp] theorem DieSt.raiseIf_fab (d : DieSt) (b : Bool) (l c v : Nat) : (d.raiseIf b l c v).fab = d.fab := by cases b <;> simp [DieSt.raiseIf]
@[simp] theorem DieSt.raiseIf_pace (d : DieSt) (b : Bool) (l c v : Nat) : (d.raiseIf b l c v).pace = d.pace := by cases b <;> simp [DieSt.raiseIf]
@[simp] theorem DieSt.raiseIf_se (d : DieSt) (b : Bool) (l c v : Nat) : (d.raiseIf b l c v).se = d.se := by cases b <;> simp [DieSt.raiseIf]
@[simp] theorem DieSt.raiseIf_q (d : DieSt) (b : Bool) (l c v : Nat) : (d.raiseIf b l c v).q = d.q := by cases b <;> simp [DieSt.raiseIf]
@[simp] theorem DieSt.raiseIf_crc (d : DieSt) (b : Bool) (l c v : Nat) : (d.raiseIf b l c v).crc = d.crc := by cases b <;> simp [DieSt.raiseIf]
@[simp] theorem DieSt.raiseIf_claims (d : DieSt) (b : Bool) (l c v : Nat) : (d.raiseIf b l c v).claims = d.claims := by cases b <;> simp [DieSt.raiseIf]
@[simp] theorem DieSt.raiseIf_ros (d : DieSt) (b : Bool) (l c v : Nat) : (d.raiseIf b l c v).ros = d.ros := by cases b <;> simp [DieSt.raiseIf]
@[simp] theorem DieSt.raiseIf_userX (d : DieSt) (b : Bool) (l c v : Nat) : (d.raiseIf b l c v).userX = d.userX := by cases b <;> simp [DieSt.raiseIf]
@[simp] theorem DieSt.raiseIf_bankRst (d : DieSt) (b : Bool) (l c v : Nat) : (d.raiseIf b l c v).bankRst = d.bankRst := by cases b <;> simp [DieSt.raiseIf]
@[simp] theorem DieSt.raiseIf_xing (d : DieSt) (b : Bool) (l c v : Nat) : (d.raiseIf b l c v).xing = d.xing := by cases b <;> simp [DieSt.raiseIf]
@[simp] theorem DieSt.raiseIf_tapAt (d : DieSt) (b : Bool) (l c v : Nat) : (d.raiseIf b l c v).tapAt = d.tapAt := by cases b <;> simp [DieSt.raiseIf]
@[simp] theorem DieSt.raiseIf_portAt (d : DieSt) (b : Bool) (l c v : Nat) : (d.raiseIf b l c v).portAt = d.portAt := by cases b <;> simp [DieSt.raiseIf]
@[simp] theorem DieSt.raiseIf_chanAt (d : DieSt) (b : Bool) (l c v : Nat) : (d.raiseIf b l c v).chanAt = d.chanAt := by cases b <;> simp [DieSt.raiseIf]
@[simp] theorem DieSt.raiseIf_slkAdm (d : DieSt) (b : Bool) (l c v : Nat) : (d.raiseIf b l c v).slkAdm = d.slkAdm := by cases b <;> simp [DieSt.raiseIf]
@[simp] theorem DieSt.raiseIf_dmc (d : DieSt) (b : Bool) (l c v : Nat) : (d.raiseIf b l c v).dmc = d.dmc := by cases b <;> simp [DieSt.raiseIf]
@[simp] theorem DieSt.raiseIf_slkHeld (d : DieSt) (b : Bool) (l c v : Nat) : (d.raiseIf b l c v).slkHeld = d.slkHeld := by cases b <;> simp [DieSt.raiseIf]
@[simp] theorem DieSt.raiseIf_port (d : DieSt) (b : Bool) (l c v : Nat) : (d.raiseIf b l c v).port = d.port := by cases b <;> simp [DieSt.raiseIf]
@[simp] theorem DieSt.raiseIf_cfgSeq (d : DieSt) (b : Bool) (l c v : Nat) : (d.raiseIf b l c v).cfgSeq = d.cfgSeq := by cases b <;> simp [DieSt.raiseIf]
@[simp] theorem DieSt.raiseIf_mgmtIn (d : DieSt) (b : Bool) (l c v : Nat) : (d.raiseIf b l c v).mgmtIn = d.mgmtIn := by cases b <;> simp [DieSt.raiseIf]
@[simp] theorem DieSt.raiseIf_chanSent (d : DieSt) (b : Bool) (l c v : Nat) : (d.raiseIf b l c v).chanSent = d.chanSent := by cases b <;> simp [DieSt.raiseIf]
@[simp] theorem DieSt.raiseIf_chanZero (d : DieSt) (b : Bool) (l c v : Nat) : (d.raiseIf b l c v).chanZero = d.chanZero := by cases b <;> simp [DieSt.raiseIf]
@[simp] theorem DieSt.raiseIf_txts (d : DieSt) (b : Bool) (l c v : Nat) : (d.raiseIf b l c v).txts = d.txts := by cases b <;> simp [DieSt.raiseIf]
@[simp] theorem DieSt.raiseIf_ethCfg (d : DieSt) (b : Bool) (l c v : Nat) : (d.raiseIf b l c v).ethCfg = d.ethCfg := by cases b <;> simp [DieSt.raiseIf]
@[simp] theorem DieSt.raiseIf_ethOut (d : DieSt) (b : Bool) (l c v : Nat) : (d.raiseIf b l c v).ethOut = d.ethOut := by cases b <;> simp [DieSt.raiseIf]
@[simp] theorem DieSt.raiseIf_mtm (d : DieSt) (b : Bool) (l c v : Nat) : (d.raiseIf b l c v).mtm = d.mtm := by cases b <;> simp [DieSt.raiseIf]
@[simp] theorem DieSt.raiseIf_hdrOk (d : DieSt) (b : Bool) (l c v : Nat) : (d.raiseIf b l c v).hdrOk = d.hdrOk := by cases b <;> simp [DieSt.raiseIf]
@[simp] theorem DieSt.raiseIf_linkIn (d : DieSt) (b : Bool) (l c v : Nat) : (d.raiseIf b l c v).linkIn = d.linkIn := by cases b <;> simp [DieSt.raiseIf]
@[simp] theorem DieSt.raiseIf_pin (d : DieSt) (b : Bool) (l c v : Nat) : (d.raiseIf b l c v).pin = d.pin := by cases b <;> simp [DieSt.raiseIf]
@[simp] theorem DieSt.raiseIf_pinLevel (d : DieSt) (b : Bool) (l c v : Nat) : (d.raiseIf b l c v).pinLevel = d.pinLevel := by cases b <;> simp [DieSt.raiseIf]
@[simp] theorem DieSt.raiseIf_plan (d : DieSt) (b : Bool) (l c v : Nat) : (d.raiseIf b l c v).plan = d.plan := by cases b <;> simp [DieSt.raiseIf]
@[simp] theorem DieSt.raiseIf_pmPrev (d : DieSt) (b : Bool) (l c v : Nat) : (d.raiseIf b l c v).pmPrev = d.pmPrev := by cases b <;> simp [DieSt.raiseIf]
@[simp] theorem DieSt.raiseIf_pmHits (d : DieSt) (b : Bool) (l c v : Nat) : (d.raiseIf b l c v).pmHits = d.pmHits := by cases b <;> simp [DieSt.raiseIf]
@[simp] theorem DieSt.raiseIf_deb (d : DieSt) (b : Bool) (l c v : Nat) : (d.raiseIf b l c v).deb = d.deb := by cases b <;> simp [DieSt.raiseIf]
@[simp] theorem DieSt.raiseIf_pllLost (d : DieSt) (b : Bool) (l c v : Nat) : (d.raiseIf b l c v).pllLost = d.pllLost := by cases b <;> simp [DieSt.raiseIf]
@[simp] theorem DieSt.raiseIf_load (d : DieSt) (b : Bool) (l c v : Nat) : (d.raiseIf b l c v).load = d.load := by cases b <;> simp [DieSt.raiseIf]
@[simp] theorem DieSt.raiseIf_nvm (d : DieSt) (b : Bool) (l c v : Nat) : (d.raiseIf b l c v).nvm = d.nvm := by cases b <;> simp [DieSt.raiseIf]
@[simp] theorem DieSt.raiseIf_rel (d : DieSt) (b : Bool) (l c v : Nat) : (d.raiseIf b l c v).rel = d.rel := by cases b <;> simp [DieSt.raiseIf]
@[simp] theorem DieSt.raiseIf_pwr (d : DieSt) (b : Bool) (l c v : Nat) : (d.raiseIf b l c v).pwr = d.pwr := by cases b <;> simp [DieSt.raiseIf]
@[simp] theorem DieSt.raiseIf_fuse (d : DieSt) (b : Bool) (l c v : Nat) : (d.raiseIf b l c v).fuse = d.fuse := by cases b <;> simp [DieSt.raiseIf]
@[simp] theorem DieSt.raiseIf_ref (d : DieSt) (b : Bool) (l c v : Nat) : (d.raiseIf b l c v).ref = d.ref := by cases b <;> simp [DieSt.raiseIf]
@[simp] theorem DieSt.raiseIf_met (d : DieSt) (b : Bool) (l c v : Nat) : (d.raiseIf b l c v).met = d.met := by cases b <;> simp [DieSt.raiseIf]
@[simp] theorem DieSt.raiseIf_ump (d : DieSt) (b : Bool) (l c v : Nat) : (d.raiseIf b l c v).ump = d.ump := by cases b <;> simp [DieSt.raiseIf]
@[simp] theorem DieSt.raiseIf_jtag (d : DieSt) (b : Bool) (l c v : Nat) : (d.raiseIf b l c v).jtag = d.jtag := by cases b <;> simp [DieSt.raiseIf]

/-! ### Registers after an update that writes none -/

@[simp] theorem DieSt.answer_rd (d : DieSt) (m : Master) (v : Word) (e : Bool) (i : Nat) : (d.answer m v e).rd i = d.rd i := by unfold DieSt.rd; rw [DieSt.answer_regs]
@[simp] theorem DieSt.answer_f (d : DieSt) (m : Master) (v : Word) (e : Bool) (y : Fld) : (d.answer m v e).f y = d.f y := by unfold DieSt.f; rw [DieSt.answer_rd]
@[simp] theorem DieSt.answer_on (d : DieSt) (m : Master) (v : Word) (e : Bool) (y : Fld) : (d.answer m v e).on y = d.on y := by unfold DieSt.on; rw [DieSt.answer_f]
@[simp] theorem DieSt.setClaim_rd (d : DieSt) (r k : Nat) (i : Nat) : (d.setClaim r k).rd i = d.rd i := by unfold DieSt.rd; rw [DieSt.setClaim_regs]
@[simp] theorem DieSt.setClaim_f (d : DieSt) (r k : Nat) (y : Fld) : (d.setClaim r k).f y = d.f y := by unfold DieSt.f; rw [DieSt.setClaim_rd]
@[simp] theorem DieSt.setClaim_on (d : DieSt) (r k : Nat) (y : Fld) : (d.setClaim r k).on y = d.on y := by unfold DieSt.on; rw [DieSt.setClaim_f]
@[simp] theorem DieSt.setEng_rd (d : DieSt) (r : Nat) (e : SeSt) (i : Nat) : (d.setEng r e).rd i = d.rd i := by unfold DieSt.rd; rw [DieSt.setEng_regs]
@[simp] theorem DieSt.setEng_f (d : DieSt) (r : Nat) (e : SeSt) (y : Fld) : (d.setEng r e).f y = d.f y := by unfold DieSt.f; rw [DieSt.setEng_rd]
@[simp] theorem DieSt.setEng_on (d : DieSt) (r : Nat) (e : SeSt) (y : Fld) : (d.setEng r e).on y = d.on y := by unfold DieSt.on; rw [DieSt.setEng_f]
@[simp] theorem DieSt.setQue_rd (d : DieSt) (q : Nat) (v : QSt) (i : Nat) : (d.setQue q v).rd i = d.rd i := by unfold DieSt.rd; rw [DieSt.setQue_regs]
@[simp] theorem DieSt.setQue_f (d : DieSt) (q : Nat) (v : QSt) (y : Fld) : (d.setQue q v).f y = d.f y := by unfold DieSt.f; rw [DieSt.setQue_rd]
@[simp] theorem DieSt.setQue_on (d : DieSt) (q : Nat) (v : QSt) (y : Fld) : (d.setQue q v).on y = d.on y := by unfold DieSt.on; rw [DieSt.setQue_f]
@[simp] theorem DieSt.setCrc_rd (d : DieSt) (u : Nat) (v : CrcSt) (i : Nat) : (d.setCrc u v).rd i = d.rd i := by unfold DieSt.rd; rw [DieSt.setCrc_regs]
@[simp] theorem DieSt.setCrc_f (d : DieSt) (u : Nat) (v : CrcSt) (y : Fld) : (d.setCrc u v).f y = d.f y := by unfold DieSt.f; rw [DieSt.setCrc_rd]
@[simp] theorem DieSt.setCrc_on (d : DieSt) (u : Nat) (v : CrcSt) (y : Fld) : (d.setCrc u v).on y = d.on y := by unfold DieSt.on; rw [DieSt.setCrc_f]
@[simp] theorem DieSt.setCx_rd (d : DieSt) (n : Nat) (c : CtxSt) (i : Nat) : (d.setCx n c).rd i = d.rd i := by unfold DieSt.rd; rw [DieSt.setCx_regs]
@[simp] theorem DieSt.setCx_f (d : DieSt) (n : Nat) (c : CtxSt) (y : Fld) : (d.setCx n c).f y = d.f y := by unfold DieSt.f; rw [DieSt.setCx_rd]
@[simp] theorem DieSt.setCx_on (d : DieSt) (n : Nat) (c : CtxSt) (y : Fld) : (d.setCx n c).on y = d.on y := by unfold DieSt.on; rw [DieSt.setCx_f]
@[simp] theorem DieSt.setRe_rd (d : DieSt) (r : Nat) (e : EngSt) (i : Nat) : (d.setRe r e).rd i = d.rd i := by unfold DieSt.rd; rw [DieSt.setRe_regs]
@[simp] theorem DieSt.setRe_f (d : DieSt) (r : Nat) (e : EngSt) (y : Fld) : (d.setRe r e).f y = d.f y := by unfold DieSt.f; rw [DieSt.setRe_rd]
@[simp] theorem DieSt.setRe_on (d : DieSt) (r : Nat) (e : EngSt) (y : Fld) : (d.setRe r e).on y = d.on y := by unfold DieSt.on; rw [DieSt.setRe_f]
@[simp] theorem DieSt.setCh_rd (d : DieSt) (c : Nat) (v : DmcSt) (i : Nat) : (d.setCh c v).rd i = d.rd i := by unfold DieSt.rd; rw [DieSt.setCh_regs]
@[simp] theorem DieSt.setCh_f (d : DieSt) (c : Nat) (v : DmcSt) (y : Fld) : (d.setCh c v).f y = d.f y := by unfold DieSt.f; rw [DieSt.setCh_rd]
@[simp] theorem DieSt.setCh_on (d : DieSt) (c : Nat) (v : DmcSt) (y : Fld) : (d.setCh c v).on y = d.on y := by unfold DieSt.on; rw [DieSt.setCh_f]
@[simp] theorem DieSt.setPrt_rd (d : DieSt) (p : Nat) (v : PortSt) (i : Nat) : (d.setPrt p v).rd i = d.rd i := by unfold DieSt.rd; rw [DieSt.setPrt_regs]
@[simp] theorem DieSt.setPrt_f (d : DieSt) (p : Nat) (v : PortSt) (y : Fld) : (d.setPrt p v).f y = d.f y := by unfold DieSt.f; rw [DieSt.setPrt_rd]
@[simp] theorem DieSt.setPrt_on (d : DieSt) (p : Nat) (v : PortSt) (y : Fld) : (d.setPrt p v).on y = d.on y := by unfold DieSt.on; rw [DieSt.setPrt_f]
@[simp] theorem DieSt.setPin_rd (d : DieSt) (n : Nat) (v : PinSt) (i : Nat) : (d.setPin n v).rd i = d.rd i := by unfold DieSt.rd; rw [DieSt.setPin_regs]
@[simp] theorem DieSt.setPin_f (d : DieSt) (n : Nat) (v : PinSt) (y : Fld) : (d.setPin n v).f y = d.f y := by unfold DieSt.f; rw [DieSt.setPin_rd]
@[simp] theorem DieSt.setPin_on (d : DieSt) (n : Nat) (v : PinSt) (y : Fld) : (d.setPin n v).on y = d.on y := by unfold DieSt.on; rw [DieSt.setPin_f]
@[simp] theorem DieSt.setXr_rd (d : DieSt) (r : XRef) (v : XSt) (i : Nat) : (d.setXr r v).rd i = d.rd i := by unfold DieSt.rd; rw [DieSt.setXr_regs]
@[simp] theorem DieSt.setXr_f (d : DieSt) (r : XRef) (v : XSt) (y : Fld) : (d.setXr r v).f y = d.f y := by unfold DieSt.f; rw [DieSt.setXr_rd]
@[simp] theorem DieSt.setXr_on (d : DieSt) (r : XRef) (v : XSt) (y : Fld) : (d.setXr r v).on y = d.on y := by unfold DieSt.on; rw [DieSt.setXr_f]
@[simp] theorem DieSt.setRule_rd (d : DieSt) (r : Nat) (v : RuleSt) (i : Nat) : (d.setRule r v).rd i = d.rd i := by unfold DieSt.rd; rw [DieSt.setRule_regs]
@[simp] theorem DieSt.setRule_f (d : DieSt) (r : Nat) (v : RuleSt) (y : Fld) : (d.setRule r v).f y = d.f y := by unfold DieSt.f; rw [DieSt.setRule_rd]
@[simp] theorem DieSt.setRule_on (d : DieSt) (r : Nat) (v : RuleSt) (y : Fld) : (d.setRule r v).on y = d.on y := by unfold DieSt.on; rw [DieSt.setRule_f]
@[simp] theorem DieSt.setPulse_rd (d : DieSt) (k : Nat) (v : PulseSt) (i : Nat) : (d.setPulse k v).rd i = d.rd i := by unfold DieSt.rd; rw [DieSt.setPulse_regs]
@[simp] theorem DieSt.setPulse_f (d : DieSt) (k : Nat) (v : PulseSt) (y : Fld) : (d.setPulse k v).f y = d.f y := by unfold DieSt.f; rw [DieSt.setPulse_rd]
@[simp] theorem DieSt.setPulse_on (d : DieSt) (k : Nat) (v : PulseSt) (y : Fld) : (d.setPulse k v).on y = d.on y := by unfold DieSt.on; rw [DieSt.setPulse_f]
@[simp] theorem DieSt.finding_rd (d : DieSt) (r : Nat) (i : Nat) : (d.finding r).rd i = d.rd i := by unfold DieSt.rd; rw [DieSt.finding_regs]
@[simp] theorem DieSt.finding_f (d : DieSt) (r : Nat) (y : Fld) : (d.finding r).f y = d.f y := by unfold DieSt.f; rw [DieSt.finding_rd]
@[simp] theorem DieSt.finding_on (d : DieSt) (r : Nat) (y : Fld) : (d.finding r).on y = d.on y := by unfold DieSt.on; rw [DieSt.finding_f]
@[simp] theorem DieSt.raise_rd (d : DieSt) (l c v i : Nat) : (d.raise l c v).rd i = d.rd i := by unfold DieSt.rd; rw [DieSt.raise_regs]
@[simp] theorem DieSt.raise_f (d : DieSt) (l c v : Nat) (y : Fld) : (d.raise l c v).f y = d.f y := by unfold DieSt.f; rw [DieSt.raise_rd]
@[simp] theorem DieSt.raise_on (d : DieSt) (l c v : Nat) (y : Fld) : (d.raise l c v).on y = d.on y := by unfold DieSt.on; rw [DieSt.raise_f]
@[simp] theorem DieSt.raiseIf_rd (d : DieSt) (b : Bool) (l c v i : Nat) : (d.raiseIf b l c v).rd i = d.rd i := by unfold DieSt.rd; rw [DieSt.raiseIf_regs]
@[simp] theorem DieSt.raiseIf_f (d : DieSt) (b : Bool) (l c v : Nat) (y : Fld) : (d.raiseIf b l c v).f y = d.f y := by unfold DieSt.f; rw [DieSt.raiseIf_rd]
@[simp] theorem DieSt.raiseIf_on (d : DieSt) (b : Bool) (l c v : Nat) (y : Fld) : (d.raiseIf b l c v).on y = d.on y := by unfold DieSt.on; rw [DieSt.raiseIf_f]

/-! ### What an update sets -/

@[simp] theorem DieSt.eng_setEng (d : DieSt) (r : Nat) (v : SeSt) : (d.setEng r v).eng r = v := Tab.get_set_self _ _ _ _
theorem DieSt.eng_setEng_ne (d : DieSt) {j r : Nat} (h : j ≠ r) (v : SeSt) : (d.setEng r v).eng j = d.eng j :=
  Tab.get_set_ne _ _ h _
theorem DieSt.setQue_q (d : DieSt) (q : Nat) (v : QSt) : (d.setQue q v).q = d.q.set (fun _ => QSt.reset) q v := by
  obtain ⟨t, h⟩ := d.setQue_cases q v; rw [h]
@[simp] theorem DieSt.que_setQue (d : DieSt) (q : Nat) (v : QSt) : (d.setQue q v).que q = v := by
  unfold DieSt.que; rw [DieSt.setQue_q]; exact Tab.get_set_self _ _ _ _
theorem DieSt.que_setQue_ne (d : DieSt) {j q : Nat} (h : j ≠ q) (v : QSt) : (d.setQue q v).que j = d.que j := by
  unfold DieSt.que; rw [DieSt.setQue_q]; exact Tab.get_set_ne _ _ h _
@[simp] theorem DieSt.crcU_setCrc (d : DieSt) (u : Nat) (v : CrcSt) : (d.setCrc u v).crcU u = v := Tab.get_set_self _ _ _ _
theorem DieSt.crcU_setCrc_ne (d : DieSt) {j u : Nat} (h : j ≠ u) (v : CrcSt) : (d.setCrc u v).crcU j = d.crcU j :=
  Tab.get_set_ne _ _ h _
@[simp] theorem DieSt.claim_setClaim (d : DieSt) (r : Nat) (v : Nat) : (d.setClaim r v).claim r = v := Tab.get_set_self _ _ _ _
theorem DieSt.claim_setClaim_ne (d : DieSt) {j r : Nat} (h : j ≠ r) (v : Nat) : (d.setClaim r v).claim j = d.claim j :=
  Tab.get_set_ne _ _ h _
@[simp] theorem DieSt.cx_setCx (d : DieSt) (n : Nat) (v : CtxSt) : (d.setCx n v).cx n = v := Tab.get_set_self _ _ _ _
theorem DieSt.cx_setCx_ne (d : DieSt) {j n : Nat} (h : j ≠ n) (v : CtxSt) : (d.setCx n v).cx j = d.cx j :=
  Tab.get_set_ne _ _ h _
@[simp] theorem DieSt.re_setRe (d : DieSt) (r : Nat) (v : EngSt) : (d.setRe r v).re r = v := Tab.get_set_self _ _ _ _
theorem DieSt.re_setRe_ne (d : DieSt) {j r : Nat} (h : j ≠ r) (v : EngSt) : (d.setRe r v).re j = d.re j :=
  Tab.get_set_ne _ _ h _
@[simp] theorem DieSt.ch_setCh (d : DieSt) (c : Nat) (v : DmcSt) : (d.setCh c v).ch c = v := Tab.get_set_self _ _ _ _
theorem DieSt.ch_setCh_ne (d : DieSt) {j c : Nat} (h : j ≠ c) (v : DmcSt) : (d.setCh c v).ch j = d.ch j :=
  Tab.get_set_ne _ _ h _
@[simp] theorem DieSt.prt_setPrt (d : DieSt) (p : Nat) (v : PortSt) : (d.setPrt p v).prt p = v := Tab.get_set_self _ _ _ _
theorem DieSt.prt_setPrt_ne (d : DieSt) {j p : Nat} (h : j ≠ p) (v : PortSt) : (d.setPrt p v).prt j = d.prt j :=
  Tab.get_set_ne _ _ h _
@[simp] theorem DieSt.pinS_setPin (d : DieSt) (n : Nat) (v : PinSt) : (d.setPin n v).pinS n = v := Tab.get_set_self _ _ _ _
theorem DieSt.pinS_setPin_ne (d : DieSt) {j n : Nat} (h : j ≠ n) (v : PinSt) : (d.setPin n v).pinS j = d.pinS j :=
  Tab.get_set_ne _ _ h _
@[simp] theorem DieSt.rule_setRule (d : DieSt) (r : Nat) (v : RuleSt) : (d.setRule r v).rule r = v := Tab.get_set_self _ _ _ _
theorem DieSt.rule_setRule_ne (d : DieSt) {j r : Nat} (h : j ≠ r) (v : RuleSt) : (d.setRule r v).rule j = d.rule j :=
  Tab.get_set_ne _ _ h _
@[simp] theorem DieSt.pulse_setPulse (d : DieSt) (k : Nat) (v : PulseSt) : (d.setPulse k v).pulse k = v := Tab.get_set_self _ _ _ _
theorem DieSt.pulse_setPulse_ne (d : DieSt) {j k : Nat} (h : j ≠ k) (v : PulseSt) : (d.setPulse k v).pulse j = d.pulse j :=
  Tab.get_set_ne _ _ h _
@[simp] theorem DieSt.xr_setXr (d : DieSt) (r : XRef) (v : XSt) : (d.setXr r v).xr r = v := Tab.get_set_self _ _ _ _

end Sys2Proof.Machine
end

