-- ==== Sys2Proof/Laws/Ops.lean ====
section
/-! SUPPORT. Laws of the shared operations: a command on one die, a bus access, a Referee call, the step.  Each says once
everything its operation can do; cite it instead of unfolding. -/

namespace Sys2Proof.Machine

/-! ### Dies of a state -/

@[simp] theorem State.die_setDie (s : State) (x : Die) (d : DieSt) : (s.setDie x d).die x = d := by cases x <;> rfl

@[simp] theorem State.setDie_die (s : State) (x : Die) : s.setDie x (s.die x) = s := by cases x <;> rfl

@[simp] theorem State.setDie_pending (s : State) (x : Die) (d : DieSt) : (s.setDie x d).pending = s.pending := by cases x <;> rfl

@[simp] theorem State.setDie_setDie (s : State) (x : Die) (d e : DieSt) : (s.setDie x d).setDie x e = s.setDie x e := by
  cases x <;> rfl

@[simp] theorem State.sameElse_setDie (s : State) (x : Die) (d : DieSt) : s.sameElse (s.setDie x d) x := by
  cases x <;> exact ⟨rfl, rfl⟩

/-! ### One command on one die (R16) -/

/-- A die that is there becomes `g` of it, and nothing else changes. -/
theorem onDie_present (x : Die) (s : State) (g : DieSt → DieSt) (h : (s.die x).idn.absent = false) :
    onDie x s g = s.setDie x (g (s.die x)) := by
  unfold onDie; rw [h]; rfl

/-- An absent die never acts. -/
theorem onDie_absent (x : Die) (s : State) (g : DieSt → DieSt) (h : (s.die x).idn.absent = true) : onDie x s g = s := by
  unfold onDie; rw [h]; rfl

@[simp] theorem onDie_pending (x : Die) (s : State) (g : DieSt → DieSt) : (onDie x s g).pending = s.pending := by
  unfold onDie; split <;> simp

@[simp] theorem onBoth_pending (s : State) (g : DieSt → DieSt) : (onBoth s g).pending = s.pending := by simp [onBoth]

/-- All a command on one die can do: it answers a next state, with the die replaced where it is there. -/
theorem act_cases (x : Die) (s : State) (g : DieSt → DieSt) :
    act x s g = .next (if (s.die x).idn.absent then s else s.setDie x (g (s.die x))) := by
  unfold act
  cases h : (s.die x).idn.absent
  · rw [onDie_present x s g h]; rfl
  · rw [onDie_absent x s g h]; rfl

theorem act_has (x : Die) (s : State) (d : DieSt) (g : DieSt → DieSt) (h : s.has x d) : act x s g = .next (s.setDie x (g d)) := by
  rw [act_cases, h.1, h.2]; rfl

/-- What a command on both dies does: die 0 first, then die 1 with the NVM that die 0 left. -/
theorem onBoth_eq (s : State) (g : DieSt → DieSt) :
    onBoth s g = (let t := if (s.die .die0).idn.absent then s else s.setDie .die0 (g (s.die .die0))
      if (t.die .die1).idn.absent then t else t.setDie .die1 (g (t.die .die1))) := rfl

/-! ### Bus accesses (R5, R9, R17, R28, R484) -/

/-- A write that is carried out finds a die that is there. -/
theorem DieSt.present_of_ok (d : DieSt) (m : Master) (a : Nat) (h : d.writeCheck m a 4 = .ok) : d.idn.absent = false := by
  cases ha : d.idn.absent
  · rfl
  · simp [DieSt.writeCheck, DieSt.busUp, ha] at h

theorem State.has_of_takes {s : State} {x : Die} {d : DieSt} {m : Master} {a : Nat} (h : s.takes x d m a) : s.has x d :=
  ⟨h.1, d.present_of_ok m a h.2⟩

/-- All a register write can do: refused with an error, ignored, or carried out. -/
theorem DieSt.busDo_cases (d : DieSt) (m : Master) (a : Nat) (g : DieSt → DieSt × Bool) :
    (d.writeCheck m a 4 = .err ∧ d.busDo m a g = d.answer m 0 true) ∨
    (d.writeCheck m a 4 = .void ∧ d.busDo m a g = d.answer m 0 false) ∨
    (d.writeCheck m a 4 = .ok ∧ d.busDo m a g = (g d).1.answer m 0 (g d).2) := by
  unfold DieSt.busDo
  cases d.writeCheck m a 4 <;> simp

theorem DieSt.busDo_ok (d : DieSt) (m : Master) (a : Nat) (g : DieSt → DieSt × Bool) (h : d.writeCheck m a 4 = .ok) :
    d.busDo m a g = (g d).1.answer m 0 (g d).2 := by
  unfold DieSt.busDo; rw [h]

theorem DieSt.busAct_ok (d : DieSt) (m : Master) (a : Nat) (g : DieSt → DieSt) (h : d.writeCheck m a 4 = .ok) :
    d.busAct m a g = (g d).ack m := d.busDo_ok m a _ h

/-- A command that is one register write with an effect: what it answers on a die that takes the write. -/
theorem act_busAct (x : Die) (s : State) (d : DieSt) (m : Master) (a : Nat) (g : DieSt → DieSt) (h : s.takes x d m a) :
    act x s (fun d => d.busAct m a g) = .next (s.setDie x ((g d).ack m)) := by
  rw [act_has x s d _ (State.has_of_takes h), DieSt.busAct_ok d m a g h.2]

/-- An access of another size or an unaligned one has no effect and ends with an error (R5). -/
theorem DieSt.writeCheck_misaligned (d : DieSt) (m : Master) (a size : Nat) (h : size ≠ 4 ∨ a % 4 ≠ 0) :
    d.writeCheck m a size = .err := by
  have h' : (decide (size ≠ 4) || decide (a % 4 ≠ 0)) = true := by simpa using h
  unfold DieSt.writeCheck
  rw [h']
  simp

theorem DieSt.readCheck_misaligned (d : DieSt) (m : Master) (a size : Nat) (h : size ≠ 4 ∨ a % 4 ≠ 0) :
    d.readCheck m a size = .err := by
  have h' : (decide (size ≠ 4) || decide (a % 4 ≠ 0)) = true := by simpa using h
  unfold DieSt.readCheck
  rw [h']
  simp

/-! ### Referee calls (R422, R423) -/

/-- A call that is not the next one does nothing. -/
theorem DieSt.call_other (d : DieSt) (w : Caller) (code : Nat) (g : DieSt → DieSt × Option (Nat × List Nat))
    (h : d.callNext w code = false) : d.call w code g = d := by
  unfold DieSt.call; rw [h]; rfl

/-- A call that the policy does not allow ends DENIED. -/
theorem DieSt.call_denied (d : DieSt) (w : Caller) (code : Nat) (g : DieSt → DieSt × Option (Nat × List Nat))
    (h : d.callNext w code = true) (p : (d.callTake w).policyAllows w code = false) :
    d.call w code g = ((d.callTake w).callEnd w csDenied []).dropUnknown 8 := by
  unfold DieSt.call; rw [h]; simp only [p]; rfl

/-- A call that is carried out and ends OK. -/
theorem DieSt.call_ok (d : DieSt) (w : Caller) (code : Nat) (g : DieSt → DieSt × Option (Nat × List Nat)) (e : DieSt) (l : List Nat)
    (h : d.callNext w code = true) (p : (d.callTake w).policyAllows w code = true) (r : g (d.callTake w) = (e, some (csOk, l))) :
    d.call w code g = (e.callEnd w csOk l).dropUnknown 8 := by
  unfold DieSt.call; rw [h]; simp only [p, r]; rfl

/-- A call that is refused changes nothing but its own slot. -/
theorem DieSt.call_refused (d : DieSt) (w : Caller) (code : Nat) (g : DieSt → DieSt × Option (Nat × List Nat)) (e : DieSt) (st : Nat)
    (l : List Nat) (h : d.callNext w code = true) (p : (d.callTake w).policyAllows w code = true)
    (r : g (d.callTake w) = (e, some (st, l))) (n : st ≠ csOk ∧ st ≠ csFailed ∧ st ≠ csLatched) :
    d.call w code g = ((d.callTake w).callEnd w st l).dropUnknown 8 := by
  unfold DieSt.call; rw [h]; simp only [p, r, n.1, n.2.1, n.2.2]; rfl

/-- A call that hardware still works on ends later. -/
theorem DieSt.call_busy (d : DieSt) (w : Caller) (code : Nat) (g : DieSt → DieSt × Option (Nat × List Nat)) (e : DieSt)
    (h : d.callNext w code = true) (p : (d.callTake w).policyAllows w code = true) (r : g (d.callTake w) = (e, none)) :
    d.call w code g = e.dropUnknown 8 := by
  unfold DieSt.call; rw [h]; simp only [p, r]; rfl

/-- The checks of a call: its effect when none fails, else the first status that fails and the die as it was. -/
theorem DieSt.checked_cases (d : DieSt) (l : List (Bool × Nat)) (g : DieSt → DieSt × Option (Nat × List Nat)) :
    (firstFail l = csOk ∧ d.checked l g = g d) ∨ (firstFail l ≠ csOk ∧ d.checked l g = (d, some (firstFail l, []))) := by
  unfold DieSt.checked
  by_cases h : firstFail l = csOk
  · exact .inl ⟨h, by simp [h]⟩
  · exact .inr ⟨h, by simp [h]⟩

/-! ### The step -/

theorem step_front (s : State) (c : Instr) (r : List Instr) (h : s.pending = c :: r) : step s = exec c { s with pending := r } := by
  unfold step; rw [h]

theorem step_idle (s : State) (h : s.pending = []) : step s = .next (onBoth s (fun d => d.tick.commitGo)).mtPair := by
  unfold step; rw [h]

/-- A descriptor read of a die with no flipped descriptor bits changes nothing (R179). -/
theorem DieSt.descRead_clean (d : DieSt) (n : Nat) (h : d.ros.descFlip = Tab.empty) : d.descRead n = (d, true) := by
  have hs : ∀ k, (Tab.empty : Tab Nat).set (fun _ => 0) k 0 = Tab.empty := fun _ => rfl
  have hg : ∀ k, (Tab.empty : Tab Nat).get (fun _ => 0) k = 0 := fun _ => rfl
  have e : eccClass 39 0 = 0 := by decide
  simp [DieSt.descRead, h, List.range, List.range.loop, hs, hg, e]
  rw [← h]

/-- A reflected register fits its width. -/
theorem reflectBits_lt (w n : Nat) : reflectBits w n < 2 ^ w := by
  have h : ∀ (l : List Nat) (r : Nat), l.foldl (fun r i => 2 * r + (n / 2 ^ i) % 2) r < 2 ^ l.length * (r + 1) := by
    intro l
    induction l with
    | nil => intro r; simp
    | cons a l ih =>
      intro r
      refine Nat.lt_of_lt_of_le (ih _) ?_
      rw [List.length_cons, Nat.pow_succ, Nat.mul_assoc]
      exact Nat.mul_le_mul_left _ (by have := Nat.mod_lt (n / 2 ^ a) (show 0 < 2 by decide); show 2 * r + n / 2 ^ a % 2 + 1 ≤ 2 * (r + 1); omega)
  simpa [reflectBits] using h (List.range w) 0

/-- A CRC-32 has 32 bits. -/
theorem crc32_lt (l : List Nat) : crc32 l < 2 ^ 32 := by
  show Nat.xor (reflectBits 32 _) 0xFFFFFFFF < _
  exact Nat.xor_lt_two_pow (reflectBits_lt 32 _) (by decide)

/-- Four bytes give back the number they were taken from. -/
theorem ofBytes_wordBytes (v : Nat) (h : v < 2 ^ 32) : ofBytes (wordBytes 4 v) = v := by
  simp [wordBytes, ofBytes, List.range, List.range.loop]; omega

end Sys2Proof.Machine
end

