-- ==== Sys2Proof/Tests/Slice0.lean ====
section
/-! SUPPORT. Small checks of the model: ill-formed commands refused by `Instr.wf`, values of the spec's own examples and
tables, and, for each statement with hypotheses, states that meet them (`wit_…`).  Expected values come from the spec's
text, named at each test. -/

namespace Sys2Proof.Tests

section

set_option Elab.async false

open Sys2Proof Sys2Proof.Machine

/-! ### Ill-formed commands: one for each range check of `Instr.wf` -/

theorem test_wf_refuses_1 : (
    [.registerWrite .die0 .referee (2 ^ 32) 0 0 ⟨0, false⟩, .word64LowRead .die0 .referee (2 ^ 32) 0,
      .word64LowWrite .die0 .referee (2 ^ 32) 0, .word64HighWrite .die0 .referee (2 ^ 32) 0,
      .crossDieAccess .die0 .referee (2 ^ 32) 0 false 0 ⟨0, false⟩, .stageCapture .die0 1408 0 0,
      .stageCapture .die0 0 1024 0, .matchedDelayEnd .die0 1408 0 0, .matchedDelayEnd .die0 0 1024 0,
      .stageHandover .die0 1408 0 0, .stageHandover .die0 0 1024 0, .inputWithdraw .die0 1408 0 0,
      .inputWithdraw .die0 0 1024 0, .dualRailCapture .die0 1408 0 0, .dualRailNull .die0 1408 0 0,
      .drIllegal .die0 1408 0 0 0 0, .mergeElementChange .die0 1408 0 0, .arbiterGrant .die0 1408 0 0,
      .delayChangeApply .die0 1408 0 0 false, .delayChangeApply .die0 0 1024 0 false, .bmRead .die0 1408 0 0 0 0,
      .bmRead .die0 0 4 0 0 0, .bmRead .die0 0 0 2 0 0, .bmW64Write .die0 1408 0 0 0 0, .bmW64Write .die0 0 4 0 0 0,
      .bmW64Write .die0 0 0 2 0 0, .bmNarrowWrite .die0 1408 0 0 0 0 0, .bmNarrowWrite .die0 0 4 0 0 0 0,
      .bmNarrowWrite .die0 0 0 2 0 0 0, .bmScrubStep .die0 1408 0 0] : List Instr).all (fun c => !c.wf) = true := by decide +kernel

theorem test_wf_refuses_2 : (
    [.bmScrubStep .die0 0 4 0, .rowFrameVote .die0 32 [], .channelFreeze .die0 1408 0 0 false,
      .channelFreeze .die0 0 256 0 false, .forceFreeze .die0 1408 0 false, .forceFreeze .die0 0 256 false,
      .frozenTransitionHeld .die0 1408 0 0 false, .frozenTransitionHeld .die0 0 256 0 false,
      .rgnCntClrRing .die0 .referee 1408, .rgnCntClrBm .die0 .referee 1408, .rgnCntClrFrame .die0 .referee 1408,
      .canaryMeasure .die0 1408 0 [], .canaryMeasure .die0 0 64 [], .calibratorStep .die0 1408 0,
      .calibratorStep .die0 0 1024, .monitorWindowEnd .die0 16, .pmbusTransactionEnd .die0 .ok 65536,
      .pmbTelemetryRead .die0 .referee 256, .seNop .die0 1408 [], .halt .die0 1408 [], .yieldDone .die0 1408 [],
      .yieldAgain .die0 1408 [], .yieldError .die0 1408 [], .swap .die0 1408 [], .ret .die0 1408 [], .jmpd .die0 1408 [],
      .endl .die0 1408 [], .ld .die0 1408 [], .st .die0 1408 [], .lda .die0 1408 []] : List Instr).all (fun c => !c.wf) = true := by decide +kernel

theorem test_wf_refuses_3 : (
    [.sta .die0 1408 [], .moveReg .die0 1408 [], .ldi .die0 1408 [], .ldih .die0 1408 [], .br .die0 1408 [],
      .call .die0 1408 [], .loop .die0 1408 [], .loopWrap .die0 1408, .tokIn .die0 1408 [] 0, .tokOut .die0 1408 [] 0,
      .addp .die0 1408 [], .aluAdd .die0 1408 [], .aluSub .die0 1408 [], .aluAnd .die0 1408 [], .aluOr .die0 1408 [],
      .aluXor .die0 1408 [], .aluAsl .die0 1408 [], .aluAsr .die0 1408 [], .aluLsr .die0 1408 [], .aluCmp .die0 1408 [],
      .aluMin .die0 1408 [], .aluMax .die0 1408 [], .aluAdds .die0 1408 [], .aluSubs .die0 1408 [], .sha .die0 1408 [],
      .shar .die0 1408 [], .expo .die0 1408 [], .sat .die0 1408 [], .extl .die0 1408 [], .exth .die0 1408 []] : List Instr).all (fun c => !c.wf) = true := by decide +kernel

theorem test_wf_refuses_4 : (
    [.extg .die0 1408 [], .insl .die0 1408 [], .insh .die0 1408 [], .insg .die0 1408 [], .parNop .die0 1408 [],
      .mpy .die0 1408 [], .mac .die0 1408 [], .msu .die0 1408 [], .mpyn .die0 1408 [], .clr .die0 1408 [],
      .parAdd .die0 1408 [], .parSub .die0 1408 [], .parLda .die0 1408 [], .tfr .die0 1408 [], .adda .die0 1408 [],
      .suba .die0 1408 [], .abs .die0 1408 [], .neg .die0 1408 [], .macsu .die0 1408 [], .seInputToken .die0 1408 0 0,
      .seOutputTaken .die0 1408 0, .portEvent .die0 1408, .seBreakpoint .die0 1408, .seScrubStep .die0 1408 0 0,
      .seScrubStep .die0 0 3 0, .seWindowAccess .die0 .referee 1408 0 false 0,
      .seWindowAccess .die0 .referee 0 65536 false 0, .seRestart .die0 .referee 1408, .seStep .die0 .referee 1408,
      .seRun .die0 .referee 1408] : List Instr).all (fun c => !c.wf) = true := by decide +kernel

theorem test_wf_refuses_5 : (
    [.seHaltReq .die0 .referee 1408, .seCntClrStall .die0 .referee 1408, .seCntClrInsn .die0 .referee 1408,
      .seCntClrMem .die0 .referee 1408, .rosDescriptorWrite .die0 .referee 40960 0 0,
      .rosDescriptorWrite .die0 .referee 0 16 0, .rosArm .die0 .referee 40960, .rosStop .die0 .referee 40960,
      .rosFree .die0 .referee 40960, .rosTrigger .die0 .referee 40960, .rosResume .die0 .referee 40960,
      .rosInstall .die0 .referee 40960, .rosRemove .die0 .referee 40960, .rosSelect .die0 .referee 40960,
      .rosStateWindowAccess .die0 .referee 4096 false 0, .queueTrigger .die0 40960, .periodTrigger .die0 40960,
      .watchTrigger .die0 40960, .rosterDispatch .die0 64, .contextMoveEnd .die0 40960 [], .quantumPreempt .die0 1408,
      .expressPreempt .die0 40960, .runOverrun .die0 40960, .port3WaitEnd .die0 40960, .dueMissed .die0 40960,
      .descriptorScan .die0 40960 [], .intakeFrame .die0 8 0 [], .intakeFrame .die0 0 0 [256],
      .queueWordWrite .die0 64 .roster 0 0, .queueWordWrite .die0 0 .roster 0 64] : List Instr).all (fun c => !c.wf) = true := by decide +kernel

theorem test_wf_refuses_6 : (
    [.queueWordRead .die0 64 .roster 0, .qFlush .die0 64 (.bus .team), .qMark .die0 64 (.bus .team),
      .qRewind .die0 64 (.bus .team), .qClearMark .die0 64 (.bus .team), .qCntClear .die0 .referee 64,
      .qWrTag .die0 .referee 64 0, .qWrTag .die0 .referee 0 64, .qPop .die0 .referee 64 0, .qCfgWrite .die0 .referee 64 0 0,
      .qCfgWrite .die0 .referee 0 3 0, .spillWriteEnd .die0 64 0, .spillFetchEnd .die0 64 0 [],
      .qUnbindDrainEnd .die0 64 false, .crcRestart .die0 .referee 16, .crcCntClr .die0 .referee 16,
      .crcScanGo .die0 .referee 16, .crcScanAbort .die0 .referee 16, .crcScanEnd .die0 16 none,
      .xingCfgWrite .die0 .referee 12 0, .dramRequestAccept .die0 4 0 none, .dramRequestAccept .die0 0 16 none,
      .dramCommandIssue .die0 4 [], .dramReadDone .die0 4 0 0 none, .refreshDue .die0 4 0, .refreshDue .die0 0 2,
      .mr4Read .die0 4 0 0 false, .mr4Read .die0 0 2 0 false, .mr4Read .die0 0 0 3 false, .patrolScrubStep .die0 4 0 false] : List Instr).all (fun c => !c.wf) = true := by decide +kernel

theorem test_wf_refuses_7 : (
    [.calibrationSlot .die0 4 0 .zq false false, .calibrationSlot .die0 0 2 .zq false false,
      .spareCopyStep .die0 4 0 0 false, .spareCopyStep .die0 0 64 0 false, .dmcSpare .die0 .referee 4 0 0 0 0,
      .dmcSpare .die0 .referee 0 2 0 0 0, .dmcSpare .die0 .referee 0 0 2 0 0, .dmcSpare .die0 .referee 0 0 0 32 0,
      .dmcSpare .die0 .referee 0 0 0 0 32, .dmcFree .die0 .referee 4 0, .dmcFree .die0 .referee 0 64,
      .dmcRetrain .die0 .referee 4, .dmcCntClrRef .die0 .referee 4, .dmcCntClrEcc .die0 .referee 4,
      .channelTrainingEnd .die0 4 (.ok false), .dramChFail .die0 4 0, .laneFail .die0 20, .signalDetect .die0 4,
      .portTrainingEnd .die0 4 ⟨false, 0, none, false, false, none, 0, 0⟩, .linkControlFail .die0 4,
      .slkMessageReceive .die0 4 ⟨0, 0, 0, 0, 0, 0, 0, 0, []⟩ 0 0, .slkReplay .die0 4 0, .slkMessageTransmit .die0 4 0 none,
      .kickoffMessage .die0 4 .ready, .slkQueueItemSend .die0 64 [], .tokenChannelSend .die0 256 0 0,
      .tokenChannelSend .die0 0 0 64, .slkChanStall .die0 256, .slkChanRst .die0 .referee 256,
      .ethFrameReceive .die0 4 [] false] : List Instr).all (fun c => !c.wf) = true := by decide +kernel

theorem test_wf_refuses_8 : (
    [.ethFrameReceive .die0 0 [256] false, .ethFrameTransmit .die0 64 [], .ethTxtsPop .die0 .referee 4,
      .ethLinkChange .die0 4 false, .mtTimingExchange .die0 4 false 0 0 0 ⟨none, false, false⟩, .mtPulseCapture .die0 960,
      .pinCfgWrite .die0 .referee 960 0, .pinGuardEnd .die0 960, .pinElecWrite .die0 .referee 960 0,
      .pinFabWrite .die0 .referee 960 0, .gpioOutWrite .die0 .referee 60 0, .gpioOeWrite .die0 .referee 60 0,
      .pmSample .die0 20 0, .pmSample .die0 0 (2 ^ 48), .debounceTick .die0 20 0, .debounceTick .die0 0 (2 ^ 48),
      .bankPllLock .die0 20, .bankPllUnlock .die0 20, .pwrgoodRise 8 0 0, .pwrgoodRise 0 16 0, .pwrgoodRise 0 0 (2 ^ 60),
      .nvmBoot [] (List.replicate 300 0) none none, .nvmBoot (List.replicate 300 0) [] none none,
      .domainOn .die0 .referee 80, .domainOff .die0 .referee 80, .frames (2 ^ 32) [] false, .frames 0 [2 ^ 1024] false,
      .zeroFrames (2 ^ 32) 0, .fillFrames (2 ^ 32) 0 0, .fillFrames 0 0 (2 ^ 1024)] : List Instr).all (fun c => !c.wf) = true := by decide +kernel

theorem test_wf_refuses_9 : (
    [.hostStatusRead false false 0 16, .configStreamStart 4096 [], .configStreamStart 0 [256],
      .frameSweepStep .die0 1408 0 [], .readerHeartbeatMiss .die0 1408, .pairMismatch .die0 1408 0 0,
      .pairMismatch .die0 0 1408 0, .drillDue .die0 32, .drillOut .die0 32 false false, .drillTestEnd .die0 32 none,
      .drillBack .die0 32 false false, .mgmtSendTimeout .die0 9, .pulseWidthEnd .die0 16, .demandIntervalEnd .die0 8,
      .ruleEvaluate .die0 64 0, .mtcFire .die0 8, .jtagBypass .die0 256 false, .postPackageRepairEnd .die0 4 0 false,
      .postPackageRepairEnd .die0 0 64 false] : List Instr).all (fun c => !c.wf) = true := by decide +kernel

/-! ### States the witnesses use -/

/-- Die 0 in PLAY with every domain on and the Referee serving. -/
def live : DieSt :=
  ((((DieSt.reset.wr (R.PWR_DOM_ON 0) 0xFFFFFFFF).wr (R.PWR_DOM_ON 1) 0xFFFFFFFF).wr (R.PWR_DOM_ON 2) 0xFFFFFFFF).put
    F.PWR_STATE_STATE 4).put F.REF_STAT_STATE 1

/-- A state whose die 0 is `d`. -/
def on0 (d : DieSt) : State := { State.reset with d0 := d }

/-- A package of two dies. -/
def twin (d e : DieSt) : State := { pending := [], d0 := d, d1 := e }

/-- Wire `k` of ring channel 0 of region 0, which an island drives. -/
def wire (k : Nat) : Link := ⟨0, .island k, 0, 0, k⟩

/-- A unit with a role. -/
def unitOf (u : Nat) (r : Role) : UnitCfg := ⟨u, .l6, 0, .off, .link, [], false, r, false, false⟩

/-- One stage, one dual-rail stage (a decoder or not), one merge element, one arbiter and one ring channel. -/
def planOf (dec : Bool) : Design :=
  { units := [unitOf 0 .leader, unitOf 16 (.railT 16 0), unitOf 17 (.railT 16 1), unitOf 18 (.railF 16 0), unitOf 19 (.railF 16 1)], muxes := [], cins := [(0, 0, wire 0), (0, 47, wire 1), (1, 0, wire 1)]
    stages := [⟨0, false, 65, 112, false, [16, 0, 0, 0]⟩], rails := [⟨16, [wire 2, wire 3], [wire 4, wire 5], 65, dec, false⟩]
    merges := [[wire 0, wire 1]], arbs := [(wire 0, wire 1)]
    ring := [⟨false, [0, 1, 2, 3, 4, 5], wire 0, wire 1, [wire 2, wire 3, wire 4, wire 5]⟩] }

/-- Region 0 RUNNING with that design, its ring in PASS and the cells of its channel as the image sets them. -/
def fabOf (dec : Bool) : DieSt :=
  let d := ((live.put (F.RGN_STAT_STATE 0) 4).put (F.RGN_STAT_HOME 0) 63).setRing 0 1
  { d with
    fab := { d.fab with
      design := Tab.empty.set (fun _ => Design.reset) 0 (planOf dec), gate := Tab.empty.set (fun _ => false) 0 true
      iso := (List.range 6).foldl (fun (t : Tab Tmr) n => t.set (fun _ => Tmr.reset) n ⟨cellWord 0 n false, cellWord 0 n false, cellWord 0 n false⟩) Tab.empty } }

/-- That region with a dual-rail stage that is no decoder. -/
def fab : DieSt := fabOf false

/-- The levels of the wires. -/
def lv (n : Nat) : FabEnv := (on0 fab).fabEnv .die0 n

/-- A die of the two-die part in PLAY, its clock running. -/
def t4096 (second : Bool) : DieSt :=
  { live with idn := { live.idn with part := .tsl8680T4096, second := second }, mtm := { live.mtm with on := true } }

/-! ### Witnesses: steps, registers and pairs -/

theorem wit_StepRunsFrontCommand : ({ on0 live with pending := [.crystalStart] } : State).pending = .crystalStart :: [] := rfl

theorem wit_IdleStepPassesTime : (on0 live).pending = [] ∧ live.idn.absent = false ∧ live.mtm.on = false ∧ State.reset.d1.idn.absent = true ∧
    live.load.commit = none ∧ ({ live with mtm := { live.mtm with on := true } } : DieSt).mtm.on = true ∧ live.on F.MT_CFG_ROOT = false ∧
    live.f F.MT_RATE_NOW_RATE = 0 ∧ live.mtm.frac < 2 ^ 32 ∧ (t4096 false).idn.twin = true ∧ (t4096 false).idn.absent = false ∧
    (t4096 true).idn.absent = false ∧ (t4096 true).load.commit = none := by decide

theorem wit_AbsentDieNeverActs : State.reset.Quiet ∧ step State.reset = .next (onBoth State.reset (fun d => d.tick.commitGo)).mtPair := by
  exact ⟨⟨fun h => absurd h (by decide), fun _ => rfl, fun h => absurd h (by decide)⟩, rfl⟩

theorem wit_MisalignedAccessHasNoEffect : (on0 live).has .die0 live ∧ ((2 : Nat) ≠ 4 ∨ R.SYS_ID % 4 ≠ 0) ∧ ((4 : Nat) ≠ 4 ∨ (R.SYS_ID + 1) % 4 ≠ 0) :=
  ⟨⟨rfl, by decide⟩, by decide, by decide⟩

theorem wit_RegisterWriteRules : (on0 live).has .die0 live ∧ (on0 live).takes .die0 live .referee R.SYS_EVT_CFG ∧
    (on0 live).takes .die0 live .referee R.PACE_ERR :=
  ⟨⟨rfl, by decide⟩, ⟨rfl, by decide⟩, ⟨rfl, by decide⟩⟩

/-- An absent row's region, a block whose domain is off, and a register of the Referee's written by Team. -/
theorem wit_RegisterWriteRules_refused :
    (∃ b rows, findBlk (R.RGN_STAT 1407) = some (b, rows) ∧ ({ live with idn := { live.idn with part := .tsl8630F3168 } } : DieSt).absentAt b (R.RGN_STAT 1407) = true) ∧
    (∃ b rows, findBlk R.CFG_STAT = some (b, rows) ∧ live.absentAt b R.CFG_STAT = false ∧ (live.setDom 77 false).liveAt b R.CFG_STAT = false) ∧
    (∃ b rows r, findBlk R.PACE_CFG = some (b, rows) ∧ rows.find? (fun r => r.has R.PACE_CFG) = some r ∧ mayWrite (.fabric 0) r.owner = false) ∧
    live.busUp (.fabric 0) = true ∧ R.RGN_STAT 1407 % 4 = 0 ∧ foldSe (R.RGN_STAT 1407) = R.RGN_STAT 1407 ∧
    seWindowAt (R.RGN_STAT 1407) = false ∧ rosWindowAt (R.RGN_STAT 1407) = false :=
  ⟨⟨_, _, rfl, by decide⟩, ⟨_, _, rfl, by decide, by decide⟩, ⟨_, _, _, rfl, rfl, by decide⟩, by decide⟩

theorem wit_PairsReadAndWriteWhole : (on0 live).has .die0 live ∧ live.busUp .team = true ∧
    live.rdLatch.get (fun _ => none) (masterKey .team) = none ∧
    ({ live with rdLatch := live.rdLatch.set (fun _ => none) (masterKey .team) (some (R.MT_NOW_LO, 7)) } : DieSt).rdLatch.get
      (fun _ => none) (masterKey .team) = some (R.MT_NOW_LO, 7) ∧
    live.pairHeld (R.UMP_MTC_VALUE_LO 7) = false ∧ live.pairHeld (R.UMP_MTC_VALUE_LO 7 + 4) = false ∧ writesPair (R.Q_WR_LO 5) = true ∧
    live.pairHeld (R.Q_WR_LO 5) = true ∧ live.pairHeld (R.Q_WR_LO 5 + 4) = true ∧ (on0 live).takes .die0 live .team (R.Q_WR_LO 5) ∧
    (on0 live).takes .die0 live .team (R.Q_WR_LO 5 + 4) ∧ writesPair (R.UMP_MTC_VALUE_LO 7) = true ∧ R.UMP_MTC_VALUE_LO 7 ≠ R.MT_EPOCH_LO ∧
    (on0 live).takes .die0 live .referee (R.UMP_MTC_VALUE_LO 7) ∧ (on0 live).takes .die0 live .referee (R.UMP_MTC_VALUE_LO 7 + 4) ∧
    ({ live with wrLatch := live.wrLatch.set (fun _ => none) (masterKey .referee) (some (R.UMP_MTC_VALUE_LO 7, 9)) } : DieSt).wrLatch.get
      (fun _ => none) (masterKey .referee) = some (R.UMP_MTC_VALUE_LO 7, 9) :=
  ⟨⟨rfl, by decide⟩, by decide, by decide, by decide, by decide, by decide, by decide, by decide, by decide, ⟨rfl, by decide⟩, ⟨rfl, by decide⟩,
    by decide, by decide, ⟨rfl, by decide⟩, ⟨rfl, by decide⟩, by decide⟩

/-- The polynomial of a check-value unit is a pair that the Referee and Team may both write. -/
theorem wit_PairsOfTwoMastersNeverMix : ∃ a, writesPair a = true ∧ a ≠ R.MT_EPOCH_LO ∧ live.pairHeld a = false ∧ live.pairHeld (a + 4) = false ∧ masterKey .referee ≠ masterKey .team ∧
    (on0 live).takes .die0 live .referee a ∧ (on0 live).takes .die0 live .team a ∧
    live.writeCheck .referee (a + 4) 4 = .ok ∧ live.writeCheck .team (a + 4) 4 = .ok :=
  ⟨R.CRC_POLY_LO 0, by decide, by decide, by decide, by decide, by decide, ⟨rfl, by decide⟩, ⟨rfl, by decide⟩, by decide, by decide⟩

theorem wit_CrossDieAccesses : (twin live live).has .die0 live ∧ (twin live live).has (otherDie .die0) live ∧ live.busUp .referee = true ∧
    live.writeCheck .referee R.SYS_EVT_CFG 4 = .ok ∧ ((on0 live).die (otherDie .die0)).idn.absent = true :=
  ⟨⟨rfl, by decide⟩, ⟨rfl, by decide⟩, by decide, by decide, by decide⟩

/-! ### Witnesses: fabric, regions and block memories -/

theorem wit_FourPhaseHandshakeMoves : (on0 fab).has .die0 fab ∧ fab.regionOn 0 = true ∧ (fab.stageCfg 0 0).isSome = true ∧
    fab.levelIn (lv 1) 0 0 65 = true ∧ fab.stage 0 = StageSt.reset ∧ fab.gateOpen 0 = true ∧ fab.levelIn (lv 1) 0 0 112 = false ∧
    (fab.setStage 0 ⟨true, true, false, false⟩).stage 0 = ⟨true, true, false, false⟩ ∧
    (fab.setStage 0 ⟨true, true, true, false⟩).stage 0 = ⟨true, true, true, false⟩ ∧
    fab.levelIn (lv 2) 0 0 112 = true ∧ fab.levelIn (lv 2) 0 0 65 = false := by
  refine ⟨⟨rfl, by decide⟩, ?_⟩; decide

/-- The dual-rail word 01 is wires 2 and 5; with wire 3 high too, bit 1 is illegal. -/
theorem wit_DualRailMergeAndArbiter : (on0 fab).has .die0 fab ∧ fab.regionOn 0 = true ∧
    (∀ dec : Bool, ∃ c, (fabOf dec).railCfg 0 16 = some c ∧ c.decoder = dec ∧ c.inT.length = 2 ∧ (fabOf dec).railT (lv 36) 0 c = 1 ∧
      (fabOf dec).railF (lv 36) 0 c = 2 ∧ (fabOf dec).railT (lv 0) 0 c = 0 ∧ (fabOf dec).railF (lv 0) 0 c = 0 ∧
      (fabOf dec).levelIn (lv 36) 0 16 c.ackSel = false ∧ (fabOf dec).levelIn (lv 2) 0 16 c.ackSel = true) ∧
    railsComplete 2 1 2 = true ∧ railsNull 2 0 0 = true ∧ railsIllegal 2 (Nat.xor 1 2) (Nat.xor 2 0) = some 1 ∧ fab.rail 16 = RailSt.reset ∧
    ((RailSt.reset.seen 1 2).ack = false ∧ (RailSt.reset.seen 1 2).full = false ∧ (RailSt.reset.seen 1 2).drive = false ∧
      (RailSt.reset.seen 1 2).req = false ∧ (RailSt.reset.seen 3 2).illegal = none) ∧
    (((fab.setRail 16 { RailSt.reset with ack := true }).rail 16).seen 0 0).ack = true ∧
    (((fabOf true).setRail 16 { RailSt.reset with req := true }).rail 16).req = true ∧
    (((fabOf true).setRail 16 { RailSt.reset with full := true, req := true }).rail 16) = { RailSt.reset with full := true, req := true } ∧
    (((fab.setRail 16 { RailSt.reset with full := true, drive := true }).rail 16).seen 1 2).drive = true ∧
    (((fab.setRail 16 { RailSt.reset with full := true }).rail 16).seen 1 2).full = true := by
  refine ⟨⟨rfl, by decide⟩, by decide, fun dec => ?_, by decide⟩
  cases dec <;> exact ⟨_, rfl, by decide⟩

theorem wit_DualRailMergeAndArbiter_rest : (fab.design 0).merges[0]? = some [wire 0, wire 1] ∧ fab.level (lv 3) 0 (wire 0) = true ∧
    fab.level (lv 3) 0 (wire 1) = true ∧ fab.level (lv 0) 0 (wire 0) = false ∧ fab.level (lv 0) 0 (wire 1) = false ∧
    fab.level (lv 1) 0 (wire 1) = false ∧ fab.level (lv 2) 0 (wire 1) = true ∧ (fab.design 0).arbs[0]? = some (wire 0, wire 1) ∧
    fab.fab.arbs.get (fun _ => none) 0 = none ∧
    (∀ b : Bool, ({ fab with fab := { fab.fab with arbs := fab.fab.arbs.set (fun _ => none) 0 (some b) } } : DieSt).fab.arbs.get (fun _ => none) 0 = some b) ∧
    ({ fab with fab := { fab.fab with delayNext := fab.fab.delayNext.set (fun _ => none) 0 (some 1023) } } : DieSt).fab.delayNext.get (fun _ => none) 0
      = some 1023 ∧ (fab.stage 0).req = false ∧ (fab.stage 0).runs = false ∧ (fab.stage 0).full = false ∧ fab.gateOpen 0 = true ∧
    ((fab.setStage 0 ⟨true, true, false, false⟩).stage 0).full = true ∧ fab.levelIn (lv 0) 0 0 112 = false ∧
    ((fab.setStage 0 ⟨true, true, false, true⟩).stage 0).runs = true ∧ ((fab.setStage 0 ⟨true, true, true, false⟩).stage 0).req = true := by decide

/-- Port 1 of memory 3 in width 64 and, with the mode set, 8; a good word, one with two flipped bits, one with one. -/
theorem wit_BlockMemoryAccess : (on0 fab).has .die0 fab ∧ fab.bmUp 0 3 1 = true ∧ fab.bmWidth 0 3 1 = 64 ∧
    (fab.wr (R.RGN_BM_MODE 0) 0xC000).bmWidth 0 3 1 = 8 ∧ eccClass 72 (eccFlip 72 (fab.bmFlips (bmKey 0 3 511)) 0) = 0 ∧
    eccClass 72 (eccFlip 72 (fab.bmFlips (bmKey 0 3 511)) 3) = 2 ∧ eccClass 72 (eccFlip 72 (fab.bmFlips (bmKey 0 3 0)) (2 ^ 71)) = 1 ∧
    fab.ringState 0 < 2 := by
  refine ⟨⟨rfl, by decide⟩, ?_⟩; decide

theorem wit_NarrowWriteLeavesAnUncorrectableWord : (on0 fab).has .die0 fab ∧ fab.bmUp 0 0 0 = true ∧
    (fab.wr (R.RGN_BM_MODE 0) 1).bmUp 0 0 0 = true ∧ (fab.wr (R.RGN_BM_MODE 0) 1).bmWidth 0 0 0 ≠ 64 ∧
    eccClass 72 (eccFlip 72 (fab.bmFlips (bmKey 0 0 0)) 3) = 2 ∧ fab.bmWidth 0 0 0 = 64 ∧ fab.domOn 74 = true ∧
    (fab.put (F.RGN_EVT_EN_UNCORR 0) 1).on (F.RGN_EVT_EN_UNCORR 0) = true := by
  refine ⟨⟨rfl, by decide⟩, ?_⟩; decide

/-- A freeze that has lasted 20 µs; a channel that is not dual-rail is settled. -/
theorem wit_IsolationRingFreezes : (on0 fab).has .die0 fab ∧ fab.hasRegion 0 = true ∧
    (∃ c, (fab.design 0).ring[0]? = some c ∧ (fab.setRing 0 2).chSettled (lv 0) 0 c = true) ∧
    (fab.setRing 0 2).ringState 0 = 2 ∧ (fab.ringCh 0 0).frozen = false ∧ 0 < (fab.design 0).ring.length ∧
    ({ fab.setRing 0 2 with now := 20000, fab := { fab.fab with freezeAt := Tab.empty.set (fun _ => 0) 0 1 } } : DieSt).fab.freezeAt.get (fun _ => 0) 0
      + 20000 ≤ 20000 + 1 ∧
    (fab.setRing 0 3).ringState 0 = 3 ∧ (((fab.setRing 0 3).setRingCh 0 0 { RingSt.reset with frozen := true }).ringCh 0 0).frozen = true ∧
    31 < fab.idn.rows ∧ fab.domOn 62 = true := by
  refine ⟨⟨rfl, by decide⟩, by decide, ⟨_, rfl, by decide⟩, by decide⟩

/-! ### Witnesses: pace -/

/-- Settings of 127, 132 and 134 taps for a requirement of 16 canaries of 400 quarter taps: 27 %, 32 % and 34 %. -/
theorem wit_CalibratorMeasuresAndSteps : (on0 fab).has .die0 fab ∧ fab.regionOn 0 = true ∧
    fab.leaders 0 0 = [⟨0, false, 65, 112, false, [16, 0, 0, 0]⟩] ∧ required [16, 0, 0, 0] [400] = 6400 ∧
    fab.moving 0 = false ∧
    ({ fab with fab := { fab.fab with delayNext := fab.fab.delayNext.set (fun _ => none) 0 (some 1) } } : DieSt).moving 0 = true ∧
    (∀ v : Fin 3, let d : DieSt := { fab with fab := { fab.fab with delay := fab.fab.delay.set (fun _ => 0) 0 (nth 0 [127, 132, 134] v) } }
      let e := d.put F.PACE_MARGIN_MIN 10
      e.f F.PACE_MARGIN_MIN ≤ marginSteps (e.delayOf 0) 6400 ∧ 6400 * 118 ≤ e.delayOf 0 * 6400 ∧ (6400 * 128 ≤ 1023 * 6400) ∧
      decide (6400 * 124 ≤ e.delayOf 0 * 6400 ∧ e.delayOf 0 * 6400 ≤ 6400 * 132) = decide (v.val < 2)) ∧
    (∀ v : Fin 3, let d : DieSt := { fab with pace := { fab.pace with target := fab.pace.target.set (fun _ => none) 0 (some v.val) }
                                              fab := { fab.fab with delay := fab.fab.delay.set (fun _ => 0) 0 1 } }
      d.pace.target.get (fun _ => none) 0 = some v.val ∧ d.fab.delayNext.get (fun _ => none) 0 = none ∧ d.delayOf 0 = 1) := by
  refine ⟨⟨rfl, by decide⟩, ?_⟩; decide

/-- Monitor 15, its window 10 µs old, with 15 tokens (void) and with 16. -/
def monAt (n : Nat) : DieSt :=
  { fab.put (F.PACE_MON_TGT_EN 15) 1 with
    now := 10000, pace := { fab.pace with count := fab.pace.count.set (fun _ => (0, 0)) 15 (n, 9999), monRegion := fab.pace.monRegion.set (fun _ => none) 15 (some 0) } }

theorem wit_MonitorWindowsGiveCapacity : (on0 (monAt 16)).has .die0 (monAt 16) ∧ (monAt 16).on (F.PACE_MON_TGT_EN 15) = true ∧
    (monAt 16).pace.monAt.get (fun _ => 0) 15 + 10000 ≤ (monAt 16).now ∧ (monAt 16).firstMon = some 15 ∧
    (monAt 16).pace.count.get (fun _ => (0, 0)) 15 = (16, 9999) ∧ ((monAt 15).pace.count.get (fun _ => (0, 0)) 15).1 < 16 ∧
    (monAt 16).pace.monRegion.get (fun _ => none) 15 = some 0 ∧ live.pace.monRegion.get (fun _ => none) 15 = none ∧ (monAt 16).rgState 0 = rgRunning ∧ (monAt 16).ringState 0 < 2 ∧
    live.rgState 0 ≠ rgRunning ∧ ((monAt 16).setRing 0 2).ringState 0 = 2 := by
  refine ⟨⟨rfl, by decide⟩, ?_⟩; decide

/-- TRACK at 700 mV with the limits 700 and 710: a step up to VMAX, none past it, FLOOR at VMIN, a step down at 710. -/
def gov (v lo hi : Nat) : DieSt :=
  (((live.put F.PACE_STAT_STATE 2).put F.PACE_STAT_VSET v).put F.PACE_LIMIT_VMIN lo).put F.PACE_LIMIT_VMAX hi

/-- With monitor 0 designated and its last window of 16 tokens far below its target. -/
def slow (d : DieSt) : DieSt :=
  { ((d.put (F.PACE_MON_TGT_EN 0) 1).put (F.PACE_MON_CAP_VALID 0) 1).put (F.PACE_MON_TGT_TARGET 0) 1000 with
    pace := { d.pace with window := d.pace.window.set (fun _ => (0, 0)) 0 (16, 0) } }

/-- A RUNNING region whose leader has a step waiting is not converged. -/
def unconverged : DieSt :=
  { fab with fab := { fab.fab with delayNext := fab.fab.delayNext.set (fun _ => none) 0 (some 1) } }

theorem wit_GovernorDecisions : (on0 live).has .die0 live ∧
    ({ live with pace := { live.pace with stepping := true } } : DieSt).mayDecide = false ∧ (gov 0 700 710).mayDecide = true ∧ (gov 0 700 710).gov = 2 ∧
    (gov 700 700 710).mayDecide = true ∧ (gov 700 700 710).gov = 2 ∧ (gov 700 700 710).f F.PACE_STAT_VSET ≠ 0 ∧ (gov 0 700 710).f F.PACE_STAT_VSET = 0 ∧
    (slow (gov 700 700 710)).monBelow 0 ((slow (gov 700 700 710)).f F.PACE_HR_HR_UP) = true ∧ live.pace.marginLow = false ∧
    (gov 700 700 710).f F.PACE_STAT_VSET + 10 ≤ (gov 700 700 710).f F.PACE_LIMIT_VMAX ∧
    (gov 710 700 710).f F.PACE_LIMIT_VMAX < (gov 710 700 710).f F.PACE_STAT_VSET + 10 ∧
    (List.range 16).all (fun i => !(gov 700 700 710).monBelow i ((gov 700 700 710).f F.PACE_HR_HR_DN)) = true ∧
    (gov 700 700 710).f F.PACE_STAT_VSET < (gov 700 700 710).f F.PACE_LIMIT_VMIN + 10 ∧
    (gov 710 700 710).f F.PACE_LIMIT_VMIN + 10 ≤ (gov 710 700 710).f F.PACE_STAT_VSET ∧ (gov 710 700 710).converged = true ∧
    (gov 710 700 710).ringsQuiet = true ∧ unconverged.converged = false := by
  refine ⟨⟨rfl, by decide⟩, ?_⟩; decide

/-- FULL-TIME with the limits 600 and 740: the goal is 740 mV, above, at and below what is set. -/
theorem wit_GovernorDecisions_fullTime : ∀ v : Fin 3,
    let d := (gov (nth 0 [735, 745, 740] v) 600 740).put F.PACE_STAT_STATE 4
    d.mayDecide = true ∧ d.gov = 4 ∧ max (d.f F.PACE_LIMIT_VMIN) (min (d.f F.PACE_LIMIT_VMAX) 750) = 740 ∧
      d.f F.PACE_STAT_VSET = nth 0 [735, 745, 740] v := by decide

/-- At 700 mV with 2^-10 V a step the code is 717: read back as 717 and as 739, more than 20 mV off. -/
theorem wit_GovernorWaitsAndPmbus :
    (gov 700 700 710).gov ≠ 0 ∧ ({ gov 700 700 710 with pace := { live.pace with pmb := some (.readVout, 1) } } : DieSt).pace.pmb = some (.readVout, 1) ∧
    live.pace.pmbNext = [] ∧ voutCode 10 700 = 717 ∧ 717 * 1000 ≤ voutCode 10 700 * 1000 + 20 * 2 ^ 10 ∧
    voutCode 10 700 * 1000 ≤ 717 * 1000 + 20 * 2 ^ 10 ∧ voutCode 10 700 * 1000 + 20 * 2 ^ 10 < 739 * 1000 ∧
    live.domOn 76 = true ∧ (live.put F.PACE_STAT_STATE 5).gov = 5 ∧ live.pace.pollAt + 10000000 ≤ 10000000 := by decide

theorem wit_GovernorRegisters : (on0 (gov 700 700 710)).takes .die0 (gov 700 700 710) .referee R.PACE_CTL ∧
    (on0 live).takes .die0 live .referee R.PACE_HR ∧ (on0 live).takes .die0 live .referee R.PACE_PMB_CMD ∧ (gov 700 700 710).gov = 2 ∧
    (live.put F.PACE_STAT_STATE 3).gov = 3 ∧ live.dev = 4 ∧ (live.put F.PWR_STATE_STATE 6).dev = 6 ∧ (live.put F.PACE_STAT_STATE 5).gov = 5 ∧
    (25 ≤ 25 ∧ 25 + 5 ≤ 30 ∧ 30 ≤ 50) ∧ live.on F.PACE_PMB_CMD_BUSY = false ∧ (live.put F.PACE_PMB_CMD_BUSY 1).on F.PACE_PMB_CMD_BUSY = true :=
  ⟨⟨rfl, by decide⟩, ⟨rfl, by decide⟩, ⟨rfl, by decide⟩, by decide⟩


/-! ### Witnesses: signal engines -/

/-- The instruction word `w` in Execute. -/
def exAt (w : Nat) : ExecSt := { ExecSt.reset with word := BitVec.ofNat 32 w }

/-- The engine of region 0 running, with that word in Execute. -/
def running (w : Nat) : DieSt := fab.setEng 0 { SeSt.reset with mode := .run, ew := some (exAt w) }

/-- The same engine in the Roster's pool. -/
def pooledRun (w : Nat) : DieSt := ((running w).put (F.SE_CFG_POOLED 0) 1).setEng 0
  { SeSt.reset with mode := .run, ew := some (exAt w), ctx := some 5 }

/-- ALU words of R160: major code 8, the operation in bits 25 to 22, D1 from D2 and the immediate -3. -/
theorem wit_SeAluInstructions : (∀ w, (on0 (running w)).has .die0 (running w)) ∧ ∀ k : Fin 13,
    let w := 0x20000000 + k.val * 0x400000 + (if k.val = 8 then 0 else 0x80000) + 0x20000 + 0x8000 + 0xFFD
    (running w).seAt 0 [] 0 (exAt w) (.alu k.val (if k.val = 8 then 0 else 1) 2 true 0 0xFFD) := by
  refine ⟨fun w => ⟨rfl, rfl⟩, ?_⟩; unfold DieSt.seAt DieSt.seReach; decide

/-- Accumulator words of R161: major code 9; A1 and A2 where the operation names them, D3, a shift of -1. -/
theorem wit_SeAccumulatorInstructions : (on0 (running 0)).has .die0 (running 0) ∧ ∀ k : Fin 10,
    let ad := if k.val ∈ [2, 4, 5, 6] then 0 else 1
    let dd := if k.val ∈ [0, 3] then 0 else 3
    let sh := if k.val = 0 then 63 else 0
    let w := 0x24000000 + k.val * 0x400000 + ad * 0x100000 + 2 * 0x40000 + dd * 0x8000 + sh * 0x200
    (running w).seAt 0 [] 0 (exAt w) (.acc k.val ad 2 dd sh) := by
  refine ⟨⟨rfl, rfl⟩, ?_⟩; unfold DieSt.seAt DieSt.seReach; decide

/-- Parallel words of R159: A2, SX D5 and SY D6 or A2 where the operation names them, a load of D1 by AP1 from X and of D2
by AP2 from Y. -/
theorem wit_SeParallelInstructions : (on0 (running 0)).has .die0 (running 0) ∧ ∀ k : Fin 15,
    let ad := if k.val = 0 then 0 else 2
    let sx := if k.val ∈ [0, 5, 9, 10, 11, 12, 13] then 0 else 5
    let sy := if k.val ∈ [0, 5, 6, 7, 8, 12, 13] then 0 else if k.val ∈ [9, 10, 11] then 2 else 6
    let w := 0x80000000 + k.val * 0x8000000 + ad * 0x2000000 + sx * 0x400000 + sy * 0x80000 + 0x40000 + 0x8000 + 0x400 + 0x200 + 0x80 + 4
    (running w).seAt 0 [] 0 (exAt w) (.par k.val ad sx sy (some ⟨1, 0, 1⟩) (some ⟨2, 0, 2⟩)) := by
  refine ⟨⟨rfl, rfl⟩, ?_⟩; unfold DieSt.seAt DieSt.seReach; decide

/-- Words of Table 06-9 to 06-12: LD X[AP1], D1; ST Y[AP2], A2; LDA and STA at 0xABC; MOVE D0 to A0; LDI -1 to SR; LDIH. -/
theorem wit_SeMovesAndRegisterCodes : (on0 (running 0)).has .die0 (running 0) ∧
    (running 0x04404000).seAt 0 [] 0 (exAt 0x04404000) (.ld 0 1 0 1) ∧
    (running 0x0F578480).seAt 0 [] 0 (exAt 0x0F578480) (.lda 1 0xABC 9) ∧
    ((running 0).setEng 0 { SeSt.reset with mode := .run, ew := some { exAt 0x0A828000 with yv := 1 } }).seAt 0 [] 0
      { exAt 0x0A828000 with yv := 1 } (.st 1 2 0 10) ∧
    (running 0x13578480).seAt 0 [] 0 (exAt 0x13578480) (.sta 1 0xABC 9) ∧
    (running 0x14800000).seAt 0 [] 0 (exAt 0x14800000) (.move 8 0) ∧
    (running 0x1B2FFFFF).seAt 0 [] 0 (exAt 0x1B2FFFFF) (.ldi 50 0xFFFFF) ∧
    (running 0x1F800FFF).seAt 0 [] 0 (exAt 0x1F800FFF) (.ldih 7 0xFFF) := by
  refine ⟨⟨rfl, rfl⟩, ?_⟩; unfold DieSt.seAt DieSt.seReach; and_intros <;> decide

/-- Words of Table 06-12 and 06-11.  YIELD needs a pooled engine, SWAP bank 1, HALT a dedicated engine. -/
theorem wit_SeControlInstructions : (on0 (running 0)).has .die0 (running 0) ∧ (running 0).seAt 0 [] 0 (exAt 0) .nop ∧
    (running 0x28000123).seAt 0 [] 0 (exAt 0x28000123) (.br 0 0x123) ∧ (running 0x2C000123).seAt 0 [] 0 (exAt 0x2C000123) (.call 0x123) ∧
    (running 0x01000000).seAt 0 [] 0 (exAt 0x01000000) .ret ∧ (running 0x01400003).seAt 0 [] 0 (exAt 0x01400003) (.jmpd 3) ∧
    (running 0x30010002).seAt 0 [] 0 (exAt 0x30010002) (.loop 0 false 0x10 2) ∧
    (running 0x3D000FFF).seAt 0 [] 0 (exAt 0x3D000FFF) (.addp 2 0xFFF) ∧ (running 0x01800001).seAt 0 [] 0 (exAt 0x01800001) (.endl 1) ∧
    (running 0x00400000).seAt 0 [] 0 (exAt 0x00400000) .halt ∧
    (∀ k : Fin 3, (pooledRun (0x00800000 + k.val)).seAt 0 [] 0 (exAt (0x00800000 + k.val)) (.yield k.val)) ∧
    ((running 0).setEng 0 { SeSt.reset with mode := .run, active := true, ew := some (exAt 0x00C00000) }).seAt 0 [] 0 (exAt 0x00C00000) .swap := by
  refine ⟨⟨rfl, rfl⟩, ?_⟩; unfold DieSt.seAt DieSt.seReach; and_intros <;> decide

/-- A fetched word in Decode: a taken BR (always), CALL, RET, JMPD D3, ADDP AP2 and LOOP 0 to 0x10 twice, from address 0. -/
theorem wit_SeControlInstructions_decode : ∀ p ∈ ([(0x28000123, .br 0 0x123), (0x2C000123, .call 0x123), (0x01000000, .ret),
      (0x01400003, .jmpd 3), (0x3D000FFF, .addp 2 0xFFF), (0x30010002, .loop 0 false 0x10 2)] : List (Nat × SeInsn)),
    let f : FetchSt := { FetchSt.reset with word := BitVec.ofNat 32 p.1 }
    let e : SeSt := { SeSt.reset with fw := some f }
    e.fw = some f ∧ seDecode f.word.toNat = some p.2 ∧ brTaken 0 e.bk.sr = true ∧ e.loopBad f.addr 0 0x10 = false ∧ 2 % 65536 ≠ 0 := by
  decide

/-- A fetch at address 5, the end of an active loop 1, with counter 2 or 1. -/
def wrapAt (n : Nat) : WrapSt :=
  ⟨5, Tab.empty.set (fun _ => 0) 1 (BitVec.ofNat 16 n), Tab.empty.set (fun _ => false) 1 true, Tab.empty.set (fun _ => 0) 1 2,
    Tab.empty.set (fun _ => 0) 1 5, [], []⟩

theorem wit_SeControlInstructions_wrap : ∀ k ∈ [1, 2], let r := wrapAt k
    let d := fab.setEng 0 { SeSt.reset with mode := .run, wrap := some r }
    d.seLive 0 = true ∧ (d.seNow 0 []).mode = .run ∧ (d.seNow 0 []).wrap = some r ∧ (d.eng 0).wrap = some r ∧ r.act.get (fun _ => false) 1 = true ∧
    r.le.get (fun _ => 0) 1 = r.addr ∧ r.act.get (fun _ => false) 0 = false ∧ r.moved = [] ∧
    (r.lc.get (fun _ => 0) 1).toNat = k := by decide

/-- IN D4 from port 0 and OUT D4 to port 1, without and with NB (R164): 0x34000000 and 0x38000000 with the port in bits 25
and 24, the register in 23 to 21 and NB in bit 20; the holding register full or empty. -/
theorem wit_SePorts : (on0 (running 0)).has .die0 (running 0) ∧ (0 ≠ 3 ∧ 1 ≠ 3) ∧
    (∀ nb full : Bool, let w := 0x34800000 + (if nb then 0x100000 else 0)
      let d := (running w).setEng 0 { SeSt.reset with mode := .run, ew := some (exAt w), inFull := Tab.empty.set (fun _ => false) 0 full }
      d.seLive 0 = true ∧ (d.seNow 0 []).inFull.get (fun _ => false) 0 = full ∧ d.pooled 0 = false ∧
      seDecode (exAt w).word.toNat = some (.tokIn 0 4 nb) ∧ (d.eng 0).ew = some (exAt w) ∧ (d.eng 0).wrap = none ∧
      (d.eng 0).evDue = false ∧ d.seBreaks 0 (d.seNow 0 []) = false ∧ (d.seNow 0 []).faultCause false (exAt w) = none) ∧
    (∀ nb full : Bool, let w := 0x39800000 + (if nb then 0x100000 else 0)
      let d := (running w).setEng 0 { SeSt.reset with mode := .run, ew := some (exAt w), outFull := Tab.empty.set (fun _ => false) 1 full }
      (d.seNow 0 []).outFull.get (fun _ => false) 1 = full ∧ seDecode (exAt w).word.toNat = some (.tokOut 1 4 nb) ∧
      (d.seNow 0 []).faultCause false (exAt w) = none) ∧
    (∀ k : Fin 3, let e : SeSt := { SeSt.reset with
        mode := [.stall, .run, .halt][k.val]?.getD .off, evDue := k.val == 1, haltInsn := k.val == 2, ran := true
        b0 := { BankSt.reset with sr := 0x100 }, inFull := Tab.empty.set (fun _ => false) 0 true }
      let d := (fab.put (F.SE_CFG_HND 0) 1).setEng 0 e
      d.seLive 0 = true ∧ d.pooled 0 = false ∧ (d.eng 0).portPending (d.on (F.SE_CFG_HND 0)) = true ∧ (d.eng 0).mode ≠ .off ∧ (d.eng 0).mode ≠ .frozen ∧
      d.seBreaks 0 (d.eng 0) = false) ∧
    (let e : SeSt := { SeSt.reset with outFull := Tab.empty.set (fun _ => false) 1 true }
     e.inFull.get (fun _ => false) 0 = false ∧ e.outFull.get (fun _ => false) 1 = true ∧ (fab.xr (outX 0 1)).flight = false) := by
  refine ⟨⟨rfl, rfl⟩, ?_⟩; and_intros <;> decide

/-- Port 3 of a pooled engine: the second token of a word, no token at all, an OUT3 of its first token, with the crossing's
register empty and full, and one that completes an item with no room; each with the Roster out of reset and in it. -/
theorem wit_SePorts_port3 :
    (∀ pos : Fin 2, let e : SeSt := { SeSt.reset with
        mode := .run, ew := some (exAt 0x37800000), ctx := some 5, p3 := { SeSt.reset.p3 with inPos := pos.val, inData := 7 * 2 ^ 24 } }
      let d := ((running 0).put (F.SE_CFG_POOLED 0) 1).setEng 0 e
      d.seAt 0 [] 0 (exAt 0x37800000) (.tokIn 3 4 false) ∧ (d.seCounted 0 [] 0).pooled 0 = true ∧
      (d.seCounted 0 [] 0).inToken 0 5 0 = (if pos.val = 1 then some 7 else none) ∧ (d.seCounted 0 [] 0).rosOn = true ∧
      (d.put F.PWR_BLK_RST_ROSTER 1).seAt 0 [] 0 (exAt 0x37800000) (.tokIn 3 4 false) ∧
      ((d.put F.PWR_BLK_RST_ROSTER 1).seCounted 0 [] 0).rosOn = false) ∧
    (let d := (pooledRun 0x3B800000).put (cF 5 2 31 31) 1
     let r := d.put F.PWR_BLK_RST_ROSTER 1
     let f := d.setXr (rosX 0 2 true) { XSt.reset with full := true }
     let g := d.setEng 0 { d.eng 0 with p3 := { (d.eng 0).p3 with outPos := 2 }, b0 := (d.eng 0).b0.setD 4 0x200000 }
     (∀ t ∈ [d, r, f, g], t.seAt 0 [] 0 (exAt 0x3B800000) (.tokOut 3 4 false) ∧ (t.seCounted 0 [] 0).pooled 0 = true) ∧
     (d.seCounted 0 [] 0).outMay 0 5 0 = true ∧ (d.seCounted 0 [] 0).rosOn = true ∧
     ((d.seCounted 0 [] 0).xr (rosX 0 2 true)).full = false ∧ ((r.seCounted 0 [] 0).xr (rosX 0 2 true)).full = false ∧
     (r.seCounted 0 [] 0).rosOn = false ∧ ((f.seCounted 0 [] 0).xr (rosX 0 2 true)).full = true ∧
     (g.seCounted 0 [] 0).outMay 0 5 0x200000 = false) := by
  unfold DieSt.seAt DieSt.seReach; and_intros <;> decide

/-- An illegal word, a breakpoint at address 0, the four services in HALT, FAULT, RUN and STALL, a scrub of words with no,
one and two flipped bits, and a window access. -/
theorem wit_SeHaltsFaultsAndService :
    (let d := running 0x00000001
     d.seLive 0 = true ∧ (d.eng 0).ew = some (exAt 1) ∧ (d.eng 0).wrap = none ∧ (d.eng 0).evDue = false ∧
     d.seBreaks 0 (d.seNow 0 []) = false ∧ d.pooled 0 = false ∧ seDecode (exAt 1).word.toNat = none ∧ (exAt 1).perr = false ∧ (exAt 1).slot = false ∧
     (d.seNow 0 []).mode = .run) ∧
    (let d := (running 0).put (F.SE_BRK_EN 0) 1
     d.seLive 0 = true ∧ (d.seNow 0 []).mode = .run ∧ (d.seNow 0 []).wrap = none ∧ d.seBreaks 0 (d.seNow 0 []) = true) ∧
    (∀ k : Fin 4, let d := fab.setEng 0 { SeSt.reset with mode := [.halt, .fault, .run, .stall][k.val]?.getD .off }
      d.writeCheck .referee (R.SE_CTL 0) 4 = .ok ∧ d.pooled 0 = false) ∧
    ((pooledRun 0).pooled 0 = true ∧ (pooledRun 0).writeCheck .team (R.SE_CTL 0) 4 = .ok) ∧
    (fab.regionOn 0 = true ∧ fab.rgState 0 = rgRunning ∧ fab.ringState 0 < 2) ∧
    (∀ k : Fin 3, let f := ((SeSt.reset.upset [(1, 0, k.val + k.val / 2)]))
      f.mclass 1 0 = [0, 1, 2][k.val]?.getD 9) ∧
    (let d := fab.setEng 0 { SeSt.reset with mode := .halt }
     d.busUp .team = true ∧ d.regionOn 0 = true ∧ d.pooled 0 = false ∧ (d.eng 0).mclass 1 4095 = 0) := by
  and_intros <;> decide

theorem wit_ExponentNormalises : (BitVec.intMin 56 ≠ 0) ∧ exponent (BitVec.intMin 56) = -8 ∧ exponent 1 = 46 ∧ exponent (BitVec.allOnes 56) = 47 := by decide

/-! ### Witnesses: the Roster -/

/-- Context 40,959 resident, in state `st` and class `cl`. -/
def cxd (st cl : Nat) : DieSt :=
  ((live.put (cF 40959 0 31 28) st).put (cF 40959 0 27 26) cl).put (cF 40959 0 19 19) 1

theorem wit_RosterCommands : (on0 (cxd 1 1)).takes .die0 (cxd 1 1) .team R.ROS_CMD ∧
    (live.put F.ROS_CMD_RES_BUSY 1).on F.ROS_CMD_RES_BUSY = true ∧ (cxd 1 1).on F.ROS_CMD_RES_BUSY = false ∧ 40959 < 40960 ∧
    (∀ st : Fin 10, ∀ cl : Fin 4, let e := (((cxd st cl).put F.ROS_CMD_RES_CTX 40959).descRead 40959).1
      e.cst 40959 = st ∧ e.cClass 40959 = cl ∧ e.cAdmitted 40959 = false ∧ e.ctxRange 40959 = 0 ∧ e.ctxOverlap 40959 = false ∧
      e.ctxReadable 40959 = true ∧ e.cInbox 40959 = false ∧ e.claim 0x640 = 0 ∧ (e.cx 40959).key = none ∧ e.keyHolder 0 0 = none ∧
      e.ros.ctx.cells.all (fun k => k.2.key.isNone) = true) ∧
    ((cxd 1 0).put (cF 40959 0 18 18) 1).cAdmitted 40959 = true ∧
    ((cxd 1 1).setClaim 0x640 (claimContext 7)).claim 0x640 ≠ claimContext 40959 ∧
    ((((cxd 1 1).put (cF 40958 0 31 28) 2).put (cF 40958 0 19 19) 1).ctxOverlap 40959 = true) ∧
    (let e := (cxd 1 1).setCx 40959 { CtxSt.reset with key := some (0, 0) }
     e.keyHolder (e.rd64 R.ROS_KEY_LO R.ROS_KEY_HI) (e.f F.ROS_KEY_CFG_PROFILE) ≠ none ∧ (e.cx 40959).key ≠ none) ∧
    (let e := (cxd 5 1).setEng 0 { SeSt.reset with mode := .run, ctx := some 40959 }
     e.engineOf 40959 = some 0 ∧ (e.eng 0).mode ≠ .stall) := by
  refine ⟨⟨rfl, by decide⟩, ?_⟩; and_intros <;> decide

/-- A reserved policy, an inbox of 255 units in a spill window, a restarting Referee, a pending trigger, a key held by another. -/
theorem wit_RosterCommands_more : ((cxd 1 1).put (cF 40959 0 17 16) 3).ctxRange 40959 ≠ 0 ∧
    (let e := (((cxd 1 1).put (cF 40959 1 31 31) 1).put (cF 40959 11 7 0) 255).wr R.ROS_SPILL0 1
     e.cInbox 40959 = true ∧ e.ctxRange 40959 = 0 ∧ e.ctxOverlap 40959 = false) ∧
    ((cxd 1 1).put F.REF_STAT_STATE 2).restarting = true ∧ (cxd 1 1).restarting = false ∧ ((cxd 1 1).cx 40959).pend % 64 = 0 ∧
    (((cxd 1 1).setCx 40959 { CtxSt.reset with pend := 2 }).cx 40959).pend % 64 ≠ 0 ∧
    (let e := (cxd 1 1).setCx 7 { CtxSt.reset with key := some (1, 0) }
     e.ros.ctx.cells.any (fun k => k.2.key.isSome) = true ∧ e.keyHolder 0 0 = none) := by
  and_intros <;> decide

theorem wit_DescriptorsAndStateWindow : 0 < 40960 ∧ (∀ w : Fin 16, live.writeCheck .team (R.ROS_CTX 40959 w) 4 = .ok) ∧
    live.cst 40959 = 0 ∧ live.cAdmitted 40959 = false ∧ bits (0x04000000#32).toNat 27 26 ≠ 0 ∧ bits (0xF3FFFFFF#32).toNat 27 26 = 0 ∧
    (cxd 1 1).cst 40959 = 1 ∧ (cxd 1 1).cAdmitted 40959 = false ∧ (cxd 2 1).cst 40959 = 2 ∧
    (on0 (cxd 1 1)).has .die0 (cxd 1 1) ∧ live.ros.selected = none ∧
    (∀ st : Fin 10, let d : DieSt := { cxd st 1 with ros := { RosSt.reset with selected := some 40959 } }
      d.ros.selected = some 40959 ∧ d.busUp .team = true ∧ d.rosOn = true ∧ 892 % 4 = 0 ∧ 892 < d.ctxSize 40959 ∧
      4092 % 4 = 0 ∧ 4092 < 4096 ∧ d.ctxSize 40959 ≤ 4092 ∧ d.cst 40959 = st) ∧
    (∀ w, w < 16 → (cxd 1 1).ros.descFlip.get (fun _ => 0) (16 * 40959 + w) = 0) ∧ eccClass 39 (eccFlip 39 0 128) = 1 ∧
    eccClass 39 (eccFlip 39 (eccFlip 39 0 128) 1) = 2 := by
  refine ⟨by decide, by decide, by decide, by decide, by decide, by decide, by decide, by decide, by decide, ⟨rfl, rfl⟩, rfl, by decide,
    fun _ _ => rfl, by decide, by decide⟩

/-- Context 40,959 with every trigger enabled, THRESH 0, PERIOD 1000, WATCH 1000 and event port 1407. -/
def trg (st : Nat) : DieSt :=
  { (((((cxd st 1).put (cF 40959 0 15 12) 15).put (cF 40959 1 23 23) 1).wr (R.ROS_CTX 40959 3) 1000).wr (R.ROS_CTX 40959 6) 1000).put
      (cF 40959 7 10 0) 1407 with now := 1000, mt := 999 }

theorem wit_RosterTriggersMakeReady : (on0 (trg 2)).has .die0 (trg 2) ∧ (trg 2).rosOn = true ∧ (trg 2).descRead 40959 = (trg 2, true) ∧
    ((trg 2).cx 40959).pend = 0 ∧ ((trg 2).cx 40959).wait3 = none ∧ (trg 2).cst 40959 = 2 ∧ (trg 2).cTrgQ 40959 = true ∧
    (trg 2).cThresh 40959 ≤ countWords ((trg 2).ctxInput 40959) ∧ (trg 2).on (cF 40959 1 23 23) = true ∧
    ((trg 2).setQue 0 { QSt.reset with words := [{ QWord.reset with tag := 32 }] }).ctxInput 40959 = [] ∧
    (let d := ((((trg 2).put (F.Q_CFG_RSNK 0) 2).put (F.Q_CFG_EN 0) 1).setClaim 0x640 (claimContext 40959)).setQue 0
       { QSt.reset with words := [{ QWord.reset with tag := 32 }] }
     (d.ctxInput 40959).any (fun w => w.eop) = true) ∧
    (trg 2).cTrgPeriod 40959 = true ∧ (trg 2).cPeriod 40959 ≠ 0 ∧ (trg 2).cPhase 40959 ≤ (trg 2).mt.toNat ∧
    ((trg 2).cx 40959).perK = ((trg 2).mt.toNat - (trg 2).cPhase 40959) / (trg 2).cPeriod 40959 ∧
    (trg 2).cTrgWatch 40959 = true ∧ ((trg 2).cx 40959).watchDone = false ∧
    (trg 2).cWatch 40959 ≤ (trg 2).now - ((trg 2).cx 40959).watchFrom ∧ (trg 2).usedCtx = [40959] ∧
    (trg 2).cTrgEvent 40959 = true ∧ (trg 2).cEventPort 40959 = 1407 ∧ (trg 6).cst 40959 = 6 ∧
    bit (((trg 6).setCx 40959 { CtxSt.reset with pend := 10 }).cx 40959).pend 3 = true ∧
    bit (((trg 6).setCx 40959 { CtxSt.reset with pend := 10 }).cx 40959).pend 1 = true := by
  refine ⟨⟨rfl, rfl⟩, by decide, DieSt.descRead_clean _ _ rfl, ?_⟩; and_intros <;> decide

/-- Region 0's engine pooled in group 0, in mode `m`, running context 7 (class 2) with context 8 (class 1) loaded. -/
def pool (m : SeMode) (ctx shadow : Option Nat) : DieSt :=
  ({ (((((cxd 3 0).put (cF 7 0 31 28) 5).put (cF 7 0 27 26) 2).put (cF 8 0 31 28) 4).put (cF 8 0 27 26) 1).wr (R.ROS_CTX 7 8) 1000 with now := 1000 }.put
      (F.RGN_STAT_STATE 0) 4 |>.put (F.SE_CFG_POOLED 0) 1 |>.put (F.ROS_GRP_CFG_QUANTUM 0) 1).setEng 0
    { SeSt.reset with mode := m, ctx := ctx, shadow := shadow }

theorem wit_RosterPlacesAndEndsRuns : (on0 (pool .idle none none)).has .die0 (pool .idle none none) ∧ (pool .idle none none).rosOn = true ∧
    (pool .idle none none).playing = true ∧ (pool .idle none none).descRead 40959 = (pool .idle none none, true) ∧
    (let d := pool .idle none none
     d.firstOf (d.usedCtx.filter (fun k => d.cst k == 3 && d.cGroup k == 0 && !d.ros.eng.cells.any (fun c => c.2.loading == some k))) = some 40959 ∧
     ((d.groupEngines 0).filter (fun k => d.engTakes k)).find?
        (fun k => (d.eng k).mode == .idle && (d.eng k).shadow.isNone && (d.re k).loading.isNone) = some 0) ∧
    (let d := pool .run (some 7) (some 8)
     (d.eng 0).ctx = some 7 ∧ (d.eng 0).shadow = some 8 ∧ d.cClass 7 ≠ 0 ∧ d.cClass 8 ≤ d.cClass 7 ∧
     d.f (F.ROS_GRP_CFG_QUANTUM (d.cGroup 7)) * 1000 = d.now - (d.cx 7).since ∧ (d.eng 0).mode = .run) ∧
    (let d := pool .run (some 7) none
     let engs := (d.groupEngines 0).filter (fun k => d.engTakes k)
     d.cst 40959 = 3 ∧ d.cClass 40959 = 0 ∧ d.cGroup 40959 = 0 ∧ engs.any (fun k => d.engFree k) = false ∧ d.expressCands engs = [(0, 7)] ∧
     d.latest (d.expressCands engs) = some (0, 7) ∧ d.ros.eng.cells.any (fun c => c.2.loading == some 40959) = false ∧
     d.engineOf 7 = some 0 ∧ d.cst 7 = 5 ∧ d.cRunMax 7 = (d.cx 7).ran + (d.now - (d.cx 7).since) ∧
     (d.wr (R.ROS_CTX 7 8) 999).cRunMax 7 < (d.cx 7).ran + (d.now - (d.cx 7).since)) ∧
    (let d := (cxd 2 1).setCx 40959 { CtxSt.reset with wait3 := some .waitIn }
     d.cst 40959 = 2 ∧ (d.cx 40959).wait3 = some .waitIn ∧ d.inReadable 40959 = false ∧ d.outRoom 40959 1 = false ∧
     (((d.put (F.Q_CFG_WSRC 0) 2).put (F.Q_CFG_EN 0) 1).outRoom 40959 1 = true) ∧
     ((((d.put (F.Q_CFG_RSNK 0) 2).put (F.Q_CFG_EN 0) 1).setClaim 0x640 (claimContext 40959)).setQue 0
       { QSt.reset with words := [QWord.reset] }).inReadable 40959 = true) ∧
    (let d := { (cxd 5 1).wr (R.ROS_CTX 40959 5) 1 with mt := 1 }
     3 ≤ d.cst 40959 ∧ d.cDue 40959 ≠ 0 ∧ d.cDl 40959 ≤ d.mt.toNat ∧ (d.cx 40959).dueDone = false ∧
     bit ((d.put F.ROS_EVT_EN_EN 8).f F.ROS_EVT_EN_EN) 3 = true) := by
  refine ⟨⟨rfl, rfl⟩, by decide +kernel, by decide +kernel, DieSt.descRead_clean _ _ rfl, ?_⟩; and_intros <;> decide +kernel

/-- Dispatch with no READY context; a class-1 context with a free shadow, and one before the loaded context; a stalled engine. -/
theorem wit_RosterPlacesAndEndsRuns_more :
    (let d := pool .run (some 7) none
     d.firstOf [] = none ∧ (((d.groupEngines 0).filter (fun k => d.engTakes k)).find? (fun k => d.engFree k)) = none ∧
     d.latest ((d.runners [0]).filter (fun k => d.shadowFree k.1)) = some (0, 7) ∧ (d.put (cF 40959 0 27 26) 1).cClass 40959 ≠ 0) ∧
    (let d := (pool .run (some 7) (some 8)).put (cF 8 0 27 26) 3
     d.latest ((d.runners [0]).filter (fun k => d.shadowFree k.1)) = none ∧
     d.latest (([0].filterMap (fun r => ((d.eng r).shadow).map (fun k => (r, k)))).filter (fun k => d.before 40959 k.2)) = some (0, 8)) ∧
    ((pool .stall (some 7) (some 8)).eng 0).mode = .stall ∧ (((cxd 5 1).setCx 40959 { CtxSt.reset with dueDone := true }).cx 40959).dueDone = true := by
  and_intros <;> decide +kernel

/-- Context 40,959 preempted: its state lies in bank 0 of region 0's engine. -/
def saved : DieSt :=
  ((cxd 6 1).setCx 40959 { CtxSt.reset with endedBy := some .preempt }).setRe 0 { EngSt.reset with saving := [(40959, false)] }

theorem wit_SaveStoresTheState : (on0 saved).has .die0 saved ∧ 40959 < 40960 ∧ saved.rosOn = true ∧
    saved.ros.eng.cells.find? (fun c => (c.2.saving.head?.map (fun x => x.1)) == some 40959) = some (0, saved.re 0) ∧
    (saved.re 0).saving = [(40959, false)] ∧ (∀ k, saved.ros.descFlip.get (fun _ => 0) k = 0) ∧ (saved.eng 0).shadow = none ∧
    (saved.cx 40959).endedBy = some .preempt ∧ (saved.cx 40959).descBad = false ∧ (saved.cx 40959).lost = none ∧
    (saved.cx 40959).stopping = false ∧ saved.cst 40959 = 6 ∧ saved.cResident 40959 = true := by
  refine ⟨⟨rfl, rfl⟩, by decide, by decide, by decide +kernel, by decide, fun _ => rfl, ?_⟩; and_intros <;> decide

/-- Profile 7 enabled on port 0 for every EtherType, with no key bytes; context 5 holds that key and reads queue 0. -/
def cls (st : Nat) : DieSt :=
  ((((((live.put F.ROS_CTL_CLS_EN 1).put (F.ROS_PROF_SEL_EN 7) 1).put (F.ROS_PROF_SEL_PORTS 7) 1).put (cF 5 0 31 28) st).put (F.Q_CFG_EN 0) 1).put
    (F.Q_CFG_WSRC 0) 2).setCx 5 { CtxSt.reset with key := some (0, 7) }

theorem wit_IntakeAppendsWholeFrames : (on0 (cls 1)).has .die0 (cls 1) ∧ (cls 1).rosOn = true ∧ (cls 1).hubOn = true ∧
    (cls 1).on F.ROS_CTL_CLS_EN = true ∧ (∀ i, i < 8 → (cls 1).profMatch i 1 [] = false) ∧ (cls 1).profMatch 7 0 [1] = true ∧
    (∀ j, j < 7 → (cls 1).profMatch j 0 [1] = false) ∧ (cls 1).keyHolder ((cls 1).frameKey 7 0 [1]) 7 = some 5 ∧
    (cls 0).cst 5 = 0 ∧ (cls 1).cst 5 ≠ 0 ∧ (cls 1).cInbox 5 = false ∧ (cls 1).qWriter ((cls 1).cQin 5) = some .roster ∧
    (cls 1).qRoom 0 ((cls 1).intakeItem 7 0 0 [1]).length = true ∧
    ((cls 1).put (F.Q_CFG_EN 0) 0).qRoom 0 ((cls 1).intakeItem 7 0 0 [1]).length = false ∧
    ((cls 1).setCx 5 CtxSt.reset).keyHolder ((cls 1).frameKey 7 0 [1]) 7 = none ∧ (cls 1).on (F.ROS_PROF_PAY_MISS_EN 7) = false ∧
    ((cls 1).put (F.ROS_PROF_PAY_MISS_EN 7) 1).on (F.ROS_PROF_PAY_MISS_EN 7) = true ∧
    (let d := ((cls 1).put (cF 5 1 31 31) 1)
     d.cInbox 5 = true ∧ d.cIlen 5 = 0 ∧ (d.put (cF 5 11 7 0) 1).cIlen 5 = 1) := by
  refine ⟨⟨rfl, rfl⟩, ?_⟩; and_intros <;> decide

/-! ### Witnesses: queues, check-value units and crossings -/

/-- Queue 63 enabled with write source `w`, read sink `r` and contents `c`. -/
def qd (w r : Nat) (c : QSt) : DieSt :=
  (((live.put (F.Q_CFG_EN 63) 1).put (F.Q_CFG_WSRC 63) w).put (F.Q_CFG_RSNK 63) r).setQue 63 c

theorem wit_QueueWriteSide : (on0 (qd 3 3 QSt.reset)).has .die0 (qd 3 3 QSt.reset) ∧ (qd 3 3 QSt.reset).hubOn = true ∧ 63 < 64 ∧
    (∀ u, QEnd.team ≠ .checkUnit u) ∧ (qd 3 3 QSt.reset).qWriter 63 = some .team ∧ (qd 3 3 QSt.reset).on (F.Q_CFG_EN 63) = true ∧
    (qd 3 3 QSt.reset).qCap 63 = 512 ∧
    (∀ mark : Bool, let c := { QSt.reset with words := List.replicate 511 QWord.reset, kept := [QWord.reset], mark := mark }
      c.held = 512 ∧ c.level = 511 ∧ c.discard = false ∧ c.flushing = false) ∧
    ({ QSt.reset with words := List.replicate 511 QWord.reset } : QSt).held < 512 ∧
    ((qd 3 3 { QSt.reset with discard := true }).que 63).discard = true ∧
    ((qd 3 3 QSt.reset).put (F.Q_CFG_MARK_YIELD 63) 1).on (F.Q_CFG_MARK_YIELD 63) = true ∧
    ((qd 3 3 QSt.reset).put (F.Q_CFG_EN 63) 0).on (F.Q_CFG_EN 63) = false ∧ (qd 1 1 QSt.reset).qWriter 63 = some (.fabric 0 false) ∧
    (qd 1 1 QSt.reset).qWriter 63 ≠ some (.fabric 1 true) ∧ (qd 3 3 QSt.reset).writeCheck .team (R.Q_WR_TAG 63) 4 = .ok ∧
    (0#64).toNat = (qd 3 3 QSt.reset).rd64 (R.Q_WR_LO 63) (R.Q_WR_HI 63) ∧
    (let d := (qd 6 1 QSt.reset).setCrc 15 { CrcSt.reset with offers := [(63, 7)] }
     (d.crcU 15).offers.find? (fun v => v.1 == 63) = some (63, 7)) ∧
    (qd 3 3 QSt.reset).qWriter 63 ≠ some (.checkUnit 15) ∧ (qd 1 1 QSt.reset).qWriter 63 ≠ some .team := by
  refine ⟨⟨rfl, rfl⟩, by decide, by decide, ⟨(fun _ h => nomatch h), ?_⟩⟩; and_intros <;> decide +kernel

theorem wit_QueueNeverHoldsMoreThanItsCapacity :
    (63 < 64 ∧ (((on0 (qd 3 3 { QSt.reset with words := List.replicate 512 QWord.reset })).die .die0).que 63).held
      ≤ ((on0 (qd 3 3 { QSt.reset with words := List.replicate 512 QWord.reset })).die .die0).qCap 63) ∧
    ∃ t, exec (.queueWordWrite .die0 63 .team 5 32) (on0 (qd 3 3 { QSt.reset with words := List.replicate 512 QWord.reset })) = .next t :=
  ⟨by decide +kernel, _, rfl⟩

theorem wit_QueueReadSideAndCommands : (on0 (qd 3 3 QSt.reset)).has .die0 (qd 3 3 QSt.reset) ∧ (qd 3 3 QSt.reset).hubOn = true ∧
    (qd 3 3 QSt.reset).qReader 63 = some .team ∧ (qd 3 3 QSt.reset).qPrio 63 = false ∧
    (let w : QWord := { QWord.reset with data := 5, tag := 63, par := wordParity 5 63 }
     w.place ≠ 1 ∧ w.closing = false ∧ w.err = false ∧ w.tag < 64 ∧ w.par = wordParity w.data.toNat w.tag) ∧
    (let r := qReadX 63 31 true
     (qd 1 1 QSt.reset).xReset r true = false ∧ ((qd 1 1 QSt.reset).xr r).srcRst = false ∧ ((qd 1 1 QSt.reset).xr r).full = false) ∧
    (let d := (live.put (F.Q_CFG_EN 63) 1).wr (R.Q_CFG 63) (BitVec.ofNat 32 (2 ^ 31 + 2 ^ 16 + 2 ^ 15 + 31 * 2 ^ 10))
     d.qReader 63 = some (.fabric 31 true)) ∧
    (qd 3 3 QSt.reset).writeCheck .team (R.Q_POP 63) 4 = .ok ∧ (qd 3 1 QSt.reset).qReader 63 ≠ some .team ∧
    (qd 1 1 QSt.reset).f (F.Q_CFG_WSRC 63) = 1 ∧ (qd 1 1 QSt.reset).f (F.Q_CFG_RSNK 63) = 1 ∧ (qd 1 1 QSt.reset).on (F.Q_CFG_EN 63) = true ∧
    ((qd 1 1 QSt.reset).put (F.Q_CFG_EN 63) 0).on (F.Q_CFG_EN 63) = false ∧
    (∀ en : Bool, let d := (qd 1 1 QSt.reset).put (F.Q_CFG_EN 63) (b2n en)
      let v : Word := d.rd (R.Q_CFG 63) ^^^ 0x80000000
      d.writeCheck .referee (R.Q_CFG 63) 4 = .ok ∧ qCfgReserved v = false ∧ d.rd (R.Q_SPILL_BASE 63) = 0 ∧
      d.rd (R.Q_SPILL_SIZE 63) = 0 ∧ bits v.toNat 30 8 = bits (d.rd (R.Q_CFG 63)).toNat 30 8 ∧ bits (d.rd (R.Q_CFG 63)).toNat 7 0 = 0 ∧
      bits (v ^^^ 0x08000000).toNat 30 8 ≠ bits (d.rd (R.Q_CFG 63)).toNat 30 8) ∧
    ((qd 1 1 { QSt.reset with unbind := some (.slot 7) }).que 63).unbind = some (.slot 7) := by
  refine ⟨⟨rfl, rfl⟩, ?_⟩; and_intros <;> decide

/-- Commands from both ends and the bus; a change of WSRC of a disabled, empty queue; a pinned one with a window; a word in the
window whose line holds it. -/
theorem wit_QueueReadSideAndCommands_more :
    (qd 1 1 QSt.reset).qEndMay 63 .writeEnd true = true ∧ (qd 1 1 QSt.reset).qEndMay 63 .readEnd false = true ∧
    (qd 1 1 QSt.reset).writeCheck .team (R.Q_CMD 63) 4 = .ok ∧ ((qd 1 1 QSt.reset).put (F.Q_CFG_PRIO 63) 1).qPrio 63 = true ∧
    (let d := (qd 1 1 QSt.reset).put (F.Q_CFG_EN 63) 0
     d.on (F.Q_CFG_EN 63) = false ∧ (d.que 63).words = [] ∧ d.servesExpress 63 = false ∧ d.rd (R.Q_CFG 63) &&& 0xFF = 0 ∧
     (∀ k : Fin 3, d.writeCheck .referee (if k.val = 0 then R.Q_CFG 63 else if k.val = 1 then R.Q_SPILL_BASE 63 else R.Q_SPILL_SIZE 63) 4 = .ok) ∧
     d.qEndNew 63 (d.rd (R.Q_CFG 63)).toNat 0 claimReferee true = false ∧ (d.put F.REF_STAT_STATE 2).restarting = true ∧
     (d.put F.REF_STAT_STATE 2).qEndNew 63 (d.rd (R.Q_CFG 63)).toNat (3 * 2 ^ 25) claimReferee true = true) ∧
    (bit (0x40000000#32).toNat 30 = true ∧ (1#32) ≠ 0 ∧ 65536 < (0x10001#32).toNat) ∧
    (let w : QWord := { QWord.reset with place := 1, slot := some 8 }
     w.place = 1 ∧ w.closing = false ∧ w.tag < 64 ∧ w.par < 4 ∧
     (live.put (F.DMC_CAP_SIZE 0) 1).spillLine 63 + 8 / 7 < (live.put (F.DMC_CAP_SIZE 0) 1).capLines 0 ∧
     (live.ch 0).flips 1 = 0 ∧ (live.ch 0).line 1 / 2 ^ 72 % 2 ^ 72 = w.stored) := by
  and_intros <;> decide

/-- Unit 15 with a scan range of 9 bytes at byte 0 of channel 0, of no byte, and past the channel. -/
def scand (n : Nat) : DieSt := (live.put (F.DMC_CAP_SIZE 0) 1).wr (R.CRC_SCAN_LEN 15) (BitVec.ofNat 32 n)

theorem wit_CheckValueUnits : (on0 (scand 9)).has .die0 (scand 9) ∧
    ((scand 9).setCrc 15 { CrcSt.reset with par := ⟨0x40000000, 0, 0, 0, 0⟩ } |>.crcU 15).par.run = true ∧
    (scand 9).writeCheck .team (R.CRC_CMD 15) 4 = .ok ∧ (scand 9).writeCheck .team (R.CRC_SCAN_CTL 15) 4 = .ok ∧
    (scand 9).on (F.CRC_SCAN_STAT_BUSY 15) = false ∧ ((scand 9).put (F.CRC_SCAN_STAT_BUSY 15) 1).on (F.CRC_SCAN_STAT_BUSY 15) = true ∧
    (scand 9).f (F.CRC_ATTACH_KIND 15) = 0 ∧ ((scand 9).put (F.CRC_ATTACH_KIND 15) 1).f (F.CRC_ATTACH_KIND 15) ≠ 0 ∧
    (let r := (scand 9).scanRange 15; r.2.2 ≠ 0 ∧ r.2.1 + r.2.2 ≤ (scand 9).capLines r.1 * 64 ∧ r.1 < (scand 9).idn.ddr) ∧
    ((scand 0).scanRange 15).2.2 = 0 ∧ ((scand 9).setCrc 15 { CrcSt.reset with scan := some ⟨CrcPar.reset, 0, 0, 9⟩ } |>.crcU 15).scan = some ⟨CrcPar.reset, 0, 0, 9⟩ ∧
    (⟨CrcPar.reset, 0, 0, 9⟩ : ScanSt).lines = 1 ∧ (scand 9).dramBad 0 0 = false ∧
    (scand 9).domOn 74 = true := by
  refine ⟨⟨rfl, rfl⟩, ?_⟩; and_intros <;> decide

/-- An event-bus tap and an event input of the fabric, a crossing of `kind` with `c` in it. -/
def xat (r : XRef) (c : XSt) : DieSt := live.setXr r c

/-- The image names token crossing 0 (toward the region) and pulse crossing 15 (from it) of user bank 0. -/
def xuser : DieSt :=
  let t : Tab (Option UserX) := Tab.empty.set (fun _ => none) 0 (some ⟨72, true, false⟩)
  { (live.put (F.PIN_BANK_STAT_LOCK 0) 1) with userX := t.set (fun _ => none) 15 (some ⟨1, false, true⟩) }

theorem wit_CrossingsCarryTokensAndPulses : (on0 live).has .die0 live ∧
    (∀ r ∈ ([⟨8, 0, 0, false⟩, ⟨10, 0, 0, true⟩, ⟨11, 0, 0, true⟩] : List XRef), xuser.xHas r = true ∧ xToken r = true ∧ (xuser.xOwn r 5).isSome = true ∧
      xuser.xReset r true = false ∧ xuser.xStill r = false ∧ xuser.xr r = XSt.reset) ∧
    (let r : XRef := ⟨0, 8 * 1407, 0, true⟩
     live.xHas r = true ∧ xToken r = true ∧ live.xReset r true = true) ∧
    (let r : XRef := ⟨11, 32 * 19 + 16, 0, true⟩
     live.xHas r = true ∧ live.xEndReset r = false) ∧
    (∀ done void : Bool, let r : XRef := ⟨8, 0, 0, false⟩
      let c := { XSt.reset with full := true, flight := true, done := done, void := void, wait := [3] }
      (xat r c).xr r = c ∧ (xat r c).xHas r = true ∧ (xat r c).xBlind r = false ∧ (xat r c).xReset r false = false ∧ (xat r c).xReset r true = false ∧
      (xat r { c with dstHit := true }).xBlind r = true ∧ (xat r { c with dstHit := true }).xSees r true = true ∧
      (xat r { c with srcHit := true }).xSees r false = true) ∧
    (let r : XRef := ⟨0, 8 * 1407 + 4, 0, false⟩
     let d := (xat r { XSt.reset with full := true, flight := true }).put (F.RGN_STAT_STATE 1407) 4
     d.xHas r = true ∧ d.xBlind r = false ∧ d.xHeld r 0 = true ∧ (d.xr r).void = false) ∧
    (let r : XRef := ⟨8, 0, 0, false⟩
     let d := { xat r { XSt.reset with full := true, flight := true } with now := 10000 }.wr (R.XING_CFG 8) 1
     d.xDue r = true ∧ d.xBlind r = false ∧ d.xHeld r 0 = false) ∧
    (let r : XRef := ⟨4, 2047, 0, false⟩
     let c := { XSt.reset with full := true, flight := true, pend := 15 }
     (xat r c).xHas r = true ∧ (xat r c).xr r = c ∧ (xat r c).xBlind r = false ∧ live.rosOn = true ∧ live.usedCtx = []) ∧
    (∀ r ∈ ([⟨4, 2047, 0, false⟩, ⟨11, 15, 0, false⟩] : List XRef), xPulseKind r = true ∧ xuser.xReset r true = false ∧ xuser.xStill r = false ∧ xuser.xHas r = true) ∧
    (∃ r : XRef, live.xHas r = true ∧ live.xReset r false = true ∧ live.xReset r true = true) ∧
    (live.wr (R.XING_CFG 8) 65535).rd (R.XING_CFG 8) = BitVec.ofNat 32 65535 ∧ (0 < 65535 ∧ 65535 < 65536) ∧
    ({ live with now := 655350 } : DieSt).now = 0 + 10 * 65535 ∧ live.writeCheck .referee (R.XING_CFG 11) 4 = .ok ∧ live.classZero = false ∧
    ((cxd 1 0).put (cF 40959 0 18 18) 1).classZero = true ∧ (cxd 1 0).writeCheck .referee (R.XING_CFG 7) 4 = .ok ∧
    (0 < bits (999#32).toNat 15 0 ∧ bits (999#32).toNat 15 0 < 1000 ∧ bits (999#32).toNat 17 16 = 0) := by
  refine ⟨⟨rfl, rfl⟩, ?_⟩; and_intros
  all_goals first | exact ⟨⟨0, 8 * 1407, 0, true⟩, by decide⟩ | decide +kernel


/-! ### Witnesses: DRAM -/

/-- Channel 1 in state `st` with two ranks, a capacity of 4,096 lines, and contents `h`; port 7 has class `cl`, eight credits
and panics at one offer. -/
def chd (st cl : Nat) (h : DmcSt) : DieSt :=
  (((((((live.put (F.DMC_STAT_STATE 1) st).put (F.DMC_CAP_SIZE 1) 4).put (F.DMC_PORT_CFG_EN 1 7) 1).put (F.DMC_PORT_CFG_CLASS 1 7) cl).put
    (F.DMC_PORT_CFG_CREDITS 1 7) 8).put (F.DMC_PORT_CFG_PANIC 1 7) 1).put (F.DMC_CFG_RANKS2 1) 1).setCh 1 h

/-- A read of line `l`. -/
def rdLine (l : Nat) : DramReq := ⟨l, false, 0, 2 ^ 64 - 1, 9⟩

/-- The operation that reads or writes line 4,095. -/
def opAt (wr issued : Bool) : DramOp := ⟨3, 7, 1, ⟨4095, wr, 5, 2 ^ 64 - 1, 9⟩, issued, 0, (0, 0)⟩

theorem wit_DramRequestsAndRefresh : (on0 (chd 2 0 DmcSt.reset)).has .die0 (chd 2 0 DmcSt.reset) ∧ 1 < 4 ∧ (chd 2 0 DmcSt.reset).chReady 1 = true ∧
    (chd 2 0 DmcSt.reset).on (F.DMC_STAT_SELFREF 1) = false ∧
    (let r : XRef := ⟨6, 4, 7, true⟩
     let d := (chd 2 1 DmcSt.reset).setXr r { XSt.reset with full := true, flight := true, flying := 4095 }
     d.xHas r = true ∧ (d.xr r).done = false ∧ (d.xr r).void = false ∧ d.xBlind r = false ∧ (d.xr r).flying = 4095 ∧ bit 4095 30 = false ∧
     (d.ch 1).partialWr.get (fun _ => none) 7 = none ∧ ((d.ch 1).offered 7).length < 32) ∧
    (∀ cl : Fin 4, ∀ l ∈ [4095, 4096], let h := { DmcSt.reset with offers := Tab.empty.set (fun _ => []) 7 [rdLine l] }
      let d := chd 2 cl h
      (d.ch 1).offered 7 = [rdLine l] ∧ d.portClass 1 7 = cl ∧ d.mayAccept 1 7 (rdLine l) = false ∧ d.chPanic 1 = decide (cl.val = 0) ∧
      d.capLines 1 = 4096) ∧
    (let h := { DmcSt.reset with offers := Tab.empty.set (fun _ => []) 7 [rdLine 4095], tokens := Tab.empty.set (fun _ => (0, 0)) 7 (1000, 0) }
     (chd 2 0 h).mayAccept 1 7 (rdLine 4095) = true) ∧
    (let d := chd 1 1 { DmcSt.reset with offers := Tab.empty.set (fun _ => []) 13 [rdLine 0] }
     d.dmcOn 1 = true ∧ d.chReady 1 = false ∧ (d.ch 1).offered 13 = [rdLine 0] ∧ ((chd 2 1 DmcSt.reset).ch 1).offered 8 = []) ∧
    (∀ wr : Bool, let d := chd 2 0 { DmcSt.reset with ops := [opAt wr false] }
      (d.refreshNext 1).isNone = true ∧ (d.ch 1).ops = [opAt wr false] ∧
      (let a := d.lineFields 1 4095
       (d.ch 1).openRow.get (fun _ => none) a.bankKey ≠ some a.row ∧
       ((chd 2 0 { DmcSt.reset with ops := [opAt wr false], openRow := Tab.empty.set (fun _ => none) a.bankKey (some a.row) }).ch 1).openRow.get
         (fun _ => none) a.bankKey = some a.row)) ∧
    (let o : DramOp := ⟨4, 6, 2, rdLine 4095, false, 0, (0, 0)⟩
     o ∈ [opAt true false, o] ∧ heldBack [opAt true false, o] o = true ∧ [opAt true false, o].Pairwise (fun e f => e.id ≠ f.id)) ∧
    (let d := chd 2 0 { DmcSt.reset with ops := [opAt false true] }
     (d.ch 1).ops = [opAt false true] ∧ (opAt false true).issued = true ∧ (opAt false true).got = ((d.ch 1).line (d.physLine 1 4095), 0) ∧
     (opAt false true).got = (0, 0) ∧ ((d.setCh 1 ((d.ch 1).putLine (d.physLine 1 4095) 7)).ch 1).line (d.physLine 1 4095) = 7 ∧
     (d.ch 1).flips (d.physLine 1 4095) = 0 ∧ d.ranks 1 = 2 ∧
     d.chPanic 1 = false ∧ d.refSpaced 1 1 = true ∧ d.owed 1 1 = 0 ∧ d.owed 1 0 ≤ 4 ∧ d.refSpaced 1 0 = true ∧
     (d.ch 1).mr4Wait.get (fun _ => none) 1 = none ∧
     ((d.setCh 1 { d.ch 1 with mr4Wait := Tab.empty.set (fun _ => none) 0 (some 1) }).ch 1).mr4Wait.get (fun _ => none) 0 = some 1) ∧
    (∀ t : Fin 3, let t' := nth 0 [0, 1, 2] t
     let d := { (chd 2 0 { DmcSt.reset with offers := Tab.empty.set (fun _ => []) 7 [rdLine 0], mr4Held := Tab.empty.set (fun _ => 0) 0 t' }) with now := 1000001 }
     d.chPanic 1 = true ∧ (d.ch 1).mr4Held.get (fun _ => 0) 0 = t' ∧
     (t' = 1 → t' + 1000000 < d.now + 1) ∧ (t' = 2 → d.now + 1 ≤ t' + 1000000)) ∧
    (let d := (chd 2 0 { DmcSt.reset with offers := Tab.empty.set (fun _ => []) 7 [rdLine 0] }).put (F.DMC_REF_OWED1 1) 4
     d.chPanic 1 = true ∧ d.refSpaced 1 1 = true ∧ d.owed 1 1 = 4) ∧
    (chd 2 0 { DmcSt.reset with lastRef := Tab.empty.set (fun _ => 0) 1 1 }).refSpaced 1 1 = false ∧
    ((chd 2 0 DmcSt.reset).put (F.DMC_REF_HALF0 1) 1).on (F.DMC_REF_HALF0 1) = true ∧
    bit (((chd 2 0 DmcSt.reset).put (F.DMC_EVT_EN_EN 1) 4).f (F.DMC_EVT_EN_EN 1)) 2 = true := by
  refine ⟨⟨rfl, rfl⟩, ?_⟩; and_intros <;> decide +kernel

theorem wit_DramBackgroundSparingAndTraining : (on0 (chd 2 1 DmcSt.reset)).has .die0 (chd 2 1 DmcSt.reset) ∧ 1 < 4 ∧
    (chd 2 1 DmcSt.reset).dmcOn 1 = true ∧ (chd 2 1 DmcSt.reset).mayBackground 1 false = true ∧
    (let d := chd 2 1 { DmcSt.reset with patrol := 4094 }
     (d.ch 1).flips (d.physLine 1 4094) = 0 ∧ 4094 + 1 < d.capLines 1) ∧
    ((chd 2 1 { DmcSt.reset with trainFails := Tab.empty.set (fun _ => 0) 1 2 }).ch 1).trainFails.get (fun _ => 0) 1 = 2 ∧
    1 < (chd 2 1 DmcSt.reset).ranks 1 ∧ ((chd 2 1 DmcSt.reset).put (F.DMC_CFG_RANKS2 1) 0).ranks 1 = 1 ∧
    DmcSt.reset.timingNext = Tab.empty ∧ (on0 (chd 2 1 DmcSt.reset)).d0.pwr.kept = none ∧ (on0 (chd 2 1 DmcSt.reset)).d1.pwr.kept = none ∧
    (∀ r, r < 2 → 3 ≤ ((Tab.empty.set (fun _ => 0) 0 3).set (fun _ => 0) 1 3 : Tab Nat).get (fun _ => 0) r) ∧ bit (((chd 2 1 DmcSt.reset).put (F.DMC_EVT_EN_EN 1) 16).f (F.DMC_EVT_EN_EN 1)) 4 = true ∧
    (let d := ((chd 2 1 { DmcSt.reset with copied := Tab.empty.set (fun _ => 0) 63 62 }).put (F.DMC_SPARE_STATE 1 63) 1).put (F.DMC_SPARE_ROW 1 63) 5
     let a : LineAddr := { subch := 0, bank := 0, col := 62, rank := 0, row := 5 }
     d.f (F.DMC_SPARE_STATE 1 63) = 1 ∧ d.physLine 1 (d.lineOf 1 a) = d.lineOf 1 a ∧ (d.ch 1).flips (d.lineOf 1 a) = 0 ∧ 62 + 1 < d.rowLines 1 ∧
     (d.ch 1).copied.get (fun _ => 0) 63 = 62 ∧ d.f (F.DMC_SPARE_ROW 1 63) = 5) ∧
    (chd 2 1 DmcSt.reset).writeCheck .referee (R.DMC_CMD 1) 4 = .ok ∧
    (let d := chd 2 1 DmcSt.reset
     d.chReady 1 = true ∧ 31 < 32 ∧ d.dramRows 1 - 2 < d.dramRows 1 - 1 ∧ d.dramRows 1 - 2 < 2 ^ 17 ∧ (∀ k, k < 64 → d.f (F.DMC_SPARE_STATE 1 k) = 0)) ∧
    ((chd 2 1 DmcSt.reset).put (F.DMC_SPARE_STATE 1 63) 2).f (F.DMC_SPARE_STATE 1 63) = 2 ∧ (chd 1 1 DmcSt.reset).chReady 1 = false ∧
    (chd 1 1 DmcSt.reset).f (F.DMC_STAT_STATE 1) = 1 ∧ (chd 1 1 DmcSt.reset).dramConfigOk 1 = true ∧
    ((chd 1 1 DmcSt.reset).put (F.DMC_CFG_BIN 1) 3).dramConfigOk 1 = false ∧ (chd 2 1 DmcSt.reset).f (F.DMC_STAT_STATE 1) = 2 ∧
    bit (((chd 2 1 DmcSt.reset).put F.PWR_SUP_STAT_VDDQ 0).f F.PWR_SUP_STAT_VDDQ) 1 = false ∧
    ((chd 2 1 DmcSt.reset).put F.PWR_STATE_STATE 7).dev = 7 ∧
    ((chd 2 1 DmcSt.reset).put (F.DMC_SPARE_STATE 1 63) 3).f (F.DMC_SPARE_STATE 1 63) = 3 := by
  refine ⟨⟨rfl, rfl⟩, ?_⟩; and_intros <;> decide +kernel

/-! ### Witnesses: Sunislink, Ethernet, Match Time and the event collector -/

/-- Port 3 enabled in state `st` with contents `c`; this device has ID 0x100 and every route leads to port 0, which is UP. -/
def lk (st : Nat) (c : PortSt) : DieSt :=
  { (((((live.put (F.SLK_PORT_STAT_STATE 3) st).put (F.SLK_PORT_CTL_EN 3) 1).put F.SLK_ID_VALID 1).put F.SLK_ID_ID 0x100).put
      (F.SLK_PORT_STAT_STATE 0) 3 |>.wr (R.SLK_ROUTE 0xC0) 0 |>.wr (R.SLK_ROUTE 0x48) 0).setPrt 3 c with pwr := { live.pwr with pll := true } }

/-- A message of kind `k` for `dest` with `h` hops left. -/
def msg (dest k h : Nat) : SlkMsg := ⟨dest, 0x200, k, 1, h, 8, 0, 0, List.replicate 8 0⟩

theorem wit_SunislinkPortStates : (on0 (lk 0 PortSt.reset)).has .die0 (lk 0 PortSt.reset) ∧
    (∀ st : Fin 5, (lk st PortSt.reset).portLive 3 = true ∧ (lk st PortSt.reset).portState 3 = st ∧ (lk st PortSt.reset).pwr.pll = true ∧
      (lk st PortSt.reset).on (F.SLK_PORT_CTL_EN 3) = true ∧ ((lk st PortSt.reset).prt 3).dup = false ∧
      ((lk st PortSt.reset).prt 3).spare = none ∧ (lk st PortSt.reset).watchers 6 3 = []) ∧
    (lk 0 PortSt.reset).lanesOut 3 = 0 ∧ (∀ i : Fin 4, ((lk 1 PortSt.reset).quarWrite [⟨3, 1, 15 + i, 0, 0⟩]).lanesOut 3 = 2 ^ i.val) ∧
    ((⟨false, 0, none, false, false, none, 0, 0⟩ : SlkPeer).ok = false ∧
     2 < popcount 5 (Nat.lor ((⟨true, 7, none, false, false, none, 0, 0⟩ : SlkPeer).failed % 32) ((lk 1 PortSt.reset).lanesOut 3))) ∧ (2047 < 2 ^ 11 ∧ (lk 1 PortSt.reset).f F.SLK_ID_ID ≠ 2047) ∧
    (lk 1 PortSt.reset).on F.SLK_ID_VALID = true ∧ (lk 3 PortSt.reset).f (F.SLK_PORT_STAT_FAILED 3) = 0 ∧
    ((lk 3 PortSt.reset).put (F.SLK_PORT_STAT_FAILED 3) 16).f (F.SLK_PORT_STAT_FAILED 3) = 16 ∧ (lk 3 PortSt.reset).dev = 4 ∧
    (lk 3 PortSt.reset).domOn 74 = true ∧ bit (((lk 3 PortSt.reset).put F.SLK_EVT_EN_EN 2).f F.SLK_EVT_EN_EN) 1 = true ∧
    (let m := { msg 0x300 3 5 with payload := List.replicate 256 0 }
     let m0 := { m with cls := 0 }
     m.payload.length ≤ 256 ∧ m.cls = 1 ∧ m0.cls = 0 ∧ ((lk 3 { PortSt.reset with out := [m, m0] }).prt 3).out = [m, m0] ∧
     ((lk 3 { PortSt.reset with out := [m, m0] }).prt 3).unacked = [] ∧
     ((lk 2 { PortSt.reset with unacked := [m] }).prt 3).unacked = m :: []) := by
  refine ⟨⟨rfl, rfl⟩, ?_⟩; and_intros <;> decide +kernel

/-- Queue 63 read by Sunislink port `p`, with an item of a first word `a` and one data word. -/
def item (sink p : Nat) (a : Word64) (d : DieSt) : DieSt :=
  ((d.put (F.Q_CFG_RSNK 63) sink).put (F.Q_CFG_RSEL 63) p).setQue 63 { QSt.reset with
    words := [⟨a, 0, wordParity a.toNat 0, false, 0, none, false⟩, ⟨7, 32, wordParity 7 32, false, 0, none, false⟩] }

theorem wit_SunislinkMessagesAndTokens : (on0 (lk 3 PortSt.reset)).has .die0 (lk 3 PortSt.reset) ∧
    (let d := lk 3 PortSt.reset
     d.portLive 3 = true ∧ 3 ≤ d.portState 3 ∧ d.watchers 5 3 = [] ∧ 7 ≤ (msg 0x300 7 5).kind ∧ (msg 0x300 3 5).len ≤ 256 ∧ (msg 0x7FF 3 5).dest < 0x800 ∧
     d.on F.SLK_ID_VALID = true ∧ (msg 0x300 3 5).src ≠ d.f F.SLK_ID_ID ∧ (msg 0x300 3 5).dest ≠ d.f F.SLK_ID_ID ∧ (msg 0x300 3 0).hops = 0 ∧
     0 < (msg 0x300 6 1).hops ∧ (d.route 0x300).1 = 0 ∧ d.portUp 0 = true ∧ (msg 0x100 6 0).dest = d.f F.SLK_ID_ID ∧ d.domOn 74 = true ∧
     d.coll.length < 256 ∧ d.on F.SYS_EVT_CFG_RX_EN = false ∧ (d.put F.SYS_EVT_CFG_RX_EN 1).on F.SYS_EVT_CFG_RX_EN = true ∧
     d.kickReady = false ∧ 2 ≤ d.portState 3 ∧ slkCrc (msg 0x300 3 5) = slkCrc (msg 0x300 3 5) ∧ 0 ≠ slkCrc (msg 0x300 3 5) ∧
     (({ d.prt 3 with rxNum := 1 } : PortSt).rxNum = 1 ∧ (d.prt 3).rxNum = 0 ∧ (0 : Nat) < 1)) ∧
    (let d := (((lk 2 PortSt.reset).put F.PWR_STATE_STATE 3).put F.CFG_KICK_RISEN 1).put F.CFG_KICK_KSYS 1
     d.kickReady = true ∧ d.portsReady = true ∧ (lk 2 PortSt.reset).idn.twin = false ∧
     (((d.put F.MT_CFG_UP_PORT 3).put F.SLK_CFG_KROOT 0).on F.SLK_CFG_KROOT = false ∧ ({ d.put F.MT_CFG_UP_PORT 3 with hdrOk := true } : DieSt).mtPort = some 3) ∧ (d.put F.SLK_CFG_KROOT 1).on F.SLK_CFG_KROOT = true ∧ d.mt.toNat + 1000 * d.f F.SLK_CFG_KLEAD < 2 ^ 64 ∧
     d.dev = 3 ∧ 0 < (1#64).toNat ∧ d.mt.toNat ≤ 0) ∧
    (let d := item 5 0 0x00081123 (lk 3 PortSt.reset)
     let w := (d.que 63).words
     d.hubOn = true ∧ d.qReader 63 = some (.slkPort 0) ∧ d.portUp 0 = true ∧ d.qPrio 63 = false ∧ d.linkIn.get (fun _ => []) 63 = [] ∧
     w.length = 2 ∧ (d.que 63).inItem = false ∧ (d.que 63).waits = [] ∧ d.watchers 2 63 = [] ∧ d.slkAdm.get (fun _ => 0) 63 = 0 ∧
     d.f F.SLK_ID_ID ≠ 0x123 ∧ (d.route 0x123).1 = 0 ∧ d.on F.SLK_ID_VALID = true ∧
     (0x00081123 < 2 ^ 25 ∧ bits 0x00081123 15 14 = 0 ∧ bits 0x00081123 24 16 = 8 ∧ bits 0x00081123 11 0 = 0x123) ∧ bits 0x0008C123 15 14 ≠ 0) ∧
    (let d := (live.put (F.SLK_CHAN_CFG_EN 255) 1).put (F.SLK_CHAN_CFG_CREDITS 255) 2
     d.on (F.SLK_CHAN_CFG_EN 255) = true ∧ d.on (F.SLK_CHAN_CFG_DIR 255) = false ∧ 2 ≤ d.f (F.SLK_CHAN_CFG_CREDITS 255) ∧
     (let e : DieSt := { d.put (F.SLK_CHAN_RATE_RATE 255) 2 with chanSent := Tab.empty.set (fun _ => []) 255 [0], now := 999 }
      (e.put (F.SLK_CHAN_CFG_CLASS 255) 0).chanPaced 255 = false ∧
      ({ e.put (F.SLK_CHAN_CFG_CLASS 255) 0 with chanSent := Tab.empty.set (fun _ => []) 255 [0, 0] } : DieSt).chanPaced 255 = true)) ∧
    (let d : DieSt := { live with chanZero := Tab.empty.set (fun _ => 0) 255 1, now := 1000000 }
     (d.put (F.SLK_CHAN_CFG_CREDITS 255) 0).f (F.SLK_CHAN_CFG_CREDITS 255) = 0 ∧ d.chanZero.get (fun _ => 0) 255 ≠ 0 ∧ d.chanZero.get (fun _ => 0) 255 + 999999 ≤ d.now ∧
     d.on (F.SLK_CHAN_CFG_STALL 255) = false) ∧ live.writeCheck .referee R.SLK_CHAN_RST 4 = .ok := by
  refine ⟨⟨rfl, rfl⟩, ?_⟩; and_intros <;> decide +kernel

/-- Ethernet port 3 enabled with MAXLEN 1,522. -/
def eth : DieSt := { live.put (F.ETH_STAT_IDLE 3) 0 with ethCfg := Tab.empty.set (fun _ => 0) 3 0x800005F2 }

theorem wit_EthernetFramesAndTimestamps : (on0 eth).has .die0 eth ∧ 3 < 4 ∧ eth.ethLive 3 = true ∧ eth.ethLive 0 = false ∧
    eth.watchers 3 3 = [] ∧ eth.ethC 3 % 2 ^ 14 = 1522 ∧ (List.replicate 63 0).length < 64 ∧ (List.replicate 64 0).length = 64 ∧
    (List.replicate 1522 0)[12]? ≠ some 0x88 ∧ eth.on F.ROS_CTL_CLS_EN = false ∧
    ((List.replicate 12 0 ++ [0x88, 0x08] ++ List.replicate 50 0)[12]? = some 0x88 ∧
     (List.replicate 12 0 ++ [0x88, 0x08] ++ List.replicate 50 0)[13]? = some 0x08) ∧
    (let d := item 4 3 0x5A010008 eth
     d.hubOn = true ∧ d.qReader 63 = some (.ethernet 3) ∧ d.ethLive 3 = true ∧ d.qPrio 63 = false ∧ d.linkIn.get (fun _ => []) 63 = [] ∧
     (0x5A010008 < 2 ^ 32 ∧ bits 0x5A010008 23 17 = 0 ∧ bits 0x5A010008 15 14 = 0 ∧ bits 0x5A010008 13 0 ≤ 8) ∧ 8 < bits 0x5A010009 13 0 ∧
     (d.que 63).words.length = 2 ∧ d.watchers 2 63 = [] ∧ d.watchers 4 3 = [] ∧ (d.txts.get (fun _ => []) 3).length < 16) ∧
    eth.readCheck .team (R.ETH_TXTS_HI 3) 4 = .ok ∧
    (({ eth with txts := Tab.empty.set (fun _ => []) 3 [(1, 2), (3, 4)] } : DieSt).txts.get (fun _ => []) 3 = [(1, 2), (3, 4)]) ∧
    eth.dev = 4 ∧ (let d := (item 4 3 0x5A010008 eth).put F.PWR_STATE_STATE 6
     d.hubOn = true ∧ d.qReader 63 = some (.ethernet 3) ∧ d.dev = 6) ∧ eth.on (F.ETH_STAT_LINK 3) = false := by
  refine ⟨⟨rfl, rfl⟩, ?_⟩; and_intros <;> decide +kernel

/-- Match Time running from port 3, with `g` good exchanges and `m` misses. -/
def mtd (g m : Nat) : DieSt :=
  { (lk 3 PortSt.reset).put F.MT_CFG_UP_PORT 3 with mtm := { MtSt.reset with on := true, good := g, miss := m }, hdrOk := true }

theorem wit_MatchTimeAndEventCollector : (on0 (mtd 15 8)).has .die0 (mtd 15 8) ∧ (mtd 15 8).portLive 3 = true ∧ 2 ≤ (mtd 15 8).portState 3 ∧
    (mtd 15 8).mtm.on = true ∧ (mtd 15 8).mtPort = some 3 ∧ ((mtd 15 8).put F.PWR_STATE_STATE 3).dev < 4 ∧ (mtd 15 8).mtm.good = 15 ∧
    (999 : Int).natAbs < 1000 ∧ (1000000 : Int) < 1000001 ∧ (mtd 15 8).on F.MT_STAT_HOLDOVER = false ∧ 8 ≤ (mtd 15 8).mtm.miss ∧
    (3 ≤ (mtd 15 8).dev ∧ ((mtd 15 0).put (F.SLK_PORT_STAT_STATE 3) 2).portUp 3 = false ∧ (lk 3 PortSt.reset).mtm.on = false ∧
      (mtd 0 0).idn.die ≠ 1 ∧ sgn 16 ((mtd 15 8).f (F.SLK_PORT_CTL_ASYM 3)) / 2 = 0) ∧
    (let d : DieSt := { ((mtd 0 8).put F.MT_STAT_HOLDOVER 1).put F.MT_CFG_ALT_EN 1 with now := 1000000 }
     d.on F.MT_STAT_HOLDOVER = true ∧ d.on F.MT_CFG_ALT_EN = true ∧ d.on F.MT_STAT_ON_ALT = false ∧ d.mtm.holdAt + 1000000 ≤ d.now) ∧
    (mtd 0 0).writeCheck .team R.MT_RATE 4 = .ok ∧ ((mtd 0 0).put F.MT_CFG_ROOT 1).on F.MT_CFG_ROOT = true ∧
    (sgn 21 (858993#32).toNat).natAbs = 858993 ∧ 858993 < (sgn 21 (858994#32).toNat).natAbs ∧
    (let d : DieSt := { (mtd 0 0).put F.MT_PPS_CFG_OUT_EN 1 with mt := 1000000000 }
     d.on F.MT_PPS_CFG_OUT_EN = true ∧ d.mtm.pps < d.ppsCount) ∧
    (let d := (((mtd 0 0).put F.MT_PPS_CFG_IN_EN 1).put (F.PIN_CFG_FUNC 47) 8).put (F.PIN_CFG_SIG 47) 1
     d.on F.MT_PPS_CFG_IN_EN = true ∧ d.carriers 23 = [47] ∧ d.on F.MT_CAP_STAT_VALID = false) ∧
    (mtd 0 0).domOn 74 = true ∧ (mtd 0 0).on F.SYS_EVT_CFG_FWD_EN = false ∧ (mtd 0 0).coll.length < 256 ∧
    256 ≤ ({ mtd 0 0 with coll := List.replicate 256 EvRec.reset } : DieSt).coll.length ∧
    (let d := (((mtd 0 0).put F.SYS_EVT_CFG_EN 1).put F.SYS_EVT_CFG_Q 63).put (F.Q_CFG_WSRC 63) 6
     d.hubOn = true ∧ d.on F.SYS_EVT_CFG_EN = true ∧ d.qWriter (d.f F.SYS_EVT_CFG_Q) = some .collector ∧
     d.qRoom (d.f F.SYS_EVT_CFG_Q) 2 = false ∧ (d.put (F.Q_CFG_EN 63) 1).qRoom 63 2 = true) := by
  refine ⟨⟨rfl, rfl⟩, ?_⟩; and_intros <;> decide +kernel

/-! ### Witnesses: pins, device states and supplies -/

/-- Pin 959 in device state `st` with the PIN_CFG word `v`. -/
def pn (st : Nat) (v : Word) : DieSt := (live.put F.PWR_STATE_STATE st).wr (R.PIN_CFG 959) v

theorem wit_PinSettingsAndSwitching : (on0 (pn 4 0x01000000)).has .die0 (pn 4 0x01000000) ∧ 959 < (pn 4 0x01000000).pins ∧
    (let d := pn 4 0x01000000
     let old := d.rd (R.PIN_CFG 959)
     d.writeCheck .referee (R.PIN_CFG 959) 4 = .ok ∧ d.pinRule 959 0x41000000 = true ∧ d.pinRule 959 0x41000100 = false ∧ cfgOwner 0x80000000 = 2 ∧
     d.pinSealed old 0x41000000 = false ∧ (d.put F.MET_STAT_SEALED 1).pinSealed old 0xC3000000 = true ∧ cfgOwner 0x41000000 ≠ 2 ∧
     d.on (F.PIN_CFG_SWITCHING 959) = false ∧ d.pinsLive = true ∧ old &&& 0xCF20FF00 ≠ cfgNorm 0x41000000 ∧ old &&& 0xCF20FF00 = cfgNorm 0x01000000 ∧
     cfgFunc old = 1 ∧ d.on (F.PIN_CFG_DIS 959) = false ∧ (d.pinS 959).latch = none ∧ (d.pinS 959).caller = none ∧ inSignal old = none ∧
     cfgOwner old ≠ 2 ∧ d.restarting = false ∧ d.pinOwn 959 = some (false, false) ∧ (d.pinS 959).ending = false ∧ cfgOwner ((pn 4 0x80000000).rd (R.PIN_CFG 959)) = 2 ∧
     (((d.setPin 959 { PinSt.reset with waiting := [(0x41000000, none, none)] }).pinS 959).waiting = [(0x41000000, none, none)]) ∧
     ((d.put F.REF_STAT_STATE 2).restarting = true ∧ cfgOwner 0x41000000 ≠ cfgOwner old) ∧
     d.writeCheck .referee (R.PIN_ELEC 959) 4 = .ok ∧ d.writeCheck .referee (R.PIN_FAB 959) 4 = .ok ∧ cfgFunc old ≠ 0 ∧
     4 < bits (0x0000A000#32).toNat 15 13 ∧ ¬ 4 < bits (0x00008000#32).toNat 15 13) ∧
    (pn 3 0x01000000).pinsLive = false ∧ cfgFunc ((pn 4 0x80000000).rd (R.PIN_CFG 959)) = 0 ∧ (pn 4 0x80000000).on (F.PIN_CFG_DIS 959) = false ∧
    (let d := pn 4 0x44800100
     d.on (F.PIN_CFG_SWITCHING 959) = true ∧ (d.pinS 959).waiting = [] ∧ (d.pinS 959).elecNext = none ∧ (d.pinS 959).caller = none ∧ (d.pinS 959).holds = 0 ∧
     inSignal (d.rd (R.PIN_CFG 959)) = some 0 ∧ d.pinsLive = true ∧ ((d.wr (R.PIN_CFG 0) 0x44000100).carriers 0 = [0]) ∧
     bit (d.f F.PIN_CONFLICT_LIVE_SIG) 0 = false ∧ d.domOn 74 = true ∧ bit ((d.put F.PIN_EVT_EN_EN 4).f F.PIN_EVT_EN_EN) 2 = true) ∧
    (((pn 4 0x01000000).setPin 959 { PinSt.reset with ending := true }).pinS 959).ending = true := by
  refine ⟨⟨rfl, rfl⟩, ?_⟩; and_intros <;> decide +kernel

theorem wit_PinLevelsMatchersFiltersAndTestPort : (on0 live).has .die0 live ∧
    (∀ m ∈ [Master.referee, .team], live.writeCheck m (R.GPIO_OUT 59) 4 = .ok ∧ live.writeCheck m (R.GPIO_OE 59) 4 = .ok) ∧
    19 < live.idn.banks ∧ live.dev = 4 ∧ (2 ^ 48 - 1 < 2 ^ 48) ∧
    (∀ mode : Fin 4, ∀ w : Fin 3, let d : DieSt := { ((live.put (F.PIN_PM_CFG_MODE 19 3) mode).put (F.PIN_PM_CFG_WIN 19 3) 4).wr (R.PIN_PM_MV 19 3) 0x00010001
                                   with pmPrev := Tab.empty.set (fun _ => none) 19 (nth none [none, some 0, some (2 ^ 32)] w) }
      d.f (F.PIN_PM_CFG_MODE 19 3) = mode ∧ bit (2 ^ 32 / 2 ^ (8 * d.f (F.PIN_PM_CFG_WIN 19 3)) % 2 ^ 16) 0 = true ∧
      bit (d.f (F.PIN_PM_MV_MASK 19 3)) 0 = true ∧ bit (d.f (F.PIN_PM_MV_VALUE 19 3)) 0 = true ∧
      d.pmPrev.get (fun _ => none) 19 = nth none [none, some 0, some (2 ^ 32)] w) ∧
    (let d : DieSt := { ((pn 6 0x01000000).put (F.PIN_ELEC_DIRQ 959) 1).put (F.PIN_ELEC_DEB 959) 0 with deb := Tab.empty.set (fun _ => none) 959 (some (false, 0)) }
     d.dev ∈ [1, 2, 3, 6, 7, 8] ∧ d.on (F.PIN_ELEC_DIRQ (48 * 19 + 47)) = true ∧ d.on (F.PIN_ELEC_DIRQ (48 * 19)) = false ∧
     d.f (F.PIN_CFG_FUNC (48 * 19 + 47)) ≠ 15 ∧ d.deb.get (fun _ => none) (48 * 19 + 47) = some (false, 0) ∧ bit (2 ^ 47) 47 ≠ false ∧
     0 + 1 = 2 ^ d.f (F.PIN_ELEC_DEB (48 * 19 + 47)) ∧ 0 + 1 < 2 ^ (d.put (F.PIN_ELEC_DEB 959) 15).f (F.PIN_ELEC_DEB (48 * 19 + 47)) ∧
     d.domOn 74 = true ∧ bit ((d.put F.PIN_EVT_EN_EN 2).f F.PIN_EVT_EN_EN) 1 = true) ∧
    ((live.put (F.PIN_BANK_PLL_EN 19) 1).on (F.PIN_BANK_PLL_EN 19) = true ∧ 2 ≤ live.dev ∧ live.pllLost.get (fun _ => false) 19 = false ∧
     ({ live with pllLost := live.pllLost.set (fun _ => false) 19 true } : DieSt).pllLost.get (fun _ => false) 19 = true ∧
     live.on (F.PIN_BANK_STAT_LOCK 19) = false ∧ (live.put (F.PIN_BANK_STAT_LOCK 19) 1).on (F.PIN_BANK_STAT_LOCK 19) = true) ∧
    (0xFF < 256 ∧ 0xFF ∉ [0, 1, 0x20]) := by
  refine ⟨⟨rfl, rfl⟩, ?_⟩; and_intros <;> decide +kernel

/-- Device state `st` with `g` in progress. -/
def dv (st : Nat) (g : Option Going) : DieSt :=
  { live.put F.PWR_STATE_STATE st with pwr := { PwrSt.reset with good := true, going := g } }

/-- A package of one die, whose die 0 is `d`, has nothing else that a condition on every die asks about. -/
theorem every_on0 (d : DieSt) (P : DieSt → Prop) (h : P d) : (on0 d).every P := by
  intro x hx
  cases x with
  | die0 => exact h
  | die1 => exact nomatch (show true = false from hx)

theorem wit_DeviceStatesMoveAsTableThirteenSixSays :
    ((twin (dv 4 none) (dv 4 none)).paired ∧ (twin (dv 4 none) (dv 4 none)).d1.idn.absent = false ∧ (twin (dv 4 none) (dv 4 none)).subBusy = false) ∧
    (on0 (dv 4 none)).paired ∧ (on0 (dv 4 none)).d1.idn.absent = true ∧ (on0 (dv 4 none)).subBusy = false ∧
    (on0 ((dv 4 none).put F.SUB_STAT_STEP 1)).subBusy = true ∧
    (dv 4 none).pwr.good = true ∧ (DieSt.reset.pwr.good = false ∧ DieSt.reset.dev = 0) ∧
    (∀ st : Fin 9, (dv st none).dev = st ∧ (dv st none).pwr.going = none ∧ (dv st none).pwr.latched = []) ∧
    (∀ st : Fin 9, st.val ≠ 0 → st.val ≠ 5 → (dv st none).writeCheck .referee R.PWR_CMD 4 = .ok) ∧
    ((dv 4 (some (.half 255))).pwr.going.isSome = true ∧ (dv 4 (some (.half 255))).pwr.going ≠ some (.wait .wake)) ∧ 255 < 2 ^ 8 ∧
    ((dv 5 (some (.wait .wake))).pwr.going = some (.wait .wake) ∧ (dv 5 (some (.wait .wake))).dev = 5 ∧
     (on0 (dv 5 (some (.wait .wake)))).vcoreUp = true ∧ (on0 ((dv 5 (some (.wait .wake))).put F.PWR_SUP_STAT_VCORE 0)).vcoreUp = false) ∧
    ((dv 6 (some (.resume 5))).pwr.going = some (.resume 5) ∧ 5 ≤ ({ dv 6 none with mt := 5 } : DieSt).mt.toNat ∧ (dv 6 none).mt.toNat < 5) ∧
    (let d : DieSt := { (dv 6 none).put F.PWR_RECOV_LIMIT 1 with now := 100000000 }
     d.pwr.recovAt + max 1 (d.f F.PWR_RECOV_LIMIT) * 100000000 = d.now) ∧
    (on0 (dv 4 (some (.half 255)))).allStill = true ∧ (on0 { fab with pwr := (dv 4 (some (.half 255))).pwr }).allStill = false ∧
    (on0 (dv 4 none)).callsBusy = false ∧
    (on0 (dv 7 (some .leave))).repairing = false ∧ (on0 ((dv 7 (some .leave)).put (F.DMC_SPARE_STATE 3 63) 3)).repairing = true ∧
    (dv 7 (some .leave)).pwr.going = some .leave ∧ (dv 7 (some .leave)).pwr.ftHalf = false ∧
    ((dv 4 (some (.wait (.recovery 13)))).pwr.going = some (.wait (.recovery 13)) ∧
     ({ dv 6 none with pwr := { (dv 6 none).pwr with latched := [.recovery 14] } } : DieSt).pwr.latched = [.recovery 14]) := by
  refine ⟨⟨⟨by decide, Or.inr (by decide)⟩, by decide, by decide⟩, ⟨by decide, Or.inl (by decide)⟩, ?_⟩
  and_intros <;> decide +kernel

/-- A boot block of zeros with its check value; its first directory entry is firmware, its second a FALLBACK one. -/
def block : List Nat :=
  List.replicate 296 0 ++ wordBytes 4 (crc32 (List.replicate 296 0))

theorem block_ok : bootOk block = true := by
  have h0 : (List.replicate 296 0 : List Nat).length = 296 := List.length_replicate
  have ht : block.take 296 = List.replicate 296 0 := List.take_left' h0
  have hd : block.drop 296 = wordBytes 4 (crc32 (List.replicate 296 0)) := List.drop_left' h0
  have hl : block.length = 300 := by
    rw [block, List.length_append, h0, wordBytes, List.length_map]; rfl
  unfold bootOk
  rw [ht, hd, hl, ofBytes_wordBytes _ (crc32_lt _), BEq.rfl, BEq.rfl]; rfl

/-- WARM-UP in CFG_MODE `m` with the PLLs locked and a directory of two firmware entries. -/
def warm (m : Nat) : DieSt :=
  { dv 1 none with
    pwr := { (dv 1 none).pwr with pll := true, mode := m }
    load := { LoadSt.reset with boot := true, dir := [1] ++ List.replicate 15 0 ++ [1, 4] ++ List.replicate 238 0 } }

theorem wit_SuppliesStartUpAndDomains :
    bootOk block = true ∧ ((on0 (dv 1 none)).has .die0 (dv 1 none) ∧ (on0 (dv 1 none)).paired ∧
      (on0 (dv 1 none)).every (fun e => e.dev = 1 ∧ e.load.boot = false ∧ e.on F.CFG_ERR_VALID = false ∧ e.pwr.pll = false ∧ e.pwr.mode = 0 ∧ block[4]? = some 0)) ∧
    ((on0 (dv 4 none)).every (fun e => e.on F.PWR_STATE_RESUMED = false ∧ (e.dev ≠ 1 ∨ e.pwr.pll = true)) ∧
     (on0 (warm 0)).every (fun e => e.bootReady = true ∧ e.on F.PWR_STATE_RESUMED = false ∧ e.fwFromNvm = true)) ∧
    (dv 5 none).dev = 5 ∧ (dv 1 none).dev ≠ 5 ∧ 19 < (dv 1 none).idn.banks ∧ bootOk [] = false ∧ (∀ m : Fin 8, (warm m).pwr.mode = m) ∧
    ((warm 0).nvmMode = true ∧ (warm 0).fwEntry.isSome = true ∧ (warm 0).fwFallback.isSome = true ∧ (dv 1 none).fwEntry = none ∧ (dv 1 none).fwFallback = none ∧
     (warm 0).fwOk ⟨1, 64, 196608, some 1, 0⟩ = true ∧ (warm 0).fwOk ⟨1, 64, 196609, some 1, 0⟩ = false ∧
     ((warm 0).fwPick ⟨1, 64, 196608, some 1, 0⟩ none).isSome = true ∧ (warm 0).fwPick ⟨1, 64, 196609, some 1, 0⟩ none = none ∧
     (warm 2).fwFromNvm = false ∧ (warm 2).fwPick ⟨1, 64, 196608, some 1, 0⟩ none = none) ∧
    (let d : DieSt := { (warm 0).put F.PWR_STATE_RESUMED 1 with pwr := { (warm 0).pwr with kept := some KeptSt.reset, hdr := some HdrKept.reset } }
     d.bootReady = true ∧ d.on F.PWR_STATE_RESUMED = true ∧ d.pwr.kept.isSome = true ∧ d.pwr.hdr.isSome = true) ∧
    (dv 2 none).lineUpReady = false ∧ ({ dv 2 none with load := { LoadSt.reset with loaded := true } } : DieSt).lineUpReady = true ∧
    (({ dv 3 none with mtm := { MtSt.reset with playAt := some 1 } } : DieSt).mtm.playAt = some 1 ∧ (dv 3 none).dev = 3 ∧ (dv 3 none).mt.toNat < 1 ∧
     1 ≤ ({ dv 3 none with mt := 1 } : DieSt).mt.toNat ∧ (dv 3 none).mtm.playAt = none) ∧
    (dv 4 none).writeCheck .referee R.PWR_DOM_CMD 4 = .ok ∧ (75 < 76 ∧ (dv 4 none).hasDom 75 = true ∧ (dv 1 none).writeCheck .referee R.PWR_DOM_CMD 4 = .ok) ∧
    ({ dv 4 none with idn := { Ident.reset with part := .tsl8630F3168 } } : DieSt).hasDom 63 = false ∧
    (dv 4 none).idn.met = true ∧ ({ dv 4 none with idn := { Ident.reset with part := .tsl8630F3168 } } : DieSt).idn.met = false ∧
    (dv 4 none).pwr.domGoing = none ∧ (dv 4 none).pwr.domCaller = none ∧ (dv 4 none).domOn 63 = true ∧ (dv 4 none).domBusy 63 = false ∧
    ((dv 4 none).setDom 63 false).domOn 63 = false ∧ ((dv 4 none).put (F.RGN_STAT_STATE 1407) 4).domBusy 63 = true := by
  refine ⟨block_ok, ⟨⟨rfl, rfl⟩, ⟨by decide, Or.inl (by decide)⟩, every_on0 _ _ ⟨by decide, by decide, by decide, by decide, by decide, rfl⟩⟩,
    ⟨every_on0 _ _ (by decide), every_on0 _ _ (by decide)⟩, ?_⟩
  and_intros <;> decide +kernel

/-! ### Witnesses: configuration -/

/-- The bytes of a header of `rs` region table entries, `ps` pin plan entries and `n` body bytes for this package, of key slot 0. -/
def hdBytes (kind rows flags n : Nat) (rs ps : List (List Nat)) : List Nat :=
  wordBytes 4 0x36384C54 ++ [1, 0, kind, live.idn.pkg] ++ wordBytes 4 flags ++ [rows, 0, 0, 0] ++ List.replicate 4 0 ++ wordBytes 4 n
    ++ List.replicate 48 0 ++ [5] ++ List.replicate 43 0 ++ wordBytes 2 rs.length ++ wordBytes 2 ps.length ++ List.replicate 8 0
    ++ [9] ++ List.replicate 127 0 ++ rs.flatten ++ ps.flatten ++ List.replicate 200 0

/-- The HEADER record of such a header, signed. -/
def hd (kind rows flags n : Nat) (rs ps : List (List Nat)) : HdrRec := ⟨hdBytes kind rows flags n rs ps, 77, true⟩

/-- The region table entry of region `r`: PID 0xABCD, signature 6. -/
def rgn (r : Nat) : List Nat := wordBytes 2 r ++ [0, 0] ++ wordBytes 4 0xABCD ++ wordBytes 8 6

/-- The personality of region 3: its entry. -/
def en3 : RgnEntry := ⟨0, 3, false, false, 0xABCD, 6⟩

/-- A full image of one personality. -/
def hd3 : HdrRec := hd 0 32 0 136 [rgn 3] []

/-- A die in `st` with a host source, in a stream, with load state `l`; key slot 0 holds digest 77. -/
def ld (st : Nat) (l : LoadSt) : DieSt :=
  { (((live.put F.PWR_STATE_STATE st).put F.REF_KEYS_PROG 1).put F.CFG_STAT_HOST_RDY 1) with
    pwr := { live.pwr with mode := 2 }, load := { l with inStream := true }
    fuse := { live.fuse with sigKey := Tab.empty.set (fun _ => none) 0 (some 77) } }

/-- After the header of a 136-byte body whose one personality is placed at home. -/
def afterHd : LoadSt :=
  { LoadSt.reset with hdr := some (readHdr hd3), sel := true, hdrSeen := true, list := [en3], want := 9
                      place := Tab.empty.set (fun _ => 0) 3 4 }

/-- The frame address of frame 320 of region 3. -/
def fa3 : Nat := 3 * 2 ^ 20 + 320 * 2 ^ 10

/-- An image whose frames use no channel port, lane, user crossing or comparator has its places, and one that uses a port of channel 4,
which no part has, does not. -/
theorem wit_placesFit (d : DieSt) (hl : Config.lanes d.rowsNow = []) (hu : Config.userX d.rowsNow = [])
    (hc : ∀ r, Config.comparators d.rowsNow r = 0) :
    (Config.dmcPorts d.rowsNow = [] → d.placesFit = true) ∧ (d = ld 2 afterHd → Config.dmcPorts d.rowsNow = [(4, 0, 0)] → d.placesFit = false) := by
  have h0 : d.comparators = 0 := by
    unfold DieSt.comparators; simp only [hc]
    generalize List.range d.idn.rows = l
    induction l with
    | nil => rfl
    | cons a l ih => simpa only [List.foldl_cons, Nat.max_self, Nat.max_zero, Nat.zero_max] using ih
  refine ⟨fun hd => ?_, fun h hd => ?_⟩
  · simp [DieSt.placesFit, hl, hu, hd, h0]
  · have : d.idn.ddr = 4 := by subst h; decide
    simp [DieSt.placesFit, hd, this]

theorem wit_StreamRecordsLoadAnImage :
    (live.load.inStream = false ∧ (ld 2 LoadSt.reset).f F.CFG_STAT_LSTATE ≠ 6 ∧ (∀ n : Fin 200, (ld 2 LoadSt.reset).streaming n = true) ∧
      (ld 2 LoadSt.reset).load.skip = 0 ∧ (ld 2 LoadSt.reset).idn.absent = false) ∧
    ((ld 2 { LoadSt.reset with skip := 8 }).streaming 8 = true ∧ 0 < (ld 2 { LoadSt.reset with skip := 8 }).load.skip ∧
      (ld 2 { LoadSt.reset with skip := 8 }).load.skip < 64) ∧
    (recType 0x0100000000000086 = 1 ∧ recArg 0x0100000000000086 = 0x86 ∧ recType 0x0280000000000001 = 2 ∧ recType 0x0600000000000000 = 6 ∧
      recType 0x0700000000000000 = 7 ∧ recType 0x0800000000000000 ∉ [2, 6, 7] ∧ recType 0x0800000000000000 ≠ 1) ∧
    (let d : DieSt := { ld 1 LoadSt.reset with load := LoadSt.reset }
     d.load.inStream = false ∧ d.dev ∈ [1, 2] ∧ d.on F.CFG_STAT_HOST_RDY = true ∧ d.load.loaded = false ∧ d.pwr.mode ≠ 4 ∧ d.nvmMode = false ∧
     live.dev ∉ [1, 2] ∧ live.on F.CFG_STAT_HOST_RDY = false) ∧
    (LoadSt.reset.teamDue = false ∧ LoadSt.reset.hdr = none ∧ LoadSt.reset.took = false ∧ LoadSt.reset.sel = false ∧ LoadSt.reset.hdrSeen = false) ∧
    ((ld 2 LoadSt.reset).dev = 2 ∧ (ld 1 LoadSt.reset).dev = 1 ∧ (ld 1 LoadSt.reset).pwr.mode ∈ [2, 3, 4] ∧ (ld 1 LoadSt.reset).on F.CFG_ERR_VALID = false ∧
      (ld 1 LoadSt.reset).fwOk ⟨0, 0, 196608, some 0, 0⟩ = true ∧ (ld 1 LoadSt.reset).fwOk ⟨0, 0, 196609, some 0, 0⟩ = false) ∧
    (let d := ld 2 { LoadSt.reset with sel := true }
     let h := readHdr hd3
     d.hdrCode (readHdr (hd 1 32 0 136 [rgn 3] [])) 0 ≠ 0 ∧ d.hdrCode h 0 = 0 ∧ d.hdrFits h = true ∧ d.planOk h = true ∧
     d.hdrCode (readHdr (hd 0 33 0 136 [rgn 3] [])) 0 = 0 ∧ d.hdrFits (readHdr (hd 0 33 0 136 [rgn 3] [])) = false ∧ h.regions = [en3] ∧ d.quarHas 1 3 = false) ∧
    (let d := ((ld 2 { LoadSt.reset with sel := true }).put (F.PIN_BANK_STAT_VCCIO_OK 0) 1).setClaim 0 1
     let h := readHdr (hd 0 32 0 136 [rgn 3] [List.replicate 7 0 ++ [1] ++ List.replicate 8 0])
     d.hdrCode h 0 = 0 ∧ d.hdrFits h = true ∧ d.planOk h = false) ∧
    (let d := ld 2 afterHd
     let h := readHdr hd3
     d.load.hdr = some h ∧ d.load.body + 136 ≤ h.bodyLen ∧ h.bodyLen < 129 + 8 ∧ d.load.blk = 0 ∧ d.load.body ≠ h.bodyLen ∧
     min h.bodyLen (65536 * (d.load.blk + 1)) = 136 ∧ 65536 * d.load.blk < h.bodyLen ∧ 8 ≠ d.load.want ∧ 9 = d.load.want ∧ h.encrypted = false ∧
     ({ afterHd with body := 136, recs := [(136, .frames fa3 [2 ^ 1023])] } : LoadSt).body = h.bodyLen ∧
     (let g := recList (.frames fa3 [2 ^ 1023])
      g.length = 1 ∧ ∀ f ∈ g, d.frameCode h f.1 f.2.1 f.2.2 = 0 ∧ faDie f.1 = d.idn.die ∧ faPos f.1 = 3 ∧ faRow f.1 = 0 ∧ f.2.1 = 320) ∧
     (∀ f ∈ recList (.zero (fa3 + 45 * 2 ^ 20) 1), d.frameCode h f.1 f.2.1 f.2.2 ≠ 0) ∧
     d.load.place.get (fun _ => 0) 3 = 3 + 1 ∧ h.bodyLen ≤ 65536 * 1 ∧ d.load.list = [en3] ∧ en3.region < 1408 ∧ d.regionOn 3 = true) ∧
    ((readHdr (hd 0 32 2 136 [rgn 3] [])).encrypted = true ∧ (ld 2 afterHd).tagRight (readHdr (hd 0 32 2 136 [rgn 3] [])) 0 none = false) ∧
    ({ LoadSt.reset with teamDue := true, sel := true } : LoadSt).teamDue = true ∧
    ((ld 2 LoadSt.reset).put (F.DMC_STAT_STATE 0) 2).chReady 0 = true ∧ (ld 2 LoadSt.reset).chReady 0 = false ∧
    ((ld 2 LoadSt.reset).now ≤ (ld 2 LoadSt.reset).load.lastAt + 1000000000 ∧ (ld 2 LoadSt.reset).nvmMode = false ∧
      (ld 2 LoadSt.reset).load.teamWait = false ∧ 0 + 1000000000 < ({ ld 2 LoadSt.reset with now := 1000000001 } : DieSt).now) := by
  and_intros <;> decide +kernel

/-- Die 0 in `st`, with a bench of row 0 in state `b`, home 3 and bench 10 in the arguments, and load state `l`. -/
def cm (st b : Nat) (l : LoadSt) : DieSt :=
  { ((((((live.put F.PWR_STATE_STATE st).put (F.RGN_STAT_STATE 10) b).wr R.CFG_ARG0 (BitVec.ofNat 32 (10 * 65536 + 3))).wr R.CFG_ARG2 1).put
      F.REF_KEYS_PROG 1).put F.CFG_STAT_STORE_OK 1).put (F.DMC_STAT_STATE 0) 2 with
    load := l, fuse := { live.fuse with sigKey := Tab.empty.set (fun _ => none) 0 (some 77) } }

/-- A partial personality whose body is one record. -/
def part (b : BodyRec) : PartImg := ⟨hd 1 32 0 8 [rgn 0] [], false, true, [], [b]⟩

theorem wit_LoaderCommandsReadBackAndKickoff :
    (let d := cm 4 1 LoadSt.reset
     (on0 d).has .die0 d ∧ d.load.caller = none ∧ (on0 d).takes .die0 d .referee R.CFG_CMD) ∧
    (let d := cm 4 1 LoadSt.reset
     d.load.pload = none ∧ d.load.commit = none ∧ d.dev = 4 ∧ (cm 3 1 LoadSt.reset).dev ≠ 4 ∧ d.restarting = false ∧
     (d.rd R.CFG_ARG0).toNat % 2048 = 3 ∧ (d.rd R.CFG_ARG0).toNat / 65536 % 2048 = 10 ∧ isBench 10 = true ∧ isBench 1407 = true ∧ isBench 1406 = false ∧
     (d.rd R.CFG_ARG1).toNat % 64 = 0 ∧ (d.rd R.CFG_ARG2).toNat % 2 ^ 24 ≠ 0 ∧ d.rgState 10 = 1 ∧ d.regionOn 10 = true ∧ 3 / 44 = 10 / 44 ∧
     (cm 4 4 LoadSt.reset).rgState 10 ≠ 1 ∧ d.on F.CFG_ERR_VALID = false ∧ d.rel.pair.get (fun _ => 0) 3 = 0) ∧
    (let d := cm 4 3 { LoadSt.reset with scratch := [(3, 10)] }
     let e : DieSt := { ((d.put (F.RGN_STAT_STATE 3) 4).put (F.RGN_STAT_AT 3) 3) with
       fab := { d.fab with design := Tab.empty.set (fun _ => Design.reset) 3 (planOf false) } }
     let f : DieSt := { ((e.setEng 3 { SeSt.reset with mode := .frozen }).setRing 3 3).put F.SUB_STAT_STEP 2 |>.put F.SUB_STAT_KIND 5 with
       load := { e.load with commit := some [(3, 10)] } }
     d.rgState 10 = 3 ∧ (3, 10) ∈ d.load.scratch ∧ d.f F.SUB_STAT_STEP = 0 ∧ d.rel.todo = [] ∧ d.pwr.going = none ∧ d.commitFreeze = false ∧
     (d.put F.SUB_STAT_STEP 2).f F.SUB_STAT_STEP ≠ 0 ∧ (d.put F.SUB_STAT_STEP 2).commitFreeze = false ∧
     e.atOf 3 = some 3 ∧ e.rgState 3 = 4 ∧ 0 < (e.design 3).ring.length ∧ (e.ringCh 3 0).drain = false ∧
     (on0 f).pending = [] ∧ f.load.commit = some [(3, 10)] ∧ f.commitFreeze = true ∧ (f.atOf 3).all f.stillNow = true ∧
     (f.convergeNow 10).regionConverged 10 = true ∧ f.rel.todo = []) ∧
    (let d := ({ (cm 4 3 { LoadSt.reset with scratch := [(3, 10), (5, 21)] }) with rel := { RelSt.reset with pair := (Tab.empty.set (fun _ => 0) 3 6).set (fun _ => 0) 5 4 } } :
        DieSt).wr R.CFG_ARG1 (BitVec.ofNat 32 (21 * 65536 + 5))
     (d.rd R.CFG_ARG1).toNat % 2048 = 5 ∧ (d.rd R.CFG_ARG1).toNat / 65536 % 2048 = 21 ∧ d.rel.pair.get (fun _ => 0) 3 = 5 + 1 ∧
     d.rel.pair.get (fun _ => 0) 5 = 3 + 1 ∧ (5, 21) ∈ d.load.scratch ∧ isBench 21 = true) ∧
    (let d := (cm 4 2 { LoadSt.reset with pload := some (3, 10), sig := Tab.empty.set (fun _ => 0) 3 7, ploadAt := (0, 0, 64) }).put (F.DMC_CAP_SIZE 0) 1
     let ok := part (.zero (320 * 2 ^ 10) 1)
     let h := readHdr ok.hdr
     d.load.pload = some (3, 10) ∧ d.hdrCode h 1 = 0 ∧ d.hdrCode (readHdr (hd 0 32 0 8 [] [])) 1 ≠ 0 ∧ isPartial h = true ∧
     isPartial (readHdr (hd 1 32 8 8 [rgn 0] [])) = false ∧ h.pkg = d.idn.pkg ∧ h.met = false ∧ h.encrypted = false ∧ ok.digestOk = true ∧
     (h.regions.map (fun e => e.sig)).headD 0 = 6 ∧ d.load.sig.get (fun _ => 0) 3 = 6 + 1 ∧ d.on F.CFG_STAT_STORE_OK = true ∧
     d.chReady (d.f F.SUB_STORE_CH) = true ∧ d.chReady d.load.ploadAt.1 = true ∧ d.dramBad 0 0 = false ∧ ok.dramErr = false ∧
     (∀ f ∈ ok.body.flatMap (fun r => recList r), partialFrameCode f.1 f.2.1 f.2.2 = 0) ∧ (∀ r ∈ ok.body, recList r ≠ []) ∧
     (ok.body.map (fun r => recBytes r)).sum = h.bodyLen ∧
     (∀ f ∈ (part (.zero (2 ^ 20) 1)).body.flatMap (fun r => recList r), partialFrameCode f.1 f.2.1 f.2.2 ≠ 0)) ∧
    (let a := 3 * 2 ^ 20 + 767 * 2 ^ 10
     let d := (cm 4 1 LoadSt.reset).wr R.CFG_ARG0 (BitVec.ofNat 32 a)
     let a0 := (d.rd R.CFG_ARG0).toNat
     d.noRb = false ∧ ({ d with noRb := true } : DieSt).noRb = true ∧ a0 = a ∧ a0 % 1024 = 0 ∧ faDie a0 = d.idn.die ∧ faRow a0 < d.idn.rows ∧
     faPos a0 = 3 ∧ faIdx a0 = 767 ∧ d.regionOn 3 = true ∧ d.idn.twin = false) ∧
    (faPos (44 * 2 ^ 20 + 735 * 2 ^ 10) = 44 ∧ faIdx (44 * 2 ^ 20 + 735 * 2 ^ 10) = 735) ∧
    (let d := (cm 4 1 LoadSt.reset).wr R.CFG_ARG0 (BitVec.ofNat 32 (8 * 65536 + 3))
     (d.rd R.CFG_ARG0).toNat % 2048 = 3 ∧ (d.rd R.CFG_ARG0).toNat / 65536 % 16 = 8 ∧ d.ringState 3 ≠ 3 ∧ d.dev ≠ 6 ∧ (d.setRing 3 3).ringState 3 = 3 ∧
     (d.put F.PWR_STATE_STATE 6).dev = 6) ∧
    ((cm 4 1 LoadSt.reset).domOn 77 = true ∧ (cm 4 1 LoadSt.reset).dev ≠ 0 ∧ ((cm 5 1 LoadSt.reset).setDom 77 false).domOn 77 = false ∧
      ({ cm 1 1 LoadSt.reset with pwr := { PwrSt.reset with mode := 3 } } : DieSt).pwr.mode = 3 ∧ (cm 1 1 LoadSt.reset).dev ∈ [1, 2]) ∧
    (cm 4 1 LoadSt.reset).pwr.mode ≠ 5 ∧
    (let d : DieSt := { ((live.put F.PWR_STATE_STATE 2).put F.SLK_ID_VALID 1) with
       pwr := { live.pwr with mode := 5 }, load := { LoadSt.reset with dir := [4, 2, 0x23, 0x01, 0, 0, 0, 0, 2] ++ List.replicate 247 0 } }
     let e := (List.range 4).foldl (fun (e : DieSt) p => e.put (F.SLK_PORT_STAT_STATE p) 2) d
     e.pwr.mode = 5 ∧ e.dev = 2 ∧ e.on F.SLK_ID_VALID = true ∧ (∀ p : Fin 4, e.portSettled p = true) ∧
     e.sendEntry 0x123 [1, 2].length = some 0 ∧ e.sendEntry 0x123 [1].length = none) ∧
    (let d := (cm 3 1 LoadSt.reset).put F.CFG_KICK_WAIT 1
     d.dev = 3 ∧ d.on F.CFG_KICK_RISEN = false ∧ d.on F.PWR_STATE_RESUMED = false ∧ d.on F.CFG_KICK_KSYS = false ∧
     (d.put F.CFG_KICK_KSYS 1).on F.CFG_KICK_KSYS = true ∧ 0 < d.f F.CFG_KICK_WAIT ∧
     d.load.kickLate = false ∧ d.load.lineUpAt + d.f F.CFG_KICK_WAIT * 10000000 ≤ ({ d with now := 10000000 } : DieSt).now ∧
     ({ d with load := { d.load with kickLate := true } } : DieSt).load.kickLate = true) := by
  refine ⟨⟨⟨rfl, by decide⟩, rfl, rfl, by decide +kernel⟩, ?_⟩; and_intros <;> decide +kernel

/-! ### Witnesses: the Sweeper, repairs, Drill and the Career log -/

/-- Region 3 RUNNING at home with its ring in `ring`, and its engine in `md`; region 5 RUNNING at home; bench 10 in state `b`;
the image store on channel 0 holds the load. -/
def sw (st ring b : Nat) (md : SeMode) (l : RelSt) : DieSt :=
  { ((((((((live.put F.PWR_STATE_STATE st).put (F.RGN_STAT_STATE 3) 4).put (F.RGN_STAT_HOME 3) 3).put (F.RGN_STAT_STATE 5) 4).put
      (F.RGN_STAT_HOME 5) 5).put (F.RGN_STAT_STATE 10) b).put F.CFG_STAT_STORE_OK 1).put (F.DMC_STAT_STATE 0) 2).put F.SUB_CFG_EVQ_EN 0 with
    rel := l, se := Tab.empty.set (fun _ => SeSt.reset) 3 { SeSt.reset with mode := md } }.setRing 3 ring

/-- Homes 3 and 5 are a pair. -/
def prd (todo : List Repair) : RelSt :=
  { RelSt.reset with pair := (Tab.empty.set (fun _ => 0) 3 6).set (fun _ => 0) 5 4, todo := todo }

/-- A personality with no stage is ready on any bench; one with a stage is not while its cluster has no canary reading. -/
theorem wit_benchReady (d : DieSt) (b h : Nat) :
    (((d.loadRegion b h).design b).stages = [] → d.benchReady b h = true) ∧
    (∀ st, ((d.loadRegion b h).design b).stages = [st] → st.leader / 16 < 64 → (d.loadRegion b h).canaries b (st.leader / 16) = [] →
      d.benchReady b h = false) := by
  refine ⟨fun e => ?_, fun st e hs hq => ?_⟩
  · simp [DieSt.benchReady, DieSt.loadBench, DieSt.convergeNow, DieSt.regionConverged, DieSt.clusterConverged, DieSt.leaders, e]
  · have hc : d.loadBench b h = d.loadRegion b h := by simp [DieSt.loadBench, DieSt.convergeNow, e, hq]
    rw [DieSt.benchReady, hc, DieSt.regionConverged, List.all_eq_false]
    exact ⟨st.leader / 16, List.mem_range.mpr hs, by simp [DieSt.clusterConverged, DieSt.leaders, e, DieSt.leaderDone, hq]⟩

theorem wit_SweeperPairsAndRepairs :
    (let d := sw 4 1 1 .run RelSt.reset
     (on0 d).has .die0 d ∧ d.idn.rows ≤ 32 ∧ d.domOn 74 = true ∧ d.on F.SUB_CFG_EVQ_EN = false ∧ d.load.commit = none ∧
     d.hasRegion 1407 = true ∧ d.hasRegion 1408 = false ∧ (d.put F.SWP_STAT_RESTARTING 1).on F.SWP_STAT_RESTARTING = true ∧
     (d.put (F.RGN_STAT_STATE 1407) 2).rgState 1407 ∉ [1, 3, 4, 6, 7] ∧ 1016 + 8 ≤ 1024) ∧
    (let d := (sw 4 1 1 .run { RelSt.reset with next := Tab.empty.set (fun _ => 0) 3 319 }).put F.SUB_CFG_AUTO 1
     d.regionOn 3 = true ∧ d.rgState 3 = 4 ∧ d.ringState 3 = 1 ∧ d.on F.SWP_STAT_RESTARTING = false ∧ d.rel.next.get (fun _ => 0) 3 = 319 ∧
     Nat.xor (d.flips 3 319) 0 % 2 ^ 1096 = 0 ∧ bit (Nat.xor (d.flips 3 319) 257 % 2 ^ 1096) 0 = true ∧ bit (Nat.xor (d.flips 3 319) 257 % 2 ^ 1096) 8 = true ∧
     d.dev ∈ [3, 4, 6] ∧ d.rgState 3 ∈ [3, 4] ∧ d.f (F.RGN_STAT_HOME 3) = 3 ∧ d.nowAt (3 / 44 * 44 + 3) = 3 ∧ d.mateHome 3 = none ∧
     d.on F.SUB_CFG_AUTO = true ∧ d.f F.SUB_STAT_STEP = 0 ∧ d.rel.todo = [] ∧ d.rel.rdMiss.get (fun _ => 0) 3 < 2 ∧
     (d.rel.coordAt.filter (fun a => decide (d.now + 1 < a + 1000000000))).length < 2 ∧ d.dev ≠ 0 ∧ d.dev ≠ 5 ∧ (sw 5 1 1 .run RelSt.reset).dev ∉ [3, 4, 6] ∧
     d.benches (3 / 44) = [10] ∧ d.subFree = true ∧ (d.eng (d.nowAt 3)).mode = .run ∧ (d.put (F.RGN_STAT_STATE 10) 4).benches (3 / 44) = [] ∧
     d.load.pload = none ∧ d.partner 3 = none ∧ d.nowAt 3 = 3) ∧
    ({ RelSt.reset with rdMiss := Tab.empty.set (fun _ => 0) 1407 2 } : RelSt).rdMiss.get (fun _ => 0) 1407 = 2 ∧
    (let d : DieSt := { sw 4 1 1 .run { RelSt.reset with coordAt := [1, 2] } with now := 1000000000 }
     (on0 d).subBusy = false ∧ (on0 d).paired ∧ d.pwr.going = none ∧ d.dev = 4 ∧
     (d.rel.coordAt.filter (fun a => decide (d.now + 1 < a + 1000000000))).length = 1 ∧
     (d.rel.coordAt.filter (fun a => decide (999999999 + 1 < a + 1000000000))).length = 2) ∧
    (let d := (sw 4 1 1 .run (prd [])).put F.SUB_EVT_EN_PAIR 1
     d.mateHome 3 = some 5 ∧ d.rgState (d.nowAt 5) = 4 ∧ d.on F.SUB_EVT_EN_PAIR = true ∧ d.rel.todo = [] ∧ d.partner 3 = some 5 ∧ d.partner 5 = some 3 ∧
     (sw 4 1 1 .run { prd [] with single := [3] }).partner 3 = some 5 ∧ (sw 4 1 1 .run { prd [] with single := [3] }).rel.single = [3] ∧
     ((sw 4 1 1 .run { prd [] with single := [3] }).eng 5).mode ≠ .frozen) ∧
    (let d := (((sw 4 1 1 .run (prd [.check 3 5 8])).put F.SUB_EVT_EN_PAIR 1).put F.SUB_STAT_STEP 1).put F.SUB_STAT_KIND 1
     d.rel.todo = [.check 3 5 8] ∧ d.f F.SUB_STAT_STEP = 1 ∧ d.f F.SUB_STAT_KIND = 1 ∧ d.nowAt 3 = 3 ∧ d.nowAt 5 = 5 ∧ d.homeOf 3 = 3 ∧ d.homeOf 5 = 5 ∧
     ¬ (8 < d.rel.found.get (fun _ => 0) (d.nowAt 5)) ∧ d.rel.flip = Tab.empty ∧
     8 < ({ d.rel with found := Tab.empty.set (fun _ => 0) 3 9 } : RelSt).found.get (fun _ => 0) (d.nowAt 3)) ∧
    (let d := ((((sw 4 3 1 .frozen { prd [.copy 3] with single := [] }).put F.SUB_CFG_AUTO 1).put F.SUB_STAT_STEP 2).put F.SUB_STAT_HOME 3).put F.SUB_STAT_BENCH 10
     let e := ({ (d.put F.SUB_STAT_KIND 1) with se := d.se.set (fun _ => SeSt.reset) 5 { SeSt.reset with mode := .frozen } } : DieSt).setRing 5 3
     isBench 10 = true ∧ d.rel.aborts = 0 ∧ e.f F.SUB_STAT_KIND = 1 ∧ e.rel.todo = [.copy 3] ∧ e.partner 3 = some 5 ∧ e.nowAt 5 = 5 ∧ e.rgState 5 = 4 ∧
     e.subFrozen 3 (some 5) = true ∧ e.storeUp = true ∧ e.on F.SUB_ERR_VALID = false ∧ d.subFrozen 3 none = true ∧ d.on F.SUB_CFG_AUTO = true) ∧
    (let d := sw 4 3 1 .frozen { RelSt.reset with todo := [.fresh 3] }
     d.rel.todo = [.fresh 3] ∧ d.subFrozen 3 none = true ∧ d.storeUp = true ∧ (d.put F.CFG_STAT_STORE_OK 0).storeUp = false) := by
  refine ⟨⟨⟨rfl, by decide +kernel⟩, ?_⟩, ?_⟩; and_intros <;> decide +kernel
  refine ⟨?_, ?_, ?_, ?_⟩
  rotate_left 2
  · exact ⟨by decide +kernel, ⟨by decide +kernel, .inl rfl⟩, by and_intros <;> decide +kernel⟩
  all_goals and_intros <;> decide +kernel

/-- Row 0's Drill enabled, at position 3. -/
def dr (st ring b : Nat) (md : SeMode) (l : RelSt) : DieSt :=
  (((((sw st ring b md l).put F.SUB_DRILL_CFG_EN 1).put F.SUB_DRILL_CFG_PACE 1).put F.SUB_DRILL_ROWS_EN 1).put (F.RGN_STAT_STATE 21) 1).put F.SUB_EVT_EN_DRILL 1

theorem wit_DrillFullTimeTestAndCareerLog :
    (let d := dr 4 1 1 .run RelSt.reset
     (on0 d).has .die0 d ∧ d.idn.rows ≤ 32 ∧ d.domOn 74 = true ∧ d.on F.SUB_CFG_EVQ_EN = false ∧ d.load.commit = none ∧ 0 < d.idn.rows) ∧
    (let d : DieSt := { dr 4 1 1 .run { RelSt.reset with drillPos := Tab.empty.set (fun _ => 0) 0 3 } with now := 60000000000 }
     d.dev = 4 ∧ d.on F.SUB_DRILL_CFG_EN = true ∧ bit (d.f F.SUB_DRILL_ROWS_EN) 0 = true ∧ d.rel.drillOn.get (fun _ => 0) 0 = 0 ∧
     d.rel.drillAt.get (fun _ => 0) 0 + max 1 (d.f F.SUB_DRILL_CFG_PACE) * 60000000000 ≤ d.now ∧ d.rel.drillBad.get (fun _ => 0) 0 = 0 ∧
     (∀ p : Fin 44, d.rgState (44 * 0 + p) ≠ 6) ∧ d.rel.drillPos.get (fun _ => 0) 0 = 3 ∧ d.regionOn 3 = true ∧ d.rgState 3 = 4 ∧
     d.f (F.RGN_STAT_HOME 3) ≠ 63 ∧ (d.put (F.RGN_STAT_STATE 3) 1).rgState 3 = 1 ∧ (d.put (F.RGN_STAT_STATE 0) 6).rgState (44 * 0 + 0) = 6 ∧
     d.storeUp = true ∧ (d.put F.CFG_STAT_STORE_OK 0).storeUp = false) ∧
    (let d := dr 4 1 1 .run { RelSt.reset with drillOn := Tab.empty.set (fun _ => 0) 0 4, drillDue := Tab.empty.set (fun _ => false) 0 true }
     d.rel.drillOn.get (fun _ => 0) 0 = 3 + 1 ∧ d.rel.todo = [] ∧ d.rel.drillDue.get (fun _ => false) 0 = true ∧ d.homeOf 3 = 3 ∧ d.nowAt 3 = 3 ∧
     d.partner 3 = none ∧ d.mateHome 3 = none ∧ d.subFree = true ∧ d.inWindow = true ∧ d.benches 0 = [10, 21] ∧
     ((d.put (F.RGN_STAT_STATE 21) 4).benches 0).length < 2 ∧ (d.eng 3).mode = .run) ∧
    (let d := ((((dr 4 3 1 .frozen { RelSt.reset with drillOn := Tab.empty.set (fun _ => 0) 0 4, drillDue := Tab.empty.set (fun _ => false) 0 true }).put
       F.SUB_STAT_STEP 2).put F.SUB_STAT_KIND 3).put F.SUB_STAT_HOME 3).put F.SUB_STAT_BENCH 10
     d.f F.SUB_STAT_STEP = 2 ∧ d.f F.SUB_STAT_KIND = 3 ∧ d.f F.SUB_STAT_HOME = 3 ∧ d.f F.SUB_STAT_BENCH = 10 ∧ isBench 10 = true ∧
     d.subFrozen 3 none = true ∧ d.rel.aborts = 0) ∧
    (let d := (dr 4 1 1 .run { RelSt.reset with
        drillOn := Tab.empty.set (fun _ => 0) 0 4, drillHome := Tab.empty.set (fun _ => none) 0 (some 3) }).put (F.RGN_STAT_STATE 3) 1
     d.rel.drillDue.get (fun _ => false) 0 = false ∧ d.regionOn 3 = true ∧ d.rgState 3 = 1 ∧ d.rel.drillHome.get (fun _ => none) 0 = some 3 ∧
     d.on F.SUB_EVT_EN_DRILL = true ∧ d.quar.recs.length < 4094 ∧ RelSt.reset.drillHome.get (fun _ => none) 0 = none) ∧
    (let l : RelSt := { RelSt.reset with drillOn := Tab.empty.set (fun _ => 0) 0 4, drillHome := Tab.empty.set (fun _ => none) 0 (some 3) }
     let d := ((((dr 4 1 4 .run { l with drillBack := Tab.empty.set (fun _ => false) 0 true }).put (F.RGN_STAT_STATE 3) 1).put (F.RGN_STAT_AT 3) 10).put (F.RGN_STAT_HOME 10) 3)
     let e (r : Nat) (md : SeMode) : DieSt := { d.setRing 10 r with se := Tab.empty.set (fun _ => SeSt.reset) 10 { SeSt.reset with mode := md } }
     let g := ((((e 3 .frozen).put F.SUB_STAT_STEP 2).put F.SUB_STAT_KIND 4).put F.SUB_STAT_HOME 3).put F.SUB_STAT_BENCH 3
     d.nowAt 3 = 10 ∧ d.rgState 10 = 4 ∧ (e 1 .run).subFree = true ∧ ((e 1 .run).eng 10).mode = .run ∧ d.mateHome 3 = none ∧
     g.subFrozen 3 none = true ∧ g.f F.SUB_STAT_BENCH = 3 ∧ g.f F.SUB_STAT_KIND = 4) ∧
    (let d := dr 7 1 1 .run RelSt.reset
     (on0 d).d1.idn.absent = true ∧ d.dev = 7 ∧ d.f F.FTT_STAT_RESULT = 0 ∧ d.pwr.going = none ∧ d.pwr.ftAt = 0 ∧ max 1 (d.f F.FTT_CFG_LIMIT) = 100 ∧
     0 + 100 * 100000000 ≤ ({ d with now := 10000000000 } : DieSt).now ∧ Nat.lor (4 % 8) (if d.on F.FTT_CFG_EN then 0 else 8) ≠ 0 ∧
     (twin d (d.put F.FTT_STAT_RESULT 1)).d1.fttOver = true ∧ (twin d d).d1.fttOver = false ∧ (twin d d).d1.idn.absent = false ∧
     (on0 (dr 4 1 1 .run RelSt.reset)).d0.dev ≠ 7) ∧
    (let d := dr 4 1 1 .run RelSt.reset
     d.hasRegion 1407 = true ∧ d.hasRegion 1408 = false ∧ d.quar.recs.length + 1 ≤ 4094 ∧
     d.serving = true ∧ DieSt.reset.serving = false ∧ d.rel.carAt + 900000000000 ≤ ({ d with now := 900000000000 } : DieSt).now ∧
     d.on F.CAR_ERR_VALID = false ∧ d.writeCheck .referee R.CAR_CMD 4 = .ok ∧ ({ d with pwr := { d.pwr with good := true } } : DieSt).pwr.good = true ∧
     ((-41 : Int) + 40) / 10 = -1 ∧ ((119 : Int) + 40) / 10 = 15) := by
  refine ⟨⟨⟨rfl, by decide +kernel⟩, ?_⟩, ?_⟩; and_intros <;> decide +kernel
  and_intros <;> decide +kernel

/-! ### Witnesses: Referee calls -/

/-- A Team image that allows every call, local and remote. -/
def img : TeamImg := ⟨1, [], 0, 0, 2 ^ 256 - 1, 2 ^ 256 - 1, 1, 77, true⟩

/-- Slot 7 asks `code` of `d` with arguments `as`; a Team image runs. -/
def cl (d : DieSt) (code : Nat) (as : List Nat) : DieSt :=
  let e := ((List.range as.length).foldl (fun (d : DieSt) k => d.wr (R.MBX_ARG 7 k) (BitVec.ofNat 32 (nth 0 as k)))
    ((d.put (F.MBX_RES_STATE 7) 1).put (F.MBX_CALL_CODE 7) code))
  { e with ref := { e.ref with order := [7], team := some img } }

/-- The same die of a part with 16 rows in F2112. -/
def small (d : DieSt) : DieSt := { d with idn := { d.idn with part := .tsl8620F2112 } }

/-- The call is next and allowed. -/
def goes (d : DieSt) (code : Nat) : Bool := d.callNext (.slot 7) code && d.policyAllows (.slot 7) code

/-- Each listed call comes next and is allowed; with no image running none is allowed; before SERVING none is next. -/
theorem wit_calls_goNext : (on0 (cl live 0 [])).has .die0 (cl live 0 []) ∧ callCodes.all (fun c => goes (cl live c []) c) = true ∧
    ({ cl live 0 [] with ref := { (cl live 0 []).ref with team := none } } : DieSt).policyAllows (.slot 7) 0 = false ∧
    ((cl live 0 []).put F.REF_STAT_STATE 2).callNext (.slot 7) 0 = false := by
  refine ⟨⟨rfl, by decide +kernel⟩, ?_⟩; and_intros <;> decide +kernel

/-- Arguments that pass the checks of each clause, at the edges of their ranges. -/
theorem wit_CallsOnClaimsPinsQueuesAndAdmissions :
    (let t := (cl live 3 [0x8FF]).callTake (.slot 7)
     t.arg (.slot 7) 0 = 0x8FF ∧ isResource 0x8FF = true ∧ t.hasResource 0x8FF = true ∧ isResource 0x900 = false ∧ t.claim 0x8FF = 0 ∧
     t.held 0x8FF = false ∧ (t.setClaim 0x8FF (2 * 2 ^ 28)).claim 0x8FF = 2 * 2 ^ 28 ∧
     (small t).hasResource 0x240 = false) ∧
    (let t := (cl (live.put (F.PIN_CFG_OWNER 959) 1) 0x10 [959, 0x41000000, 0]).callTake (.slot 7)
     t.arg (.slot 7) 0 = 959 ∧ t.arg (.slot 7) 1 = 0x41000000 ∧ 959 < t.pins ∧ t.pins ≤ 0x3C0 ∧ t.pinAbsent 0x41000000 = false ∧ cfgOwner 0x41000000 = 1 ∧
     t.pinRule 959 0x41000000 = true ∧ t.pinRule 959 0x41000100 = false ∧ t.pinSealed (t.rd (R.PIN_CFG 959)) 0x41000000 = false ∧
     t.f (F.PIN_CFG_OWNER 959) = 1 ∧ ((cl live 0x10 []).callTake (.slot 7)).f (F.PIN_CFG_OWNER 959) ≠ 1 ∧ pinUses 0x41000000 = none ∧
     t.mine 959 = true ∧ t.held 959 = false ∧ (t.hold (.slot 7) 959).held 959 = true ∧ t.pinMisfit 959 0x41000000 = false ∧
     t.pinMisfit 959 0x41000100 = true ∧ cfgOwner 0x81000000 = 2 ∧ 959 < 0x3C0 ∧ (small t).pins ≤ 0x3BF ∧ t.pinsLive = true ∧
     ((t.put F.PWR_STATE_STATE 3).pinsLive = false ∧ (t.put F.PWR_STATE_STATE 3).on (F.PIN_CFG_SWITCHING 959) = false) ∧
     (let e := (t.put F.MET_STAT_SEALED 1).wr (R.PIN_CFG 80) 0xC3000000
      e.pinMisfit 80 0x41000000 = false ∧ e.pinAbsent 0x41000000 = false ∧ e.pinSealed (e.rd (R.PIN_CFG 80)) 0x41000000 = true)) ∧
    (let t := (cl (live.put (F.PIN_CFG_OWNER 80) 1) 0x11 [80, 3 + 3 * 2 ^ 24]).callTake (.slot 7)
     let u : Word := 0xC3000000
     t.pinMisfit 80 u = false ∧ t.pinAbsent u = false ∧ (small t).pinAbsent u = true ∧ cfgOwner u = 3) ∧
    (let t := (cl live 0x11 [959, 0x41000000]).callTake (.slot 7)
     let u : Word := BitVec.ofNat 32 (0x41000000 % 4 * 2 ^ 30 + bits 0x41000000 27 24 * 2 ^ 24 + bits 0x41000000 15 8 * 2 ^ 8)
     t.pinAbsent u = false ∧ cfgOwner u ≠ 2 ∧ t.pinMisfit 959 u = false ∧ t.held 959 = false ∧ t.pinSealed (t.rd (R.PIN_CFG 959)) u = false ∧ t.claim 959 = 0 ∧
     t.f (F.PIN_CFG_OWNER 959) ≠ 2 ∧ (t.setClaim 959 1).claim 959 ≠ 0 ∧ (t.put F.MET_STAT_SEALED 1).pinSealed 0xC3000000 u = true) ∧
    (let t := (cl live 0x12 [79, 0x20000000, 0]).callTake (.slot 7)
     t.arg (.slot 7) 0 = 79 ∧ bits (0x20000000 : Word).toNat 29 27 = 4 ∧ 4 < bits (0x28000000 : Word).toNat 29 27 ∧ 79 / 4 < t.idn.banks ∧ t.mine (0x500 + 79) = true) ∧
    (let t := (cl live 0x20 [63, 0x86030100, 0, 0]).callTake (.slot 7)
     t.arg (.slot 7) 1 = 0x86030100 ∧ qCfgReserved 0x86030100 = false ∧ (qEndOf 0x86030100 true).1 ≠ 4 ∧ t.qEndAbsent 0x86030100 = false ∧ t.hubOn = true ∧
     t.qEndTaken 63 0x86030100 true = false ∧ t.qEndTaken 63 0x86030100 false = false ∧ (t.qConfigure 63 0x86030100 0 0).isSome = true ∧
     t.held (0x600 + 63) = false ∧ qEndClaim 0x86030100 (2 * 2 ^ 28) true = 2 * 2 ^ 28 ∧ qEndClaim 0x86030100 (2 * 2 ^ 28) false = 2 * 2 ^ 28 ∧
     t.claim (0x600 + 63) = 0 ∧ t.claim (0x640 + 63) = 0 ∧ qEndOf 0x86030100 true ≠ qEndOf (t.rd (R.Q_CFG 63)).toNat true ∧
     qEndClaim 0x80020100 (2 * 2 ^ 28) true = 0 ∧ qEndClaim 0x80020100 (2 * 2 ^ 28) false = 0 ∧ (t.qConfigure 63 0x80020100 0 0).isSome = true ∧
     qCfgReserved 0x80020100 = false ∧ t.qEndAbsent 0x80020100 = false ∧ t.qEndTaken 63 0x80020100 true = false ∧ t.qEndTaken 63 0x80020100 false = false ∧
     t.servesExpress 63 = false ∧
     (t.put (F.Q_CFG_EN 63) 0).qIdle 63 = true ∧ (t.setQue 63 { QSt.reset with words := [QWord.reset] }).qIdle 63 = false ∧
     (((t.put (cF 40959 0 31 28) 1).put (cF 40959 0 18 18) 1).put (cF 40959 1 29 24) 63).servesExpress 63 = true) ∧
    (let t := (cl live 0x22 [15, 15]).callTake (.slot 7)
     t.arg (.slot 7) 0 = 15 ∧ bits 15 31 29 = 0 ∧ bits 15 5 0 < 16 ∧ t.mine (0x680 + 15) = true ∧ (t.setClaim 0x68F 7).mine (0x680 + 15) = false ∧
     t.on (F.CRC_SCAN_STAT_BUSY 15) = false ∧ t.held (0x680 + 15) = false) := by
  and_intros <;> decide +kernel

/-- A stopped resident context whose group has one engine; a channel READY with a port open; a Sunislink channel open. -/
theorem wit_CallsOnClaimsPinsQueuesAndAdmissions_admissions :
    (let t := (cl (((((cxd 1 1).put (F.Q_CFG_PINNED 0) 1).put (cF 40959 8 23 0) 1).put (F.RGN_STAT_STATE 0) 4).put (F.SE_CFG_POOLED 0) 1) 0x30 [40959]).callTake (.slot 7)
     t.arg (.slot 7) 0 = 40959 ∧ (let r := (t.descRead 40959).1
       r.xShort = false ∧ r.rosOn = true ∧ r.cst 40959 = cStopped ∧ r.ctxChecks 40959 = 0 ∧ r.cResident 40959 = true ∧ r.cRunMax 40959 ≠ 0 ∧
       r.expressQueues 40959 = true ∧ r.grpWx (r.cGroup 40959) ≤ 512 ∧ r.grpWy (r.cGroup 40959) ≤ 512 ∧ r.slotFor 40959 = some 0 ∧
       (r.ctxArm 40959).2 = 0 ∧ r.cAdmitted 40959 = false) ∧ ((t.put (cF 40959 0 18 18) 1).descRead 40959).1.cAdmitted 40959 = true ∧
     ((t.wr (R.XING_CFG 7) 999).descRead 40959).1.xShort = true ∧ t.xShort = false ∧ (t.wr (R.XING_CFG 7) 999).xShort = true ∧ t.rosOn = true ∧ (cxd 2 1).cst 40959 ≠ cStopped ∧ t.cst 40959 = cStopped ∧ t.ctxChecks 40959 = 0 ∧ t.cResident 40959 = true ∧
     t.cRunMax 40959 ≠ 0 ∧ t.expressQueues 40959 = true ∧ t.grpWx (t.cGroup 40959) ≤ 512 ∧ t.grpWy (t.cGroup 40959) ≤ 512 ∧
     t.slotFor 40959 = some 0 ∧ (t.ctxArm 40959).2 = 0 ∧ t.ros.release = none ∧ t.cAdmitted 40959 = false ∧
     ((t.put (cF 40959 0 18 18) 1).cAdmitted 40959 = true)) ∧
    (let t := (cl (((live.put (F.DMC_STAT_STATE 3) 2).put (F.DMC_PORT_CFG_EN 3 7) 1).put (F.DMC_CFG_BIN 3) 0) 0x32 [0x73, 255, 16, 31]).callTake (.slot 7)
     t.xShort = false ∧ (t.wr (R.XING_CFG 6) 0x10009).xShort = true ∧ t.arg (.slot 7) 0 % 4 = 3 ∧ t.arg (.slot 7) 0 / 16 % 8 = 7 ∧ t.arg (.slot 7) 1 = 255 ∧ t.arg (.slot 7) 2 = 16 ∧ t.arg (.slot 7) 3 = 31 ∧ 3 < t.idn.ddr ∧
     t.chReady 3 = true ∧ t.on (F.DMC_PORT_CFG_EN 3 7) = true ∧ t.mine (0x740 + 8 * 3 + 7) = true ∧ t.dramLimit 3 = 180 ∧
     t.dramSum 3 7 (fun i => t.f (F.DMC_PORT_CFG_RATE 3 i)) + 180 ≤ t.dramLimit 3 ∧ t.dramSum 3 7 (fun i => t.f (F.DMC_PORT_CFG_CREDITS 3 i)) + 16 ≤ 16 ∧
     t.dramLimit 3 < t.dramSum 3 7 (fun i => t.f (F.DMC_PORT_CFG_RATE 3 i)) + 255 ∧ (t.put (F.DMC_PORT_CFG_CLASS 3 7) 0).f (F.DMC_PORT_CFG_CLASS 3 7) = 0) ∧
    (let t := (cl (live.put (F.SLK_CHAN_CFG_EN 255) 1) 0x34 [255, 64]).callTake (.slot 7)
     t.xShort = false ∧ (t.wr (R.XING_CFG 1) 1).xShort = true ∧ (t.wr (R.XING_CFG 2) 0).xShort = false ∧ t.arg (.slot 7) 0 % 256 = 255 ∧ bit (t.arg (.slot 7) 0) 8 = false ∧ t.on (F.SLK_CHAN_CFG_EN 255) = true ∧ t.on (F.SLK_CHAN_CFG_EN 254) = false ∧
     t.on (F.SLK_CHAN_CFG_DIR 255) = false ∧ t.mine (0x800 + 255) = true ∧
     t.slkSum (t.route (t.f (F.SLK_CHAN_CFG_DEST 255))).1 255 64 + 64 ≤ 64 ∧ 64 < t.slkSum (t.route (t.f (F.SLK_CHAN_CFG_DEST 255))).1 255 64 + 65 ∧
     (t.put (F.SLK_CHAN_CFG_CLASS 255) 0).f (F.SLK_CHAN_CFG_CLASS 255) = 0) ∧
    (let t := (cl ((live.put (F.Q_CFG_PINNED 63) 1).put (F.Q_CFG_RSNK 63) 5) 0x34 [256 + 63, 64]).callTake (.slot 7)
     t.xShort = false ∧ t.arg (.slot 7) 0 % 256 = 63 ∧ bit (t.arg (.slot 7) 0) 8 = true ∧ t.hubOn = true ∧ t.on (F.Q_CFG_PINNED 63) = true ∧ t.f (F.Q_CFG_RSNK 63) = 5 ∧
     t.mine (0x640 + 63) = true ∧ t.slkSum (t.f (F.Q_CFG_RSEL 63)) 256 63 + 64 ≤ 64 ∧
     ({ t with slkAdm := t.slkAdm.set (fun _ => 0) 63 1 } : DieSt).slkAdm.get (fun _ => 0) 63 ≠ 0) := by
  and_intros <;> decide +kernel

theorem wit_CallsToTheLoaderPowerTeamAndFuses :
    (∀ c ∈ ([0x40, 0x41, 0x43, 0x44] : List Nat),
      let t := (cl live c [1407 * 65536 + 1402, 0, 1]).callTake (.slot 7)
      let a := (cl live 0x43 [31 * 2 ^ 26]).callTake (.slot 7)
      t.loaderAbsent (.slot 7) c = false ∧ (c = 0x43 ∨ (small t).loaderAbsent (.slot 7) c = true) ∧ a.loaderAbsent (.slot 7) 0x43 = false ∧
      faRow (31 * 2 ^ 26) = 31 ∧ (small a).loaderAbsent (.slot 7) 0x43 = true) ∧
    (let d := cl live 0x40 []
     d.load.pload = none ∧ d.load.commit = none ∧ ({ d.load with pload := some (3, 10) } : LoadSt).pload.isSome = true) ∧
    (let t := ((cl live 0x40 [10 * 65536 + 3, 64, 1]).callTake (.slot 7))
     let e := ((t.wr R.CFG_ARG0 (BitVec.ofNat 32 (10 * 65536 + 3))).wr R.CFG_ARG1 64).wr R.CFG_ARG2 1
     e.ploadPre = 0 ∧ (e.wr R.CFG_ARG0 3).ploadPre = 4 ∧ (e.put F.PWR_STATE_STATE 3).ploadPre = 2 ∧ t.loaderAbsent (.slot 7) 0x40 = false ∧
     (({ e with load := { e.load with scratch := [(3, 10)] } } : DieSt).put (F.RGN_STAT_STATE 10) 3).commitPre false = 0 ∧
     (t.wr R.CFG_ARG0 (BitVec.ofNat 32 1024)).readbackPre = 0 ∧ ((t.wr R.CFG_ARG0 (BitVec.ofNat 32 3)).setRing 3 3).capturePre = 0 ∧
     ((({ t with noRb := true } : DieSt).wr R.CFG_ARG0 (BitVec.ofNat 32 3)).setRing 3 3).capturePre = 3) ∧
    (let t := (cl live 0x42 []).callTake (.slot 7)
     t.load.pload = none ∧ ({ t.load with pload := some (3, 10) } : LoadSt).pload = some (3, 10)) ∧
    (let t := (cl live 0x50 [2 ^ 31 + 63]).callTake (.slot 7)
     t.arg (.slot 7) 0 % 128 = 63 ∧ bits (t.arg (.slot 7) 0) 31 30 = 2 ∧ (t.domainOff 63).2 = 0 ∧ bits 63 31 30 = 0 ∧ bits (2 ^ 30 + 63) 31 30 = 1 ∧
     t.domCheck 63 = 0 ∧ t.pwr.domGoing = none ∧ t.domOn 63 = true ∧ (t.setDom 63 false).domOn 63 = false ∧ t.domBusy 63 = false ∧
     t.domCheck 76 = 4 ∧ (t.put F.PWR_STATE_STATE 1).domCheck 63 = 2 ∧ (small t).domCheck 63 = 3) ∧
    (let s := on0 (cl live 0x51 [1])
     s.d0.idn.absent = false ∧ s.d0.serving = true ∧ s.d0.pwr.going = none ∧ (Trig.fullTime 7 true).allowed s.d0.dev = true ∧
     Trig.halfTime.allowed s.d0.dev = true ∧ (Trig.recovery 13).allowed s.d0.dev = true ∧ Trig.resume.allowed s.d0.dev = false ∧ Trig.restart.allowed s.d0.dev = true ∧
     Trig.resume.allowed 6 = true ∧ (Trig.fullTime 7 true).allowed 7 = false ∧ (some Going.leave).isSome = true) ∧
    (let t := (cl ((live.put (F.DMC_STAT_STATE 0) 2).put (F.DMC_CAP_SIZE 0) 1) 0x60 [0x20000, 0, 0]).callTake (.slot 7)
     t.arg (.slot 7) 0 % 4096 = 0 ∧ bits (t.arg (.slot 7) 2) 31 30 = 0 ∧ 0 < t.idn.ddr ∧ t.chReady 0 = true ∧ t.nvmDenied 0 = true ∧
     t.nvmDenied 0x20000 = false ∧ (∀ k : Fin 64, t.dramBad 0 (64 * k) = false)) ∧
    (let d0 := cl (live.put F.REF_KEYS_PROG 1) 0x61 []
     let d : DieSt := { d0 with
       ref := { d0.ref with teamSlot := some 0, slotImg := Tab.empty.set (fun _ => none) 0 (some img), trialEnd := none }
       fuse := { d0.fuse with sigKey := Tab.empty.set (fun _ => none) 0 (some 77) } }
     d.ref.teamSlot = some 0 ∧ live.ref.teamSlot = none ∧ d.ref.trialEnd = none ∧ d.teamValid img = true ∧
     ({ d.ref with trialEnd := some 0 } : RefSt).trialEnd = some 0 ∧ 0 ≤ d.mt.toNat ∧ d.mt.toNat < 10000000000 ∧ d.slotImage (1 - d.sel.slot % 2) = none ∧ d.teamValid { img with sigOk := false } = false ∧ d.serving = true ∧ d.slotImage (d.sel.slot % 2) = some img) ∧
    (let d0 := cl live 0x80 [3 * 65536 + 1]
     let d : DieSt := { d0 with nvm := { d0.nvm with quarA := some ⟨0, 0, [⟨1, 0, 3, 0, 0⟩]⟩ }, rel := { d0.rel with fttRan := true } }
     let t := d.callTake (.slot 7)
     t.arg (.slot 7) 0 % 256 = 1 ∧ t.arg (.slot 7) 0 / 65536 / 2 ^ 15 = t.idn.die ∧ t.quarHas 1 3 = true ∧ t.rel.fttRan = true ∧
     t.rel.fttBad.contains (65536 + 3) = false ∧ live.rel.fttRan = false ∧ t.rowAbsent 3 = false ∧ t.quarHas 1 4 = false ∧ (small t).rowAbsent 1407 = true ∧
     (2 ^ 15 + 3) / 2 ^ 15 ≠ t.idn.die ∧ t.idn.twin = false ∧ ({ t with idn := { t.idn with part := .tsl8680T4096 } } : DieSt).idn.twin = true) ∧
    (let t := (cl (live.put F.PWR_SUP_STAT_VAUX 1) 0x64 [4096, 196608]).callTake (.slot 7)
     (on0 t).d1.idn.absent = true ∧ t.serving = true ∧ t.arg (.slot 7) 0 % 4096 = 0 ∧ t.arg (.slot 7) 1 = 196608 ∧ t.fwOk ⟨0, 0, 196608, some 0, 0⟩ = true ∧
     t.fwOk ⟨0, 65, 196608, some 0, 0⟩ = false ∧ t.on F.PWR_SUP_STAT_VAUX = true) ∧
    (let t := (cl (live.put F.REF_KEYS_PROG 5) 0x70 [3]).callTake (.slot 7)
     t.keyAuth ⟨9, none⟩ = false ∧ t.keyAuth ⟨9, some 2⟩ = true ∧ t.arg (.slot 7) 0 = 3 ∧ bit (t.f F.REF_KEYS_PROG) 2 = true ∧ bit (t.f F.REF_KEYS_PROG) 3 = false ∧
     bit (t.f F.REF_KEYS_REVOKED) 3 = false ∧ t.keyLive 2 = true ∧ (2 : Nat) ≠ 3 ∧ bit (t.f F.REF_KEYS_AES) 1 = false) := by
  and_intros <;> decide +kernel

/-- A call of die 1 that die 0 is to answer: forwarded while die 0 restarts, and waiting there. -/
theorem wit_forwarded :
    (let s := twin (live.put F.REF_STAT_STATE 2) (cl live 0x64 [])
     let d := s.die .die1
     s.has .die1 d ∧ s.d0.idn.absent = false ∧ s.d0.serving = false ∧ d.callNext (.slot 7) 0x64 = true ∧ d.policyAllows (.slot 7) 0x64 = true ∧
     (d.callForward (.slot 7)).callWaits (.slot 7) 0x64 = true ∧ (d.callForward (.slot 7)).callNext (.slot 7) 0x64 = false) ∧
    (on0 (cl live 0x64 [])).d0.serving = true := by
  refine ⟨⟨⟨rfl, by decide +kernel⟩, ?_⟩, by decide +kernel⟩; and_intros <;> decide +kernel

/-- A MGMT message of `code` from device 5. -/
def mgm (code : Nat) : SlkMsg := { slkMsg 0 2 1 code [] with src := 5 }

theorem wit_RemoteCallsAndRefereeRestart :
    (let d := cl live 0x90 []
     (on0 d).has .die0 d ∧ (on0 d).d1.idn.absent = true ∧ d.callNext (.slot 7) 0x90 = true ∧ d.policyAllows (.slot 7) 0x90 = true ∧ live.mgmtIn = [] ∧
     d.serving = true ∧ d.ref.team = some img ∧ callCodes.contains 0x84 = false ∧ callCodes.contains 0x83 = true ∧ neverRemote 0x83 = true ∧
     neverRemote 0x81 = false ∧ callCodes.contains 0x81 = true ∧ img.group ≠ 0 ∧ bit img.remote 0x81 = true ∧ (mgm 0x81).chan < 256 ∧
     16 ≤ (List.replicate 16 (⟨0, 5, 0, [], true⟩ : RemCall)).length ∧ d.ref.remotes.length < 16) ∧
    (let d : DieSt := { live with ref := { live.ref with sends := [(7, 1)] }, mgmtIn := [mgm 0x81] }
     d.sendFor 0 0 = some 7 ∧ live.sendFor 5 0 = none ∧ d.ref.sends = [] ++ (7, 1) :: [] ∧ d.now < 1 + 10000000 ∧ 1 + 10000000 ≤ ({ d with now := 10000001 } : DieSt).now ∧ d.mgmtIn = mgm 0x81 :: []) ∧
    (live.domOn 76 = true ∧ live.f F.REF_STAT_STATE = 1 ∧ live.writeCheck .referee R.REF_CTL 4 = .ok ∧ live.dev = 4 ∧ live.pwr.going = none ∧
     (on0 live).subBusy = false ∧ (on0 live).d0.idn.absent = false ∧ live.ref.restart = none ∧ DieSt.reset.f F.REF_STAT_STATE = 0) ∧
    (let d0 := (live.put F.REF_STAT_STATE 2).put F.REF_STAT_FAILS 2
     let d : DieSt := { d0 with ref := { d0.ref with restart := some (7, 0) } }
     d.f F.REF_STAT_STATE = 2 ∧ d.f F.REF_STAT_FAILS = 2 ∧ d.ref.restart = some (7, 0) ∧ d.ref.order = [] ∧ d.ref.late = [] ∧ d.nvm.staged = none ∧ d.domOn 74 = true ∧
     d.domOn 76 = true ∧ d.now ≤ 0 + 50000000 ∧ 3 ≤ min 255 (d.f F.REF_STAT_FAILS + 1) ∧ (on0 d).subBusy = false ∧ d.dev = 4 ∧ d.pwr.going = none ∧
     (let good : FwPkg := ⟨0, 0, 196608, some 0, 0⟩
      let bad : FwPkg := ⟨0, 65, 196608, some 0, 0⟩
      let e (p : FwPkg) : DieSt := { d with nvm := { d.nvm with staged := some p } }
      (e good).fwOk good = true ∧ (e bad).fwOk bad = false ∧ (e good).restartFw none = some good ∧ (e bad).restartFw (some good) = some good ∧
      (e bad).restartFw none = none ∧ (e bad).restartFw (some bad) = none ∧ (d.put F.REF_STAT_FAILS 1).f F.REF_STAT_FAILS < 2)) := by
  refine ⟨⟨⟨rfl, by decide +kernel⟩, ?_⟩, ?_⟩; and_intros <;> decide +kernel
  and_intros <;> decide +kernel

/-! ### Witnesses: the metrology island -/

/-- A metered part whose island measures (`run`) with metrology state `m`. -/
def met (run : Bool) (m : MetSt) : DieSt :=
  { (live.put F.PWR_SUP_STAT_VAON 1).put F.MET_STAT_VANA_OK 1 with met := { m with running := run } }

/-- Point 7 defined at 8,000 samples a second, its demand interval 15 minutes. -/
def pt7 : MetSt :=
  { MetSt.reset with param := ((Tab.empty.set (fun _ => []) 2 [0, 0, 0, 0, 0, 0, 0, 3, 50]).set (fun _ => []) 7 [1]).set (fun _ => []) 8 [15] }

/-- The window of the example of R442: 3,200 samples at 50 Hz of a type 3 point, 66,395 V and 500 A in each phase. -/
def win : MetWin := ⟨7, 3200, List.replicate 3 ⟨66395000, 500000, 29877750000, 14470458000⟩, 0, 0x42480000, true, [], []⟩

theorem wit_IslandMeasuresExchangesAndKeepsItsEnergies :
    (on0 (met true pt7)).has .die0 (met true pt7) ∧ ({ live with idn := { live.idn with part := .tsl8640F3168 } } : DieSt).metOn = false ∧ (met true pt7).metOn = true ∧ (met true pt7).met.running = true ∧
    (met false pt7).met.running = false ∧ pt7.point 7 = true ∧ pt7.rate 7 = 8000 ∧ pt7.par 7 8 = [15] ∧
    (met true pt7).demandNo 7 = pt7.demNo.get (fun _ => 0) 7 ∧ ({ met true pt7 with mt := 900000000000 } : DieSt).demandNo 7 ≠ pt7.demNo.get (fun _ => 0) 7 ∧
    winFreqOk win = true ∧ winFreqOk { win with refOk := false } = false ∧ winFreqOk { win with freq := 0x7FC00000 } = false ∧
    (live.setPulse 15 ⟨1, 1⟩).pulse 15 = ⟨1, 1⟩ ∧ (live.setPulse 15 ⟨0, 2⟩).pulse 15 = ⟨0, 2⟩ ∧ (live.setPulse 15 ⟨1, 2⟩).pulse 15 = ⟨1, 2⟩ ∧
    (live.pulse 15).phase = 0 ∧ (met true pt7).on F.MET_STAT_DEGRADED = false ∧ pt7.xchg = none ∧ pt7.spares = [16, 17] ∧
    ({ pt7 with spares := [] } : MetSt).spares = [] ∧ ({ pt7 with xchg := some (15, 17) } : MetSt).xchg = some (15, 17) ∧
    pt7.disagree.get (fun _ => 0) 15 = 0 ∧ ({ pt7 with disagree := Tab.empty.set (fun _ => 0) 15 17 } : MetSt).disagree.get (fun _ => 0) 15 = 16 + 1 ∧
    ({ pt7 with calib := [17] } : MetSt).calib.contains 17 = true ∧ live.on F.MET_STAT_SEAL_OPEN = false ∧
    (live.put F.MET_STAT_SEAL_OPEN 1).on F.MET_STAT_SEAL_OPEN = true ∧ (met true pt7).on F.PWR_SUP_STAT_VAON = true ∧
    ((met true pt7).put F.MET_STAT_VANA_OK 0).on F.MET_STAT_VANA_OK = false := by
  refine ⟨⟨rfl, by decide +kernel⟩, ?_⟩; and_intros <;> decide +kernel

/-- A call of the metrology with a seal record at byte 0 of channel 0, of operation `op` and parameter `code`. -/
def sealCall (d : DieSt) (op code : Nat) (call : Nat) : DieSt :=
  let e := (d.put (F.DMC_STAT_STATE 0) 2).put (F.DMC_CAP_SIZE 0) 1
  cl (e.setCh 0 ((e.ch 0).putLine 0 (ofBytes (wordBytes 4 0x4C414553 ++ [op, 0] ++ wordBytes 2 code ++ wordBytes 8 d.idn.uid ++
    wordBytes 4 (d.f F.MET_SB_COUNT_COUNT) ++ wordBytes 4 8)))) call [code, 0, 0]

/-- That call taken, with argument 0 `arg`, a key, the seal state and the seal switch. -/
def sealT (key sealed opened op code call arg : Nat) : DieSt :=
  let d := (sealCall ((met true { pt7 with key := key, sealed := sealed == 1 }).put F.MET_STAT_SEAL_OPEN opened) op code call).wr (R.MBX_ARG 7 0)
    (BitVec.ofNat 32 arg)
  (d.sealRead (.slot 7) call).callTake (.slot 7)

/-- The record is readable, its header is right, and it asks `op` of `code`. -/
def sealGood (d : DieSt) (op code arg : Nat) : Bool :=
  let w := Caller.slot 7
  d.serving && d.arg w 0 == arg && decide ((d.sealAt w).1 < d.idn.ddr) && d.chReady (d.sealAt w).1 &&
  !d.sealBad w (32 + min (d.sealField w 20 4) 262144 + 96) && !d.sealBad w (32 + min (d.sealField w 20 4) 262144 + 0) &&
  d.sealField w 0 4 == 0x4C414553 && d.sealField w 8 8 == d.idn.uid && d.sealField w 16 4 == d.f F.MET_SB_COUNT_COUNT &&
  d.sealField w 4 1 == op && d.sealField w 6 2 == code && decide (d.sealField w 20 4 ≤ 262144) && d.metOn

/-- UNSEAL: sealed, the seal open.  SEAL: unsealed, the seal closed, a key.  A sealed parameter and an export setting. -/
theorem wit_SealAndMetParamAcceptOnlyWhatTheSealAllows :
    (sealGood (sealT 9 1 1 0 0 0x82 0) 0 0 0 = true ∧ (sealT 9 1 1 0 0 0x82 0).met.sealed = true ∧ (sealT 9 1 1 0 0 0x82 0).on F.MET_STAT_SEAL_OPEN = true) ∧
    (sealGood (sealT 9 0 0 1 0 0x82 1) 1 0 1 = true ∧ (sealT 9 0 0 1 0 0x82 1).met.sealed = false ∧ (sealT 9 0 0 1 0 0x82 1).met.key ≠ 0 ∧
     (sealT 9 0 0 1 0 0x82 1).on F.MET_STAT_SEAL_OPEN = false) ∧
    sealGood (sealT 0 0 1 2 7 0x83 7) 2 7 7 = true ∧ sealGood (sealT 0 0 1 2 0x40 0x83 0x40) 2 0x40 0x40 = true ∧
    (cl live 0x82 []).sealField (.slot 7) 0 4 ≠ 0x4C414553 ∧ goes (sealCall (met true pt7) 0 0 0x82) 0x82 = true ∧
    goes (sealCall (met true pt7) 2 7 0x83) 0x83 = true ∧ exportCode 7 = false ∧ metCode 7 = true ∧ metCode 11 = false ∧ exportCode 0x42 = true := by
  and_intros <;> decide +kernel

/-! ### Witnesses: the Umpire -/

/-- Rule 63 enabled with words `w0` and `w1`, thresholds 100 and 50, on a die whose VAON stands. -/
def ur (w0 w1 : Word) (u : RuleSt) : DieSt :=
  (((((live.put F.PWR_SUP_STAT_VAON 1).wr (R.UMP_RULE_W0 63) w0).wr (R.UMP_RULE_W1 63) w1).wr (R.UMP_RULE_W2 63) 100).wr (R.UMP_RULE_W3 63) 50).setRule 63 u

theorem wit_UmpireRulesComparatorsHeartbeatsAndLog :
    (let d := ur 0xB0400000 0 RuleSt.reset
     (on0 d).has .die0 d ∧ (on0 d).takes .die0 d .referee R.UMP_LOG_POP ∧ (on0 d).takes .die0 d .referee R.REF_HB) ∧
    (let d := ur 0xB0400000 0 RuleSt.reset
     d.on F.PWR_SUP_STAT_VAON = true ∧ (d.put F.PWR_SUP_STAT_VAON 0).on F.PWR_SUP_STAT_VAON = false ∧ (d.rule 63).next = none ∧
     (d.rule 62).next = none ∧ d.on (F.UMP_RULE_W0_EN 62) = false ∧ d.on (F.UMP_RULE_W0_EN 63) = true ∧ d.f (F.UMP_RULE_W0_SRC 63) = 3 ∧
     d.f (F.UMP_RULE_W0_IDX 63) = 1 ∧ d.f (F.UMP_RULE_W0_AVG 63) = 0 ∧ d.on (F.UMP_RULE_W0_FMT 63) = false ∧ d.f F.UMP_LOG_STAT_LEVEL = 0 ∧
     (ur 0xB2800000 0 RuleSt.reset).f (F.UMP_RULE_W0_IDX 63) = 10 ∧ 0 < (d.put F.UMP_LOG_STAT_LEVEL 16).f F.UMP_LOG_STAT_LEVEL) ∧
    ((ur 0 0 { RuleSt.reset with next := some (5, 0, 0, 0) }).rule 63).next = some (5, 0, 0, 0) ∧ bit (5 : Word).toNat 31 = false ∧
    (let d0 := (ur 0xC1C00000 0 RuleSt.reset).put (F.UMP_MTC_EN_EN 7) 1
     let d : DieSt := { d0 with mtm := { d0.mtm with on := true } }
     d.on (F.UMP_MTC_EN_EN 7) = true ∧ d.mtm.on = true ∧ d.rd64 (R.UMP_MTC_VALUE_LO 7) (R.UMP_MTC_VALUE_HI 7) ≤ d.mt.toNat ∧
     d.mt.toNat < (d.wr (R.UMP_MTC_VALUE_LO 7) 1).rd64 (R.UMP_MTC_VALUE_LO 7) (R.UMP_MTC_VALUE_HI 7) ∧ d.f (F.UMP_RULE_W0_SRC 63) = 4 ∧
     d.f (F.UMP_RULE_W0_IDX 63) = 7 ∧ d.f (F.UMP_RULE_W1_BFILT 63) = 0 ∧ d.on (F.UMP_RULE_W1_FT 63) = false ∧ d.on (F.UMP_RULE_W1_WAKE 63) = false) ∧
    (let d := cl live 0x81 [63, 0xB0400000, 0, 100, 50]
     let t := d.callTake (.slot 7)
     let v := fun (k : Nat) => (BitVec.ofNat 32 (t.arg (.slot 7) k) : Word)
     goes d 0x81 = true ∧ t.arg (.slot 7) 0 = 63 ∧ t.ruleRange (v 1) (v 2) (v 3) (v 4) = false ∧ t.ruleRange (v 1) (v 2) (v 4) (v 3) = true ∧
     bits (v 1).toNat 30 28 ≠ 1 ∧ t.mine (0x700 + 63) = true ∧ (t.setClaim 0x73F 7).mine (0x700 + 63) = false ∧ bit (v 2).toNat 13 = false ∧
     (t.rule 63).latched = false ∧ (t.setRule 63 { RuleSt.reset with latched := true }).on (F.UMP_RULE_W1_PIN 63) = false ∧
     bit (0x2000 : Word).toNat 13 = true ∧ bits (0xA0000000 : Word).toNat 30 28 = 2 ∧ bits (0x90000000 : Word).toNat 30 28 = 1 ∧ ({ t.idn with part := .tsl8640F3168 } : Ident).met = false) ∧
    (let d := live.put F.UMP_HB_REF_WATCH 1
     let u (a b c r : Nat) : UmpSt := { UmpSt.reset with refBeat := a, ordered := b, swpBeat := c, swpRun := r }
     live.domOn 76 = true ∧ live.domOn 77 = true ∧ d.on F.UMP_HB_REF_WATCH = true ∧ d.now + 1 < (u 1 0 0 0).refBeat + 10000000 ∧ (u 1 0 0 0).ordered = 0 ∧
     (u 1 0 0 0).refBeat + 10000000 ≤ ({ d with now := 10000000 } : DieSt).now + 1 ∧ d.f F.REF_STAT_STATE = 1 ∧ live.on F.UMP_HB_REF_WATCH = false ∧
     (u 0 1 0 0).ordered ≠ 0 ∧ (u 0 1 0 0).ordered + 50000000 ≤ ({ d with now := 50000000 } : DieSt).now + 1 ∧ d.f F.REF_STAT_FAILS = 0 ∧
     live.on F.SWP_STAT_RESTARTING = false ∧ (live.put F.UMP_HB_SWP_WATCH 1).on F.UMP_HB_SWP_WATCH = true ∧ live.now + 1 < (u 0 0 1 0).swpBeat + 256000 ∧
     (u 0 0 1 3).swpBeat + 256000 ≤ ({ live with now := 256000 } : DieSt).now + 1) := by
  refine ⟨⟨⟨rfl, by decide +kernel⟩, ⟨rfl, by decide +kernel⟩, rfl, by decide +kernel⟩, ?_⟩; and_intros <;> decide +kernel

/-- At rule 63's tick: its words stand, a slot that has a fresh snapshot is a new sample, and one that has none is not. -/
theorem wit_UmpireRulesComparatorsHeartbeatsAndLog_more :
    (let d := ur 0x90000000 0 RuleSt.reset
     let b := ((d.put F.UMP_STAT_LIVE 1).put F.UMP_STAT_ROUND ((d.f F.UMP_STAT_ROUND + 1) % 2 ^ F.UMP_STAT_ROUND.width)).ruleTake 63
     b.on (F.UMP_RULE_W0_EN 63) = true ∧ b.f (F.UMP_RULE_W0_SRC 63) = 1 ∧ b.f (F.UMP_RULE_W0_IDX 63) = 0 ∧
     (let m : MetSt := { pt7 with param := pt7.param.set (fun _ => []) 0x41 [7 * 2 ^ 8], snaps := Tab.empty.set (fun _ => 0) 7 1 }
      (m.param.get (fun _ => []) 0x41)[0]? = some (7 * 2 ^ 8) ∧ m.snaps.get (fun _ => 0) (bits (7 * 2 ^ 8) 10 8) ≠ (b.rule 63).seen ∧
      pt7.snaps.get (fun _ => 0) 7 = (b.rule 63).seen) ∧ 4 < (ur 0xD0000000 0 RuleSt.reset).f (F.UMP_RULE_W0_SRC 63)) ∧
    (∃ z : Int, (0 : Int) + 5 - 1 < 1 * z ∧ 1 * z < 0 + 5 + 1) ∧
    min 255 (live.f F.REF_STAT_FAILS + 1) < 3 ∧ 3 ≤ min 255 ((live.put F.REF_STAT_FAILS 2).f F.REF_STAT_FAILS + 1) ∧
    min 255 (max UmpSt.reset.fails (live.f F.REF_STAT_FAILS) + 1) < 3 ∧ UmpSt.reset.fails < 255 ∧ live.f F.REF_STAT_STATE ≠ 0 ∧
    live.f F.REF_STAT_STATE ≠ 2 ∧ (on0 live).subBusy = false ∧ (on0 live).d0.idn.absent = false := by
  refine ⟨?_, ⟨5, by decide⟩, ?_⟩ <;> and_intros <;> decide +kernel

theorem wit_CounterClearWritesZeroTheirCounters : (on0 fab).takes .die0 fab .team (R.RGN_CNT_CLR 1407) ∧ (on0 fab).takes .die0 fab .referee R.PACE_CTL ∧
    (on0 fab).takes .die0 fab .team (R.SE_CNT_CLR 0) ∧ (on0 fab).takes .die0 fab .team R.ROS_CTL ∧ (on0 fab).takes .die0 fab .team (R.Q_CMD 63) ∧
    (on0 fab).takes .die0 fab .team (R.CRC_CMD 15) ∧ (on0 fab).takes .die0 fab .team R.XING_CNT_CLR ∧ (on0 fab).takes .die0 fab .team (R.DMC_CNT_CLR 3) ∧
    (on0 fab).takes .die0 fab .team R.SWP_CNT_CLR := by
  and_intros <;> rfl

/-! ### The spec's own worked examples -/

/-- Die 0 after an outcome. -/
def after (o : Out) : DieSt :=
  match o with
  | .next t => t.d0
  | _ => DieSt.reset

/-- 00_scope.md, R8: Team reads an energy's low word; the register rolls over; the high word read next is the latched one. -/
theorem test_torn_read :
    let d := ((met true pt7).wr (R.MET_EI_LO 0) 0xFFFFFFF0).wr (R.MET_EI_HI 0) 2
    let e := after (exec (.word64LowRead .die0 .team (R.MET_EI_LO 0) 4) (on0 d))
    let f := (e.wr (R.MET_EI_LO 0) 4).wr (R.MET_EI_HI 0) 3
    let g := after (exec (.word64LowRead .die0 .team (R.MET_EI_HI 0) 4) (on0 f))
    e.resp.get (fun _ => Resp.reset) (masterKey .team) = ⟨0xFFFFFFF0, false⟩ ∧ g.resp.get (fun _ => Resp.reset) (masterKey .team) = ⟨2, false⟩ := by
  decide +kernel

/-- 06_signal_engines.md, the four stored values in fractional mode. -/
theorem test_store_values : storeValue false 0x00400000123456 = (0x400000, false) ∧ storeValue false 0xFFFFFFFF000001 = (0xFFFFFF, false) ∧
    storeValue false 0x01200000000000 = (0x7FFFFF, true) ∧ storeValue false 0x00800000000000 = (0x7FFFFF, true) := by decide

/-- 06_signal_engines.md, MPY of 0.5 and −0.75, and its flags. -/
theorem test_mpy : parOp 1 false 0 0 0x400000 0xA00000 = some (0xFFD00000000000, false, false) ∧
    accFlags false 0xFFD00000000000 false = ⟨true, false, false, false⟩ ∧ storeValue false 0xFFD00000000000 = (0xD00000, false) := by decide

/-- 06_signal_engines.md, EXP and SHAR in three cases. -/
theorem test_exp : exponent 0x00001234000000 = 10 ∧ (shiftAcc 0x00001234000000 10).1 = 0x0048D000000000 ∧ exponent 0x03000000000000 = -3 ∧
    (shiftAcc 0x03000000000000 (-3)).1 = 0x00600000000000 ∧ exponent 0xFFFFFFFFFFFFFF = 47 ∧
    (shiftAcc 0xFFFFFFFFFFFFFF 47).1 = 0xFF800000000000 := by decide

/-- Table 08-5: the three parameter sets over "123456789", and the two words of the example with LASTB 1. -/
theorem test_check_values :
    (let p : CrcPar := ⟨0xB080001F, 0x04C11DB7, 0xFFFFFFFF, 0xFFFFFFFF, 0⟩
     let l := wordBytes 8 0x3837363534333231 ++ wordBytes 1 0x39
     p.result (l.foldl p.byteIn p.start) = 0xCBF43926) ∧
    (let p : CrcPar := ⟨0x8000000F, 0x1021, 0xFFFF, 0, 0⟩
     p.result ([0x31, 0x32, 0x33, 0x34, 0x35, 0x36, 0x37, 0x38, 0x39].foldl p.byteIn p.start) = 0x29B1) ∧
    (let p : CrcPar := ⟨0x8000003F, 0x42F0E1EBA9EA3693, 0, 0, 0⟩
     p.result ([0x31, 0x32, 0x33, 0x34, 0x35, 0x36, 0x37, 0x38, 0x39].foldl p.byteIn p.start) = 0x6C40DF5F0B497347) := by decide +kernel

/-- 11_links_and_time.md, the source numbers of the two devices. -/
theorem test_source_numbers :
    (let d := live.put F.SLK_ID_ID 0x012
     ({ d with idn := { d.idn with part := .tsl8680T4096, second := true } } : DieSt).source 0x70A = 0x2570A) ∧ (live.put F.SLK_ID_ID 0x013).source (44 * 2 + 5) = 0x2605D := by
  decide +kernel

/-- 12_pins.md, 0x0005_0004 written to GPIO_OUT: bit 0 becomes 0, bit 2 becomes 1. -/
theorem test_gpio_masked : maskedWrite 0xFFF9 (0x00050004 % 2 ^ 16) (0x00050004 / 2 ^ 16) = 0xFFFC ∧ 16 * 7 + 0 = 112 ∧ 112 / 48 = 2 := by decide

/-- 14_configuration.md, frame 200 of the body at 0x0243_2000: position 36 of row 0, out of the region of a partial image. -/
theorem test_frame_address : faRow 0x02432000 = 0 ∧ faPos 0x02432000 = 36 ∧ faIdx 0x02432000 = 200 ∧ faDie 0x02432000 = 0 ∧
    partialFrameCode 0x02432000 200 0 = 0x0B ∧ 0x01490138 % 2048 = 312 ∧ 0x01490138 / 65536 % 2048 = 329 ∧ isBench 329 = true := by decide +kernel

/-- 17_metrology.md: a window of 3,200 samples at 16,000 a second adds 4,979,625 mWh, 2,411,743 mvarh and 5,532,916 mVAh. -/
theorem test_window_energies : windowEnergy 89633250000 3200 16000 = 4979625 * 2 ^ 32 ∧ windowEnergy 43411374000 3200 16000 / 2 ^ 32 = 2411743 ∧
    windowEnergy 99592500000 3200 16000 / 2 ^ 32 = 5532916 ∧ windowEnergy 99592500000 3200 16000 % 2 ^ 32 * 1000 / 2 ^ 32 = 666 ∧
    quadrant 89633250000 43411374000 = 2 := by decide

/-- The same window as METROLOGY_WINDOW_END takes it. -/
theorem test_window_end :
    let e := after (exec (.metWindowEnd .die0 win) (on0 (met true { pt7 with param := pt7.param.set (fun _ => []) 7 [2] })))
    e.met.en 7 0 = 4979625 * 2 ^ 32 ∧ e.met.en 7 2 / 2 ^ 32 = 2411743 ∧ e.met.en 7 6 / 2 ^ 32 = 5532916 ∧
    e.rd (R.MET_P 7) = 0x4CAAF63C := by decide +kernel

/-- 18_umpire.md, the undervoltage rule on VAUX: at 1,740 mV rule 5 sets its output, latches pin 3 of bank 1, alarms and logs. -/
def vaux : DieSt :=
  ((((live.put F.PWR_SUP_STAT_VAON 1).wr (R.UMP_RULE_W0 5) 0xB0440000).wr (R.UMP_RULE_W1 5) 0x000330C0).wr (R.UMP_RULE_W2 5) 1740).wr
    (R.UMP_RULE_W3 5) 1760

theorem test_vaux_rule :
    let e := after (exec (.ruleEvaluate .die0 5 1740) (on0 vaux))
    (e.rule 5).c = true ∧ e.ruleOut 5 = true ∧ (e.rule 5).latched = true ∧ bit (e.rd64 R.UMP_ALARM_LO R.UMP_ALARM_HI) 5 = true ∧
    e.f F.UMP_LOG_STAT_LEVEL = 1 ∧ vaux.f (F.UMP_RULE_W1_OPIN 5) = 3 ∧ vaux.on (F.UMP_RULE_W1_OLVL 5) = false := by decide +kernel

theorem test_vaux_rule_high : (after (exec (.ruleEvaluate .die0 5 1741) (on0 vaux))).ruleOut 5 = false := by decide +kernel

/-- 18_umpire.md, the wake rule: the fields of its words. -/
theorem test_wake_rule_fields :
    let d := (live.wr (R.UMP_RULE_W0 9) 0x90180000).wr (R.UMP_RULE_W1 9) 0x820E8000
    d.f (F.UMP_RULE_W0_SRC 9) = 1 ∧ d.f (F.UMP_RULE_W0_IDX 9) = 0 ∧ d.on (F.UMP_RULE_W0_FMT 9) = true ∧ d.on (F.UMP_RULE_W0_POL 9) = false ∧
    d.f (F.UMP_RULE_W1_BFILT 9) = 2 ∧ d.f (F.UMP_RULE_W1_N 9) = 2 ∧ d.f (F.UMP_RULE_W1_M 9) = 3 ∧ d.on (F.UMP_RULE_W1_LOG 9) = true ∧
    d.on (F.UMP_RULE_W1_WAKE 9) = true ∧ d.on (F.UMP_RULE_W1_FT 9) = false := by decide +kernel

/-- 20_address_map.md, region (5, 36): the alias of an overlapped engine, its RGN_STAT and its source number. -/
theorem test_overlapped_engine : R.SE_STAT 256 = 0x41000008 ∧ foldSe 0x12FF0008 = R.SE_STAT 255 ∧ foldSe 0x13000008 = 0x13000008 ∧
    foldSe 0x41000008 = 0x41000008 ∧ R.RGN_STAT 256 = 0x11010000 := by decide

/-- 01_variants.md, SYS_ID 0x8681_2B00: PART 8 and 24 rows. -/
theorem test_sys_id :
    let d := live.wr R.SYS_ID 0x86812B00
    d.f F.SYS_ID_PART = 8 ∧ d.f F.SYS_ID_STEPPING = 1 ∧ d.f F.SYS_ID_ROWS = 24 ∧ d.f F.SYS_ID_PKG = 1 ∧ d.on F.SYS_ID_MET = true := by decide +kernel

/-- 16_referee_and_team.md, EXPRESS_ADMIT by MBX_CALL 0x8005_0030: MBX_RES reads 0xC005_0000, RET0 0 and RET1 1. -/
theorem test_express_admit :
    let d := ((((live.put (cF 100 0 31 28) 1).put (cF 100 0 27 26) 1).put (cF 100 0 19 19) 1).put (cF 100 8 23 0) 1).put (F.RGN_STAT_STATE 0) 4
    let d := d.put (F.Q_CFG_PINNED 0) 1
    let d := (((d.put (F.SE_CFG_POOLED 0) 1).wr (R.MBX_ARG 0 0) 0x64).wr (R.MBX_CALL 0) 0x00050030).put (F.MBX_RES_STATE 0) 1
    let e := after (exec (.expressAdmit .die0 (.slot 0)) (on0 { d with ref := { d.ref with order := [0], team := some img } }))
    e.rd (R.MBX_RES 0) = 0xC0050000 ∧ e.rd (R.MBX_RET 0 0) = 0 ∧ e.rd (R.MBX_RET 0 1) = 1 ∧ e.cAdmitted 100 = true ∧ e.cst 100 = cWaiting := by
  decide +kernel
end

end Sys2Proof.Tests
end

/-! # Scope: the step, the queue of waiting commands, and accesses on the management bus (O1, O3, O6 to O9) -/

namespace Sys2Proof.Machine

/-- Settles O1: the front command acts on the rest of the queue, by the definition of a step. -/
theorem stepRunsFrontCommand : Obligations.StepRunsFrontCommand := fun c s r h => step_front s c r h

/-! ### The queue of waiting commands under every operation on a package (O3)

A die holds no queue, so an operation made of `onDie` and `onBoth` cannot reach it; what is left to see is that every branch
of every operation is so made. -/

section Queue

/-! Pairs of dies that follow each other. -/

@[simp] theorem State.kickSend_pending (s : State) (x : Die) : (s.kickSend x).pending = s.pending := by
  unfold State.kickSend; split <;> simp

@[simp] theorem State.kickPair_pending (s : State) : s.kickPair.pending = s.pending := by
  unfold State.kickPair; repeat' split
  all_goals rfl

@[simp] theorem State.cfgPair_pending (s : State) : s.cfgPair.pending = s.pending := by
  unfold State.cfgPair; split <;> rfl

@[simp] theorem State.mtPair_pending (s : State) : s.mtPair.pending = s.pending := by
  unfold State.mtPair; split <;> rfl

@[simp] theorem State.idPair_pending (s : State) : s.idPair.pending = s.pending := by
  unfold State.idPair; split <;> rfl

@[simp] theorem State.loadTogether_pending (s : State) : s.loadTogether.pending = s.pending := by
  simp [State.loadTogether]

@[simp] theorem State.crossMaster_pending (s : State) (m : Master) : (s.crossMaster m).pending = s.pending := rfl

/-! Device states and supplies (R334 to R354). -/

@[simp] theorem State.fttNext_pending (s : State) : s.fttNext.pending = s.pending := by
  unfold State.fttNext; split <;> simp

@[simp] theorem State.fire_pending (s : State) (t : Trig) : (s.fire t).1.pending = s.pending := by
  simp only [State.fire, apply_ite Prod.fst, apply_ite State.pending, onBoth_pending, State.fttNext_pending, ite_self]

@[simp] theorem State.afterwards_pending (s : State) : s.afterwards.pending = s.pending := by
  unfold State.afterwards; dsimp only; repeat' split
  all_goals simp

@[simp] theorem State.cutOff_pending (s : State) : s.cutOff.pending = s.pending := by
  unfold State.cutOff; split <;> simp

@[simp] theorem State.badCause_pending (s : State) (c : Nat) : (s.badCause c).pending = s.pending := by
  simp only [State.badCause, apply_ite State.pending, onBoth_pending, State.fire_pending, ite_self]

@[simp] theorem State.pwrCmd_pending (s : State) (x : Die) (m : Master) (t : Trig) : (s.pwrCmd x m t).pending = s.pending := by
  unfold State.pwrCmd; split <;> simp

@[simp] theorem State.settled_pending (s : State) : s.settled.pending = s.pending := by simp [State.settled]

@[simp] theorem State.transitionEnd_pending (s : State) (saveOk carOk : Bool) :
    (s.transitionEnd saveOk carOk).pending = s.pending := by
  unfold State.transitionEnd; split
  all_goals simp only [apply_ite State.pending, onBoth_pending, State.fttNext_pending, State.settled_pending, ite_self]

@[simp] theorem State.resumeInstant_pending (s : State) : s.resumeInstant.pending = s.pending := by
  unfold State.resumeInstant; repeat' split
  all_goals simp

@[simp] theorem State.recoveryLimit_pending (s : State) : s.recoveryLimit.pending = s.pending := by
  unfold State.recoveryLimit; dsimp only; split <;> simp

@[simp] theorem State.resumeCheck_pending (s : State) : s.resumeCheck.pending = s.pending := by
  simp only [State.resumeCheck, apply_ite State.pending, onBoth_pending, ite_self]

@[simp] theorem State.supplyLoss_pending (s : State) (x : Die) (k : Supply) : (s.supplyLoss x k).pending = s.pending := by
  unfold State.supplyLoss; dsimp only; repeat' split
  all_goals simp

@[simp] theorem State.supplyReturn_pending (s : State) (x : Die) (k : Supply) : (s.supplyReturn x k).pending = s.pending := by
  unfold State.supplyReturn; dsimp only; repeat' split
  all_goals simp

@[simp] theorem State.pwrgoodRise_pending (s : State) (mode devid pulls : Nat) :
    (s.pwrgoodRise mode devid pulls).pending = s.pending := by
  simp only [State.pwrgoodRise, apply_ite State.pending, onBoth_pending, ite_self]

@[simp] theorem State.pwrgoodFall_pending (s : State) : s.pwrgoodFall.pending = s.pending := by simp [State.pwrgoodFall]

@[simp] theorem State.warmUpDone_pending (s : State) (fw : FwPkg) (alt : Option FwPkg) (digestOk storeOk : Bool) :
    (s.warmUpDone fw alt digestOk storeOk).pending = s.pending := by
  simp only [State.warmUpDone, apply_ite State.pending, onBoth_pending, ite_self]

@[simp] theorem State.loadDone_pending (s : State) : s.loadDone.pending = s.pending := by
  unfold State.loadDone; dsimp only; split <;> simp

@[simp] theorem State.playInstant_pending (s : State) : s.playInstant.pending = s.pending := by
  unfold State.playInstant; repeat' split
  all_goals simp

@[simp] theorem State.kickoffRise_pending (s : State) : s.kickoffRise.pending = s.pending := by
  unfold State.kickoffRise; dsimp only; split <;> simp

@[simp] theorem State.coordMiscompare_pending (s : State) (x : Die) : (s.coordMiscompare x).pending = s.pending := by
  simp only [State.coordMiscompare, apply_ite State.pending, State.badCause_pending, onDie_pending, ite_self]

/-! The Referee: its calls, its restarts and its watchdog (R422 to R428, R458). -/

/-- A call keeps the queue where what it does keeps it. -/
theorem State.call_pending (s : State) (x : Die) (w : Caller) (code : Nat) (lead : Bool) (g : State → State × Option (Nat × List Nat))
    (hg : ∀ t, (g t).1.pending = t.pending) : (s.call x w code lead g).pending = s.pending := by
  unfold State.call; dsimp only; repeat' split
  all_goals simp [hg]

@[simp] theorem State.callState_pending (s : State) (x : Die) (w : Caller) (code : Nat) (t : State → Trig) :
    (s.callState x w code t).pending = s.pending := by
  simp only [State.callState, apply_ite State.pending, State.fire_pending, onDie_pending, ite_self]

@[simp] theorem State.fuseBoth_pending (s : State) (ok0 ok1 : Bool) (g revoke : DieSt → DieSt) :
    (s.fuseBoth ok0 ok1 g revoke).1.pending = s.pending := by
  unfold State.fuseBoth; dsimp only; split <;> simp

@[simp] theorem State.callFwStage_pending (s : State) (x : Die) (w : Caller) (p : FwPkg) : (s.callFwStage x w p).pending = s.pending :=
  State.call_pending _ _ _ _ _ _ fun t => by simp only [apply_ite Prod.fst, apply_ite State.pending, onBoth_pending, ite_self]

@[simp] theorem State.callKeyProgram_pending (s : State) (x : Die) (w : Caller) (r : KeyRec) (warm ok0 ok1 : Bool) :
    (s.callKeyProgram x w r warm ok0 ok1).pending = s.pending :=
  State.call_pending _ _ _ _ _ _ fun t => by dsimp only; split <;> simp

@[simp] theorem State.callKeyRevoke_pending (s : State) (x : Die) (w : Caller) (r : KeyRec) (warm ok0 ok1 : Bool) :
    (s.callKeyRevoke x w r warm ok0 ok1).pending = s.pending :=
  State.call_pending _ _ _ _ _ _ fun t => by dsimp only; split <;> simp

@[simp] theorem State.callAesProgram_pending (s : State) (x : Die) (w : Caller) (r : KeyRec) (wrapOk warm ok0 ok1 : Bool) :
    (s.callAesProgram x w r wrapOk warm ok0 ok1).pending = s.pending :=
  State.call_pending _ _ _ _ _ _ fun t => by dsimp only; split <;> simp

@[simp] theorem State.callMgmtSend_pending (s : State) (x : Die) (w : Caller) (hold : Bool) :
    (s.callMgmtSend x w hold).pending = s.pending :=
  State.call_pending _ _ _ _ _ _ fun t => by
    cases w with
    | remote => rfl
    | slot => dsimp only; split <;> simp

@[simp] theorem State.callSeal_pending (s : State) (x : Die) (w : Caller) (i : SealIn) : (s.callSeal x w i).pending = s.pending := by
  refine (State.call_pending _ _ _ _ _ _ fun t => ?_).trans ?_
  · simp only [apply_ite Prod.fst, apply_ite State.pending, ite_self]
  · split <;> simp

@[simp] theorem State.remoteCall_pending (s : State) (inGroup : Bool) : (s.remoteCall inGroup).pending = s.pending := by
  unfold State.remoteCall; dsimp only; repeat' split
  all_goals simp

@[simp] theorem State.refFailed_pending (s : State) (x : Die) (cause : Nat) : (s.refFailed x cause).pending = s.pending := by
  unfold State.refFailed; dsimp only; split <;> simp

@[simp] theorem State.refOrder_pending (s : State) (x : Die) (cause : Nat) : (s.refOrder x cause).pending = s.pending := by
  simp only [State.refOrder, apply_ite State.pending, State.refFailed_pending, onDie_pending, ite_self]

@[simp] theorem State.refRestartEnd_pending (s : State) (x : Die) (ok reloaded rebuild : Bool) (alt : Option FwPkg) :
    (s.refRestartEnd x ok reloaded rebuild alt).pending = s.pending := by
  unfold State.refRestartEnd; repeat' split
  all_goals simp

@[simp] theorem State.refCtl_pending (s : State) (x : Die) (m : Master) : (s.refCtl x m).pending = s.pending := by
  unfold State.refCtl; split <;> simp

@[simp] theorem State.refMiss_pending (s : State) (x : Die) : (s.refMiss x).pending = s.pending := by
  simp only [State.refMiss, apply_ite State.pending, State.refOrder_pending, State.refFailed_pending, onDie_pending, ite_self]

/-- A list of triggers, taken one after the other, keeps the queue. -/
theorem State.foldl_fire_pending (l : List Trig) (s : State) : (l.foldl (fun (s : State) k => (s.fire k).1) s).pending = s.pending := by
  induction l generalizing s with
  | nil => rfl
  | cons t l ih => rw [List.foldl_cons, ih, State.fire_pending]

@[simp] theorem State.ruleEvaluate_pending (s : State) (x : Die) (r v : Nat) : (s.ruleEvaluate x r v).pending = s.pending := by
  unfold State.ruleEvaluate; dsimp only; split
  · rfl
  · rw [State.foldl_fire_pending, onDie_pending]

/-! Bus accesses (R5 to R9, R29). -/

/-- An access through a fabric port keeps the queue where what it does at the bus keeps it. -/
theorem State.onPort_pending (s : State) (x : Die) (m : Master) (req : Nat) (g : State → State) (hg : ∀ t, (g t).pending = t.pending) :
    (s.onPort x m req g).pending = s.pending := by
  unfold State.onPort; dsimp only; repeat' split
  all_goals simp [hg]

theorem State.onPort_onDie_pending (s : State) (x : Die) (m : Master) (req : Nat) (g : DieSt → DieSt) :
    (s.onPort x m req (fun s => onDie x s g)).pending = s.pending := s.onPort_pending x m req _ fun _ => onDie_pending _ _ _

@[simp] theorem State.busWriteAt_pending (s : State) (x : Die) (m : Master) (a size : Nat) (v : Word) (e : BusEnv) :
    (s.busWriteAt x m a size v e).pending = s.pending := by
  unfold State.busWriteAt; repeat' split
  all_goals simp

@[simp] theorem State.busReadAt_pending (s : State) (x : Die) (m : Master) (a size : Nat) :
    (s.busReadAt x m a size).pending = s.pending := onDie_pending _ _ _

@[simp] theorem State.busWrite_pending (s : State) (x : Die) (m : Master) (a size : Nat) (v : Word) (e : BusEnv) :
    (s.busWrite x m a size v e).pending = s.pending := State.onPort_pending _ _ _ _ _ fun t => by simp

@[simp] theorem State.busRead_pending (s : State) (x : Die) (m : Master) (a size : Nat) : (s.busRead x m a size).pending = s.pending :=
  State.onPort_pending _ _ _ _ _ fun t => by simp

@[simp] theorem State.crossAccess_pending (s : State) (x : Die) (m : Master) (a size : Nat) (wr : Bool) (v : Word) (e : BusEnv) :
    (s.crossAccess x m a size wr v e).pending = s.pending := by
  unfold State.crossAccess; dsimp only; split
  · simp
  · exact State.onPort_pending _ _ _ _ _ fun t => by split <;> simp

end Queue

/-- A command on both dies answers a next state and keeps the queue. -/
theorem actBoth_keepsQueue (s : State) (g : DieSt → DieSt) : ∃ t, actBoth s g = .next t ∧ t.pending = s.pending :=
  ⟨_, rfl, onBoth_pending s g⟩

/-- A record of the configuration stream answers a next state and keeps the queue. -/
theorem actStream_keepsQueue (s : State) (g : DieSt → DieSt) : ∃ t, actStream s g = .next t ∧ t.pending = s.pending :=
  ⟨_, rfl, by simp⟩

/-- Every command answers a next state with the queue of waiting commands as it was: those that reach beyond one die are named,
every other is an operation on one die.  SEAL, whose name Lean keeps for itself, is the one call that stands among these. -/
theorem exec_keepsQueue (c : Instr) (s : State) : ∃ t, exec c s = .next t ∧ t.pending = s.pending := by
  cases c with
  | registerWrite => exact ⟨_, rfl, State.busWrite_pending ..⟩
  | word64LowRead => exact ⟨_, rfl, State.busRead_pending ..⟩
  | word64LowWrite | word64HighWrite =>
    exact ⟨_, rfl, by simp only [apply_ite State.pending, State.onPort_onDie_pending, ite_self]⟩
  | crossDieAccess => exact ⟨_, rfl, State.crossAccess_pending ..⟩
  | channelTrainingEnd | dramChFail | portTrainingEnd | slkMessageReceive | kickoffReadySend | kickoffMessage
  | mtTimingExchange | fttConditionFail | fttLimit | fttEnd => exact ⟨_, rfl, by simp⟩
  | pwrgoodRise => exact ⟨_, rfl, State.pwrgoodRise_pending ..⟩
  | pwrgoodFall => exact ⟨_, rfl, State.pwrgoodFall_pending s⟩
  | supplyLoss => exact ⟨_, rfl, State.supplyLoss_pending ..⟩
  | supplyReturn => exact ⟨_, rfl, State.supplyReturn_pending ..⟩
  | warmUpDone => exact ⟨_, rfl, State.warmUpDone_pending ..⟩
  | loadDone => exact ⟨_, rfl, State.loadDone_pending s⟩
  | playInstant => exact ⟨_, rfl, State.playInstant_pending s⟩
  | fulltimeNLow => exact ⟨_, rfl, State.fire_pending ..⟩
  | pwrFullTime | pwrHalfTime | pwrRecovery | pwrResume | pwrRestart => exact ⟨_, rfl, State.pwrCmd_pending ..⟩
  | resumeInstant => exact ⟨_, rfl, State.resumeInstant_pending s⟩
  | recoveryLimit => exact ⟨_, rfl, State.recoveryLimit_pending s⟩
  | die1Silent => exact ⟨_, rfl, by split <;> simp⟩
  | transitionEnd => exact ⟨_, rfl, State.transitionEnd_pending ..⟩
  | sync | selectDev | firmware | team | header | imageEnd | streamEnd | frames | zeroFrames | fillFrames | bodyBlockTrailer
  | streamTimeout => exact actStream_keepsQueue s _
  | kickoffRise => exact ⟨_, rfl, State.kickoffRise_pending s⟩
  | coordinatorMiscompare => exact ⟨_, rfl, State.coordMiscompare_pending ..⟩
  | fullTime | halfTime | recovery | resume | restart => exact ⟨_, rfl, State.callState_pending ..⟩
  | refFwStage => exact ⟨_, rfl, State.callFwStage_pending ..⟩
  | keyProgram => exact ⟨_, rfl, State.callKeyProgram_pending ..⟩
  | keyRevoke => exact ⟨_, rfl, State.callKeyRevoke_pending ..⟩
  | aesProgram => exact ⟨_, rfl, State.callAesProgram_pending ..⟩
  | mgmtSend => exact ⟨_, rfl, State.callMgmtSend_pending ..⟩
  | mgmtRemoteCall => exact ⟨_, rfl, State.remoteCall_pending ..⟩
  | refLockstepMiscompare => exact ⟨_, rfl, State.refOrder_pending ..⟩
  | refHeartbeatMiss => exact ⟨_, rfl, State.refMiss_pending ..⟩
  | refCtlRestart => exact ⟨_, rfl, State.refCtl_pending ..⟩
  | refRestartEnd => exact ⟨_, rfl, State.refRestartEnd_pending ..⟩
  | ruleEvaluate => exact ⟨_, rfl, State.ruleEvaluate_pending ..⟩
  | nvmBoot | kickoffWait | crystalStart | trstNLow | pllLock => exact actBoth_keepsQueue s _
  | _ => exact ⟨_, rfl, by simp only [onDie_pending, State.callSeal_pending]⟩

/-- Settles O3: every operation on a package is made of operations on its dies, and a die holds no queue. -/
theorem everyCommandAnswersAndLeavesTheQueueAlone : Obligations.EveryCommandAnswersAndLeavesTheQueueAlone := exec_keepsQueue

/-! ### Accesses through a bus port (Table 09-3) -/

/-- The die with other values in its crossings: all its checks find the same, by unfolding. -/
def DieSt.withXing (d : DieSt) (c : Tab XSt) : DieSt := { d with xing := c }

@[simp] theorem DieSt.withXing_self (d : DieSt) : d.withXing d.xing = d := rfl

/-- All the passing of a value does to a die: it changes the crossings. -/
theorem DieSt.xPass_cases (d : DieSt) (r : XRef) (v : Nat) : ∃ c, d.xPass r v = d.withXing c := by
  unfold DieSt.xPass
  split
  · exact ⟨_, rfl⟩
  · exact d.xOffer_cases r v

theorem State.has_setDie {s : State} {x : Die} {d : DieSt} (h : d.idn.absent = false) : (s.setDie x d).has x d := ⟨s.die_setDie x d, h⟩

theorem onDie_has {s : State} {x : Die} {d : DieSt} (h : s.has x d) (g : DieSt → DieSt) : onDie x s g = s.setDie x (g d) := by
  rw [onDie_present x s g (h.1 ▸ h.2), h.1]

/-- An access is `g` of its die at the port where it is `g` there on the die itself, whatever its crossings hold. -/
theorem State.onPort_eq_viaPort {s : State} {x : Die} {d : DieSt} (h : s.has x d) (m : Master) (req : Nat) {G : State → State}
    {g : DieSt → DieSt} (hg : ∀ t c, t.has x (d.withXing c) → G t = t.setDie x (g (d.withXing c))) :
    s.onPort x m req G = s.viaPort x m req g := by
  unfold State.viaPort State.onPort
  cases m with
  | fabric r =>
    obtain ⟨c, hc⟩ := d.xPass_cases ⟨5, r, 0, true⟩ req
    have ht : (s.setDie x (d.withXing c)).has x (d.withXing c) := State.has_setDie h.2
    simp only [onDie_has h, hc, hg _ c ht, ht.1]
  | _ => simp only [hg s d.xing h, h.1, DieSt.withXing_self]

/-! ### A write or a read that the checks turn away (R5, R9, R17, R28) -/

theorem DieSt.busDo_err (d : DieSt) {m : Master} {a : Nat} (g : DieSt → DieSt × Bool) (h : d.writeCheck m a 4 = .err) :
    d.busDo m a g = d.answer m 0 true := by
  unfold DieSt.busDo; rw [h]

theorem State.pwrCmd_err {s : State} {x : Die} {d : DieSt} (h : s.has x d) {m : Master} (t : Trig)
    (hw : d.writeCheck m R.PWR_CMD 4 = .err) : s.pwrCmd x m t = s.setDie x (d.answer m 0 true) := by
  unfold State.pwrCmd; rw [h.1, hw]; exact onDie_has h _

theorem State.refCtl_err {s : State} {x : Die} {d : DieSt} (h : s.has x d) {m : Master}
    (hw : d.writeCheck m R.REF_CTL 4 = .err) : s.refCtl x m = s.setDie x (d.answer m 0 true) := by
  unfold State.refCtl; rw [h.1, hw]; exact onDie_has h _

/-- A write that the checks turn away ends with an error and does nothing, whether or not it is one of the two registers both dies
obey. -/
theorem State.busWriteAt_err {s : State} {x : Die} {d : DieSt} (h : s.has x d) {m : Master} {a size : Nat} (v : Word) (e : BusEnv)
    (hw : size = 4 → d.writeCheck m a 4 = .err) (hb : d.busWrite m a size v e = d.answer m 0 true) :
    s.busWriteAt x m a size v e = s.setDie x (d.answer m 0 true) := by
  unfold State.busWriteAt
  split
  · next hp =>
    obtain ⟨rfl, rfl⟩ := hp
    cases pwrTrig v with
    | some t => exact State.pwrCmd_err h t (hw rfl)
    | none => exact (onDie_has h _).trans (by rw [DieSt.busDo_err d _ (hw rfl)])
  · split
    · next hr =>
      obtain ⟨rfl, rfl, -⟩ := hr
      exact State.refCtl_err h (hw rfl)
    · rw [onDie_has h, hb]

/-! ### Accesses that are no aligned word (R5) -/

/-- An address stays, or an engine's primary address moves up to the other span of the engines (R483). -/
theorem foldSe_cases (a : Nat) : foldSe a = a ∨ 0x12000000 ≤ a ∧ foldSe a = a - 0x12000000 + 0x40000000 := by
  simp only [foldSe]
  split
  · exact .inl rfl
  · next h =>
    split
    · exact .inl rfl
    · simp only [Bool.or_eq_true, decide_eq_true_eq, not_or] at h
      exact .inr ⟨by omega, rfl⟩

/-- A folded address lies in its word as the address does. -/
theorem foldSe_mod_four (a : Nat) : foldSe a % 4 = a % 4 := by
  rcases foldSe_cases a with h | ⟨hlo, h⟩ <;> rw [h]
  omega

theorem DieSt.seWindow_misaligned (d : DieSt) (m : Master) (rg : Nat) {off : Nat} (wr : Bool) (v : Word) (h : off % 4 ≠ 0) :
    d.seWindow m rg off wr v = d.answer m 0 true := by
  simp [DieSt.seWindow, h]

theorem DieSt.stateWindow_misaligned (d : DieSt) (m : Master) {off : Nat} (wr : Bool) (v : Word) (h : off % 4 ≠ 0) :
    d.stateWindow m off wr v = d.answer m 0 true := by
  unfold DieSt.stateWindow
  cases d.ros.selected <;> simp [h]

theorem rosWindowAt_base {a : Nat} (h : rosWindowAt a = true) : 0x13001000 ≤ a := by
  simp only [rosWindowAt, Bool.and_eq_true, decide_eq_true_eq] at h; exact h.1

/-- An access at no aligned address ends with an error in either window, so it does so wherever it would elsewhere. -/
theorem DieSt.windows_misaligned (d : DieSt) (m : Master) {a : Nat} (wr : Bool) (v : Word) {other : DieSt} (ha : a % 4 ≠ 0)
    (ho : other = d.answer m 0 true) :
    (if seWindowAt a then d.seWindow m ((a - 0x40000000) / 0x10000) (a % 0x10000) wr v
      else if rosWindowAt a then d.stateWindow m (a - 0x13001000) wr v else other) = d.answer m 0 true := by
  split
  · exact d.seWindow_misaligned m _ _ _ (by omega)
  · split
    · next hros =>
      have := rosWindowAt_base hros
      exact d.stateWindow_misaligned m _ _ (by omega)
    · exact ho

theorem DieSt.busWrite_misaligned (d : DieSt) (m : Master) (a size : Nat) (v : Word) (e : BusEnv) (h : size ≠ 4 ∨ a % 4 ≠ 0) :
    d.busWrite m a size v e = d.answer m 0 true := by
  have ha := foldSe_mod_four a
  unfold DieSt.busWrite
  dsimp only
  split
  · rfl
  · exact d.windows_misaligned m true v (by omega) (d.busDo_err _ (d.writeCheck_misaligned m _ 4 (by omega)))

theorem DieSt.busRead_misaligned (d : DieSt) (m : Master) (alarm : Bool) (a size : Nat) (h : size ≠ 4 ∨ a % 4 ≠ 0) :
    d.busRead m alarm a size = d.answer m 0 true := by
  have ha := foldSe_mod_four a
  unfold DieSt.busRead
  dsimp only
  split
  · rfl
  · exact d.windows_misaligned m false 0 (by omega) (by rw [d.readCheck_misaligned m _ size (by omega)])

/-- Settles O6: the alignment check stands before every other effect of an access, in a window and at a register alike. -/
theorem misalignedAccessHasNoEffect : Obligations.MisalignedAccessHasNoEffect := by
  intro s x d m a size v e h hmis
  constructor
  · refine congrArg Host.Outcome.next (State.onPort_eq_viaPort h m _ fun t c ht => ?_)
    exact State.busWriteAt_err ht v e (fun h4 => DieSt.writeCheck_misaligned _ m a 4 (by omega))
      (DieSt.busWrite_misaligned _ m a size v e hmis)
  · refine congrArg Host.Outcome.next (State.onPort_eq_viaPort h m _ fun t c ht => ?_)
    exact (onDie_has ht _).trans (by rw [DieSt.busRead_misaligned _ m t.alarm a size hmis])

/-! ### The checks of an access, one finding at a time (R9, R17, R28) -/

section Checks
variable (d : DieSt) (m : Master) {a : Nat} {b : Blk} {rows : List RegRow} (hb : findBlk a = some (b, rows))
include hb

theorem DieSt.writeCheck_absent (h : d.absentAt b a = true) : d.writeCheck m a 4 = .err := by
  simp [DieSt.writeCheck, hb, h]

theorem DieSt.writeCheck_unpowered (h : d.liveAt b a = false) : d.writeCheck m a 4 = .err := by
  simp [DieSt.writeCheck, hb, h]

theorem DieSt.writeCheck_owner {r : RegRow} (hr : rows.find? (fun r => r.has a) = some r) (h : mayWrite m r.owner = false) :
    d.writeCheck m a 4 = .err := by
  simp [DieSt.writeCheck, hb, hr, h]

theorem DieSt.readCheck_absent (hup : d.busUp m = true) (ha : a % 4 = 0) (h : d.absentAt b a = true) : d.readCheck m a 4 = .void := by
  simp [DieSt.readCheck, hb, hup, ha, h]

theorem DieSt.readCheck_unpowered (hp : d.absentAt b a = false) (h : d.liveAt b a = false) : d.readCheck m a 4 = .err := by
  simp [DieSt.readCheck, hb, hp, h]

end Checks

/-! ### Accesses of a register outside the windows -/

/-- An address of a register: neither an engine's primary address nor in a window (R138, R205, R483). -/
def plainAddress (a : Nat) : Prop := foldSe a = a ∧ seWindowAt a = false ∧ rosWindowAt a = false

section Plain
variable (d : DieSt) (m : Master) {a : Nat} (ha : plainAddress a)
include ha

theorem DieSt.busWrite_err (v : Word) (e : BusEnv) (h : d.writeCheck m a 4 = .err) : d.busWrite m a 4 v e = d.answer m 0 true := by
  obtain ⟨hf, hse, hros⟩ := ha
  simp [DieSt.busWrite, hf, hse, hros, d.busDo_err _ h]

/-- A write of a register of 32 bits has the register's effect. -/
theorem DieSt.busWrite_ok (v : Word) (e : BusEnv) (hlo : writesPair a = false) (hhi : writesPair (a - 4) = false)
    (h : d.writeCheck m a 4 = .ok) : d.busWrite m a 4 v e = (d.writeOk m a v e).1.answer m 0 (d.writeOk m a v e).2 := by
  obtain ⟨hf, hse, hros⟩ := ha
  simp [DieSt.busWrite, hf, hse, hros, hlo, hhi, d.busDo_ok m a _ h]

theorem DieSt.busRead_err (alarm : Bool) (h : d.readCheck m a 4 = .err) : d.busRead m alarm a 4 = d.answer m 0 true := by
  obtain ⟨hf, hse, hros⟩ := ha
  simp [DieSt.busRead, hf, hse, hros, h]

theorem DieSt.busRead_void (alarm : Bool) (h : d.readCheck m a 4 = .void) : d.busRead m alarm a 4 = d.answer m 0 false := by
  obtain ⟨hf, hse, hros⟩ := ha
  simp [DieSt.busRead, hf, hse, hros, h]

/-- A read that the checks allow shows the register, but for the Ethernet time stamps, which it pops. -/
theorem DieSt.busRead_ok (alarm : Bool) (h : d.readCheck m a 4 = .ok) (ht : ¬ (0x16100000 ≤ a ∧ a < 0x16100400 ∧ a % 0x100 = 0x24)) :
    d.busRead m alarm a 4 = d.readOk m alarm a := by
  obtain ⟨hf, hse, hros⟩ := ha
  simp [DieSt.busRead, hf, hse, hros, h, ht]

end Plain

/-- A write of a register that is not one of the two both dies obey is a write of its die. -/
theorem State.busWriteAt_die {s : State} {x : Die} {d : DieSt} (h : s.has x d) (m : Master) {a : Nat} (size : Nat) (v : Word) (e : BusEnv)
    (hp : a ≠ R.PWR_CMD) (hr : a ≠ R.REF_CTL) : s.busWriteAt x m a size v e = s.setDie x (d.busWrite m a size v e) := by
  simp [State.busWriteAt, hp, hr, onDie_has h]

/-- A register write that the checks turn away, as a command: it ends with an error and does nothing. -/
theorem exec_registerWrite_err {s : State} {x : Die} {d : DieSt} (h : s.has x d) {m : Master} {a : Nat} (v : Word) (e : BusEnv)
    (ha : plainAddress a) (hw : d.writeCheck m a 4 = .err) :
    exec (.registerWrite x m a 4 v e) s = .next (s.viaPort x m (busReq a true v) (fun d => d.answer m 0 true)) :=
  congrArg Host.Outcome.next (State.onPort_eq_viaPort h m _ fun _ c ht =>
    State.busWriteAt_err ht v e (fun _ => hw) ((d.withXing c).busWrite_err m ha v e hw))

/-- A read as a command, where the die answers it as `g` says whatever its crossings hold. -/
theorem exec_word64LowRead {s : State} {x : Die} {d : DieSt} (h : s.has x d) (m : Master) (a : Nat) {g : DieSt → DieSt}
    (hg : ∀ c alarm, (d.withXing c).busRead m alarm a 4 = g (d.withXing c)) :
    exec (.word64LowRead x m a 4) s = .next (s.viaPort x m (busReq a false 0) g) :=
  congrArg Host.Outcome.next (State.onPort_eq_viaPort h m _ fun t c ht => (onDie_has ht _).trans (by rw [hg c t.alarm]))

/-- A register write that the checks allow, as a command, where the register's effect is `g` whatever the crossings hold. -/
theorem exec_registerWrite_ok {s : State} {x : Die} {d : DieSt} {m : Master} {a : Nat} (h : s.takes x d m a) (v : Word) (e : BusEnv)
    (ha : plainAddress a) (hp : a ≠ R.PWR_CMD) (hr : a ≠ R.REF_CTL) (hlo : writesPair a = false) (hhi : writesPair (a - 4) = false)
    {g : DieSt → DieSt} (hg : ∀ d : DieSt, d.writeOk m a v e = (g d, false)) :
    exec (.registerWrite x m a 4 v e) s = .next (s.viaPort x m (busReq a true v) (fun d => (g d).ack m)) :=
  congrArg Host.Outcome.next (State.onPort_eq_viaPort (State.has_of_takes h) m _ fun t c ht => by
    rw [State.busWriteAt_die ht m 4 v e hp hr, (d.withXing c).busWrite_ok m ha v e hlo hhi h.2, hg]; rfl)

/-! ### Writes by the access codes (R6, R7) -/

/-- A plain write of a register all of whose writable fields are RW: they take the value, every other bit stays. -/
theorem DieSt.plain_rw (d : DieSt) {a : Nat} {r : RegRow} (v : Word) (h : findRow a = some r) (hw : r.w1c = 0) :
    d.plain a v = d.wr a ((d.rd a &&& ~~~BitVec.ofNat 32 r.rw) ||| (v &&& BitVec.ofNat 32 r.rw)) := by
  simp only [DieSt.plain, h, hw, BitVec.and_zero, BitVec.not_zero, BitVec.and_allOnes]

/-- A plain write of a register all of whose writable fields are W1C: each bit written 1 there is cleared, every other bit stays. -/
theorem DieSt.plain_w1c (d : DieSt) {a : Nat} {r : RegRow} (v : Word) (h : findRow a = some r) (hr : r.rw = 0) :
    d.plain a v = d.wr a (d.rd a &&& ~~~(v &&& BitVec.ofNat 32 r.w1c)) := by
  simp only [DieSt.plain, h, hr, BitVec.and_zero, BitVec.not_zero, BitVec.and_allOnes, BitVec.or_zero]

theorem findRow_SYS_EVT_CFG : findRow R.SYS_EVT_CFG =
    some ⟨0x10000010, 1, 0x100000000, 1, 0x100000000, .team, .cold, 0x0, 0xe0fc0fff, 0x0⟩ := by decide

theorem findRow_PACE_ERR : findRow R.PACE_ERR =
    some ⟨0x1006001c, 1, 0x100000000, 1, 0x100000000, .team, .cold, 0x0, 0x0, 0xff⟩ := by decide

theorem DieSt.writeOk_SYS_EVT_CFG (d : DieSt) (m : Master) (v : Word) (e : BusEnv) : d.writeOk m R.SYS_EVT_CFG v e =
    (d.wr R.SYS_EVT_CFG ((d.rd R.SYS_EVT_CFG &&& 0x1F03F000) ||| (v &&& 0xE0FC0FFF)), false) := by
  have hb : blkOf R.SYS_EVT_CFG = some .bSYS := by decide
  simp only [DieSt.writeOk, hb, d.plain_rw v findRow_SYS_EVT_CFG rfl]
  rfl

theorem DieSt.writeOk_PACE_ERR (d : DieSt) (m : Master) (v : Word) (e : BusEnv) : d.writeOk m R.PACE_ERR v e =
    (d.wr R.PACE_ERR (d.rd R.PACE_ERR &&& ~~~(v &&& 0xFF)), false) := by
  have hb : blkOf R.PACE_ERR = some .bPACE := by decide
  have hw : d.writePace R.PACE_ERR v = (d.plain R.PACE_ERR v, false) := rfl
  simp only [DieSt.writeOk, hb, hw, d.plain_w1c v findRow_PACE_ERR rfl]
  rfl

/-- Settles O7: each check that turns an access away does so by itself, and a plain write follows the masks of its row. -/
theorem registerWriteRules : Obligations.RegisterWriteRules := by
  intro s x d m a v e h
  refine ⟨fun b rows r ha hf hse hros hb hup => ⟨fun habs => ⟨?_, ?_⟩, fun habs hlive => ⟨?_, ?_⟩, fun hr hown => ?_⟩,
    fun ht => ?_, fun ht => ?_⟩
  · exact exec_registerWrite_err h v e ⟨hf, hse, hros⟩ (d.writeCheck_absent m hb habs)
  · exact exec_word64LowRead h m a fun c alarm =>
      (d.withXing c).busRead_void m ⟨hf, hse, hros⟩ alarm (d.readCheck_absent m hb hup ha habs)
  · exact exec_registerWrite_err h v e ⟨hf, hse, hros⟩ (d.writeCheck_unpowered m hb hlive)
  · exact exec_word64LowRead h m a fun c alarm =>
      (d.withXing c).busRead_err m ⟨hf, hse, hros⟩ alarm (d.readCheck_unpowered m hb habs hlive)
  · exact exec_registerWrite_err h v e ⟨hf, hse, hros⟩ (d.writeCheck_owner m hb hr hown)
  · exact exec_registerWrite_ok ht v e (by unfold plainAddress; decide) (by decide) (by decide) (by decide) (by decide)
      fun d => d.writeOk_SYS_EVT_CFG m v e
  · exact exec_registerWrite_ok ht v e (by unfold plainAddress; decide) (by decide) (by decide) (by decide) (by decide)
      fun d => d.writeOk_PACE_ERR m v e

/-! ### 64-bit values (R8) -/

/-- MT_NOW is there on every die and takes a read of every master whose bus is up. -/
theorem DieSt.readCheck_MT_NOW (d : DieSt) {m : Master} (h : d.busUp m = true) :
    d.readCheck m R.MT_NOW_LO 4 = .ok ∧ d.readCheck m R.MT_NOW_HI 4 = .ok := by
  unfold DieSt.readCheck
  rw [h]
  exact ⟨rfl, rfl⟩

/-- A read of a low word shows it and latches the high word for its master. -/
theorem DieSt.readOk_low (d : DieSt) (m : Master) (alarm : Bool) {a : Nat} (h : readsPair a = true) :
    d.readOk m alarm a = (d.latchLow m a (d.live alarm (a + 4))).answer m (d.live alarm a) false := by
  simp [DieSt.readOk, h]

/-- A read of a high word takes the master's latch. -/
theorem DieSt.readOk_high (d : DieSt) (m : Master) (alarm : Bool) {a : Nat} (hlo : readsPair (a + 4) = false) (h : readsPair a = true) :
    d.readOk m alarm (a + 4) =
      (d.takeHigh m a (d.live alarm (a + 4))).1.answer m (d.takeHigh m a (d.live alarm (a + 4))).2 false := by
  simp [DieSt.readOk, hlo, h]

theorem DieSt.readOk_MT_NOW_LO (d : DieSt) (m : Master) (alarm : Bool) : d.readOk m alarm R.MT_NOW_LO =
    (d.latchLow m R.MT_NOW_LO (d.mt.extractLsb' 32 32)).answer m (d.mt.setWidth 32) false := d.readOk_low m alarm (by decide)

theorem DieSt.readOk_MT_NOW_HI (d : DieSt) (m : Master) (alarm : Bool) : d.readOk m alarm R.MT_NOW_HI =
    (d.takeHigh m R.MT_NOW_LO (d.mt.extractLsb' 32 32)).1.answer m (d.takeHigh m R.MT_NOW_LO (d.mt.extractLsb' 32 32)).2 false :=
  d.readOk_high m alarm (a := R.MT_NOW_LO) (by decide) (by decide)

theorem DieSt.takeHigh_latched (d : DieSt) {m : Master} {a : Nat} {w : Word} (live : Word)
    (h : d.rdLatch.get (fun _ => none) (masterKey m) = some (a, w)) :
    d.takeHigh m a live = ({ d with rdLatch := d.rdLatch.set (fun _ => none) (masterKey m) none }, w) := by
  simp [DieSt.takeHigh, h]

theorem DieSt.takeHigh_empty (d : DieSt) {m : Master} (a : Nat) (live : Word)
    (h : d.rdLatch.get (fun _ => none) (masterKey m) = none) : d.takeHigh m a live = (d, live) := by
  simp [DieSt.takeHigh, h]

theorem DieSt.takeLow_latched (d : DieSt) {m : Master} {a : Nat} {w : Word} (live : Word)
    (h : d.wrLatch.get (fun _ => none) (masterKey m) = some (a, w)) :
    d.takeLow m a live = ({ d with wrLatch := d.wrLatch.set (fun _ => none) (masterKey m) none }, w) := by
  simp [DieSt.takeLow, h]

/-- A latch that holds no low word of the value gives nothing, and stays. -/
theorem DieSt.takeLow_other (d : DieSt) {m : Master} {a : Nat} (live : Word)
    (h : ∀ w, d.wrLatch.get (fun _ => none) (masterKey m) ≠ some (a, w)) : d.takeLow m a live = (d, live) := by
  unfold DieSt.takeLow
  split
  · next b w hl => exact if_neg fun (e : b = a) => h w (e ▸ hl)
  · rfl

theorem DieSt.writeLow_free (d : DieSt) (m : Master) {a : Nat} (v : Word) (h : d.pairHeld a = false) :
    d.writeLow m a v = ({ d with wrLatch := d.wrLatch.set (fun _ => none) (masterKey m) (some (a, v)) }, false) := by
  simp [DieSt.writeLow, h]

theorem DieSt.writeLow_held (d : DieSt) (m : Master) {a : Nat} (v : Word) (h : d.pairHeld a = true) : d.writeLow m a v = (d, true) := by
  simp [DieSt.writeLow, h]

theorem DieSt.writeHigh_held (d : DieSt) (m : Master) {a : Nat} (v : Word) (h : d.pairHeld a = true) : d.writeHigh m a v = (d, true) := by
  simp [DieSt.writeHigh, h]

/-- A write of a high word stores it beside the low word the latch gives; MT_EPOCH has a rule of its own (R297). -/
theorem DieSt.writeHigh_free (d : DieSt) (m : Master) {a : Nat} (v : Word) (ha : a ≠ R.MT_EPOCH_LO) (h : d.pairHeld (a + 4) = false) :
    d.writeHigh m (a + 4) v = (((d.takeLow m a (d.rd a)).1.wr a (d.takeLow m a (d.rd a)).2).wr (a + 4) v, false) := by
  have hhi : a + 4 ≠ R.MT_EPOCH_HI := fun e => ha (by simp only [R.MT_EPOCH_HI, R.MT_EPOCH_LO] at *; omega)
  simp [DieSt.writeHigh, h, hhi]

/-- Of the effect `G` of a write that the checks allow, the die and the answer at the bus port. -/
theorem State.onPort_busDo {s : State} {x : Die} {d : DieSt} {m : Master} {a : Nat} (h : s.takes x d m a) (req : Nat)
    {G : DieSt → DieSt × Bool} {g : DieSt → DieSt}
    (hg : ∀ c, (G (d.withXing c)).1.answer m 0 (G (d.withXing c)).2 = g (d.withXing c)) :
    s.onPort x m req (fun s => onDie x s (fun d => d.busDo m a G)) = s.viaPort x m req g :=
  State.onPort_eq_viaPort (State.has_of_takes h) m req fun t c ht => by
    rw [onDie_has ht, (d.withXing c).busDo_ok m a G h.2, hg]

section Writes
variable {s : State} {x : Die} {d : DieSt} {m : Master} {a : Nat} (v : Word) (hp : writesPair a = true) {g : DieSt → DieSt}
include hp

/-- A write of a low word as a command. -/
theorem exec_word64LowWrite (h : s.takes x d m a)
    (hg : ∀ c, ((d.withXing c).writeLow m a v).1.answer m 0 ((d.withXing c).writeLow m a v).2 = g (d.withXing c)) :
    exec (.word64LowWrite x m a v) s = .next (s.viaPort x m (busReq a true v) g) :=
  congrArg Host.Outcome.next ((if_pos hp).trans (State.onPort_busDo h _ hg))

/-- A write of a high word as a command. -/
theorem exec_word64HighWrite (h : s.takes x d m (a + 4))
    (hg : ∀ c, ((d.withXing c).writeHigh m (a + 4) v).1.answer m 0 ((d.withXing c).writeHigh m (a + 4) v).2 = g (d.withXing c)) :
    exec (.word64HighWrite x m (a + 4) v) s = .next (s.viaPort x m (busReq (a + 4) true v) g) :=
  congrArg Host.Outcome.next ((if_pos hp).trans (State.onPort_busDo h _ hg))

end Writes

/-- Settles O8: each half of a pair goes through its master's latch as `takeHigh`, `takeLow` and `writeLow` say. -/
theorem pairsReadAndWriteWhole : Obligations.PairsReadAndWriteWhole := by
  intro s x d m h
  refine ⟨fun hup => ?_, fun a v hp hne => ⟨fun ht => ⟨fun hfree => ?_, fun hheld => ?_⟩,
    fun ht => ⟨fun hheld => ?_, fun lo hfree hl => ?_, fun hfree hl => ?_⟩⟩⟩
  · have hlo : plainAddress R.MT_NOW_LO := by unfold plainAddress; decide
    have hhi : plainAddress R.MT_NOW_HI := by unfold plainAddress; decide
    obtain ⟨rlo, rhi⟩ := d.readCheck_MT_NOW hup
    have low (c : Tab XSt) (alarm : Bool) :=
      ((d.withXing c).busRead_ok m hlo alarm rlo (by decide)).trans (DieSt.readOk_MT_NOW_LO _ m alarm)
    have high (c : Tab XSt) (alarm : Bool) :=
      ((d.withXing c).busRead_ok m hhi alarm rhi (by decide)).trans (DieSt.readOk_MT_NOW_HI _ m alarm)
    exact ⟨exec_word64LowRead h m _ low,
      fun w hw => exec_word64LowRead h m _ fun c alarm => (high c alarm).trans (by rw [(d.withXing c).takeHigh_latched _ hw]),
      fun hw => exec_word64LowRead h m _ fun c alarm => (high c alarm).trans (by rw [(d.withXing c).takeHigh_empty _ _ hw])⟩
  · exact exec_word64LowWrite v hp ht fun c => by rw [(d.withXing c).writeLow_free m v hfree]; rfl
  · exact exec_word64LowWrite v hp ht fun c => by rw [(d.withXing c).writeLow_held m v hheld]
  · exact exec_word64HighWrite v hp ht fun c => by rw [(d.withXing c).writeHigh_held m v hheld]
  · exact exec_word64HighWrite v hp ht fun c => by
      rw [(d.withXing c).writeHigh_free m v hne hfree, (d.withXing c).takeLow_latched _ hl]; rfl
  · exact exec_word64HighWrite v hp ht fun c => by
      rw [(d.withXing c).writeHigh_free m v hne hfree, (d.withXing c).takeLow_other _ hl]; rfl

/-! ### Where the pairs lie (Table 20-1) -/

/-- An address of a block lies in the block's span. -/
theorem blkOf_span {a lo hi : Nat} {b : Blk} (h : blkOf a = some b) (hs : ∀ e ∈ blkTable, e.2.2.1 = b → e.1 = lo ∧ e.2.1 = hi) :
    lo ≤ a ∧ a ≤ hi := by
  simp only [blkOf, findBlk, Option.map_map, Option.map_eq_some_iff] at h
  obtain ⟨e, he, hb⟩ := h
  obtain ⟨rfl, rfl⟩ := hs e (List.mem_of_find?_eq_some he) hb
  simpa using List.find?_some he

/-- A pair but MT_EPOCH is the Roster's key, a queue's Q_WR, a pair of a check-value unit or of one of the Umpire's rate counters. -/
theorem writesPair_span {a : Nat} (h : writesPair a = true) (hne : a ≠ R.MT_EPOCH_LO) :
    a = R.ROS_KEY_LO ∨ (0x14000000 ≤ a ∧ a ≤ 0x1400ffff ∧ a % 0x80 = 0x28) ∨ (0x14010000 ≤ a ∧ a ≤ 0x1401ffff) ∨
      (0x17000040 ≤ a ∧ a < 0x170000c0) := by
  unfold writesPair at h
  split at h
  · exact .inl (by simpa using h)
  · next hb =>
    obtain ⟨hlo, hhi⟩ := blkOf_span (lo := 0x14000000) (hi := 0x1400ffff) hb (by decide)
    exact .inr (.inl ⟨hlo, hhi, by simpa using h⟩)
  · next hb => exact .inr (.inr (.inl (blkOf_span hb (by decide))))
  · exact absurd (by simpa using h) hne
  · simp only [Bool.and_eq_true] at h
    obtain ⟨⟨hlo, hhi⟩, -⟩ := h
    exact .inr (.inr (.inr ⟨of_decide_eq_true hlo, of_decide_eq_true hhi⟩))
  · simp at h

/-! ### What a register write leaves of the checks of an access (R9, R28) -/

/-- A check that turns an access away must not find anything for the access to be carried out. -/
theorem ite_err_eq_ok {c : Prop} [Decidable c] {x : Access} : (if c then Access.err else x) = .ok ↔ ¬c ∧ x = .ok := by
  by_cases h : c
  · rw [if_pos h]
    exact ⟨nofun, fun hn => absurd h hn.1⟩
  · rw [if_neg h]
    exact ⟨fun hx => ⟨h, hx⟩, fun hn => hn.2⟩

/-- What a write that passes the checks meets. -/
theorem DieSt.writeCheck_ok_iff (d : DieSt) (m : Master) (a : Nat) : d.writeCheck m a 4 = .ok ↔
    d.busUp m = true ∧ a % 4 = 0 ∧ ∃ b rows r, findBlk a = some (b, rows) ∧ d.absentAt b a = false ∧ d.liveAt b a = true ∧
      (b = .bREF → m = .referee) ∧ rows.find? (fun r => r.has a) = some r ∧ mayWrite m r.owner = true := by
  unfold DieSt.writeCheck
  cases hb : findBlk a with
  | none =>
    simp only [ite_err_eq_ok, reduceCtorEq, and_false, false_iff]
    rintro ⟨-, -, b, rows, r, h, -⟩
    cases h
  | some p =>
    obtain ⟨b, rows⟩ := p
    cases hr : rows.find? (fun r => r.has a) with
    | none =>
      simp only [ite_err_eq_ok, hr, reduceCtorEq, and_false, false_iff]
      rintro ⟨-, -, b', rows', r, h, -, -, -, hr', -⟩
      cases h
      rw [hr] at hr'
      cases hr'
    | some r =>
      have hown : (if mayWrite m r.owner = true then Access.ok else Access.err) = .ok ↔ mayWrite m r.owner = true := by
        cases mayWrite m r.owner <;> decide
      simp only [ite_err_eq_ok, hr, hown]
      constructor
      · rintro ⟨hup, ha, habs, hlive, href, hw⟩
        exact ⟨by simpa using hup, by simpa using ha, b, rows, r, rfl, by simpa using habs, by simpa using hlive, by simpa using href,
          hr, hw⟩
      · rintro ⟨hup, ha, b', rows', r', h, habs, hlive, href, hr', hw⟩
        cases h
        rw [hr] at hr'
        cases hr'
        exact ⟨by simp [hup], by simp [ha], by simp [habs], by simp [hlive], by simpa using href, hw⟩

/-- Only the Referee and Team write registers (R9). -/
theorem writer_of_mayWrite {m : Master} {o : Owner} (h : mayWrite m o = true) : m = .referee ∨ m = .team := by
  cases m with
  | referee => exact .inl rfl
  | team => exact .inr rfl
  | fabric | host | testPort => cases o <;> simp [mayWrite] at h

theorem DieSt.writer_of_ok {d : DieSt} {m : Master} {a : Nat} (h : d.writeCheck m a 4 = .ok) : m = .referee ∨ m = .team := by
  obtain ⟨-, -, -, -, r, -, -, -, -, -, hown⟩ := (d.writeCheck_ok_iff m a).1 h
  exact writer_of_mayWrite hown

section OtherRegister
variable (d : DieSt) {a : Nat} (v : Word) (ha : 0x10020000 ≤ a)
include ha

/-- A write above the power registers leaves every field of theirs. -/
theorem DieSt.f_wr_power (y : Fld) (hy : y.addr < 0x10020000) : (d.wr a v).f y = d.f y := d.f_wr_ne y (by omega) v

theorem DieSt.on_wr_power (y : Fld) (hy : y.addr < 0x10020000) : (d.wr a v).on y = d.on y := by
  unfold DieSt.on; rw [d.f_wr_power v ha y hy]

theorem DieSt.domOn_wr {k : Nat} (hk : k < 96) : (d.wr a v).domOn k = d.domOn k := by
  have hdom : R.PWR_DOM_ON (k / 32) ≠ a := by simp only [R.PWR_DOM_ON]; omega
  unfold DieSt.domOn
  rw [DieSt.rd_wr_ne _ hdom, d.on_wr_power v ha _ (by decide), d.on_wr_power v ha _ (by decide)]
  rfl

theorem DieSt.busUp_wr {m : Master} (hm : m = .referee ∨ m = .team) : (d.wr a v).busUp m = d.busUp m := by
  have hdev : (d.wr a v).dev = d.dev := d.f_wr_power v ha _ (by decide)
  rcases hm with rfl | rfl <;> simp only [DieSt.busUp, d.domOn_wr v ha, hdev, Nat.reduceLT] <;> rfl

/-- Every block but the engines is powered as it was. -/
theorem DieSt.liveAt_wr {b : Blk} (hb : b ≠ .bSE) (j : Nat) : (d.wr a v).liveAt b j = d.liveAt b j := by
  have hhub : (d.wr a v).hubOn = d.hubOn := by
    simp only [DieSt.hubOn, d.domOn_wr v ha, d.on_wr_power v ha F.PWR_BLK_RST_HUB (by decide), Nat.reduceLT]
  have hros : (d.wr a v).rosOn = d.rosOn := by
    simp only [DieSt.rosOn, d.domOn_wr v ha, d.on_wr_power v ha F.PWR_BLK_RST_ROSTER (by decide), Nat.reduceLT]
  have hdmc (c : Nat) (hc : c < 4) : (d.wr a v).dmcOn c = d.dmcOn c := by
    simp only [DieSt.dmcOn, d.domOn_wr v ha (k := 64 + c) (by omega), d.f_wr_power v ha F.PWR_BLK_RST_DMC (by decide)]; rfl
  cases b with
  | bSE => exact absurd rfl hb
  | bROS => exact hros
  | bQ | bCRC | bETH => exact hhub
  | bDMC =>
    simp only [DieSt.liveAt]
    split
    · next hc => exact hdmc _ hc
    · rfl
  | bCFG | bSWP | bSUB | bRGN | bFTT | bCAR | bMET => exact d.domOn_wr v ha (by decide)
  | _ => rfl

/-- A write above the power registers leaves the checks of another write below the engines: those of the master, the power and the
owner. -/
theorem DieSt.writeCheck_wr {m : Master} {j : Nat} (hj : j < 0x40000000) (h : d.writeCheck m j 4 = .ok) :
    (d.wr a v).writeCheck m j 4 = .ok := by
  have hm := DieSt.writer_of_ok h
  obtain ⟨hup, hj4, b, rows, r, hb, habs, hlive, href, hr, hown⟩ := (d.writeCheck_ok_iff m j).1 h
  have hse : b ≠ .bSE := by
    rintro rfl
    have := blkOf_span (lo := 0x40000000) (hi := 0x457fffff) (a := j) (b := .bSE) (by simp [blkOf, hb]) (by decide)
    omega
  exact ((d.wr a v).writeCheck_ok_iff m j).2
    ⟨by rw [d.busUp_wr v ha hm, hup], hj4, b, rows, r, hb, habs, by rw [d.liveAt_wr v ha hse, hlive], href, hr, hown⟩

end OtherRegister

/-- A queue's write side is bound as it was after a write of a register that is no Q_CFG. -/
theorem DieSt.qWriter_wr (d : DieSt) {a : Nat} (v : Word) (q : Nat) (ha : a ≠ R.Q_CFG q) : (d.wr a v).qWriter q = d.qWriter q := by
  have hf (y : Fld) (hy : y.addr = R.Q_CFG q) : (d.wr a v).f y = d.f y := d.f_wr_ne y (by omega) v
  simp only [DieSt.qWriter, DieSt.on, hf (F.Q_CFG_WSRC q) rfl, hf (F.Q_CFG_WSEL q) rfl, hf (F.Q_CFG_WSIDE q) rfl]

/-- A write of either half of a pair but MT_EPOCH leaves it held or free. -/
theorem DieSt.pairHeld_wr (d : DieSt) {a b : Nat} (v : Word) (hp : writesPair a = true) (hne : a ≠ R.MT_EPOCH_LO)
    (hb : b = a ∨ b = a + 4) : (d.wr b v).pairHeld (a + 4) = d.pairHeld (a + 4) := by
  have hspan := writesPair_span hp hne
  simp only [R.ROS_KEY_LO] at hspan
  have hep (e : DieSt) : e.epochHeld (a + 4) = false := by
    have h1 : a + 4 ≠ R.MT_EPOCH_LO := by simp only [R.MT_EPOCH_LO]; omega
    have h2 : a + 4 ≠ R.MT_EPOCH_HI := by simp only [R.MT_EPOCH_HI]; omega
    simp [DieSt.epochHeld, h1, h2]
  simp only [DieSt.pairHeld, hep, Bool.false_or]
  cases hq : blkOf (a + 4) == some Blk.bQ with
  | false => rfl
  | true =>
    have := blkOf_span (lo := 0x14000000) (hi := 0x1400ffff) (eq_of_beq hq) (by decide)
    rw [d.qWriter_wr v _ (by simp only [R.Q_CFG]; omega)]

/-! ### The writes of two masters, in turn (R8) -/

/-- On a die that takes the writes of a master, its port is the bus itself. -/
theorem State.viaPort_of_takes {s : State} {x : Die} {d : DieSt} {m : Master} {a : Nat} (h : s.takes x d m a) (req : Nat)
    (g : DieSt → DieSt) : s.viaPort x m req g = s.setDie x (g d) := by
  rcases DieSt.writer_of_ok h.2 with rfl | rfl <;> exact congrArg (fun e => s.setDie x (g e)) h.1

/-- The die with the low word of the pair at `a` in the latch of master `m`. -/
def DieSt.lowLatched (d : DieSt) (m : Master) (a : Nat) (v : Word) : DieSt :=
  { d with wrLatch := d.wrLatch.set (fun _ => none) (masterKey m) (some (a, v)) }

/-- The die with the pair at `a` stored, and the latch of master `m` empty. -/
def DieSt.pairStored (d : DieSt) (m : Master) (a : Nat) (lo hi : Word) : DieSt :=
  (({ d with wrLatch := d.wrLatch.set (fun _ => none) (masterKey m) none } : DieSt).wr a lo).wr (a + 4) hi

/-- The checks of a write look at the fuses and the registers. -/
theorem DieSt.writeCheck_congr {d e : DieSt} (hi : e.idn = d.idn) (hr : e.regs = d.regs) (m : Master) (a : Nat) :
    e.writeCheck m a 4 = d.writeCheck m a 4 := by
  cases d; cases e; cases hi; cases hr; rfl

theorem DieSt.pairHeld_congr {d e : DieSt} (hi : e.idn = d.idn) (hr : e.regs = d.regs) (a : Nat) : e.pairHeld a = d.pairHeld a := by
  cases d; cases e; cases hi; cases hr; rfl

section PairFrame
variable (d : DieSt) (m n : Master) {a : Nat} (lo hi : Word)

theorem DieSt.rd_pairStored_ack : ((d.pairStored m a lo hi).ack m).rd a = lo ∧ ((d.pairStored m a lo hi).ack m).rd (a + 4) = hi :=
  ⟨(DieSt.rd_wr_ne _ (by omega) _).trans (DieSt.rd_wr_self _ _ _), DieSt.rd_wr_self _ _ _⟩

variable (hp : writesPair a = true) (hne : a ≠ R.MT_EPOCH_LO)
include hp hne

theorem DieSt.pairStored_ack_writeCheck (h : d.writeCheck n (a + 4) 4 = .ok) :
    ((d.pairStored m a lo hi).ack m).writeCheck n (a + 4) 4 = .ok := by
  have hspan := writesPair_span hp hne
  simp only [R.ROS_KEY_LO] at hspan
  rw [DieSt.writeCheck_congr (e := (d.pairStored m a lo hi).ack m) (d := (d.wr a lo).wr (a + 4) hi) rfl rfl]
  exact DieSt.writeCheck_wr _ hi (by omega) (by omega) (d.writeCheck_wr lo (by omega) (by omega) h)

theorem DieSt.pairStored_ack_pairHeld : ((d.pairStored m a lo hi).ack m).pairHeld (a + 4) = d.pairHeld (a + 4) := by
  rw [DieSt.pairHeld_congr (e := (d.pairStored m a lo hi).ack m) (d := (d.wr a lo).wr (a + 4) hi) rfl rfl,
    DieSt.pairHeld_wr _ hi hp hne (.inr rfl), d.pairHeld_wr lo hp hne (.inl rfl)]

end PairFrame

section Pair
variable {s : State} {x : Die} {d : DieSt} {m : Master} {a : Nat} (hp : writesPair a = true)
include hp

/-- A low word waits in its master's latch. -/
theorem exec_word64LowWrite_latches (v : Word) (h : s.takes x d m a) (hh : d.pairHeld a = false) :
    exec (.word64LowWrite x m a v) s = .next (s.setDie x ((d.lowLatched m a v).ack m)) := by
  rw [exec_word64LowWrite (g := fun d => (d.lowLatched m a v).ack m) v hp h fun c => by rw [(d.withXing c).writeLow_free m v hh]; rfl,
    State.viaPort_of_takes h]

/-- A high word takes the low word that waits. -/
theorem exec_word64HighWrite_pairs (hne : a ≠ R.MT_EPOCH_LO) {lo : Word} (hi : Word) (h : s.takes x d m (a + 4))
    (hh : d.pairHeld (a + 4) = false) (hl : d.wrLatch.get (fun _ => none) (masterKey m) = some (a, lo)) :
    exec (.word64HighWrite x m (a + 4) hi) s = .next (s.setDie x ((d.pairStored m a lo hi).ack m)) := by
  rw [exec_word64HighWrite (g := fun d => (d.pairStored m a lo hi).ack m) hi hp h fun c => by
    rw [(d.withXing c).writeHigh_free m hi hne hh, (d.withXing c).takeLow_latched _ hl]; rfl, State.viaPort_of_takes h]

end Pair

/-- Settles O9: each low word waits in its own master's latch, and neither write of the other master reaches it. -/
theorem pairsOfTwoMastersNeverMix : Obligations.PairsOfTwoMastersNeverMix := by
  intro s x d m n a lo hi lo' hi' hp hne hfree hfree' hmn hm hn hm' hn'
  have e1 := exec_word64LowWrite_latches hp lo hm hfree
  generalize h1 : (d.lowLatched m a lo).ack m = d1 at e1
  obtain ⟨i1, r1⟩ : d1.idn = d.idn ∧ d1.regs = d.regs := h1 ▸ ⟨rfl, rfl⟩
  have e2 := exec_word64LowWrite_latches (m := n) hp lo' ⟨s.die_setDie x d1, (DieSt.writeCheck_congr i1 r1 n a).trans hn.2⟩
    ((DieSt.pairHeld_congr i1 r1 a).trans hfree)
  generalize h2 : (d1.lowLatched n a lo').ack n = d2 at e2
  obtain ⟨i2, r2⟩ : d2.idn = d.idn ∧ d2.regs = d.regs := h2 ▸ ⟨i1, r1⟩
  have lm : d2.wrLatch.get (fun _ => none) (masterKey m) = some (a, lo) := by
    subst h2 h1
    exact (Tab.get_set_ne _ _ hmn _).trans (Tab.get_set_self _ _ _ _)
  have ln : d2.wrLatch.get (fun _ => none) (masterKey n) = some (a, lo') := by
    subst h2
    exact Tab.get_set_self _ _ _ _
  have ok2 (k : Master) (hk : d.writeCheck k (a + 4) 4 = .ok) : d2.writeCheck k (a + 4) 4 = .ok :=
    (DieSt.writeCheck_congr i2 r2 k (a + 4)).trans hk
  have free2 : d2.pairHeld (a + 4) = false := (DieSt.pairHeld_congr i2 r2 (a + 4)).trans hfree'
  have e3 := exec_word64HighWrite_pairs hp hne hi ⟨(s.setDie x d1).die_setDie x d2, ok2 m hm'⟩ free2 lm
  have e4 := exec_word64HighWrite_pairs hp hne hi'
    ⟨((s.setDie x d1).setDie x d2).die_setDie x _, d2.pairStored_ack_writeCheck m n lo hi hp hne (ok2 n hn')⟩
    ((d2.pairStored_ack_pairHeld m lo hi hp hne).trans free2) ((Tab.get_set_ne _ _ hmn.symm _).trans ln)
  have rd1 (b : Nat) : d1.rd b = d.rd b := by simp only [DieSt.rd, r1]
  have rd2 (b : Nat) : d2.rd b = d.rd b := by simp only [DieSt.rd, r2]
  have rd3 := d2.rd_pairStored_ack m (a := a) lo hi
  have rd4 := ((d2.pairStored m a lo hi).ack m).rd_pairStored_ack n (a := a) lo' hi'
  refine ⟨_, _, _, _, e1, e2, e3, e4, ?_⟩
  simp only [State.die_setDie]
  exact ⟨rd1 a, rd1 _, rd2 a, rd2 _, rd3.1, rd3.2, rd4.1, rd4.2⟩

end Sys2Proof.Machine

/-! # Architecture: accesses to the other die (O10) -/

namespace Sys2Proof.Machine

/-- The crossing that takes the requests of the bus port of row `r` (Table 09-3). -/
def busPortX (r : Nat) : XRef := ⟨5, r, 0, true⟩

/-- A request that finds the port's crossing closed waits there, and the access does nothing. -/
theorem State.onPort_closed {s : State} {x : Die} {d : DieSt} (h : s.has x d) {r : Nat} (req : Nat) (g : State → State)
    (hc : d.xOpen (busPortX r) = false) : s.onPort x (.fabric r) req g = s.setDie x (d.xOffer (busPortX r) req) := by
  unfold busPortX at hc ⊢
  simp [State.onPort, h.1, onDie_has h, DieSt.xPass, hc]

/-- An access to the other die from a bus port whose crossing is closed never reaches that die. -/
theorem exec_crossDieAccess_portClosed {s : State} {x : Die} {d : DieSt} (h : s.has x d) {r : Nat} (a size : Nat) (wr : Bool) (v : Word)
    (e : BusEnv) (hy : (s.die (otherDie x)).idn.absent = false) (hup : d.busUp (.fabric r) = true)
    (hc : d.xOpen (busPortX r) = false) :
    exec (.crossDieAccess x (.fabric r) a size wr v e) s
      = .next (s.setDie x (d.xOffer (busPortX r) (busReq (a + 2 ^ 29) wr v))) := by
  refine congrArg Host.Outcome.next ?_
  simp only [State.crossAccess, hy, h.1, hup, Bool.not_true, Bool.or_self, Bool.false_eq_true, if_false]
  exact State.onPort_closed h _ _ hc

/-- A die of the two-die part in PLAY, with half-row 0 and the management bus on (R28). -/
def inPlay (second : Bool) : DieSt :=
  (({ DieSt.reset with idn := { Ident.reset with part := .tsl8680T4096, second := second } }.wr (R.PWR_DOM_ON 0) 1).wr
    (R.PWR_DOM_ON 2) 0x1000).put F.PWR_STATE_STATE 4

/-- That die with an earlier request of row 0's bus port in flight (R231). -/
def inPlayPortBusy : DieSt := (inPlay false).xOffer (busPortX 0) 0

/-- Refutes O10: it asks every master whose bus is up on both dies to get its answer, and a request of a fabric bus port waits while the
port's crossing holds an earlier one (R234), so that its master keeps the answer it had. -/
theorem not_crossDieAccesses : ¬ Obligations.CrossDieAccesses := by
  intro h
  have h0 : State.has ⟨[], inPlayPortBusy, inPlay true⟩ .die0 inPlayPortBusy := ⟨rfl, by decide⟩
  have h1 : State.has ⟨[], inPlayPortBusy, inPlay true⟩ .die1 (inPlay true) := ⟨rfl, by decide⟩
  have up0 : inPlayPortBusy.busUp (.fabric 0) = true := by decide
  have up1 : (inPlay true).busUp (.fabric 0) = true := by decide
  have closed : inPlayPortBusy.xOpen (busPortX 0) = false := by decide
  obtain ⟨-, -, answers⟩ := h _ .die0 _ (.fabric 0) 0 0 false 0 ⟨0, false⟩ h0
  obtain ⟨⟨t, ht, hresp, -⟩, -⟩ := answers _ h1 up0 up1
  rw [exec_crossDieAccess_portClosed h0 _ _ _ _ _ h1.2 up0 closed] at ht
  obtain rfl := Host.Outcome.next.inj ht
  rw [State.die_setDie, DieSt.xOffer_resp] at hresp
  have kept : inPlayPortBusy.resp.get (fun _ => Resp.reset) (masterKey (.fabric 0)) ≠ ⟨(inPlay true).idn.sysId, false⟩ := by decide
  exact kept hresp

end Sys2Proof.Machine

/-! # The handshake fabric: stages, dual-rail words, merge elements, arbiters and matched delays (O11, O12) -/

namespace Sys2Proof.Machine

/-- A command on a die that is there, by what its meaning makes of that die. -/
theorem act_next {s : State} {x : Die} {d e : DieSt} {g : DieSt → DieSt} (h : s.has x d) (hg : g d = e) :
    act x s g = .next (s.setDie x e) := hg ▸ act_has x s d g h

/-! ### The four phases of a bundled-data stage (R60, R64) -/

section Stage
variable {d : DieSt} {rg u : Nat} {st : StageCfg} (hon : d.regionOn rg = true) (hst : d.stageCfg rg u = some st) (e : FabEnv)
include hon hst

/-- A request at an empty stage whose acknowledge is low is captured. -/
theorem DieSt.stageCapture_offered (hreq : d.levelIn e rg u st.reqSel = true) (hack : (d.stage (1024 * rg + u)).ackIn = false)
    (hempty : (d.stage (1024 * rg + u)).full = false) :
    d.stageCapture rg u e
      = (d.capture rg st e).setStage (1024 * rg + u) { d.stage (1024 * rg + u) with full := true, ackIn := true } := by
  simp [DieSt.stageCapture, hst, hon, hreq, hack, hempty]

/-- A full stage on an idle output channel raises its request behind an open gate. -/
theorem DieSt.delayEnd_rises (hgate : d.gateOpen rg = true) (hfull : (d.stage (1024 * rg + u)).full = true)
    (hidle : (d.stage (1024 * rg + u)).req = false) (hack : d.levelIn e rg u st.ackSel = false) :
    d.delayEnd rg u e = d.setStage (1024 * rg + u) { d.stage (1024 * rg + u) with req := true, runs := false } := by
  simp [DieSt.delayEnd, hst, hon, hgate, hfull, hidle, hack]

/-- A request that the stage ahead has acknowledged is a token passed. -/
theorem DieSt.handover_acknowledged (hreq : (d.stage (1024 * rg + u)).req = true) (hack : d.levelIn e rg u st.ackSel = true) :
    d.handover rg u e
      = (d.tokenPassed rg u).setStage (1024 * rg + u) { d.stage (1024 * rg + u) with full := false, req := false } := by
  simp [DieSt.handover, hst, hon, hreq, hack]

/-- The acknowledge falls once the request it answers has fallen. -/
theorem DieSt.inputWithdraw_fallen (hack : (d.stage (1024 * rg + u)).ackIn = true) (hreq : d.levelIn e rg u st.reqSel = false) :
    d.inputWithdraw rg u e = d.setStage (1024 * rg + u) { d.stage (1024 * rg + u) with ackIn := false } := by
  simp [DieSt.inputWithdraw, hst, hon, hack, hreq]

end Stage

/-- Settles O11: each phase's levels are the condition under which its command acts. -/
theorem fourPhaseHandshakeMoves : Obligations.FourPhaseHandshakeMoves := by
  intro s x d rg u env st h hon hst k g e
  refine ⟨fun hreq hack hempty => ?_, fun hgate hfull hidle hack => ?_, fun hreq hack => ?_, fun hack hreq => ?_⟩
  · exact act_next h (DieSt.stageCapture_offered hon hst e hreq hack hempty)
  · exact act_next h (DieSt.delayEnd_rises hon hst e hgate hfull hidle hack)
  · exact act_next h (DieSt.handover_acknowledged hon hst e hreq hack)
  · exact act_next h (DieSt.inputWithdraw_fallen hon hst e hack hreq)

/-! ### The output channel of a dual-rail stage (R55, R57, R58) -/

section Output
variable (d : DieSt) (e : FabEnv) (rg : Nat) {c : RailCfg} {g : RailSt}

/-- A decoder that holds a token withdraws its request once that is acknowledged. -/
theorem DieSt.railOut_decoder_withdraws (hc : c.decoder = true) (hfull : g.full = true) (hreq : g.req = true)
    (hack : d.levelIn e rg c.key c.ackSel = true) : d.railOut e rg c g = { g with req := false, full := false } := by
  simp [DieSt.railOut, hc, hfull, hreq, hack]

/-- It raises its request on an idle channel, behind an open gate. -/
theorem DieSt.railOut_decoder_offers (hc : c.decoder = true) (hfull : g.full = true) (hreq : g.req = false)
    (hgate : d.gateOpen rg = true) (hack : d.levelIn e rg c.key c.ackSel = false) :
    d.railOut e rg c g = { g with req := true } := by
  simp [DieSt.railOut, hc, hfull, hreq, hgate, hack]

/-- A stage returns its word to null once that is acknowledged. -/
theorem DieSt.railOut_stage_withdraws (hc : c.decoder = false) (hdrive : g.drive = true)
    (hack : d.levelIn e rg c.key c.ackSel = true) : d.railOut e rg c g = { g with drive := false, full := false } := by
  simp [DieSt.railOut, hc, hdrive, hack]

/-- It offers its word on an idle channel, behind an open gate. -/
theorem DieSt.railOut_stage_offers (hc : c.decoder = false) (hdrive : g.drive = false) (hfull : g.full = true)
    (hgate : d.gateOpen rg = true) (hack : d.levelIn e rg c.key c.ackSel = false) :
    d.railOut e rg c g = { g with drive := true } := by
  simp [DieSt.railOut, hc, hdrive, hfull, hgate, hack]

/-- A word not yet offered is offered just where the gate is open and the acknowledge ahead is low. -/
theorem DieSt.railOut_stage_full (hc : c.decoder = false) (hdrive : g.drive = false) (hfull : g.full = true) :
    d.railOut e rg c g = { g with drive := d.gateOpen rg && !d.levelIn e rg c.key c.ackSel } := by
  obtain ⟨ack, full, drive, req, illegal⟩ := g
  subst hdrive hfull
  cases hoffer : d.gateOpen rg && !d.levelIn e rg c.key c.ackSel <;> simp [DieSt.railOut, hc, hoffer]

end Output

/-- A stage that is no decoder passes no token while it holds one. -/
theorem DieSt.railPut_full (d : DieSt) {c : RailCfg} (rg : Nat) {g : RailSt} (hc : c.decoder = false) (hfull : g.full = true) :
    d.railPut c rg g = d.setRail (1024 * rg + c.key) g := by
  simp [DieSt.railPut, hc, hfull]

/-! ### Capture, null and illegal rails (R55 to R57) -/

theorem DieSt.railCfg_key {d : DieSt} {rg k : Nat} {c : RailCfg} (h : d.railCfg rg k = some c) : c.key = k := by
  unfold DieSt.railCfg at h
  split at h
  · simpa using List.find?_some h
  · cases h

/-- A dual-rail stage as it sees its input word `t`, `f`. -/
def DieSt.railSeen (d : DieSt) (rg k t f : Nat) : RailSt := (d.rail (1024 * rg + k)).seen t f

section Rail
variable {d : DieSt} {rg k : Nat} {c : RailCfg} (hon : d.regionOn rg = true) (hcfg : d.railCfg rg k = some c) (e : FabEnv)
include hon hcfg

section Complete
variable (hword : railsComplete c.inT.length (d.railT e rg c) (d.railF e rg c) = true)
  (hack : (d.railSeen rg k (d.railT e rg c) (d.railF e rg c)).ack = false)
  (hempty : (d.railSeen rg k (d.railT e rg c) (d.railF e rg c)).full = false)
include hword hack hempty

/-- What a complete word does at an empty stage whose acknowledge is low. -/
theorem DieSt.railCapture_complete :
    d.railCapture rg k e =
      let g := d.railSeen rg k (d.railT e rg c) (d.railF e rg c)
      let a := d.levelIn e rg c.key c.ackSel
      if c.decoder then
        if g.req then d.railPut c rg { g with ack := a }
        else if d.gateOpen rg && !a then ((d.railWord rg k e).railDone rg k true).railPut c rg { g with req := true }
        else d.railPut c rg g
      else ((d.railWord rg k e).railDone rg k true).railPut c rg (d.railOut e rg c { g with ack := true, full := true }) := by
  unfold DieSt.railSeen at hack hempty ⊢
  simp [DieSt.railCapture, hcfg, hon, hword, hack, hempty]

/-- A stage captures the word, acknowledges it, and offers it on an idle output. -/
theorem DieSt.railCapture_stage (hc : c.decoder = false)
    (hdrive : (d.railSeen rg k (d.railT e rg c) (d.railF e rg c)).drive = false) :
    d.railCapture rg k e = ((d.railWord rg k e).railDone rg k true).setRail (1024 * rg + k)
      { d.railSeen rg k (d.railT e rg c) (d.railF e rg c) with
        ack := true, full := true, drive := d.gateOpen rg && !d.levelIn e rg k c.ackSel } := by
  simp only [DieSt.railCapture_complete hon hcfg e hword hack hempty, hc, Bool.false_eq_true, if_false]
  rw [d.railOut_stage_full e rg hc, DieSt.railPut_full _ rg hc rfl, DieSt.railCfg_key hcfg]
  · exact hdrive
  · rfl

/-- A decoder first raises its bundled request. -/
theorem DieSt.railCapture_decoder_requests (hc : c.decoder = true)
    (hreq : (d.railSeen rg k (d.railT e rg c) (d.railF e rg c)).req = false) (hgate : d.gateOpen rg = true)
    (hidle : d.levelIn e rg k c.ackSel = false) :
    d.railCapture rg k e = ((d.railWord rg k e).railDone rg k true).railPut c rg
      { d.railSeen rg k (d.railT e rg c) (d.railF e rg c) with req := true } := by
  rw [← DieSt.railCfg_key hcfg] at hidle
  simp [DieSt.railCapture_complete hon hcfg e hword hack hempty, hc, hreq, hgate, hidle]

/-- A decoder that requests acknowledges its word when the stage ahead does. -/
theorem DieSt.railCapture_decoder_acknowledges (hc : c.decoder = true)
    (hreq : (d.railSeen rg k (d.railT e rg c) (d.railF e rg c)).req = true) :
    d.railCapture rg k e
      = d.railPut c rg { d.railSeen rg k (d.railT e rg c) (d.railF e rg c) with ack := d.levelIn e rg k c.ackSel } := by
  simp [DieSt.railCapture_complete hon hcfg e hword hack hempty, hc, hreq, DieSt.railCfg_key hcfg]

end Complete

/-- A captured word that is null again is no longer acknowledged. -/
theorem DieSt.railNull_captured (hnull : railsNull c.inT.length (d.railT e rg c) (d.railF e rg c) = true)
    (hack : (d.railSeen rg k (d.railT e rg c) (d.railF e rg c)).ack = true) :
    d.railNull rg k e = (d.railDone rg k false).railPut c rg
      (d.railOut e rg c { d.railSeen rg k (d.railT e rg c) (d.railF e rg c) with ack := false, req := false }) := by
  unfold DieSt.railSeen at hack ⊢
  simp [DieSt.railNull, hcfg, hon, hnull, hack]

/-- An illegal bit of a stage that has none reported is reported, with the unit that holds its rail T. -/
theorem DieSt.railIllegal_first {ut uf i : Nat}
    (hbit : railsIllegal c.inT.length (Nat.xor (d.railT e rg c) ut) (Nat.xor (d.railF e rg c) uf) = some i)
    (hnone : (d.railSeen rg k (Nat.xor (d.railT e rg c) ut) (Nat.xor (d.railF e rg c) uf)).illegal = none) :
    d.railIllegal rg k ut uf e =
      let u := (((d.design rg).rails' k false).find? (fun x => x.1 == i)).elim k (fun x => x.2)
      ((d.finding rg).setRail (1024 * rg + k)
        { d.railSeen rg k (Nat.xor (d.railT e rg c) ut) (Nat.xor (d.railF e rg c) uf) with illegal := some i }).raise
        rg 0x0301 (u / 16 % 64 * 2 ^ 18 + u % 16 * 2 ^ 14) := by
  unfold DieSt.railSeen at hnone ⊢
  simp only [DieSt.railIllegal, hcfg, hbit, hon, hnone, Option.isNone_none, Bool.and_self, if_true]

end Rail

/-! ### Merge elements (R67) -/

/-- The output of merge element `k` of region `rg` becomes `b`. -/
def DieSt.setMerge (d : DieSt) (rg k : Nat) (b : Bool) : DieSt :=
  { d with fab := { d.fab with merges := d.fab.merges.set (fun _ => false) (544 * rg + k) b } }

section Merge
variable {d : DieSt} {rg k : Nat} {ins : List Link} (hon : d.regionOn rg = true) (hins : (d.design rg).merges[k]? = some ins)
  (hne : ins ≠ []) (e : FabEnv)
include hon hins hne

/-- A merge element with inputs takes the level they share, and stays where they share none. -/
theorem DieSt.mergeChange_eq :
    d.mergeChange rg k e =
      if ∀ l ∈ ins, d.level e rg l = true then d.setMerge rg k true
      else if ∀ l ∈ ins, d.level e rg l = false then d.setMerge rg k false else d := by
  simp [DieSt.mergeChange, DieSt.setMerge, hins, hon, hne]

theorem DieSt.mergeChange_all_high (hall : ∀ l ∈ ins, d.level e rg l = true) : d.mergeChange rg k e = d.setMerge rg k true := by
  rw [DieSt.mergeChange_eq hon hins hne, if_pos hall]

/-- Inputs that are all low are not all high, since there is one. -/
theorem DieSt.mergeChange_all_low (hall : ∀ l ∈ ins, d.level e rg l = false) : d.mergeChange rg k e = d.setMerge rg k false := by
  have hsome : ¬ ∀ l ∈ ins, d.level e rg l = true := by
    obtain ⟨l, hl⟩ := List.exists_mem_of_ne_nil ins hne
    exact fun hhigh => by simpa [hall l hl] using hhigh l hl
  rw [DieSt.mergeChange_eq hon hins hne, if_neg hsome, if_pos hall]

theorem DieSt.mergeChange_mixed (hhigh : ∃ l ∈ ins, d.level e rg l = true) (hlow : ∃ l ∈ ins, d.level e rg l = false) :
    d.mergeChange rg k e = d := by
  obtain ⟨i, hi, hi1⟩ := hhigh
  obtain ⟨j, hj, hj0⟩ := hlow
  rw [DieSt.mergeChange_eq hon hins hne, if_neg fun hall => by simp [hall j hj] at hj0, if_neg fun hall => by simp [hall i hi] at hi1]

end Merge

/-! ### Arbiters (R69) -/

/-- The grant of arbiter `k` of region `rg` becomes `g`. -/
def DieSt.setGrant (d : DieSt) (rg k : Nat) (g : Option Bool) : DieSt :=
  { d with fab := { d.fab with arbs := d.fab.arbs.set (fun _ => none) (128 * rg + k) g } }

/-- What arbiter `k` of region `rg` grants its two requests while no grant stands. -/
def DieSt.grantNew (d : DieSt) (rg k : Nat) : Bool → Bool → DieSt
  | true, true => d.choose.2.setGrant rg k (some d.choose.1)
  | true, false => d.setGrant rg k (some false)
  | false, true => d.setGrant rg k (some true)
  | false, false => d.setGrant rg k none

section Arbiter
variable {d : DieSt} {rg k : Nat} {l : Link × Link} (hl : (d.design rg).arbs[k]? = some l) (e : FabEnv)
include hl

/-- A grant stands while its request is high. -/
theorem DieSt.arbiterGrant_stands {b : Bool} (hg : d.fab.arbs.get (fun _ => none) (128 * rg + k) = some b)
    (hreq : d.level e rg (bif b then l.2 else l.1) = true) : d.arbiterGrant rg k e = d := by
  cases b with
  | false => simp [DieSt.arbiterGrant, hl, hg, show d.level e rg l.1 = true from hreq]
  | true => simp [DieSt.arbiterGrant, hl, hg, show d.level e rg l.2 = true from hreq]

/-- With no grant that stands, the requests alone decide. -/
theorem DieSt.arbiterGrant_new {r0 r1 : Bool} (hon : d.regionOn rg = true) (hr0 : d.level e rg l.1 = r0) (hr1 : d.level e rg l.2 = r1)
    (h0 : d.fab.arbs.get (fun _ => none) (128 * rg + k) = some false → d.level e rg l.1 = false)
    (h1 : d.fab.arbs.get (fun _ => none) (128 * rg + k) = some true → d.level e rg l.2 = false) :
    d.arbiterGrant rg k e = d.grantNew rg k r0 r1 := by
  cases hg : d.fab.arbs.get (fun _ => none) (128 * rg + k) with
  | none =>
    simp only [DieSt.arbiterGrant, hl, hon, hg, hr0, hr1]
    cases r0 <;> cases r1 <;> rfl
  | some b =>
    cases b with
    | false =>
      obtain rfl : r0 = false := hr0 ▸ h0 hg
      simp only [DieSt.arbiterGrant, hl, hon, hg, hr0, hr1]
      cases r1 <;> rfl
    | true =>
      obtain rfl : r1 = false := hr1 ▸ h1 hg
      simp only [DieSt.arbiterGrant, hl, hon, hg, hr0, hr1]
      cases r0 <;> rfl

end Arbiter

/-! ### Matched delays (R62) -/

/-- The delay that waits for the stage at `k` is applied. -/
def DieSt.applyDelay (d : DieSt) (k v : Nat) : DieSt :=
  { d with fab := { d.fab with
    delay := d.fab.delay.set (fun _ => 0) k v, delayNext := d.fab.delayNext.set (fun _ => none) k none } }

/-- The request of the stage at `k` of region `rg` is on its way: the stage holds a token and the gate is open. -/
def DieSt.riseDue (d : DieSt) (rg k : Nat) : Bool := (d.stage k).full && d.gateOpen rg

/-- The die `d` with the stage at `k` as in `d₀`, and its delay line running just where its request is on its way there. -/
def DieSt.startDelay (d d₀ : DieSt) (rg k : Nat) : DieSt := d.setStage k { d₀.stage k with runs := d₀.riseDue rg k }

section Delay
variable {d : DieSt} {rg u v : Nat} {st : StageCfg} (hon : d.regionOn rg = true) (hst : d.stageCfg rg u = some st)
  (hv : d.fab.delayNext.get (fun _ => none) (1024 * rg + u) = some v) (e : FabEnv) (meets : Bool)
include hon hst hv

/-- A change that waits is tried on an idle channel with no token on the delay line, and a request on its way competes with it. -/
theorem DieSt.delayApply_eq :
    d.delayApply rg u e meets =
      let k := 1024 * rg + u
      if !(d.stage k).req && !d.levelIn e rg u st.ackSel && !((d.stage k).runs && d.riseDue rg k) then
        if d.riseDue rg k && meets then
          if d.choose.1 then (d.choose.2.startDelay d rg k).applyDelay k v else d.choose.2.startDelay d rg k
        else if d.riseDue rg k then d.startDelay d rg k
        else (d.startDelay d rg k).applyDelay k v
      else d := by
  simp only [DieSt.delayApply, hst, hv, hon, Bool.true_and]
  rfl

/-- Nothing is changed while the channel is busy or a token runs down the delay line. -/
theorem DieSt.delayApply_busy (hbusy : (d.stage (1024 * rg + u)).req = true ∨ d.levelIn e rg u st.ackSel = true ∨
    ((d.stage (1024 * rg + u)).runs = true ∧ d.riseDue rg (1024 * rg + u) = true)) : d.delayApply rg u e meets = d := by
  rw [DieSt.delayApply_eq hon hst hv e meets]
  rcases hbusy with hreq | hack | ⟨hruns, hrise⟩
  · simp [hreq]
  · simp [hack]
  · simp [hruns, hrise]

section Idle
variable (hreq : (d.stage (1024 * rg + u)).req = false) (hack : d.levelIn e rg u st.ackSel = false)
include hreq hack

/-- A change that no request meets is applied. -/
theorem DieSt.delayApply_applied (hrise : d.riseDue rg (1024 * rg + u) = false) :
    d.delayApply rg u e meets = (d.startDelay d rg (1024 * rg + u)).applyDelay (1024 * rg + u) v := by
  simp [DieSt.delayApply_eq hon hst hv e meets, hreq, hack, hrise]

variable (hruns : (d.stage (1024 * rg + u)).runs = false) (hrise : d.riseDue rg (1024 * rg + u) = true)
include hruns hrise

/-- A request that rises first takes the delay line, and the change waits. -/
theorem DieSt.delayApply_outrun : d.delayApply rg u e false = d.startDelay d rg (1024 * rg + u) := by
  simp [DieSt.delayApply_eq hon hst hv e false, hreq, hack, hruns, hrise]

/-- Of a change and a request at once, a free choice applies the change or leaves it. -/
theorem DieSt.delayApply_contested :
    d.delayApply rg u e true =
      if d.choose.1 then (d.choose.2.startDelay d rg (1024 * rg + u)).applyDelay (1024 * rg + u) v
      else d.choose.2.startDelay d rg (1024 * rg + u) := by
  simp [DieSt.delayApply_eq hon hst hv e true, hreq, hack, hruns, hrise]

end Idle

end Delay

/-- Settles O12: each clause is one branch of its element's command, and the levels it names select that branch. -/
theorem dualRailMergeAndArbiter : Obligations.DualRailMergeAndArbiter := by
  intro s x d rg env h hon e
  refine ⟨?rails, ?merges, ?arbiters, ?delays⟩
  case rails =>
    intro k c hcfg
    obtain rfl := DieSt.railCfg_key hcfg
    refine ⟨?capture, ?request, ?acknowledge, ?null, ?decoderOutput, ?stageOutput, ?illegal⟩
    case capture =>
      exact fun hc hword hack hempty hdrive => act_next h (DieSt.railCapture_stage hon hcfg e hword hack hempty hc hdrive)
    case request =>
      exact fun hc hword hack hempty hreq hgate hidle =>
        act_next h (DieSt.railCapture_decoder_requests hon hcfg e hword hack hempty hc hreq hgate hidle)
    case acknowledge =>
      exact fun hc hword hack hempty hreq => act_next h (DieSt.railCapture_decoder_acknowledges hon hcfg e hword hack hempty hc hreq)
    case null => exact fun hnull hack => act_next h (DieSt.railNull_captured hon hcfg e hnull hack)
    case decoderOutput => exact fun hc hfull => ⟨d.railOut_decoder_withdraws e rg hc hfull, d.railOut_decoder_offers e rg hc hfull⟩
    case stageOutput => exact fun hc => ⟨d.railOut_stage_withdraws e rg hc, d.railOut_stage_offers e rg hc⟩
    case illegal => exact fun ut uf i hbit hnone => act_next h (DieSt.railIllegal_first hon hcfg e hbit hnone)
  case merges =>
    intro k ins hins hne put
    refine ⟨fun hhigh => ?_, fun hlow => ?_, fun hhigh hlow => ?_⟩
    · exact act_next h (DieSt.mergeChange_all_high hon hins hne e hhigh)
    · exact act_next h (DieSt.mergeChange_all_low hon hins hne e hlow)
    · exact act_next h (DieSt.mergeChange_mixed hon hins hne e hhigh hlow)
  case arbiters =>
    intro k l hl g put r0 r1
    refine ⟨fun hg hreq => ?_, fun hg hreq => ?_, fun h0 h1 => ?_⟩
    · exact act_next h (DieSt.arbiterGrant_stands hl e hg hreq)
    · exact act_next h (DieSt.arbiterGrant_stands hl e hg hreq)
    · have hnew {b0 b1 : Bool} (hr0 : r0 = b0) (hr1 : r1 = b1) :
          exec (.arbiterGrant x rg k env) s = .next (s.setDie x (d.grantNew rg k b0 b1)) :=
        act_next h (DieSt.arbiterGrant_new hl e hon hr0 hr1 h0 h1)
      exact ⟨hnew, hnew, hnew, hnew⟩
  case delays =>
    intro u v meets st hst k g apply rises run go a hv
    refine ⟨fun hreq hack hrise => ?_, fun hreq hack hruns hrise hmeets => ?_, fun hreq hack hruns hrise hmeets => ?_, fun hbusy => ?_⟩
    · exact act_next h (congrArg DieSt.noteStep (DieSt.delayApply_applied hon hst hv e meets hreq hack hrise))
    · subst hmeets
      exact act_next h (congrArg DieSt.noteStep (DieSt.delayApply_outrun hon hst hv e hreq hack hruns hrise))
    · subst hmeets
      exact act_next h (congrArg DieSt.noteStep (DieSt.delayApply_contested hon hst hv e hreq hack hruns hrise))
    · exact act_next h (congrArg DieSt.noteStep (DieSt.delayApply_busy hon hst hv e meets hbusy))

end Sys2Proof.Machine

/-! # Block memories, the isolation ring and row-level frames (O13 to O15) -/

namespace Sys2Proof.Machine

/-! ### Accesses through a port of a block memory (R83 to R86) -/

/-- The physical word that address `a` of a port lies in. -/
def DieSt.portWord (d : DieSt) (rg m p a : Nat) : Nat := a * d.bmWidth rg m p / 64 % 512

/-- The key of that word. -/
def DieSt.portKey (d : DieSt) (rg m p a : Nat) : Nat := bmKey rg m (d.portWord rg m p a)

/-- The bit of that word at which the addressed part begins. -/
def DieSt.portBit (d : DieSt) (rg m p a : Nat) : Nat := d.bmWidth rg m p * (a % (64 / d.bmWidth rg m p))

/-- The addressed part of a word. -/
def DieSt.portCut (d : DieSt) (rg m p a : Nat) (v : Word64) : Word64 :=
  BitVec.ofNat 64 (v.toNat >>> d.portBit rg m p a % 2 ^ d.bmWidth rg m p)

/-- What the check bits of the physical word at `k` say once the bits `upset` have flipped. -/
def DieSt.bmClass (d : DieSt) (k upset : Nat) : Nat := eccClass 72 (eccFlip 72 (d.bmFlips k) upset)

/-- The die once those bits have flipped. -/
def DieSt.bmUpset (d : DieSt) (k upset : Nat) : DieSt := d.bmSetFlips k (eccFlip 72 (d.bmFlips k) upset)

section Port
variable {s : State} {x : Die} {d e : DieSt} {rg m p a upset : Nat} (v : Word64)

theorem exec_bmRead (h : s.has x d) (hup : d.bmUp rg m p = true) (he : d.bmRead rg m p a upset = e) :
    exec (.bmRead x rg m p a upset) s = .next (s.setDie x e) := act_next h ((if_pos hup).trans he)

theorem exec_bmW64Write (h : s.has x d) (hup : d.bmUp rg m p = true) (hw : d.bmWidth rg m p = 64) :
    exec (.bmW64Write x rg m p a v) s
      = .next (s.setDie x ((d.bmStore (bmKey rg m (a % 512)) v).bmWrote rg m p false)) :=
  act_next h (if_pos (by simp [hup, hw]))

theorem exec_bmNarrowWrite (h : s.has x d) (hup : d.bmUp rg m p = true) (hw : d.bmWidth rg m p ≠ 64)
    (he : d.bmWriteNarrow rg m p a v upset = e) : exec (.bmNarrowWrite x rg m p a v upset) s = .next (s.setDie x e) :=
  act_next h ((if_pos (by simp [hup, hw])).trans he)

theorem DieSt.bmRead_good (hc : d.bmClass (d.portKey rg m p a) upset = 0) :
    d.bmRead rg m p a upset = (d.bmUpset (d.portKey rg m p a) upset).bmReply rg m p
      (d.portCut rg m p a (d.bmWord (d.portKey rg m p a))) false := by
  unfold DieSt.bmClass DieSt.portKey DieSt.portWord at hc
  unfold DieSt.bmRead
  simp only [hc]
  rfl

theorem DieSt.bmRead_uncorrectable (hc : d.bmClass (d.portKey rg m p a) upset = 2) :
    d.bmRead rg m p a upset =
      let e := d.bmUpset (d.portKey rg m p a) upset
      (e.bmReply rg m p (d.portCut rg m p a (e.bmRaw (d.portKey rg m p a))) true).bmUncorr rg m p false (d.portWord rg m p a) := by
  unfold DieSt.bmClass DieSt.portKey DieSt.portWord at hc
  unfold DieSt.bmRead
  simp only [hc]
  rfl

theorem DieSt.bmWriteNarrow_good (hc : d.bmClass (d.portKey rg m p a) upset = 0) :
    d.bmWriteNarrow rg m p a v upset =
      let k := d.portKey rg m p a
      ((d.bmUpset k upset).bmStore k (mergeBits (d.bmWord k) (d.portBit rg m p a) (d.bmWidth rg m p) v)).bmWrote rg m p false := by
  unfold DieSt.bmClass DieSt.portKey DieSt.portWord at hc
  unfold DieSt.bmWriteNarrow
  simp only [hc]
  rfl

/-- A narrow write of an uncorrectable word stores nothing; it answers ERR and reports. -/
theorem DieSt.bmWriteNarrow_uncorrectable (hc : d.bmClass (d.portKey rg m p a) upset = 2) :
    d.bmWriteNarrow rg m p a v upset =
      ((d.bmUpset (d.portKey rg m p a) upset).bmWrote rg m p true).bmUncorr rg m p true (d.portWord rg m p a) := by
  unfold DieSt.bmClass DieSt.portKey DieSt.portWord at hc
  unfold DieSt.bmWriteNarrow
  simp only [hc]
  rfl

end Port

/-! ### The scrubber (R88) -/

/-- The word the scrubber of a memory reads next. -/
def DieSt.scrubWord (d : DieSt) (rg m : Nat) : Nat := d.fab.bmScrub.get (fun _ => 0) (4 * rg + m) % 512

/-- The scrubber of a memory moves on to the next word. -/
def DieSt.scrubNext (d : DieSt) (rg m : Nat) : DieSt :=
  { d with fab := { d.fab with bmScrub := d.fab.bmScrub.set (fun _ => 0) (4 * rg + m) ((d.scrubWord rg m + 1) % 512) } }

/-- The scrubber runs where a port may be accessed. -/
theorem DieSt.bmUp_port_zero {d : DieSt} {rg m p : Nat} (h : d.bmUp rg m p = true) : d.bmUp rg m 0 = true := by
  simp only [DieSt.bmUp, Bool.and_eq_true, decide_eq_true_eq] at h ⊢
  exact ⟨h.1, by decide⟩

theorem DieSt.bmScrub_corrects {d : DieSt} {rg m upset : Nat} (hup : d.bmUp rg m 0 = true) (hring : d.ringState rg < 2)
    (hc : d.bmClass (bmKey rg m (d.scrubWord rg m)) upset = 1) :
    d.bmScrub rg m upset =
      let k := bmKey rg m (d.scrubWord rg m)
      ((((d.scrubNext rg m).bmSetFlips k (eccFlip 72 (d.bmFlips k) upset)).bmSetFlips k 0).bmCorr rg m 2 false (d.scrubWord rg m)) := by
  unfold DieSt.bmClass DieSt.scrubWord at hc
  unfold DieSt.bmScrub
  rw [if_pos (by simp [hup, hring])]
  simp only [hc]
  rfl

/-- Settles O13: the class of the word's error selects the branch of each access, and the scrubber runs where the port does. -/
theorem blockMemoryAccess : Obligations.BlockMemoryAccess := by
  intro s x d rg m p a upset v h hup wd w k fl o
  refine ⟨fun hgood => ?_, fun hbad => ?_, fun hwide => ?_, fun hnarrow hgood => ?_, fun hring hone => ?_⟩
  · exact exec_bmRead h hup (DieSt.bmRead_good hgood)
  · exact exec_bmRead h hup (DieSt.bmRead_uncorrectable hbad)
  · exact exec_bmW64Write v h hup hwide
  · exact exec_bmNarrowWrite v h hup hnarrow (DieSt.bmWriteNarrow_good v hgood)
  · exact act_next h (DieSt.bmScrub_corrects (DieSt.bmUp_port_zero hup) hring hone)

/-! ### What an uncorrectable error leaves and reports (R86, R300) -/

/-- The die once an uncorrectable error is counted, and latched unless one is. -/
def DieSt.bmFound (d : DieSt) (rg m src : Nat) (wr : Bool) (w : Nat) : DieSt :=
  let e := (d.finding rg).bump (F.RGN_BM_CNT_UNCORR rg)
  if e.on (F.RGN_BM_ERR_VALID rg) then e
  else ((((e.put (F.RGN_BM_ERR_VALID rg) 1).put (F.RGN_BM_ERR_SOURCE rg) src).put (F.RGN_BM_ERR_WR rg) (b2n wr)).put
    (F.RGN_BM_ERR_MEM rg) m).put (F.RGN_BM_ERR_WORD rg) w

/-- The report of an uncorrectable error is its record, then the event. -/
theorem DieSt.bmUncorr_eq (d : DieSt) (rg m src : Nat) (wr : Bool) (w : Nat) :
    d.bmUncorr rg m src wr w =
      (d.bmFound rg m src wr w).raiseIf ((d.bmFound rg m src wr w).on (F.RGN_EVT_EN_UNCORR rg)) rg 0x0402 (bmEvData m src wr w) := rfl

section Report
variable (d : DieSt) (rg m src : Nat) (wr : Bool) (w : Nat)

@[simp] theorem DieSt.bmFound_fab : (d.bmFound rg m src wr w).fab = d.fab := by
  unfold DieSt.bmFound; dsimp only; split <;> simp
@[simp] theorem DieSt.bmFound_idn : (d.bmFound rg m src wr w).idn = d.idn := by
  unfold DieSt.bmFound; dsimp only; split <;> simp
@[simp] theorem DieSt.bmFound_mt : (d.bmFound rg m src wr w).mt = d.mt := by
  unfold DieSt.bmFound; dsimp only; split <;> simp
@[simp] theorem DieSt.bmFound_raised : (d.bmFound rg m src wr w).raised = d.raised := by
  unfold DieSt.bmFound; dsimp only; split <;> simp

/-- The record stands in two registers of the region. -/
theorem DieSt.rd_bmFound_ne {b : Nat} (hcnt : b ≠ R.RGN_BM_CNT rg) (herr : b ≠ R.RGN_BM_ERR rg) :
    (d.bmFound rg m src wr w).rd b = d.rd b := by
  have hbump : ((d.finding rg).bump (F.RGN_BM_CNT_UNCORR rg)).rd b = d.rd b :=
    (DieSt.rd_put_ne _ _ _ hcnt).trans (d.finding_rd rg b)
  unfold DieSt.bmFound
  dsimp only
  split
  · exact hbump
  · rw [DieSt.rd_put_ne _ _ _ herr, DieSt.rd_put_ne _ _ _ herr, DieSt.rd_put_ne _ _ _ herr, DieSt.rd_put_ne _ _ _ herr,
      DieSt.rd_put_ne _ _ _ herr, hbump]

theorem DieSt.f_bmFound_ne {y : Fld} (hcnt : y.addr ≠ R.RGN_BM_CNT rg) (herr : y.addr ≠ R.RGN_BM_ERR rg) :
    (d.bmFound rg m src wr w).f y = d.f y := congrArg y.of (d.rd_bmFound_ne rg m src wr w hcnt herr)

/-! What the event is raised by: its enable, the collector's domain and the number of the source. -/

theorem DieSt.bmFound_evtEn : (d.bmFound rg m src wr w).on (F.RGN_EVT_EN_UNCORR rg) = d.on (F.RGN_EVT_EN_UNCORR rg) := by
  refine congrArg (· == 1) (d.f_bmFound_ne rg m src wr w ?_ ?_)
  · change R.RGN_EVT_EN rg ≠ _; unfold R.RGN_EVT_EN R.RGN_BM_CNT; omega
  · change R.RGN_EVT_EN rg ≠ _; unfold R.RGN_EVT_EN R.RGN_BM_ERR; omega

theorem DieSt.bmFound_domOn : (d.bmFound rg m src wr w).domOn 74 = d.domOn 74 := by
  refine congrArg (fun r : Word => bit r.toNat 10) (d.rd_bmFound_ne rg m src wr w ?_ ?_)
  · change R.PWR_DOM_ON 2 ≠ _; unfold R.PWR_DOM_ON R.RGN_BM_CNT; omega
  · change R.PWR_DOM_ON 2 ≠ _; unfold R.PWR_DOM_ON R.RGN_BM_ERR; omega

theorem DieSt.bmFound_source : (d.bmFound rg m src wr w).source rg = d.source rg := by
  unfold DieSt.source
  rw [d.f_bmFound_ne rg m src wr w ?_ ?_, DieSt.bmFound_idn]
  · change R.SLK_ID ≠ _; unfold R.SLK_ID R.RGN_BM_CNT; omega
  · change R.SLK_ID ≠ _; unfold R.SLK_ID R.RGN_BM_ERR; omega

@[simp] theorem DieSt.bmUncorr_fab : (d.bmUncorr rg m src wr w).fab = d.fab := by
  rw [DieSt.bmUncorr_eq, DieSt.raiseIf_fab, DieSt.bmFound_fab]

variable {d}

theorem DieSt.raise_raised_of_domOn (h : d.domOn 74 = true) (l code data : Nat) :
    (d.raise l code data).raised = d.raised ++ [⟨d.mt, d.source l, code, data % 2 ^ 24, false, false⟩] := by
  have hbit : bit (d.rd (R.PWR_DOM_ON 2)).toNat 10 = true := h
  unfold DieSt.raise
  rw [if_pos hbit]

/-- An uncorrectable error raises BM_UNCORR where the region enables it and the collector is powered. -/
theorem DieSt.bmUncorr_raised (hen : d.on (F.RGN_EVT_EN_UNCORR rg) = true) (hcol : d.domOn 74 = true) :
    (d.bmUncorr rg m src wr w).raised
      = d.raised ++ [⟨d.mt, d.source rg, 0x0402, bmEvData m src wr w % 2 ^ 24, false, false⟩] := by
  rw [DieSt.bmUncorr_eq, DieSt.bmFound_evtEn, hen, DieSt.raiseIf, if_pos rfl,
    DieSt.raise_raised_of_domOn ((d.bmFound_domOn rg m src wr w).trans hcol), DieSt.bmFound_raised, DieSt.bmFound_mt,
    DieSt.bmFound_source]

end Report

section Words
variable (d : DieSt)

@[simp] theorem DieSt.bmWord_bmStore_self (k : Nat) (v : Word64) : (d.bmStore k v).bmWord k = v := Tab.get_set_self _ _ _ _
@[simp] theorem DieSt.bmFlips_bmStore_self (k : Nat) (v : Word64) : (d.bmStore k v).bmFlips k = 0 := Tab.get_set_self _ _ _ _
@[simp] theorem DieSt.bmFlips_bmUpset_self (k u : Nat) : (d.bmUpset k u).bmFlips k = eccFlip 72 (d.bmFlips k) u :=
  Tab.get_set_self _ _ _ _
@[simp] theorem DieSt.bmWord_bmUpset (k u j : Nat) : (d.bmUpset k u).bmWord j = d.bmWord j := rfl
@[simp] theorem DieSt.bmWord_bmWrote (rg m p : Nat) (e : Bool) (j : Nat) : (d.bmWrote rg m p e).bmWord j = d.bmWord j := rfl
@[simp] theorem DieSt.bmFlips_bmWrote (rg m p : Nat) (e : Bool) (j : Nat) : (d.bmWrote rg m p e).bmFlips j = d.bmFlips j := rfl
@[simp] theorem DieSt.bmWord_bmUncorr (rg m p : Nat) (wr : Bool) (w j : Nat) : (d.bmUncorr rg m p wr w).bmWord j = d.bmWord j := by
  unfold DieSt.bmWord; rw [DieSt.bmUncorr_fab]
@[simp] theorem DieSt.bmFlips_bmUncorr (rg m p : Nat) (wr : Bool) (w j : Nat) : (d.bmUncorr rg m p wr w).bmFlips j = d.bmFlips j := by
  unfold DieSt.bmFlips; rw [DieSt.bmUncorr_fab]

/-- The port's response token carries the ERR bit of the write. -/
theorem DieSt.err_bmWrote (rg m p : Nat) (e : Bool) :
    ((d.bmWrote rg m p e).fab.bmResp.get (fun _ => BmResp.reset) (8 * rg + 2 * m + p)).err = e :=
  congrArg BmResp.err (Tab.get_set_self _ _ _ _)

end Words

/-- Settles O15: neither the flipped bits, the answer nor the report writes a data word, and a whole write sets word and check bits. -/
theorem narrowWriteLeavesAnUncorrectableWord : Obligations.NarrowWriteLeavesAnUncorrectableWord := by
  intro s x d rg m p a upset v h hup wd w k
  refine ⟨fun hnarrow hbad => ?_, fun hwide => ?_⟩
  · refine ⟨_, exec_bmNarrowWrite v h hup hnarrow (DieSt.bmWriteNarrow_uncorrectable v hbad), ?_⟩
    rw [State.die_setDie]
    refine ⟨fun j => by simp, ?_, ?_, fun hen hcol => ?_⟩
    · change DieSt.bmRaw _ (d.portKey rg m p a) = d.bmWord (d.portKey rg m p a) ^^^
        BitVec.ofNat 64 (eccFlip 72 (d.bmFlips (d.portKey rg m p a)) upset)
      simp [DieSt.bmRaw]
    · rw [DieSt.bmUncorr_fab, DieSt.err_bmWrote]
    · exact DieSt.bmUncorr_raised (d := (d.bmUpset k upset).bmWrote rg m p true) rg m p true w hen hcol
  · refine ⟨_, exec_bmW64Write v h hup hwide, ?_⟩
    simp

/-! ### The isolation ring and the row-level frames (R82, R90 to R96) -/

/-- A ring channel takes the state `c`, and the ring is FROZEN if it was the last. -/
def DieSt.latchCh (d : DieSt) (rg ch : Nat) (c : RingSt) : DieSt := (d.setRingCh rg ch c).ringDone rg

section Ring
variable {d : DieSt} {rg ch : Nat} (hrg : d.hasRegion rg = true)
include hrg

/-- A settled channel of a FREEZING ring freezes; met by a transition, a free choice decides. -/
theorem DieSt.channelFreeze_settled {c : RingChan} {e : FabEnv} (hring : d.ringState rg = 2) (hcfg : (d.design rg).ring[ch]? = some c)
    (hfree : (d.ringCh rg ch).frozen = false) (hset : d.chSettled e rg c = true) (meets : Bool) :
    d.channelFreeze rg ch e meets =
      if meets then
        if d.choose.1 then d.choose.2.latchCh rg ch (d.chFrozen e rg ch c) else d.choose.2
      else d.latchCh rg ch (d.chFrozen e rg ch c) := by
  simp only [DieSt.channelFreeze, hcfg, hrg, hring, hfree, hset]
  rfl

/-- A channel that has not settled in 20 µs freezes idle. -/
theorem DieSt.forceFreeze_due (hring : d.ringState rg = 2) (hch : ch < (d.design rg).ring.length)
    (hfree : (d.ringCh rg ch).frozen = false) (hdue : d.fab.freezeAt.get (fun _ => 0) rg + 20000 ≤ d.now + 1) (inFlight : Bool) :
    d.forceFreeze rg ch inFlight =
      let f := d.setRingCh rg ch { d.ringCh rg ch with frozen := true, forced := true, req := false, ack := false, data := 0 }
      ((if inFlight then f.tokenDropped rg else f).countForced rg).ringDone rg := by
  simp [DieSt.forceFreeze, hrg, hring, hch, hfree, hdue]

/-- A transition at a frozen cell replaces the one held back there. -/
theorem DieSt.holdTransition_frozen (hring : d.ringState rg = 2 ∨ d.ringState rg = 3) (hfrozen : (d.ringCh rg ch).frozen = true)
    (cell : Nat) (level : Bool) :
    d.holdTransition rg ch cell level = d.setRingCh rg ch
      { d.ringCh rg ch with held := (d.ringCh rg ch).held.filter (fun h => h.1 != cell) ++ [(cell, level)] } := by
  rcases hring with hring | hring <;> simp [DieSt.holdTransition, hrg, hring, hfrozen]

end Ring

theorem DieSt.rowVote_powered {d : DieSt} {row : Nat} (hrow : row < d.idn.rows)
    (hpow : d.domOn (2 * row) = true ∨ d.domOn (2 * row + 1) = true) (u : List (Nat × Nat × Nat)) :
    d.rowVote row u = { d with fab := { d.fab with
      rowFrames := voteRow row (flipRow row d.fab.rowFrames u), iso := flipCells row d.fab.iso u } } :=
  if_pos (by simp [hrow, hpow])

/-- Settles O14: each clause meets the conditions under which its command acts, and what the command then does is the clause's. -/
theorem isolationRingFreezes : Obligations.IsolationRingFreezes := by
  intro s x d h
  refine ⟨?freeze, ?force, ?hold, ?vote⟩
  case freeze =>
    intro rg ch env meets c hrg hring hcfg hfree e hset latch
    exact act_next h (DieSt.channelFreeze_settled hrg hring hcfg hfree hset meets)
  case force =>
    intro rg ch inFlight hrg hring hch hfree hdue
    exact act_next h (DieSt.forceFreeze_due hrg hring hch hfree hdue inFlight)
  case hold =>
    intro rg ch cell level hrg hring hfrozen
    exact act_next h (DieSt.holdTransition_frozen hrg hring hfrozen cell level)
  case vote =>
    intro row u hrow hpow t
    exact act_next h (DieSt.rowVote_powered hrow hpow u)

end Sys2Proof.Machine

/-! # Counter clears (O60) -/

namespace Sys2Proof.Machine

/-- The counters of crossing kind `k` are 0. -/
def DieSt.xClear (d : DieSt) (k : Nat) : DieSt := (d.wr (R.XING_CNT_A k) 0).wr (R.XING_CNT_B k) 0

theorem DieSt.rd_xClear (d : DieSt) (k a : Nat) :
    (d.xClear k).rd a = if a = R.XING_CNT_A k ∨ a = R.XING_CNT_B k then 0 else d.rd a := by
  unfold DieSt.xClear
  rw [DieSt.rd_wr, DieSt.rd_wr]
  by_cases hb : a = R.XING_CNT_B k <;> simp [hb]

/-- Clearing the kinds of a list sets their counters to 0, however often a register is written, and no other register. -/
theorem DieSt.rd_foldl_xClear (l : List Nat) (d : DieSt) (a : Nat) :
    (l.foldl DieSt.xClear d).rd a = if ∃ k ∈ l, a = R.XING_CNT_A k ∨ a = R.XING_CNT_B k then 0 else d.rd a := by
  induction l generalizing d with
  | nil => simp
  | cons k l ih =>
    rw [List.foldl_cons, ih, DieSt.rd_xClear]
    by_cases hl : ∃ j ∈ l, a = R.XING_CNT_A j ∨ a = R.XING_CNT_B j
    · obtain ⟨j, hj, haj⟩ := hl
      rw [if_pos ⟨j, hj, haj⟩, if_pos ⟨j, List.mem_cons_of_mem k hj, haj⟩]
    · rw [if_neg hl]
      by_cases hk : a = R.XING_CNT_A k ∨ a = R.XING_CNT_B k
      · rw [if_pos hk, if_pos ⟨k, List.mem_cons_self, hk⟩]
      · have hkl : ¬ ∃ j ∈ k :: l, a = R.XING_CNT_A j ∨ a = R.XING_CNT_B j := fun ⟨j, hj, haj⟩ =>
          (List.mem_cons.1 hj).elim (fun hjk => hk (hjk ▸ haj)) (fun hjl => hl ⟨j, hjl, haj⟩)
        rw [if_neg hk, if_neg hkl]

theorem DieSt.rd_xCntClr_one (d : DieSt) (a : Nat) :
    (d.xCntClr 1).rd a = if ∃ k ∈ List.range 12, a = R.XING_CNT_A k ∨ a = R.XING_CNT_B k then 0 else d.rd a :=
  DieSt.rd_foldl_xClear _ d a

/-- Settles O60: each clear is one register write of the bus, and its effect writes the counters it names and no other register. -/
theorem counterClearWritesZeroTheirCounters : Obligations.CounterClearWritesZeroTheirCounters := by
  intro s x d m
  have cleared {a : Nat} {g : DieSt → DieSt} (h : s.takes x d m a) :
      act x s (fun d => d.busAct m a g) = .next (s.setDie x ((g d).ack m)) := act_busAct x s d m a g h
  refine ⟨?region, ?pace, ?engine, ?roster, ?queue, ?check, ?crossing, ?dram, ?sweeper⟩
  case region => exact fun rg h => ⟨cleared h, cleared h, cleared h⟩
  case pace =>
    have hreset : rowReset R.PACE_MARGIN = 0xFF000000 := by decide
    exact fun h => hreset ▸ cleared h
  case engine => exact fun rg h => ⟨cleared h, cleared h, cleared h⟩
  case roster => exact cleared
  case queue => exact fun q h => cleared h
  case check => exact fun u h => cleared h
  case crossing =>
    refine fun h => ⟨cleared h, s.setDie x ((d.xCntClr 1).ack m), cleared h, s.sameElse_setDie x _, fun k hk => ?_, fun a ha => ?_⟩
    · simp only [State.die_setDie, DieSt.ack, DieSt.answer_rd, DieSt.rd_xCntClr_one]
      exact ⟨if_pos ⟨k, List.mem_range.2 hk, .inl rfl⟩, if_pos ⟨k, List.mem_range.2 hk, .inr rfl⟩⟩
    · simp only [State.die_setDie, DieSt.ack, DieSt.answer_rd, DieSt.rd_xCntClr_one]
      refine if_neg fun ⟨k, hk, hak⟩ => ?_
      obtain ⟨hA, hB⟩ := ha k (List.mem_range.1 hk)
      exact hak.elim hA hB
  case dram => exact fun c h => ⟨cleared h, cleared h⟩
  case sweeper => exact cleared

end Sys2Proof.Machine

/-! # Pace: the calibrators, the monitors, the governor and its PMBus (O16 to O20) -/

namespace Sys2Proof.Machine

/-! ### A change of the pace state alone -/

/-- The die with another pace state: its registers, and all that is read from them, stay, by unfolding. -/
def DieSt.withPace (d : DieSt) (p : PaceSt) : DieSt := { d with pace := p }

@[simp] theorem DieSt.withPace_pace (d : DieSt) (p : PaceSt) : (d.withPace p).pace = p := rfl
@[simp] theorem DieSt.withPace_f (d : DieSt) (p : PaceSt) (y : Fld) : (d.withPace p).f y = d.f y := rfl
@[simp] theorem DieSt.withPace_firstMon (d : DieSt) (p : PaceSt) : (d.withPace p).firstMon = d.firstMon := rfl

/-! ### What has come of the wait after a step (R126) -/

/-- The pace state once it is noted at time `now` whether every cluster is converged. -/
def PaceSt.noted (p : PaceSt) (converged : Bool) (now : Nat) : PaceSt :=
  if p.stepping && p.settled then
    { p with
      convOk := p.convOk || converged
      readyAt := if p.voutOk && (p.convOk || converged || p.convTimedOut) then some (p.readyAt.getD now) else p.readyAt }
  else p

/-- Noting the wait changes the pace state alone. -/
theorem DieSt.noteStep_eq (d : DieSt) : d.noteStep = d.withPace (d.pace.noted d.converged d.now) := by
  unfold DieSt.noteStep PaceSt.noted
  split <;> rfl

section Noted
variable (p : PaceSt) (c : Bool) (n : Nat)

@[simp] theorem PaceSt.noted_marginLow : (p.noted c n).marginLow = p.marginLow := by unfold PaceSt.noted; split <;> rfl
@[simp] theorem PaceSt.noted_pmbNext : (p.noted c n).pmbNext = p.pmbNext := by unfold PaceSt.noted; split <;> rfl

/-- A step that waits for its clusters has found them converged before, or finds them so now. -/
theorem PaceSt.noted_convOk (hstep : p.stepping = true) (hset : p.settled = true) : (p.noted c n).convOk = (p.convOk || c) := by
  simp [PaceSt.noted, hstep, hset]

end Noted

@[simp] theorem DieSt.noteStep_f (d : DieSt) (y : Fld) : d.noteStep.f y = d.f y := by rw [DieSt.noteStep_eq, DieSt.withPace_f]
@[simp] theorem DieSt.noteStep_firstMon (d : DieSt) : d.noteStep.firstMon = d.firstMon := by
  rw [DieSt.noteStep_eq, DieSt.withPace_firstMon]
@[simp] theorem DieSt.noteStep_marginLow (d : DieSt) : d.noteStep.pace.marginLow = d.pace.marginLow := by
  rw [DieSt.noteStep_eq, DieSt.withPace_pace, PaceSt.noted_marginLow]
@[simp] theorem DieSt.noteStep_pmbNext (d : DieSt) : d.noteStep.pace.pmbNext = d.pace.pmbNext := by
  rw [DieSt.noteStep_eq, DieSt.withPace_pace, PaceSt.noted_pmbNext]

/-! ### Calibrators (R117, R118, R122) -/

/-- The die with MARGIN_LOW noted, or not, for the next decision. -/
def DieSt.withLow (d : DieSt) (b : Bool) : DieSt := d.withPace { d.pace with marginLow := b }

/-- Whether MARGIN_LOW is noted is no matter of the wait after a step. -/
theorem DieSt.noteStep_withLow (d : DieSt) (b : Bool) : (d.withLow b).noteStep = d.noteStep.withLow b := by
  have hconv : (d.withLow b).converged = d.converged := rfl
  have hnow : (d.withLow b).now = d.now := rfl
  rw [DieSt.noteStep_eq, DieSt.noteStep_eq, hconv, hnow]
  unfold PaceSt.noted
  cases hwait : d.pace.stepping && d.pace.settled <;> simp [DieSt.withLow, DieSt.withPace, hwait]

/-- The die once the canaries of a cluster are stored. -/
def DieSt.canariesStored (d : DieSt) (rg cl : Nat) (q : List Nat) : DieSt :=
  d.withPace { d.pace with canary := d.pace.canary.set (fun _ => []) (64 * rg + cl) (q.take 4) }

/-- A measurement of a cluster with one leader is that leader's. -/
theorem DieSt.measure_one {d : DieSt} {rg cl : Nat} {st : StageCfg} (hon : d.regionOn rg = true) (hcl : cl < 64)
    (hst : d.leaders rg cl = [st]) (q : List Nat) :
    d.measure rg cl q = (d.canariesStored rg cl q).measureLeader rg cl (q.take 4) st := by
  have hst' : (d.canariesStored rg cl q).leaders rg cl = [st] := hst
  unfold DieSt.measure
  rw [if_pos (by simp [hon, hcl])]
  exact congrArg (List.foldl _ _) hst'

section Leader
variable {d : DieSt} {rg : Nat} {q : List Nat} {st : StageCfg}
  (hmin : d.f F.PACE_MARGIN_MIN ≤ marginSteps (d.delayOf (1024 * rg + st.leader)) (required st.recipe q))
  (hlow : required st.recipe q * 118 ≤ d.delayOf (1024 * rg + st.leader) * 6400)
  (hneed : required st.recipe q * 128 ≤ 1023 * 6400)
include hmin hlow hneed

/-- A measurement that records no least margin and raises no MARGIN_LOW gives the leader a new setting, or does nothing. -/
theorem DieSt.measureLeader_safe (cl : Nat) :
    d.measureLeader rg cl q st =
      if outOfBand (d.delayOf (1024 * rg + st.leader)) (required st.recipe q) || d.moving (1024 * rg + st.leader) then
        d.aim (1024 * rg + st.leader) (setting28 (required st.recipe q))
      else d := by
  have hsetting : setting28 (required st.recipe q) ≤ 1023 := by unfold setting28; omega
  simp only [DieSt.measureLeader, if_neg (Nat.not_lt.2 hmin), Nat.min_eq_right hsetting]
  rw [if_neg (by simp; omega)]
  simp [Nat.not_lt.2 hsetting]

/-- In the band and not on its way to a setting, it does nothing. -/
theorem DieSt.measureLeader_inBand (cl : Nat) (hge : required st.recipe q * 124 ≤ d.delayOf (1024 * rg + st.leader) * 6400)
    (hle : d.delayOf (1024 * rg + st.leader) * 6400 ≤ required st.recipe q * 132) (hmov : d.moving (1024 * rg + st.leader) = false) :
    d.measureLeader rg cl q st = d := by
  rw [DieSt.measureLeader_safe hmin hlow hneed]
  exact if_neg (by simp [outOfBand, hmov]; omega)

/-- Outside the band, or on its way to a setting, the leader gets the setting of 28 %. -/
theorem DieSt.measureLeader_aims (cl : Nat) (h : d.delayOf (1024 * rg + st.leader) * 6400 < required st.recipe q * 124 ∨
      required st.recipe q * 132 < d.delayOf (1024 * rg + st.leader) * 6400 ∨ d.moving (1024 * rg + st.leader) = true) :
    d.measureLeader rg cl q st = d.aim (1024 * rg + st.leader) (setting28 (required st.recipe q)) := by
  rw [DieSt.measureLeader_safe hmin hlow hneed]
  refine if_pos ?_
  simp only [outOfBand, Bool.or_eq_true, decide_eq_true_eq, gt_iff_lt, Nat.mul_assoc, Nat.reduceMul, or_assoc]
  exact h

end Leader

/-- A measurement that raises no MARGIN_LOW brings no decision forward. -/
theorem exec_canaryMeasure_quiet {s : State} {x : Die} {d e : DieSt} {rg cl : Nat} {q : List Nat} (h : s.has x d)
    (he : (d.withLow false).measure rg cl q = e.withLow false) (hlow : e.pace.marginLow = d.pace.marginLow) :
    exec (.canaryMeasure x rg cl q) s = .next (s.setDie x e.noteStep) := by
  refine act_next h ?_
  have hnote : ((d.withLow false).measure rg cl q).noteStep = e.noteStep.withLow false := by rw [he, DieSt.noteStep_withLow]
  change (let n := ((d.withLow false).measure rg cl q).noteStep
    let f : DieSt := n.withLow (n.pace.marginLow || d.pace.marginLow)
    if n.pace.marginLow && d.gov == 2 then f.govDecide else f) = _
  rw [hnote, ← hlow, ← e.noteStep_marginLow]
  exact if_neg (by simp [DieSt.withLow])

/-- The step `v` waits for the leader at `k`, or none does. -/
def DieSt.stepWaits (d : DieSt) (k : Nat) (v : Option Nat) : DieSt :=
  { d with fab := { d.fab with delayNext := d.fab.delayNext.set (fun _ => none) k v } }

/-- The leader at `k` has the setting `v` to go to, or none. -/
def DieSt.targetSet (d : DieSt) (k : Nat) (v : Option Nat) : DieSt :=
  d.withPace { d.pace with target := d.pace.target.set (fun _ => none) k v }

/-- What an aim at `v` makes of a step that waits for a leader: one toward `v`, or none where `v` is reached. -/
theorem DieSt.aim_eq (d : DieSt) (k v : Nat) :
    d.aim k v = (d.targetSet k (some v)).stepWaits k
      (if d.fab.delayNext.get (fun _ => none) k = none ∨ v = d.delayOf k then none else some (stepToward (d.delayOf k) v)) := by
  unfold DieSt.aim
  cases d.fab.delayNext.get (fun _ => none) k with
  | none => rfl
  | some w => simp [DieSt.targetSet, DieSt.stepWaits, DieSt.withPace]

section Step
variable {d : DieSt} {rg u t : Nat} (hon : d.regionOn rg = true) (ht : d.pace.target.get (fun _ => none) (1024 * rg + u) = some t)
  (hfree : d.fab.delayNext.get (fun _ => none) (1024 * rg + u) = none)
include hon ht hfree

/-- A leader on its way to a setting takes one step toward it. -/
theorem DieSt.calibStep_moves (hne : t ≠ d.delayOf (1024 * rg + u)) :
    d.calibStep rg u = d.stepWaits (1024 * rg + u) (some (stepToward (d.delayOf (1024 * rg + u)) t)) := by
  simp [DieSt.calibStep, DieSt.stepWaits, ht, hfree, hon, hne]

/-- A leader that has come to its setting has none to go to. -/
theorem DieSt.calibStep_arrived (heq : t = d.delayOf (1024 * rg + u)) :
    d.calibStep rg u = d.targetSet (1024 * rg + u) none := by
  simp [DieSt.calibStep, DieSt.targetSet, DieSt.withPace, ht, hfree, hon, heq]

end Step

/-- Settles O16: the margin's place selects what a measurement does to the one leader, and a step goes toward the target. -/
theorem calibratorMeasuresAndSteps : Obligations.CalibratorMeasuresAndSteps := by
  intro s x d rg h hon
  refine ⟨?measure, ?step⟩
  case measure =>
    intro cl q st hcl hst k req m aim hmin hlow hneed
    have hone := DieSt.measure_one (d := d.withLow false) hon hcl hst q
    have hstored : (d.withLow false).canariesStored rg cl q = m.withLow false := rfl
    rw [hstored] at hone
    refine ⟨fun hge hle hmov => ?_, fun hout => ?_⟩
    · have hkeep : (m.withLow false).measureLeader rg cl (q.take 4) st = m.withLow false :=
        DieSt.measureLeader_inBand (d := m.withLow false) hmin hlow hneed cl hge hle hmov
      exact exec_canaryMeasure_quiet h (hone.trans hkeep) rfl
    · have haim : (m.withLow false).measureLeader rg cl (q.take 4) st = (m.aim k aim).withLow false :=
        DieSt.measureLeader_aims (d := m.withLow false) hmin hlow hneed cl hout
      have hquiet := exec_canaryMeasure_quiet h (hone.trans haim) rfl
      rw [DieSt.aim_eq] at hquiet
      exact hquiet
  case step =>
    intro u t ht hfree k cur wait
    refine ⟨fun hlt => ?_, fun hgt => ?_, fun heq => ?_⟩
    · have hmove := DieSt.calibStep_moves hon ht hfree (Nat.ne_of_gt hlt)
      rw [stepToward, if_pos hlt] at hmove
      exact act_next h (congrArg DieSt.noteStep hmove)
    · have hmove := DieSt.calibStep_moves hon ht hfree (Nat.ne_of_lt hgt)
      rw [stepToward, if_neg (Nat.lt_asymm hgt)] at hmove
      exact act_next h (congrArg DieSt.noteStep hmove)
    · exact act_next h (congrArg DieSt.noteStep (DieSt.calibStep_arrived hon ht hfree heq))

/-! ### Monitors (R123, R124) -/

/-- A window is not void for its monitor's region just where that runs with its ring neither FREEZING nor FROZEN. -/
theorem DieSt.monVoid_eq_false_iff (d : DieSt) (i : Nat) : d.monVoid i = false ↔
    ∃ rg, d.pace.monRegion.get (fun _ => none) i = some rg ∧ d.rgState rg = rgRunning ∧ d.ringState rg < 2 := by
  unfold DieSt.monVoid
  cases d.pace.monRegion.get (fun _ => none) i with
  | none => simp
  | some rg => simp

/-- A monitor's result leaves the fields of every register but its own. -/
theorem DieSt.f_put_cap (d : DieSt) (i v : Nat) {x y : Fld} (hx : x.addr = R.PACE_MON_CAP i) (hy : y.addr ≠ R.PACE_MON_CAP i) :
    (d.put x v).f y = d.f y := d.f_put_ne x y (hx ▸ hy) v

theorem monTgt_ne_monCap (i j : Nat) : R.PACE_MON_TGT j ≠ R.PACE_MON_CAP i := by unfold R.PACE_MON_CAP R.PACE_MON_TGT; omega

/-- The lowest designated monitor is read from the targets. -/
theorem DieSt.firstMon_put_cap (d : DieSt) (i v : Nat) {x : Fld} (hx : x.addr = R.PACE_MON_CAP i) :
    (d.put x v).firstMon = d.firstMon :=
  congrArg (fun p => (List.range 16).find? p) (funext fun j => congrArg (· == 1) (d.f_put_cap i v hx (monTgt_ne_monCap i j)))

/-- The die once monitor `i` has started its next window. -/
def DieSt.windowAgain (d : DieSt) (i : Nat) : DieSt :=
  d.withPace { d.pace with count := d.pace.count.set (fun _ => (0, 0)) i (0, 0), monAt := d.pace.monAt.set (fun _ => 0) i d.now }

/-- That die, with the last window of `i` void. -/
def DieSt.windowVoid (d : DieSt) (i : Nat) : DieSt :=
  ((d.windowAgain i).put (F.PACE_MON_CAP_VALID i) 0).put (F.PACE_MON_CAP_BELOW i) 0

/-- That die, with a last window of `i` of `n` tokens, stalled for a time `st`, and the capacity it gives. -/
def DieSt.windowCap (d : DieSt) (i n st : Nat) : DieSt :=
  (((d.windowAgain i).withPace { (d.windowAgain i).pace with
    window := d.pace.window.set (fun _ => (0, 0)) i (n, min 10000 st) }).put (F.PACE_MON_CAP_VALID i) 1).put
    (F.PACE_MON_CAP_CAP i) (if 10000 ≤ st then 65535 else min 65535 (n * 10000 / (10000 - st)))

/-- The wait after a step, at the end of a window of monitor `i` that began at `began`; `first` is the lowest monitor (R126). -/
def DieSt.windowWaited (d : DieSt) (first : Option Nat) (i began : Nat) : DieSt :=
  let e := d.noteStep
  if first = some i ∧ ∃ t, e.pace.readyAt = some t ∧ t ≤ began then e.withPace { e.pace with windowed := true } else e

theorem DieSt.windowVoid_firstMon (d : DieSt) (i : Nat) : (d.windowVoid i).firstMon = d.firstMon :=
  (DieSt.firstMon_put_cap _ i _ rfl).trans (DieSt.firstMon_put_cap _ i _ rfl)

theorem DieSt.windowCap_firstMon (d : DieSt) (i n st : Nat) : (d.windowCap i n st).firstMon = d.firstMon :=
  (DieSt.firstMon_put_cap _ i _ rfl).trans (DieSt.firstMon_put_cap _ i _ rfl)

/-- A window's capacity leaves the fields of every register but the monitor's result. -/
theorem DieSt.windowCap_f (d : DieSt) (i n st : Nat) {y : Fld} (hy : y.addr ≠ R.PACE_MON_CAP i) : (d.windowCap i n st).f y = d.f y :=
  (DieSt.f_put_cap _ i _ rfl hy).trans (DieSt.f_put_cap _ i _ rfl hy)

theorem DieSt.windowCap_valid (d : DieSt) (i n st : Nat) : (d.windowCap i n st).on (F.PACE_MON_CAP_VALID i) = true := by
  have hcap : (F.PACE_MON_CAP_CAP i).fits := ⟨Nat.zero_le _, (by decide : 15 < 32)⟩
  have hvalid : (F.PACE_MON_CAP_VALID i).fits := ⟨Nat.le_refl _, (by decide : 31 < 32)⟩
  unfold DieSt.windowCap DieSt.on
  rw [DieSt.f_put_other _ _ (F.PACE_MON_CAP_VALID i) hcap (.inl (by decide : 15 < 31)), DieSt.f_put_self _ _ hvalid]
  rfl

theorem DieSt.windowCap_window (d : DieSt) (i n st : Nat) :
    (d.windowCap i n st).pace.window.get (fun _ => (0, 0)) i = (n, min 10000 st) := by
  simp [DieSt.windowCap]

/-- A capacity just measured lies below the up threshold where the tokens of the time not stalled do. -/
theorem DieSt.windowCap_below {d : DieSt} {i : Nat} (hen : d.on (F.PACE_MON_TGT_EN i) = true) (n st : Nat) :
    (d.windowCap i n st).monBelow i ((d.windowCap i n st).f F.PACE_HR_HR_UP) =
      decide (n * 1000000 < d.f (F.PACE_MON_TGT_TARGET i) * (100 + d.f F.PACE_HR_HR_UP) * (10000 - min 10000 st)) := by
  have hhr : R.PACE_HR ≠ R.PACE_MON_CAP i := by unfold R.PACE_HR R.PACE_MON_CAP; omega
  have hon : (d.windowCap i n st).on (F.PACE_MON_TGT_EN i) = true :=
    (congrArg (· == 1) (d.windowCap_f i n st (monTgt_ne_monCap i i))).trans hen
  unfold DieSt.monBelow
  rw [hon, DieSt.windowCap_valid, DieSt.windowCap_window, d.windowCap_f i n st (monTgt_ne_monCap i i),
    d.windowCap_f i n st (y := F.PACE_HR_HR_UP) hhr]
  simp only [Bool.and_self, Bool.true_and, Nat.mul_assoc n, Nat.reduceMul]

section Window
variable {d : DieSt} {i : Nat} (hi : i < 16) (hen : d.on (F.PACE_MON_TGT_EN i) = true)
  (hdue : d.pace.monAt.get (fun _ => 0) i + 10000 ≤ d.now)
include hi hen hdue

/-- The end of a due window is its result, then the wait after a step. -/
theorem DieSt.windowEnd_due {e : DieSt} (hfirst : e.firstMon = d.firstMon)
    (he : e = if decide ((d.pace.count.get (fun _ => (0, 0)) i).1 < 16) || d.monVoid i then d.windowVoid i
      else
        let c := d.windowCap i (d.pace.count.get (fun _ => (0, 0)) i).1 (d.pace.count.get (fun _ => (0, 0)) i).2
        c.put (F.PACE_MON_CAP_BELOW i) (b2n (c.monBelow i (c.f F.PACE_HR_HR_UP)))) :
    d.windowEnd i = e.windowWaited d.firstMon i (d.pace.monAt.get (fun _ => 0) i) := by
  have hwait : d.windowEnd i =
      if e.noteStep.firstMon == some i && e.noteStep.pace.readyAt.any (fun t => decide (t ≤ d.pace.monAt.get (fun _ => 0) i)) then
        e.noteStep.withPace { e.noteStep.pace with windowed := true }
      else e.noteStep := by
    subst he
    exact if_pos (by simp [hi, hen, hdue])
  rw [hwait, DieSt.noteStep_firstMon, hfirst]
  simp only [DieSt.windowWaited, Bool.and_eq_true, beq_iff_eq, Option.any_eq_true, decide_eq_true_eq]

end Window

/-- Settles O17: the tokens and the region's state select void or capacity, and the wait after a step comes last. -/
theorem monitorWindowsGiveCapacity : Obligations.MonitorWindowsGiveCapacity := by
  intro s x d i h hi hen hdue n st up again waited
  have hup : d.monVoid i = false ↔ up := d.monVoid_eq_false_iff i
  refine ⟨fun hvoid => ?_, fun hn hlive => ?_⟩
  · refine act_next h (DieSt.windowEnd_due hi hen hdue (d.windowVoid_firstMon i) (if_pos ?_).symm)
    rw [Bool.or_eq_true, decide_eq_true_eq]
    exact hvoid.imp_right fun hdown => by simpa using mt hup.1 hdown
  · refine act_next h (DieSt.windowEnd_due hi hen hdue ((DieSt.firstMon_put_cap _ i _ rfl).trans (d.windowCap_firstMon i n st)) ?_)
    have hbelow := congrArg (fun b => (d.windowCap i n st).put (F.PACE_MON_CAP_BELOW i) (b2n b)) (DieSt.windowCap_below hen n st)
    refine hbelow.symm.trans (if_neg ?_).symm
    rw [hup.2 hlive, Bool.or_false, decide_eq_true_eq]
    exact Nat.not_lt.2 hn

/-! ### Decisions (R125 to R127) -/

section Decide
variable {d : DieSt}

/-- A decision that must wait is none (R126). -/
theorem DieSt.govDecide_held (h : d.mayDecide = false) : d.govDecide = d := by simp [DieSt.govDecide, h]

/-- Only RUN and FULL-TIME decide. -/
theorem DieSt.govDecide_other (hrun : d.gov ≠ 2) (hfull : d.gov ≠ 4) : d.govDecide = d := by simp [DieSt.govDecide, hrun, hfull]

theorem DieSt.govDecide_first (h : d.mayDecide = true) (hgov : d.gov = 2 ∨ d.gov = 4) (hv : d.f F.PACE_STAT_VSET = 0) :
    d.govDecide = d.govFirst := by simp [DieSt.govDecide, h, hgov, hv]

theorem DieSt.govDecide_run (h : d.mayDecide = true) (hgov : d.gov = 2) (hv : d.f F.PACE_STAT_VSET ≠ 0) :
    d.govDecide = d.govRun := by simp [DieSt.govDecide, h, hgov, hv]

theorem DieSt.govDecide_fullTime (h : d.mayDecide = true) (hgov : d.gov = 4) (hv : d.f F.PACE_STAT_VSET ≠ 0) :
    d.govDecide = d.govFullTime := by simp [DieSt.govDecide, h, hgov, hv]

end Decide

/-- The die at a decision in RUN, before that does anything: CEILING, FLOOR, MARGIN_LOW and the last step are cleared, and of the
monitors reported as missing their target those stay that do still. -/
def DieSt.runCleared (d : DieSt) : DieSt :=
  let c := (d.put F.PACE_STAT_CEILING 0).put F.PACE_STAT_FLOOR 0
  c.withPace { c.pace.calm with
    marginLow := false, missed := d.pace.missed.filter (fun i => c.monBelow i (d.f F.PACE_HR_HR_UP)) }

/-- Is a monitor below its up threshold. -/
def DieSt.anyBelow (d : DieSt) : Bool := (List.range 16).any (fun i => d.monBelow i (d.f F.PACE_HR_HR_UP))

/-- Is every monitor at or above its down threshold. -/
def DieSt.allAbove (d : DieSt) : Bool := (List.range 16).all (fun i => !d.monBelow i (d.f F.PACE_HR_HR_DN))

theorem DieSt.runCleared_f (d : DieSt) {y : Fld} (hy : y.addr ≠ R.PACE_STAT) : d.runCleared.f y = d.f y := by
  unfold DieSt.runCleared
  rw [DieSt.withPace_f, DieSt.f_put_ne _ F.PACE_STAT_FLOOR y hy, DieSt.f_put_ne _ F.PACE_STAT_CEILING y hy]

/-- The decision in RUN, by what the monitors, MARGIN_LOW and the limits say. -/
theorem DieSt.govRun_eq (d : DieSt) : d.govRun =
    if d.anyBelow || d.pace.marginLow then
      if d.f F.PACE_STAT_VSET + 10 ≤ d.f F.PACE_LIMIT_VMAX then d.runCleared.govStep (d.f F.PACE_STAT_VSET + 10)
      else if d.anyBelow then d.runCleared.ceiling
      else d.runCleared
    else if d.allAbove && decide (d.f F.PACE_STAT_VSET < d.f F.PACE_LIMIT_VMIN + 10) then d.runCleared.put F.PACE_STAT_FLOOR 1
    else if d.allAbove && d.runCleared.converged && d.runCleared.ringsQuiet then d.runCleared.govStep (d.f F.PACE_STAT_VSET - 10)
    else d.runCleared := by
  rw [← d.runCleared_f (y := F.PACE_LIMIT_VMAX) (by decide), ← d.runCleared_f (y := F.PACE_LIMIT_VMIN) (by decide)]
  simp only [DieSt.govRun, DieSt.runCleared, DieSt.withPace, DieSt.anyBelow, DieSt.allAbove, DieSt.put_pace]

section Run
variable {d : DieSt}

/-- A monitor below its up threshold, or MARGIN_LOW, asks for a step up. -/
theorem DieSt.govRun_up (hask : d.anyBelow = true ∨ d.pace.marginLow = true)
    (hmax : d.f F.PACE_STAT_VSET + 10 ≤ d.f F.PACE_LIMIT_VMAX) :
    d.govRun = d.runCleared.govStep (d.f F.PACE_STAT_VSET + 10) := by
  rw [DieSt.govRun_eq, if_pos ((Bool.or_eq_true _ _).mpr hask), if_pos hmax]

theorem DieSt.govRun_ceiling (hbelow : d.anyBelow = true) (hmax : d.f F.PACE_LIMIT_VMAX < d.f F.PACE_STAT_VSET + 10) :
    d.govRun = d.runCleared.ceiling := by
  simp [DieSt.govRun_eq, hbelow, Nat.not_le.2 hmax]

theorem DieSt.govRun_low_at_max (hbelow : d.anyBelow = false) (hlow : d.pace.marginLow = true)
    (hmax : d.f F.PACE_LIMIT_VMAX < d.f F.PACE_STAT_VSET + 10) : d.govRun = d.runCleared := by
  simp [DieSt.govRun_eq, hbelow, hlow, Nat.not_le.2 hmax]

section Content
variable (hbelow : d.anyBelow = false) (hlow : d.pace.marginLow = false)
include hbelow hlow

theorem DieSt.govRun_floor (habove : d.allAbove = true) (hmin : d.f F.PACE_STAT_VSET < d.f F.PACE_LIMIT_VMIN + 10) :
    d.govRun = d.runCleared.put F.PACE_STAT_FLOOR 1 := by
  simp [DieSt.govRun_eq, hbelow, hlow, habove, hmin]

theorem DieSt.govRun_down (habove : d.allAbove = true) (hmin : d.f F.PACE_LIMIT_VMIN + 10 ≤ d.f F.PACE_STAT_VSET)
    (hconv : d.runCleared.converged = true) (hquiet : d.runCleared.ringsQuiet = true) :
    d.govRun = d.runCleared.govStep (d.f F.PACE_STAT_VSET - 10) := by
  simp [DieSt.govRun_eq, hbelow, hlow, habove, Nat.not_lt.2 hmin, hconv, hquiet]

/-- A monitor between its thresholds, a cluster that is not converged or a ring that freezes holds VCORE. -/
theorem DieSt.govRun_holds (h : d.allAbove = false ∨ (d.f F.PACE_LIMIT_VMIN + 10 ≤ d.f F.PACE_STAT_VSET ∧
    (d.runCleared.converged = false ∨ d.runCleared.ringsQuiet = false))) : d.govRun = d.runCleared := by
  rcases h with habove | ⟨hmin, hconv | hquiet⟩
  · simp [DieSt.govRun_eq, hbelow, hlow, habove]
  · simp [DieSt.govRun_eq, hbelow, hlow, Nat.not_lt.2 hmin, hconv]
  · simp [DieSt.govRun_eq, hbelow, hlow, Nat.not_lt.2 hmin, hquiet]

end Content

end Run

/-- The decision in FULL-TIME, by where VCORE stands to its goal. -/
theorem DieSt.govFullTime_eq (d : DieSt) : d.govFullTime =
    if d.f F.PACE_STAT_VSET < d.v750 then (d.withPace d.pace.calm).govStep (min d.v750 (d.f F.PACE_STAT_VSET + 10))
    else if d.v750 < d.f F.PACE_STAT_VSET then (d.withPace d.pace.calm).govStep (max d.v750 (d.f F.PACE_STAT_VSET - 10))
    else d.withPace d.pace.calm := rfl

/-- Settles O18: the state and what R126 waits for select the decision, and each clause is one branch of it. -/
theorem governorDecisions : Obligations.GovernorDecisions := by
  intro s x d h
  refine ⟨?held, ?first, ?run, ?fullTime, ?other⟩
  case held => exact fun hheld => act_next h (DieSt.govDecide_held hheld)
  case first => exact fun hmay hgov hv => act_next h (DieSt.govDecide_first hmay hgov hv)
  case other => exact fun hrun hfull => act_next h (DieSt.govDecide_other hrun hfull)
  case run =>
    intro hmay hgov hv v below above c e
    have decided {e : DieSt} (he : d.govRun = e) : exec (.governorDecision x) s = .next (s.setDie x e) :=
      act_next h ((DieSt.govDecide_run hmay hgov hv).trans he)
    refine ⟨fun hask hmax => ?_, fun hbelow hmax => ?_, fun hbelow hlow hmax => ?_, fun hbelow hlow habove hmin => ?_,
      fun hbelow hlow habove hmin hconv hquiet => ?_, fun hbelow hlow hhold => ?_⟩
    · exact decided (DieSt.govRun_up hask hmax)
    · exact decided (DieSt.govRun_ceiling hbelow hmax)
    · exact decided (DieSt.govRun_low_at_max hbelow hlow hmax)
    · exact decided (DieSt.govRun_floor hbelow hlow habove hmin)
    · exact decided (DieSt.govRun_down hbelow hlow habove hmin hconv hquiet)
    · exact decided (DieSt.govRun_holds hbelow hlow hhold)
  case fullTime =>
    intro hmay hgov hv v w e
    have decided {e : DieSt} (he : d.govFullTime = e) : exec (.governorDecision x) s = .next (s.setDie x e) :=
      act_next h ((DieSt.govDecide_fullTime hmay hgov hv).trans he)
    refine ⟨fun hlt => ?_, fun hgt => ?_, fun heq => ?_⟩
    · exact decided (d.govFullTime_eq.trans (if_pos hlt))
    · exact decided (d.govFullTime_eq.trans ((if_neg (Nat.lt_asymm hgt)).trans (if_pos hgt)))
    · exact decided (d.govFullTime_eq.trans ((if_neg fun hlt => Nat.ne_of_lt hlt heq).trans (if_neg fun hgt => Nat.ne_of_gt hgt heq)))

/-! ### PMBus (R128, R130, R131) -/

/-- With nothing waiting no transaction is taken to the bus. -/
theorem DieSt.pmbPump_idle {d : DieSt} (h : d.pace.pmbNext = []) : d.pmbPump = d := by
  unfold DieSt.pmbPump
  rw [h]
  split
  · rfl
  · split
    · next heq => cases heq
    · rfl

/-- The governor's state is no field of PACE_ERR. -/
theorem DieSt.gov_put_err (d : DieSt) {x : Fld} (hx : x.addr = R.PACE_ERR) (v : Nat) : (d.put x v).gov = d.gov :=
  d.f_put_ne x F.PACE_STAT_STATE (by rw [hx]; decide) v

section Transaction
variable {d : DieSt} {op : PmbOp} {tries : Nat} (hgov : d.gov ≠ 0) (hpmb : d.pace.pmb = some (op, tries)) (data : Nat)
include hgov hpmb

/-- A transaction that succeeds has its effect, and the next is taken to the bus. -/
theorem DieSt.pmbEnd_ok : d.pmbEnd .ok data = ((d.withPace { d.pace with pmb := none }).pmbDone op data).pmbPump := by
  simp [DieSt.pmbEnd, DieSt.withPace, hpmb, hgov]

theorem DieSt.pmbEnd_nack : d.pmbEnd .nack data = d.pmbFail op tries 1 F.PACE_ERR_NACK := by
  simp [DieSt.pmbEnd, hpmb, hgov]

end Transaction

/-- Before the third attempt a transaction is tried again. -/
theorem DieSt.pmbFail_retries (d : DieSt) (op : PmbOp) {tries : Nat} (reason : Nat) (err : Fld) (h : tries < 2) :
    d.pmbFail op tries reason err =
      ((d.put err 1).bump F.PACE_ERR_RETRIES).withPace { d.pace with pmb := some (op, tries + 1) } := by
  unfold DieSt.pmbFail
  rw [if_pos h, DieSt.put_pace]
  rfl

/-- The third attempt of a transaction of the governor's own enters FAULT. -/
theorem DieSt.pmbFail_faults {d : DieSt} {op : PmbOp} {tries : Nat} (reason : Nat) {err : Fld} (hop : ∀ c, op ≠ .telemetry c)
    (htries : 2 ≤ tries) (herr : err.addr = R.PACE_ERR) (hgov : d.gov ≠ 5) :
    d.pmbFail op tries reason err = (d.put err 1).govFault reason := by
  have hgov' : (d.put err 1).gov ≠ 5 := by rwa [d.gov_put_err herr]
  unfold DieSt.pmbFail
  rw [if_neg (Nat.not_lt.2 htries)]
  cases op with
  | telemetry c => exact absurd rfl (hop c)
  | _ => exact if_neg hgov'

@[simp] theorem DieSt.govTo_pace (d : DieSt) (st : Nat) : (d.govTo st).pace = d.pace := by
  unfold DieSt.govTo
  simp only [DieSt.put_pace]

/-- The die in FAULT, before that is reported: of the transactions that wait only telemetry reads stay. -/
def DieSt.faulted (d : DieSt) : DieSt :=
  ((d.withPace { d.pace.calm with
    pmb := none
    pmbNext := d.pace.pmbNext.filter (fun o => match o with | .telemetry _ => true | _ => false)
    pollAt := d.now }).govTo 5).put F.PACE_ERR_FAULT 1

theorem DieSt.govFault_eq (d : DieSt) (reason : Nat) : d.govFault reason =
    (d.faulted.raise 0x703 0x0504 (reason * 2 ^ 16 + d.faulted.f F.PACE_VREAD_STATUS)).pmbPump := rfl

theorem DieSt.faulted_pmbNext {d : DieSt} (h : d.pace.pmbNext = []) : d.faulted.pace.pmbNext = [] := by
  unfold DieSt.faulted
  rw [DieSt.put_pace, DieSt.govTo_pace, DieSt.withPace_pace, h]
  rfl

/-- No transaction waits in FAULT where none did before. -/
theorem DieSt.govFault_pmbNext {d : DieSt} (reason : Nat) (h : d.pace.pmbNext = []) : (d.govFault reason).pace.pmbNext = [] := by
  have hidle (c v : Nat) : (d.faulted.raise 0x703 c v).pace.pmbNext = [] := by rw [DieSt.raise_pace, DieSt.faulted_pmbNext h]
  rw [DieSt.govFault_eq, DieSt.pmbPump_idle (hidle _ _), hidle]

@[simp] theorem DieSt.showVout_pace (d : DieSt) (mv : Nat) : (d.showVout mv).pace = d.pace := by
  unfold DieSt.showVout
  split <;> simp

/-- What READ_VOUT shows stands in PACE_VREAD. -/
theorem DieSt.showVout_f (d : DieSt) (mv : Nat) {y : Fld} (hy : y.addr ≠ R.PACE_VREAD) : (d.showVout mv).f y = d.f y := by
  unfold DieSt.showVout
  split
  · exact d.f_put_ne F.PACE_VREAD_VOUT y hy _
  · exact DieSt.f_put_ne _ F.PACE_VREAD_VOUT y hy _

/-- Is a READ_VOUT of `data` more than 20 mV off the commanded voltage (R130). -/
def DieSt.voutOff (d : DieSt) (data : Nat) : Prop :=
  let code := voutCode d.pace.vexp (d.f F.PACE_STAT_VSET)
  code * 1000 + 20 * 2 ^ d.pace.vexp < data * 1000 ∨ data * 1000 + 20 * 2 ^ d.pace.vexp < code * 1000

section ReadVout
variable {d : DieSt} {data : Nat}

/-- A READ_VOUT within tolerance confirms the step. -/
theorem DieSt.pmbDone_readVout_near (h : ¬ d.voutOff data) :
    d.pmbDone .readVout data =
      let e := d.showVout (data * 1000 / 2 ^ d.pace.vexp)
      (e.withPace { e.pace with voutOk := true }).noteStep := by
  unfold DieSt.voutOff at h
  unfold DieSt.pmbDone
  simp only [DieSt.showVout_pace, d.showVout_f _ (y := F.PACE_STAT_VSET) (by decide)]
  exact if_neg (by simpa using h)

/-- One outside it enters FAULT. -/
theorem DieSt.pmbDone_readVout_off (h : d.voutOff data) :
    d.pmbDone .readVout data =
      ((d.showVout (data * 1000 / 2 ^ d.pace.vexp)).put F.PACE_ERR_MISMATCH 1).govFault 3 := by
  unfold DieSt.voutOff at h
  unfold DieSt.pmbDone
  simp only [DieSt.showVout_pace, d.showVout_f _ (y := F.PACE_STAT_VSET) (by decide)]
  exact if_pos (by simpa using h)

end ReadVout

/-- A step that has settled waits for its clusters until it has found them converged (R126). -/
theorem DieSt.convTimeout_cond (d : DieSt) :
    (d.pace.stepping && d.pace.settled && !d.pace.convTimedOut && !d.noteStep.pace.convOk) =
      (d.pace.stepping && d.pace.settled && !d.pace.convTimedOut && !(d.pace.convOk || d.converged)) := by
  cases hstep : d.pace.stepping with
  | false => rfl
  | true =>
    cases hset : d.pace.settled with
    | false => rfl
    | true => rw [DieSt.noteStep_eq, DieSt.withPace_pace, PaceSt.noted_convOk _ _ _ hstep hset]

/-- Settles O19: each command acts just where its wait is over, and the tries and the tolerance select the end of a transaction. -/
theorem governorWaitsAndPmbus : Obligations.GovernorWaitsAndPmbus := by
  intro s x d h
  refine ⟨act_next h rfl, ?convergence, fun op tries data hgov hpmb => ⟨fun htries => ?retry, fun hop htries hgov5 => ?fault, ?read⟩,
    fun hon => ?alert, fun hgov hdue => ?poll⟩
  case convergence =>
    have hvset : (d.withPace { d.pace with convTimedOut := true }).noteStep.f F.PACE_STAT_VSET = d.f F.PACE_STAT_VSET := by
      rw [DieSt.noteStep_f, DieSt.withPace_f]
    refine act_next h ?_
    rw [DieSt.convTimeout_cond, ← hvset]
    rfl
  case retry => exact act_next h ((DieSt.pmbEnd_nack hgov hpmb data).trans (d.pmbFail_retries op 1 F.PACE_ERR_NACK htries))
  case fault => exact act_next h ((DieSt.pmbEnd_nack hgov hpmb data).trans (DieSt.pmbFail_faults 1 hop htries rfl hgov5))
  case read =>
    intro hop hnext p e code
    subst hop
    have hidle : e.pace.pmbNext = [] := (congrArg PaceSt.pmbNext (DieSt.showVout_pace _ _)).trans hnext
    have ended {f : DieSt} (hdone : (d.withPace { d.pace with pmb := none }).pmbDone .readVout data = f) (hf : f.pace.pmbNext = []) :
        exec (.pmbusTransactionEnd x .ok data) s = .next (s.setDie x f) :=
      act_next h ((DieSt.pmbEnd_ok hgov hpmb data).trans ((congrArg DieSt.pmbPump hdone).trans (DieSt.pmbPump_idle hf)))
    refine ⟨fun hhigh hlow => ?_, fun hoff => ?_⟩
    · exact ended (DieSt.pmbDone_readVout_near fun hoff => hoff.elim (Nat.not_lt.2 hhigh) (Nat.not_lt.2 hlow))
        ((DieSt.noteStep_pmbNext _).trans hidle)
    · exact ended (DieSt.pmbDone_readVout_off hoff)
        (DieSt.govFault_pmbNext 3 ((congrArg PaceSt.pmbNext (DieSt.put_pace _ _ _)).trans hidle))
  case alert =>
    refine act_next h ?_
    rw [hon, ← d.gov_put_err (x := F.PACE_ERR_ALERT) rfl 1]
    rfl
  case poll => exact act_next h (if_pos (by simp [hgov, hdue]))

/-! ### Registers (R124, R128, R131, R133) -/

/-- A write of PACE_CTL.HOLD leaves the governor's state as it finds it. -/
theorem DieSt.gov_put_hold (d : DieSt) (v : Nat) : (d.put F.PACE_CTL_HOLD v).gov = d.gov :=
  d.f_put_ne F.PACE_CTL_HOLD F.PACE_STAT_STATE (by decide) v

theorem DieSt.dev_put_hold (d : DieSt) (v : Nat) : (d.put F.PACE_CTL_HOLD v).dev = d.dev :=
  d.f_put_ne F.PACE_CTL_HOLD F.PWR_STATE_STATE (by decide) v

section Control
variable {d : DieSt}

theorem DieSt.paceHold_enters (hgov : d.gov = 2) : d.paceHold true = ((d.put F.PACE_CTL_HOLD 1).govTo 3).noVcore := by
  simp [DieSt.paceHold, DieSt.gov_put_hold, hgov, b2n]

theorem DieSt.paceHold_leaves (hgov : d.gov = 3) (hdev : d.dev = 4) :
    d.paceHold false = (d.put F.PACE_CTL_HOLD 0).put F.PACE_STAT_STATE 2 := by
  simp [DieSt.paceHold, DieSt.gov_put_hold, DieSt.dev_put_hold, hgov, hdev, b2n]

/-- Outside PLAY a write of HOLD leaves HOLD to stand. -/
theorem DieSt.paceHold_stays (hdev : d.dev ≠ 4) : d.paceHold false = d.put F.PACE_CTL_HOLD 0 := by
  simp [DieSt.paceHold, DieSt.dev_put_hold, hdev, b2n]

theorem DieSt.paceResume_hold (hgov : d.gov = 3) (hdev : d.dev = 4) :
    d.paceResume = (d.put F.PACE_CTL_HOLD 0).put F.PACE_STAT_STATE 2 := by
  simp [DieSt.paceResume, hgov, hdev]

theorem DieSt.paceResume_fault (hgov : d.gov = 5) : d.paceResume = d.pmbAdd [.clearFaults, .statusResume] := by
  simp [DieSt.paceResume, hgov]

end Control

section Headroom
variable (d : DieSt) {up dn : Nat}

theorem DieSt.paceHr_inRange (hup : up ≤ 25) (hlow : up + 5 ≤ dn) (hhigh : dn ≤ 50) :
    d.paceHr up dn = ((d.put F.PACE_HR_HR_UP up).put F.PACE_HR_HR_DN dn, false) := if_pos (by simp [hup, hlow, hhigh])

theorem DieSt.paceHr_outOfRange (h : 25 < up ∨ dn < up + 5 ∨ 50 < dn) : d.paceHr up dn = (d, true) := if_neg (by simp; omega)

end Headroom

/-- Is `code` one of the three telemetry reads (R131). -/
def telemetryCode (code : Nat) : Prop := code = 0x8C ∨ code = 0x8D ∨ code = 0x96

section Telemetry
variable {d : DieSt} {code : Nat}

theorem DieSt.pmbGo_busy (h : d.on F.PACE_PMB_CMD_BUSY = true) : d.pmbGo code = d := if_pos h

variable (hfree : d.on F.PACE_PMB_CMD_BUSY = false)
include hfree

/-- A request is queued before whatever waits. -/
theorem DieSt.pmbGo_reads (hcode : telemetryCode code) :
    d.pmbGo code =
      let e := ((d.put F.PACE_PMB_CMD_CMD code).put F.PACE_PMB_CMD_BUSY 1).put F.PACE_PMB_CMD_ERR 0
      (e.withPace { e.pace with pmbNext := .telemetry code :: e.pace.pmbNext }).pmbPump := by
  unfold telemetryCode at hcode
  unfold DieSt.pmbGo
  rw [hfree, if_neg Bool.false_ne_true]
  exact if_pos (by simpa [or_assoc] using hcode)

theorem DieSt.pmbGo_refuses (hcode : ¬ telemetryCode code) :
    d.pmbGo code = (d.put F.PACE_PMB_CMD_CMD code).put F.PACE_PMB_CMD_ERR 1 := by
  unfold telemetryCode at hcode
  unfold DieSt.pmbGo
  rw [hfree, if_neg Bool.false_ne_true]
  exact if_neg (by simpa [or_assoc] using hcode)

end Telemetry

/-- Settles O20: each clause is a register write that its die takes, with the effect that the governor's state, the device state,
the range or the code selects. -/
theorem governorRegisters : Obligations.GovernorRegisters := by
  intro s x d m
  have write {a : Nat} {g : DieSt → DieSt} {e : DieSt} (ht : s.takes x d m a) (hg : g d = e) :
      act x s (fun d => d.busAct m a g) = .next (s.setDie x (e.ack m)) := hg ▸ act_busAct x s d m a g ht
  refine ⟨fun ht => ?control, fun up dn ht => ?headroom, fun code ht => ?telemetry⟩
  case control =>
    refine ⟨fun hrun => ?_, fun hhold hplay => ?_, fun hhold hrec => ?_, fun hhold hplay => ?_, fun hfault => ?_⟩
    · exact write ht (DieSt.paceHold_enters hrun)
    · exact write ht (DieSt.paceHold_leaves hhold hplay)
    · exact write ht (DieSt.paceHold_stays (by omega))
    · exact write ht (DieSt.paceResume_hold hhold hplay)
    · exact write ht (DieSt.paceResume_fault hfault)
  case headroom =>
    have ended {e : DieSt} {err : Bool} (hg : d.paceHr up dn = (e, err)) :
        exec (.paceHrWrite x m up dn) s = .next (s.setDie x (e.answer m 0 err)) :=
      act_next (State.has_of_takes ht) ((d.busDo_ok m R.PACE_HR _ ht.2).trans (by rw [hg]))
    exact ⟨fun hup hlow hhigh => ended (d.paceHr_inRange hup hlow hhigh), fun hout => ended (d.paceHr_outOfRange hout)⟩
  case telemetry =>
    refine ⟨fun hbusy => ?_, fun hfree => ⟨fun hcode => ?_, fun hiout htemp hpout => ?_⟩⟩
    · exact write ht (DieSt.pmbGo_busy hbusy)
    · exact write ht (DieSt.pmbGo_reads hfree hcode)
    · exact write ht (DieSt.pmbGo_refuses hfree fun hcode => hcode.elim hiout fun hrest => hrest.elim htemp hpout)

end Sys2Proof.Machine

/-! # Crossings between the fabric and the islands (O39) -/

namespace Sys2Proof.Machine

/-! ### The holding register and the flags (R231) -/

section Push
variable {s : XSt} {now : Nat}

/-- The oldest value that waits stands in the register. -/
def XSt.loaded (s : XSt) (v : Nat) (l : List Nat) : XSt := { s with full := true, value := v, wait := l }

/-- A waiting value loads the empty register and goes at once where the flags rest. -/
theorem XSt.push_loads {v : Nat} {l : List Nat} (hfull : s.full = false) (hflight : s.flight = false) (hwait : s.wait = v :: l) :
    s.push now = (s.loaded v l).launch now := by
  simp [XSt.push, XSt.loaded, hfull, hflight, hwait]

theorem XSt.push_loads_behind {v : Nat} {l : List Nat} (hfull : s.full = false) (hflight : s.flight = true) (hwait : s.wait = v :: l) :
    s.push now = s.loaded v l := by
  simp [XSt.push, XSt.loaded, hfull, hflight, hwait]

theorem XSt.push_goes (hfull : s.full = true) (hflight : s.flight = false) : s.push now = s.launch now := by
  simp [XSt.push, hfull, hflight]

/-- While something is in flight a full register keeps what it holds, and the values behind it wait. -/
theorem XSt.push_waits (hfull : s.full = true) (hflight : s.flight = true) : s.push now = s := by
  simp [XSt.push, hfull, hflight]

theorem XSt.push_empty (hfull : s.full = false) (hwait : s.wait = []) : s.push now = s := by
  simp [XSt.push, hfull, hwait]

/-- All a push can do. -/
theorem XSt.push_cases (s : XSt) (now : Nat) : s.push now = s ∨ s.push now = s.launch now ∨
    ∃ v l, s.push now = s.loaded v l ∨ s.push now = (s.loaded v l).launch now := by
  cases hfull : s.full with
  | true =>
    cases hflight : s.flight with
    | true => exact .inl (XSt.push_waits hfull hflight)
    | false => exact .inr (.inl (XSt.push_goes hfull hflight))
  | false =>
    cases hwait : s.wait with
    | nil => exact .inl (XSt.push_empty hfull hwait)
    | cons v l =>
      cases hflight : s.flight with
      | true => exact .inr (.inr ⟨v, l, .inl (XSt.push_loads_behind hfull hflight hwait)⟩)
      | false => exact .inr (.inr ⟨v, l, .inr (XSt.push_loads hfull hflight hwait)⟩)

/-- What neither the loading of the register nor the toggle of the request flag changes, a push leaves as it was. -/
theorem XSt.push_keeps {α : Type} (p : XSt → α) (hlaunch : ∀ s : XSt, p (s.launch now) = p s)
    (hloaded : ∀ (s : XSt) v l, p (s.loaded v l) = p s) : p (s.push now) = p s := by
  obtain h | h | ⟨v, l, h | h⟩ := s.push_cases now <;> simp only [h, hlaunch, hloaded]

theorem XSt.push_pend : (s.push now).pend = s.pend := XSt.push_keeps XSt.pend (fun _ => rfl) (fun _ _ _ => rfl)
theorem XSt.push_next : (s.push now).next = s.next := XSt.push_keeps XSt.next (fun _ => rfl) (fun _ _ _ => rfl)
theorem XSt.push_status : (s.push now).status = s.status := XSt.push_keeps XSt.status (fun _ => rfl) (fun _ _ _ => rfl)
theorem XSt.push_dstHit : (s.push now).dstHit = s.dstHit := XSt.push_keeps XSt.dstHit (fun _ => rfl) (fun _ _ _ => rfl)
theorem XSt.push_dstRst : (s.push now).dstRst = s.dstRst := XSt.push_keeps XSt.dstRst (fun _ => rfl) (fun _ _ _ => rfl)
theorem XSt.push_srcHit : (s.push now).srcHit = s.srcHit := XSt.push_keeps XSt.srcHit (fun _ => rfl) (fun _ _ _ => rfl)
theorem XSt.push_srcRst : (s.push now).srcRst = s.srcRst := XSt.push_keeps XSt.srcRst (fun _ => rfl) (fun _ _ _ => rfl)

/-- What goes is neither taken nor void yet. -/
theorem XSt.push_fresh (hdone : s.done = false) (hvoid : s.void = false) :
    (s.push now).done = false ∧ (s.push now).void = false := by
  obtain h | h | ⟨v, l, h | h⟩ := s.push_cases now <;> rw [h]
  · exact ⟨hdone, hvoid⟩
  · exact ⟨rfl, rfl⟩
  · exact ⟨hdone, hvoid⟩
  · exact ⟨rfl, rfl⟩

/-- Where the flags rest, what the register holds, or takes from the values that wait, goes. -/
theorem XSt.push_flags (hflight : s.flight = false) :
    (s.push now).full = (s.full || !s.wait.isEmpty) ∧ (s.push now).flight = (s.push now).full := by
  cases hfull : s.full with
  | true => rw [XSt.push_goes hfull hflight]; exact ⟨hfull, hfull.symm⟩
  | false =>
    cases hwait : s.wait with
    | nil => rw [XSt.push_empty hfull hwait]; exact ⟨hfull, hflight.trans hfull.symm⟩
    | cons v l => rw [XSt.push_loads hfull hflight hwait]; exact ⟨rfl, rfl⟩

end Push

/-! ### One crossing of a die, and an engine's output register behind one (R231) -/

section Crossing
variable (d : DieSt) (r q : XRef) (c e : XSt) (b : Bool)

@[simp] theorem DieSt.setXr_setXr : (d.setXr r c).setXr r e = d.setXr r e :=
  congrArg d.withXing (Tab.set_set _ _ _ _ _)

@[simp] theorem DieSt.xMark_xReset : d.xMark.xReset q b = d.xReset q b := rfl
@[simp] theorem DieSt.xMark_xStatus (code : Nat) : d.xMark.xStatus q code = d.xStatus q code := rfl

/-- Only an engine's output crossing has an output register to empty. -/
theorem DieSt.seEmpties_other (h : r.kind ≠ 0) : d.seEmpties r = d := if_neg (by simp [h])

theorem DieSt.seEmpties_cases : d.seEmpties r = d ∨ ∃ g, d.seEmpties r = d.setEng (r.inst / 8) g := by
  unfold DieSt.seEmpties
  split
  · exact .inr ⟨_, rfl⟩
  · exact .inl rfl

@[simp] theorem DieSt.seEmpties_f (y : Fld) : (d.seEmpties r).f y = d.f y := by
  obtain h | ⟨g, h⟩ := d.seEmpties_cases r <;> rw [h]
  exact d.setEng_f _ g y

end Crossing

/-! ### What is counted and shown (R248, R249) -/

section Report
variable (d : DieSt) (r : XRef)

@[simp] theorem DieSt.raiseLim_xing (en : Bool) (key per l code data : Nat) : (d.raiseLim en key per l code data).xing = d.xing := by
  unfold DieSt.raiseLim; split <;> simp

@[simp] theorem DieSt.raiseLim_f (en : Bool) (key per l code data : Nat) (y : Fld) :
    (d.raiseLim en key per l code data).f y = d.f y := by
  unfold DieSt.raiseLim; split
  · exact d.raise_f l code data y
  · rfl

@[simp] theorem DieSt.xErr_xing (cause : Nat) : (d.xErr r cause).xing = d.xing := by
  unfold DieSt.xErr; split <;> simp

@[simp] theorem DieSt.xErr_raised (cause : Nat) : (d.xErr r cause).raised = d.raised := by
  unfold DieSt.xErr; split <;> simp

theorem DieSt.xErr_f (cause : Nat) {y : Fld} (hy : y.addr ≠ R.XING_ERR) : (d.xErr r cause).f y = d.f y := by
  unfold DieSt.xErr
  split
  · rfl
  · rw [DieSt.f_put_ne _ _ _ hy, DieSt.f_put_ne _ _ _ hy, DieSt.f_put_ne _ _ _ hy, DieSt.f_put_ne _ _ _ hy]

/-- In `e` the crossings are as in `d`, the count `cnt` is one more, up to 65,535, and the status bit `stat` is set. -/
structure DieSt.Counts (d e : DieSt) (cnt stat : Fld) : Prop where
  xing : e.xing = d.xing
  count : e.f cnt = min 65535 (d.f cnt + 1)
  status : e.f stat = 1

/-- A count of crossing kind `k` and its status bit, before the event that some of them raise. -/
theorem DieSt.counts_xErr {k a : Nat} (ha : a = R.XING_CNT_A k ∨ a = R.XING_CNT_B k) (lo b cause : Nat) (hlo : lo + 15 < 32)
    (hb : b < 32) : d.Counts (((d.bump ⟨a, lo + 15, lo⟩).put ⟨R.XING_STAT k, b, b⟩ 1).xErr r cause)
      ⟨a, lo + 15, lo⟩ ⟨R.XING_STAT k, b, b⟩ := by
  have hcnt : (⟨a, lo + 15, lo⟩ : Fld).width = 16 := by unfold Fld.width; dsimp only; omega
  have hstat : (⟨R.XING_STAT k, b, b⟩ : Fld).width = 1 := by unfold Fld.width; dsimp only; omega
  have hlt : d.f ⟨a, lo + 15, lo⟩ < 2 ^ 16 := hcnt ▸ Fld.of_lt _ _
  obtain ⟨hstatus, herr, hstatErr⟩ : a ≠ R.XING_STAT k ∧ a ≠ R.XING_ERR ∧ R.XING_STAT k ≠ R.XING_ERR := by
    unfold R.XING_CNT_A R.XING_CNT_B at ha
    unfold R.XING_STAT R.XING_ERR
    omega
  refine ⟨by simp, ?_, ?_⟩
  · rw [DieSt.xErr_f _ _ _ herr, DieSt.f_put_ne _ _ _ hstatus, DieSt.bump, DieSt.f_put_self _ _ ⟨by simp, hlo⟩, hcnt,
      satInc_eq 16 _ hlt]
    omega
  · have hbit : 1 < 2 ^ (⟨R.XING_STAT k, b, b⟩ : Fld).width := hstat.symm ▸ (by decide : 1 < 2 ^ 1)
    exact (DieSt.xErr_f _ _ _ hstatErr).trans ((DieSt.f_put_self _ _ ⟨Nat.le_refl _, hb⟩ 1).trans (Nat.mod_eq_of_lt hbit))

/-- The event, where it is enabled and due, changes none of it. -/
theorem DieSt.Counts.xEvt {e : DieSt} {cnt stat : Fld} (h : d.Counts e cnt stat) (en : Bool) (code : Nat) :
    d.Counts (e.xEvt r en code) cnt stat :=
  ⟨(e.raiseLim_xing ..).trans h.xing, (e.raiseLim_f ..).trans h.count, (e.raiseLim_f ..).trans h.status⟩

theorem DieSt.xTimedOut_counts : d.Counts (d.xTimedOut r) (F.XING_CNT_A_TIMEOUTS r.kind) (F.XING_STAT_TIMEOUT r.kind) :=
  (d.counts_xErr r (.inl rfl) 16 0 1 (by decide) (by decide)).xEvt ..

theorem DieSt.xLate_counts : d.Counts (d.xLate r) (F.XING_CNT_A_LATE r.kind) (F.XING_STAT_LATE r.kind) :=
  d.counts_xErr r (.inl rfl) 0 1 2 (by decide) (by decide)

theorem DieSt.xLost_counts : d.Counts (d.xLost r) (F.XING_CNT_B_LOST r.kind) (F.XING_STAT_LOST r.kind) :=
  (d.counts_xErr r (.inr rfl) 16 2 3 (by decide) (by decide)).xEvt ..

theorem DieSt.xPeer_counts : d.Counts (d.xPeer r) (F.XING_CNT_B_PEER_RESET r.kind) (F.XING_STAT_PEER_RESET r.kind) :=
  (d.counts_xErr r (.inr rfl) 0 3 4 (by decide) (by decide)).xEvt ..

@[simp] theorem DieSt.xLate_raised : (d.xLate r).raised = d.raised := by simp [DieSt.xLate]

variable {d r} in
/-- What is counted leaves every crossing as it stood. -/
theorem DieSt.Counts.xr {e : DieSt} {cnt stat : Fld} (h : d.Counts e cnt stat) : e.xr r = d.xr r := by
  unfold DieSt.xr; rw [h.xing]

end Report

/-! ### Offers (R231, R234, R237, R247) -/

/-- The source offers a value behind those that wait. -/
def XSt.offered (s : XSt) (v : Nat) : XSt := { s with wait := s.wait ++ [v] }

theorem XSt.offered_push_empty {s : XSt} (v now : Nat) (hfull : s.full = false) (hflight : s.flight = false) (hwait : s.wait = []) :
    (s.offered v).push now = (s.loaded v s.wait).launch now := by
  rw [hwait]
  exact XSt.push_loads (s := s.offered v) hfull hflight (by rw [XSt.offered, hwait]; rfl)

section Offer
variable {d : DieSt} {r : XRef}

/-- A token crossing other than the fabric's METROLOGY one offers what its source has. -/
theorem DieSt.xOffers_token (htok : xToken r = true) (hmet : ¬(r.kind = 9 ∧ r.inst = 0)) (v : Nat) :
    d.xOffers r v = (d.xOwn r v).elim d (d.xOffer r) := by
  have hbank : ¬(r.kind = 11 ∧ r.inst % 32 = 16) := by
    rintro ⟨hkind, hprim⟩
    simp [xToken, hkind, hprim] at htok
  unfold DieSt.xOffers
  rw [if_neg (by simpa using hbank), if_neg (by simpa using hmet)]
  cases d.xOwn r v <;> rfl

/-- A source in reset offers nothing. -/
theorem DieSt.xOffer_inReset (hreset : d.xReset r true = true) (v : Nat) : d.xOffer r v = d := if_pos (by simp [hreset])

/-- Any other source puts its value behind those that wait, and the oldest goes on as far as the register and the flags let it. -/
theorem DieSt.xOffer_pushes (hhas : d.xHas r = true) (htok : xToken r = true) (hreset : d.xReset r true = false)
    (hstill : d.xStill r = false) (hload : (d.xr r).full = false ∨ r.kind ≠ 9) (v : Nat) :
    d.xOffer r v = d.setXr r (((d.xr r).offered (v % 2 ^ d.xWidth r)).push d.now) := by
  have hmet : ((d.xr r).full && r.kind == 9) = false := by
    obtain hfull | hkind := hload
    · rw [hfull, Bool.false_and]
    · rw [beq_false_of_ne hkind, Bool.and_false]
  simp [DieSt.xOffer, XSt.offered, hhas, htok, hreset, hstill, hmet]

/-- The personality asserts and releases the reset of a bank. -/
theorem DieSt.xOffers_bankReset (hhas : d.xHas r = true) (hkind : r.kind = 11) (hprim : r.inst % 32 = 16)
    (hsrc : r.srcFabric = true) (hreset : d.xEndReset r = false) (v : Nat) : d.xOffers r v = d.bankReset (r.inst / 32) v := by
  simp [DieSt.xOffers, hhas, hkind, hprim, hsrc, hreset]

end Offer

/-! ### Takes (R231, R237, R238, R242) -/

/-- The destination has taken what is in flight. -/
def XSt.taken (s : XSt) : XSt := { s with done := true, out := some s.flying }

section Take
variable {d : DieSt} {r : XRef}

theorem DieSt.xTake_blind (h : d.xBlind r = true) : d.xTake r = d := if_pos (by simp [h])

variable (hhas : d.xHas r = true) (hflight : (d.xr r).flight = true) (hdone : (d.xr r).done = false) (hblind : d.xBlind r = false)
include hhas hflight hdone hblind

/-- The destination sees a void value: it counts it and takes nothing. -/
theorem DieSt.xTake_void (hvoid : (d.xr r).void = true) :
    d.xTake r = (d.setXr r { d.xr r with done := true }).xLate r := by
  simp [DieSt.xTake, hhas, hflight, hdone, hblind, hvoid]

theorem DieSt.xTake_held (hvoid : (d.xr r).void = false) (hheld : d.xHeld r (d.xr r).flying = true) : d.xTake r = d := by
  simp [DieSt.xTake, hhas, hflight, hdone, hblind, hvoid, hheld]

theorem DieSt.xTake_takes (hvoid : (d.xr r).void = false) (hheld : d.xHeld r (d.xr r).flying = false) :
    d.xTake r = (d.setXr r (d.xr r).taken).xDeliver r (d.xr r).flying := by
  simp [DieSt.xTake, XSt.taken, hhas, hflight, hdone, hblind, hvoid, hheld]

end Take

/-- What arrives over a TIME or UMPIRE crossing acts where it is used. -/
theorem DieSt.xDeliver_timeUmpire {r : XRef} (hkind : r.kind = 8 ∨ r.kind = 10) (d : DieSt) (v : Nat) : d.xDeliver r v = d := by
  obtain h | h := hkind <;> simp [DieSt.xDeliver, h]

/-- Neither they nor event ports hold a take back. -/
theorem DieSt.xHeld_never {r : XRef} (hkind : r.kind = 4 ∨ r.kind = 8 ∨ r.kind = 10) (d : DieSt) (v : Nat) : d.xHeld r v = false := by
  obtain h | h | h := hkind <;> simp [DieSt.xHeld, h]

/-- An event at a port that no context listens to is spent. -/
theorem DieSt.eventTrigger_unused {d : DieSt} (hused : d.usedCtx = []) (p : Nat) : d.eventTrigger p = d := by
  simp [DieSt.eventTrigger, hused]

/-- A destination that sees what is in flight has no reset of its own to be seen, and does not stand still. -/
theorem DieSt.unhit_of_not_blind {d : DieSt} {r : XRef} (h : d.xBlind r = false) : (d.xr r).dstHit = false ∧ d.xStill r = false := by
  simp only [DieSt.xBlind, Bool.or_eq_false_iff] at h
  obtain ⟨⟨⟨⟨_, hhit⟩, _⟩, _⟩, hstill⟩ := h
  exact ⟨hhit, hstill⟩

/-! ### Returns (R231, R236, R242) -/

/-- The flags rest as a pair again, and the register is empty unless a later value loaded it past a void one. -/
def XSt.returned (s : XSt) : XSt := { s with flight := false, done := false, void := false, full := s.full && s.void }

/-- The flags rest, and of the pending pulses one is to go. -/
def XSt.drawn (s : XSt) : XSt := { s.returned with pend := s.pend - 1 }

section Returned
variable {s : XSt} {now : Nat}

/-- A value that was loaded past a void one goes. -/
theorem XSt.returned_push_void (hvoid : s.void = true) (hfull : s.full = true) : s.returned.push now = s.launch now := by
  rw [XSt.push_goes (by simp [XSt.returned, hvoid, hfull]) rfl]
  simp [XSt.returned, XSt.launch, hvoid, hfull]

theorem XSt.returned_push_empty (hvoid : s.void = false) (hwait : s.wait = []) :
    s.returned.push now = { s with flight := false, done := false, full := false } := by
  rw [XSt.push_empty (s := s.returned) (by simp [XSt.returned, hvoid]) hwait]
  simp [XSt.returned, hvoid]

theorem XSt.returned_push_loads {v : Nat} {l : List Nat} (hvoid : s.void = false) (hwait : s.wait = v :: l) :
    s.returned.push now = (s.loaded v l).launch now :=
  XSt.push_loads (by simp [XSt.returned, hvoid]) rfl hwait

end Returned

section Return
variable {d : DieSt} {r : XRef} (hhas : d.xHas r = true) (hflight : (d.xr r).flight = true) (hdone : (d.xr r).done = true)
  (hmet : ¬(r.kind = 9 ∧ r.inst = 0)) (hhit : (d.xr r).dstHit = false) (hstill : d.xStill r = false)
  (hnext : (d.xr r).next = false)
include hhas hflight hdone hmet hhit hstill hnext

/-- Without a pulse that waits, the return flag lets the next value go. -/
theorem DieSt.xReturn_pushes (hpend : (d.xr r).pend = 0) :
    d.xReturn r = (if (d.xr r).void then d else d.seEmpties r).setXr r ((d.xr r).returned.push d.now) := by
  simp [DieSt.xReturn, XSt.returned, hhas, hflight, hdone, hmet, hhit, hstill, hnext, hpend]

/-- A pulse that waits goes, and one less is pending. -/
theorem DieSt.xReturn_pulses (hpend : (d.xr r).pend ≠ 0) :
    d.xReturn r = (if (d.xr r).void then d else d.seEmpties r).setXr r ((d.xr r).drawn.launch d.now) := by
  simp [DieSt.xReturn, XSt.drawn, XSt.returned, hhas, hflight, hdone, hmet, hhit, hstill, hnext, hpend]

end Return

/-- An event that its port takes lets the next pending one go. -/
theorem DieSt.xTake_xReturn_pulse {d : DieSt} {r : XRef} (hhas : d.xHas r = true) (hkind : r.kind = 4) (hused : d.usedCtx = [])
    (hflight : (d.xr r).flight = true) (hdone : (d.xr r).done = false) (hvoid : (d.xr r).void = false) (hblind : d.xBlind r = false)
    (hnext : (d.xr r).next = false) (hpend : (d.xr r).pend ≠ 0) :
    (d.xTake r).xReturn r = d.setXr r ((d.xr r).taken.drawn.launch d.now) := by
  obtain ⟨hhit, hstill⟩ := DieSt.unhit_of_not_blind hblind
  have htake : d.xTake r = d.setXr r (d.xr r).taken := by
    rw [DieSt.xTake_takes hhas hflight hdone hblind hvoid (d.xHeld_never (.inl hkind) _)]
    simp only [DieSt.xDeliver, hkind]
    exact DieSt.eventTrigger_unused (d := d.setXr r (d.xr r).taken) hused r.inst
  have hreturn := DieSt.xReturn_pulses (d := d.setXr r (d.xr r).taken) (r := r)
  rw [DieSt.seEmpties_other _ _ (by simp [hkind]), ite_self, DieSt.xr_setXr, DieSt.setXr_setXr] at hreturn
  rw [htake]
  exact hreturn hhas hflight rfl (by simp [hkind]) hhit hstill hnext hpend

/-! ### Pulses (R236) -/

section Pulse
variable {d : DieSt} {r : XRef} (hhas : d.xHas r = true) (hpulse : xPulseKind r = true) (hreset : d.xReset r true = false)
  (hstill : d.xStill r = false)
include hhas hpulse hreset hstill

theorem DieSt.xPulse_goes (hflight : (d.xr r).flight = false) : d.xPulse r = d.setXr r ((d.xr r).launch d.now) := by
  simp [DieSt.xPulse, hhas, hpulse, hreset, hstill, hflight]

theorem DieSt.xPulse_counted (hflight : (d.xr r).flight = true) (hpend : (d.xr r).pend < 15) :
    d.xPulse r = d.setXr r { d.xr r with pend := (d.xr r).pend + 1 } := by
  simp [DieSt.xPulse, hhas, hpulse, hreset, hstill, hflight, hpend]

theorem DieSt.xPulse_lost (hflight : (d.xr r).flight = true) (hpend : 15 ≤ (d.xr r).pend) : d.xPulse r = d.xLost r := by
  simp [DieSt.xPulse, hhas, hpulse, hreset, hstill, hflight, Nat.not_lt.2 hpend]

/-- An event that meets the decrease of a full counter is counted after it, so that the counter stands at 15 again. -/
theorem DieSt.xPulse_xReturn_full (hflight : (d.xr r).flight = true) (hdone : (d.xr r).done = true) (hpend : (d.xr r).pend = 15)
    (hnext : (d.xr r).next = false) (hhit : (d.xr r).dstHit = false) (hmet : ¬(r.kind = 9 ∧ r.inst = 0)) :
    ∃ c, (d.xReturn r).xPulse r = d.setXr r c ∧ c.pend = 15 := by
  have hkind : r.kind ≠ 0 := by
    intro h
    simp [xPulseKind, h] at hpulse
  have hreturn := DieSt.xReturn_pulses hhas hflight hdone hmet hhit hstill hnext (by omega)
  rw [DieSt.seEmpties_other _ _ hkind, ite_self] at hreturn
  have hcount := DieSt.xPulse_counted (d := d.setXr r ((d.xr r).drawn.launch d.now)) hhas hpulse hreset hstill
    (by rw [DieSt.xr_setXr]; rfl) (by simp [XSt.launch, XSt.drawn, hpend])
  rw [DieSt.setXr_setXr, DieSt.xr_setXr] at hcount
  exact ⟨_, hreturn ▸ hcount, by simp [XSt.launch, XSt.drawn, hpend]⟩

end Pulse

/-! ### Timeouts (R241, R242) -/

/-- In units of 10 ns the interval is ten times the count. -/
theorem xInterval_tens {v : Word} (h : bits v.toNat 17 16 = 0) : xInterval v = v.toNat % 2 ^ 16 * 10 := by
  simp [xInterval, h]

theorem xInterval_ofNat {i : Nat} (h : i < 65536) : xInterval (BitVec.ofNat 32 i) = 10 * i := by
  have hv : (BitVec.ofNat 32 i).toNat = i := by simp; omega
  have hunit : bits i 17 16 = 0 := by simp [bits, Nat.shiftRight_eq_div_pow]; omega
  rw [xInterval_tens (by rw [hv, hunit]), hv]
  omega

section Timer
variable {d : DieSt} {r : XRef}

/-- A timer set in units of 10 ns expires on a value in flight that many units after its toggle. -/
theorem DieSt.xDue_tens {i : Nat} (hcfg : d.rd (R.XING_CFG r.kind) = BitVec.ofNat 32 i) (hpos : 0 < i) (hlt : i < 65536)
    (hhas : d.xHas r = true) (hflight : (d.xr r).flight = true) (hdone : (d.xr r).done = false) (hvoid : (d.xr r).void = false)
    (hstill : d.xStill r = false) (hsince : (d.xr r).since + 10 * i ≤ d.now) : d.xDue r = true := by
  have hset : 10 * i ≠ 0 := by omega
  simp [DieSt.xDue, hcfg, xInterval_ofNat hlt, hhas, hflight, hdone, hvoid, hstill, hsince, hset]

/-- What is in flight is void, the register empty and the sender told. -/
def XSt.expired (s : XSt) (status : List Nat) : XSt :=
  { s with void := true, full := false, next := decide (s.pend ≠ 0), pend := s.pend - 1, status := s.status ++ status }

theorem DieSt.xExpire_idle (hwait : (d.xr r).wait = []) :
    d.xExpire r = ((d.seEmpties r).setXr r ((d.xr r).expired (d.xStatus r 1))).xTimedOut r := by
  have hpush := XSt.push_empty (s := (d.xr r).expired (d.xStatus r 1)) (now := d.now) rfl hwait
  rw [← hpush]
  rfl

end Timer

/-! ### Resets of the peer (R237, R238, R239) -/

/-- The source side sees its peer enter reset: what is in flight and the pending events are gone, what it still offers stays. -/
def XSt.peerLost (s : XSt) (rst : Bool) (status : List Nat) : XSt :=
  { s with
    full := s.full && (s.void || !s.flight), flight := false, done := false, void := false, pend := 0, next := false
    dstHit := false, dstRst := rst, status := s.status ++ status }

/-- The side named sees its peer out of reset. -/
def XSt.peerBack (s : XSt) (source : Bool) : XSt := if source then { s with dstRst := false } else { s with srcRst := false }

section Peer
variable {d : DieSt} {r : XRef}

/-- At an engine's ports a peer's reset is not counted; elsewhere the side that sees it counts it. -/
def DieSt.xSeen (d : DieSt) (r : XRef) : DieSt := if r.kind = 0 then d else d.xPeer r

/-- What the source keeps of a crossing whose other side it sees enter reset. -/
def DieSt.xCut (d : DieSt) (r : XRef) : XSt :=
  (d.xMark.xr r).peerLost (d.xReset r false) (if r.kind = 0 then [] else d.xStatus r 2)

theorem DieSt.xSeen_xr : (d.xSeen r).xr r = d.xr r := by
  unfold DieSt.xSeen
  split
  · rfl
  · exact (d.xPeer_counts r).xr

theorem DieSt.xSeen_port (hkind : r.kind = 0) : d.xSeen r = d := if_pos hkind

variable (d) in
theorem DieSt.xSeen_counts (hkind : r.kind ≠ 0) :
    d.Counts (d.xSeen r) (F.XING_CNT_B_PEER_RESET r.kind) (F.XING_STAT_PEER_RESET r.kind) := by
  unfold DieSt.xSeen
  rw [if_neg hkind]
  exact d.xPeer_counts r

variable (hhas : d.xHas r = true)
include hhas

theorem DieSt.xPeerReset_source (hsees : d.xSees r true = true) (hreset : d.xReset r true = false) :
    d.xPeerReset r true = (d.xMark.setXr r ((d.xCut r).push d.now)).xSeen r := by
  by_cases hkind : r.kind = 0 <;> simp [DieSt.xPeerReset, DieSt.xSeen, DieSt.xCut, XSt.peerLost, hhas, hsees, hreset, hkind] <;> rfl

theorem DieSt.xPeerReset_destination (hsees : d.xSees r false = true) (hreset : d.xReset r false = false) :
    d.xPeerReset r false = (d.xMark.setXr r
      (({ d.xMark.xr r with srcHit := false, srcRst := d.xReset r true } : XSt).push d.now)).xSeen r := by
  by_cases hkind : r.kind = 0 <;> simp [DieSt.xPeerReset, DieSt.xSeen, hhas, hsees, hreset, hkind] <;> rfl

theorem DieSt.xPeerEnd_pushes {side : Bool} (hreset : d.xReset r (!side) = false) : d.xPeerEnd r side =
    d.setXr r (((d.xr r).peerBack side).push d.now) :=
  if_neg (by simp [hhas, hreset])

end Peer

theorem DieSt.xPeerEnd_inReset {d : DieSt} {r : XRef} {side : Bool} (h : d.xReset r (!side) = true) : d.xPeerEnd r side = d :=
  if_pos (by simp [h])

/-! ### XING_CFG (R245, R249) -/

section Config
variable {d : DieSt} {k : Nat} {v : Word}

theorem DieSt.xCfgWrite_metrology (h : k = 9) : d.xCfgWrite k v = (d, false) := if_pos h

theorem DieSt.xCfgWrite_sets (hk : k ≠ 9) (hclass : d.classZero = false) :
    d.xCfgWrite k v = (d.wr (R.XING_CFG k) (v &&& 0x3FFFF), false) := by
  simp [DieSt.xCfgWrite, hk, hclass]

theorem DieSt.xCfgWrite_refuses (hk : xClass0Kind k = true) (hclass : d.classZero = true) (hset : xInterval v ≠ 0)
    (hshort : xInterval v < 10000) : d.xCfgWrite k v = (d, true) := by
  have hmet : k ≠ 9 := by rintro rfl; exact absurd hk (by decide)
  simp [DieSt.xCfgWrite, hk, hclass, hset, hshort, hmet]

end Config

/-- Settles O39: the state of the crossing's register, flags and sides selects what each command does to it, and each clause is one
such case. -/
theorem crossingsCarryTokensAndPulses : Obligations.CrossingsCarryTokensAndPulses := by
  intro s x d r h hhas c leads
  refine ⟨?offer, ?offerInReset, ?bankReset, ?take, ?blind, ?pulseDeliver, ?returns, ?pulse, ?meets, ?timeout, ?source, ?destination,
    ?sourceEnd, ?destinationEnd, ?stillInReset, ?config⟩
  case offer =>
    intro v w htok hmet hown hreset hstill u
    have hoffer : d.xOffers r v = d.xOffer r w := by rw [DieSt.xOffers_token htok hmet, hown]; rfl
    refine ⟨fun hfull hflight hwait => ?_, fun hfull hflight hkind => ?_⟩
    · exact act_next h (hoffer.trans ((DieSt.xOffer_pushes hhas htok hreset hstill (.inl hfull) w).trans
        (congrArg (d.setXr r) (XSt.offered_push_empty u d.now hfull hflight hwait))))
    · exact act_next h (hoffer.trans ((DieSt.xOffer_pushes hhas htok hreset hstill (.inr hkind) w).trans
        (congrArg (d.setXr r) (XSt.push_waits (s := c.offered u) hfull hflight))))
  case offerInReset =>
    intro v htok hreset hmet
    refine act_next h ?_
    rw [DieSt.xOffers_token htok hmet]
    cases d.xOwn r v with
    | none => rfl
    | some w => exact DieSt.xOffer_inReset hreset w
  case bankReset =>
    intro v hkind hprim hsrc hreset
    refine ⟨_, act_next h (DieSt.xOffers_bankReset hhas hkind hprim hsrc hreset v), s.sameElse_setDie x _, ?_, ?_⟩
    · rw [State.die_setDie]
      exact Tab.get_set_self _ _ _ _
    · rw [State.die_setDie]
      rfl
  case take =>
    intro hflight hdone hblind
    refine ⟨fun hvoid => ⟨fun hheld => ?_, fun hkind => ?_, fun hheld => ?_⟩, fun hvoid => ?_⟩
    · exact act_next h (DieSt.xTake_takes hhas hflight hdone hblind hvoid hheld)
    · exact act_next h ((DieSt.xTake_takes hhas hflight hdone hblind hvoid (d.xHeld_never (.inr hkind) _)).trans
        (DieSt.xDeliver_timeUmpire hkind _ _))
    · exact act_next h (DieSt.xTake_held hhas hflight hdone hblind hvoid hheld)
    · have hlate := (d.setXr r { c with done := true }).xLate_counts r
      refine ⟨_, act_next h (DieSt.xTake_void hhas hflight hdone hblind hvoid), s.sameElse_setDie x _, ?_⟩
      rw [State.die_setDie]
      refine ⟨hlate.xr.trans (d.xr_setXr r _), hlate.count.trans ?_, hlate.status, ?_⟩
      · rw [DieSt.setXr_f]
      · rw [DieSt.xLate_raised, DieSt.setXr_raised]
  case blind => exact fun hblind => act_next h (DieSt.xTake_blind hblind)
  case pulseDeliver =>
    intro hkind _ hused hflight hdone hvoid hblind hnext hpend
    refine act_next h ((DieSt.xTake_xReturn_pulse hhas hkind hused hflight hdone hvoid hblind hnext hpend).trans ?_)
    simp only [XSt.launch, XSt.drawn, XSt.returned, XSt.taken, c, hdone, hvoid, Bool.and_false]
  case returns =>
    intro hflight hdone hmet hhit hstill hnext hpend
    have hreturn := DieSt.xReturn_pushes hhas hflight hdone hmet hhit hstill hnext hpend
    refine ⟨fun hvoid hfull => act_next h (hreturn.trans ?_), fun hvoid hwait => act_next h (hreturn.trans ?_),
      fun v l hvoid hwait => act_next h (hreturn.trans ?_)⟩
    · rw [if_pos hvoid, XSt.returned_push_void hvoid hfull]
      rfl
    · rw [if_neg (Bool.eq_false_iff.1 hvoid), XSt.returned_push_empty hvoid hwait]
    · rw [if_neg (Bool.eq_false_iff.1 hvoid), XSt.returned_push_loads hvoid hwait]
      simp only [XSt.loaded, XSt.launch, c, hvoid]
  case pulse =>
    intro hpulse hreset hstill
    refine ⟨fun hflight => ?_, fun hflight hpend => ?_, fun hflight hpend => ?_, fun hflight hdone hpend hnext hhit hmet hsrc => ?_,
      fun hsrc => ?_⟩
    · exact act_next h ((if_pos rfl).trans <| DieSt.xPulse_goes hhas hpulse hreset hstill hflight)
    · exact act_next h ((if_pos rfl).trans <| DieSt.xPulse_counted hhas hpulse hreset hstill hflight hpend)
    · have hlost := d.xLost_counts r
      refine ⟨_, act_next h ((if_pos rfl).trans <| DieSt.xPulse_lost hhas hpulse hreset hstill hflight hpend),
        s.sameElse_setDie x _, ?_⟩
      rw [State.die_setDie]
      exact ⟨hlost.xr, hlost.status, hlost.count⟩
    · obtain ⟨e, he, hfull⟩ := DieSt.xPulse_xReturn_full hhas hpulse hreset hstill hflight hdone hpend hnext hhit hmet
      refine ⟨_, act_next h (e := d.setXr r e) (by simpa [hsrc] using he), s.sameElse_setDie x _, ?_⟩
      rw [State.die_setDie, DieSt.xr_setXr]
      exact ⟨hfull, d.setXr_regs r e⟩
    · refine act_next h ?_
      simp [hsrc]
  case meets =>
    exact fun hdue hblind hheld => act_next h ((if_neg (by simp [hdue])).trans (if_pos (by simpa [hblind] using hheld)))
  case timeout =>
    intro i hcfg hpos hlt hflight hdone hvoid hstill hsince hwait
    have hdue := DieSt.xDue_tens hcfg hpos hlt hhas hflight hdone hvoid hstill hsince
    have hout := ((d.seEmpties r).setXr r (c.expired (d.xStatus r 1))).xTimedOut_counts r
    refine ⟨_, act_next h ((if_neg (by simp [hdue])).trans ((if_neg (by simp)).trans (DieSt.xExpire_idle hwait))),
      s.sameElse_setDie x _, ?_⟩
    rw [State.die_setDie, hout.xr, DieSt.xr_setXr]
    refine ⟨rfl, rfl, hflight, rfl, rfl, hout.count.trans ?_, hout.status⟩
    rw [DieSt.setXr_f, DieSt.seEmpties_f]
  case source =>
    intro hsees hreset g
    refine ⟨_, act_next h (DieSt.xPeerReset_source hhas hsees hreset), s.sameElse_setDie x _, ?_⟩
    rw [State.die_setDie, DieSt.xSeen_xr, DieSt.xr_setXr]
    obtain ⟨hdone, hvoid⟩ := XSt.push_fresh (s := d.xCut r) (now := d.now) rfl rfl
    obtain ⟨hfull, hflight⟩ := XSt.push_flags (s := d.xCut r) (now := d.now) rfl
    refine ⟨XSt.push_dstHit, XSt.push_dstRst, XSt.push_pend, XSt.push_next, hvoid, hdone, hfull, hflight, fun hkind => ?_,
      fun hkind => ?_⟩
    · refine ⟨XSt.push_status.trans ?_, (DieSt.xSeen_counts _ hkind).count⟩
      rw [DieSt.xCut, XSt.peerLost, if_neg hkind]
    · rw [DieSt.xSeen_port hkind]
      refine ⟨rfl, XSt.push_status.trans ?_⟩
      rw [DieSt.xCut, XSt.peerLost, if_pos hkind, List.append_nil]
  case destination =>
    intro hsees hreset
    refine ⟨_, act_next h (DieSt.xPeerReset_destination hhas hsees hreset), s.sameElse_setDie x _, ?_⟩
    rw [State.die_setDie, DieSt.xSeen_xr, DieSt.xr_setXr]
    refine ⟨XSt.push_srcHit, XSt.push_srcRst, fun hkind => (DieSt.xSeen_counts _ hkind).count, fun hkind => ?_⟩
    rw [DieSt.xSeen_port hkind]
    rfl
  case sourceEnd =>
    intro hreset
    have hend := DieSt.xPeerEnd_pushes hhas (side := true) hreset
    exact ⟨fun hfull hflight => act_next h (hend.trans (congrArg (d.setXr r) (XSt.push_waits (s := c.peerBack true) hfull hflight))),
      fun hfull hflight => act_next h (hend.trans (congrArg (d.setXr r) (XSt.push_goes (s := c.peerBack true) hfull hflight)))⟩
  case destinationEnd =>
    intro hreset hfull hwait
    exact act_next h ((DieSt.xPeerEnd_pushes hhas (side := false) hreset).trans
      (congrArg (d.setXr r) (XSt.push_empty (s := c.peerBack false) hfull hwait)))
  case stillInReset => exact fun side hreset => act_next h (DieSt.xPeerEnd_inReset hreset)
  case config =>
    intro m k v ht hk
    have write {e : DieSt} {err : Bool} (hg : d.xCfgWrite k v = (e, err)) :
        exec (.xingCfgWrite x m k v) s = .next (s.setDie x (e.answer m 0 err)) :=
      act_next h ((if_pos hk).trans ((d.busDo_ok m (R.XING_CFG k) _ ht.2).trans (by rw [hg])))
    refine ⟨fun hmet hclass => ?_, fun hzero hclass hset hshort hunit => ?_, fun hmet => ?_⟩
    · exact write (DieSt.xCfgWrite_sets hmet hclass)
    · have hcount : bits v.toNat 15 0 = v.toNat % 2 ^ 16 := rfl
      have hinterval := xInterval_tens hunit
      exact write (DieSt.xCfgWrite_refuses (by simpa [xClass0Kind, or_assoc] using hzero) hclass (by omega) (by omega))
    · exact write (DieSt.xCfgWrite_metrology hmet)

end Sys2Proof.Machine
